-- ==== Sys2Proof/Word.lean ====
section
/-! DEFINITION. The word types of the EV-M16 model: bytes, 128-byte lines, and the little-endian layout of
multi-byte values on every wire and in every memory (R3). -/
namespace Sys2Proof

/-- One byte. -/
abbrev Byte := BitVec 8

/-- A line of 128 bytes; byte `j` lies in bits `8j+7..8j` (R3, the granule of the pool and of link payloads). -/
abbrev Line := BitVec 1024

/-- The 256-byte body of a flit (R350). -/
abbrev FlitBody := BitVec 2048

/-- A block of a lane's stream, with bit 0 sent first (R331, R333). -/
abbrev Blk := BitVec 66

/-- Marks in one watch (R5): 2^20. -/
abbrev watch : Nat := 1048576

end Sys2Proof
end

