-- ==== Sys2Proof/Syntax.lean ====
section
/-! DEFINITION. The commands of the block: one constructor of `Instr` for each row of spec/opcode_table.json,
with the operands the spec gives the row. Identifiers, counts and addresses are natural numbers as they arrive
(unclamped: the meaning clamps them, R108); contents of memory and of parameters are bytes and lines. -/
namespace Sys2Proof

/-- Where a KCP packet comes from and where its session's replies go (R122): an Ethernet port with the source's
MAC address, IP address and UDP port, or a link port with a source EID. -/
inductive Path where
  | eth (port mac ip udp : Nat)
  | link (port eid : Nat)
deriving DecidableEq, Repr

/-- A KCP packet (R94): the 20-byte header's fields, the parameter bytes that arrived, and the tag. `paramLen` is
the header's field and `got` counts the bytes that arrived after the 20-byte header; `spare1`, `spare16` are the reserved bits of byte
1 and of bytes 16 and 17 as they stand on the wire, which the tag covers (R448). -/
structure KcpPkt where
  version : Nat := 1
  type : Nat := 0
  unordered : Bool := false
  retry : Bool := false
  opcode : Nat
  session : Nat
  seq : Nat
  tenant : Nat
  paramLen : Nat
  params : List Byte
  got : Nat
  tag : Nat
  spare1 : Nat := 0
  spare16 : Nat := 0
deriving DecidableEq, Repr

/-- A KCP command as the command processor takes it from the ring (R107): the header fields of R94 and the
parameter bytes. -/
structure Cmd where
  session : Nat
  seq : Nat
  tenant : Nat
  unordered : Bool := false
  params : List Byte := []
deriving DecidableEq, Repr

/-- What the Ethernet port sees of a received frame that carries a KCP packet (R89, R91). `tagged` is the
IEEE 802.1Q tag's PCP and VID; `v6` tells IPv6 from IPv4; `dst` the destination address; `checksumZero` a UDP checksum
of zero, which is none. -/
structure EthInfo where
  port : Nat
  mac : Nat
  ip : Nat
  udp : Nat
  dstUdp : Nat
  v6 : Bool
  dst : Nat
  tagged : Option (Nat × Nat)
  fragmentOrOptions : Bool := false
  checksumOk : Bool := true
  checksumZero : Bool := false
deriving DecidableEq, Repr

/-- The 64-byte header of a Caltil Link packet (R361), field by field. -/
structure PktHdr where
  code : Nat := 0
  cls : Nat := 2
  epoch : Nat := 0
  mcast : Bool := false
  atype : Nat := 0
  poison : Bool := false
  sig : Bool := false
  barrier : Bool := false
  dst : Nat := 0
  src : Nat := 0
  tag : Nat := 0
  addr : Nat := 0
  granules : Nat := 0
  lines : Nat := 0
  status : Nat := 0
  state : Nat := 0
  answer : Nat := 0
  fwd : Bool := false
  any : Bool := false
  aop : Nat := 0
  knot : Nat := 0
  group : Nat := 0
  core : Nat := 0
  reqEid : Nat := 0
  reqTag : Nat := 0
  idem : Nat := 0
  mask : Nat := 0
deriving DecidableEq, Repr

/-- A transaction packet received whole on a port: the port, the header and the payload granules. -/
structure RxPkt where
  port : Nat
  hdr : PktHdr
  payload : List Line := []
deriving DecidableEq, Repr

/-- The outcome of the up to three fetches of one line from its strand (R417): `true` where the raw fetch brought
back what is stored, `false` where the channel damaged it. A missing entry counts as undamaged. -/
abbrev Fetches := List Bool

/-- A flit as received (R350): number, trailer credit, CRC and body. -/
structure Flit where
  seq : Nat
  credVc : Nat
  credN : Nat
  crc : Nat
  body : FlitBody
deriving DecidableEq, Repr

/-- The body of a link control flit (R355). -/
structure LinkCtl where
  ack : Nat
  nextSeq : Nat
  naks : List (Nat × Nat)
deriving DecidableEq, Repr

/-- A TRAIN, CHANGE or LOOP block (R336), field by field. -/
structure TrainBlk where
  type : Nat
  rate : Nat
  maxRate : Nat
  lane : Nat
  lanesOk : Nat
  width : Nat
  eid : Nat
  cls : Nat
  reqPre : Nat := 0
  reqMain : Nat := 0
  reqPost : Nat := 0
  statPre : Nat := 0
  statMain : Nat := 0
  statPost : Nat := 0
  ready : Bool
  kind : Nat := 0
  phase : Nat := 0
deriving DecidableEq, Repr

/-- A timing control block (R353), field by field. -/
structure TimingBlk where
  state : Nat
  fraction : Nat
  fmtLo : Nat
  pieceSel : Nat
  piece : Nat
deriving DecidableEq, Repr

/-- What an Announce message says of its sender and of the sender's grandmaster, as the best master clock algorithm
reads it (R60), and its announce interval as a power of two of seconds. -/
structure PtpAnn where
  priority1 : Nat := 128
  clockClass : Nat := 248
  accuracy : Nat := 0xFE
  variance : Nat := 0xFFFF
  priority2 : Nat := 128
  grandmaster : Nat
  stepsRemoved : Nat := 0
  identity : Nat
  portNumber : Nat := 1
  logInterval : Nat := 1
deriving DecidableEq, Repr

/-- A PTP message as the slave-only client of R60 handles it: its domain and transport, the clock that sent it, its
sequence number, and the timestamp it carries, with the correction field added. A two-step Sync carries none: its
Follow_Up does. `mac` and `ip` are its source addresses. `delayResp` answers this client's Delay_Req of that number. -/
inductive PtpMsg where
  | announce (domain transport : Nat) (a : PtpAnn)
  | sync (domain transport identity seq : Nat) (twoStep : Bool) (seconds nanoseconds mac ip : Nat)
  | followUp (domain transport identity seq seconds nanoseconds : Nat)
  | delayResp (domain transport identity seq seconds nanoseconds : Nat)
  | other
deriving DecidableEq, Repr

/-- A page-swap frame (R191). -/
structure SwapFrm where
  session : Nat
  transfer : Nat
  chunk : Nat
  type : Nat
  cookie : Nat
  data : List Byte
  tag : Nat
  spare11 : Nat := 0
  spare24 : Nat := 0
deriving DecidableEq, Repr

/-- What one flash copy holds as the boot ROM reads it (R455, R456): the two stages' images, each with the signature of 64 bytes that
it verifies by, the public key they verify under, and the control firmware's version. -/
structure FlashCopy where
  key : Nat
  bootImage : List Byte
  bootSig : Nat
  controlImage : List Byte
  controlSig : Nat
  version : Nat
deriving DecidableEq, Repr

/-- Readings of one quadrant's sensors over the marks that R543 counts: hottest die, hottest stack, amperes. -/
structure Thermal where
  die : Nat
  stack : Nat
  amps : Nat
deriving DecidableEq, Repr

/-- The kinds of unit that are bound (R130). -/
inductive UnitKind where
  | strand | engine | coilWay | port | eid | knots | faultQueue
deriving DecidableEq, Repr

/-- A firmware frame on the control mesh (R470). -/
structure ImgChunk where
  core : Nat
  chunk : Nat
  data : List Byte
  digest : Nat
deriving DecidableEq, Repr

/-- The commands of the block, one constructor for each row of spec/opcode_table.json. -/
inductive Instr where
  -- board
  | powerOnBoot (a b : FlashCopy)
  | deviceResetInput (pwrGood resetN : Bool)
  | sysrefStop
  | linkrefStop (q : Nat)
  | ethrefStop (n : Nat)
  | railFault (rail : Nat)
  | thermalTrip (isStack : Bool) (unit temp : Nat)
  | throttleLevelRise (q : Option Nat) (t : Thermal)
  | throttleLevelFall (q : Nat) (t : Thermal)
  | refreshRateChange (stack temp : Nat)
  | smbusBlockRead (code : Nat) (write : Bool)
  -- KCP and Ethernet
  | kcpPacketReceived (path : Path) (info : Option EthInfo) (pkt : KcpPkt)
  | unknownOpcode (c : Cmd) (opcode : Nat)
  | eventAcknowledgement (path : Path) (pkt : KcpPkt)
  | eventResend (session : Nat)
  | sessionIdleTimeout (session : Nat)
  | sessionOpenTimeout (session : Nat)
  | arpRequest (port target mac : Nat)
  | neighbourSolicitation (port target mac : Nat)
  | ethFrameDiscard (info : EthInfo)
  | ptpMessage (port : Nat) (m : PtpMsg)
  | swapFrame (info : EthInfo) (f : SwapFrm)
  | nop (c : Cmd)
  | openSession (path : Path) (c : Cmd)
  | closeSession (c : Cmd)
  | readRegs (c : Cmd)
  | writeRegs (c : Cmd)
  | registerWrite (offset value mask : Nat)
  | liveWriteApply (offset lo : Nat)
  | edgeWriteApply (offset lo : Nat)
  | heldWriteApply (offset lo : Nat)
  | knotArm (knot cfg : Nat)
  | knotDisarm (knot cfg : Nat)
  | knotClear (knot : Nat)
  | flipArmNextWrite (strand : Nat)
  | flipArmNextRead (strand : Nat)
  | flipDisarm (strand : Nat)
  | fbarDisable (group : Nat)
  | endOfInterrupt (core source : Nat)
  | discover (c : Cmd)
  | subscribeEvents (c : Cmd)
  -- bring-up commands
  | checkPower (c : Cmd) (temps : List Nat)
  | lockClocks (c : Cmd)
  | trainStrands (c : Cmd)
  | strandPattern (c : Cmd)
  | runStartupTest (c : Cmd)
  | loadImage (c : Cmd)
  | commitImage (c : Cmd)
  | resetScope (c : Cmd)
  -- binding
  | bindStrand (c : Cmd)
  | bindEngine (c : Cmd)
  | bindCoilWay (c : Cmd)
  | bindPort (c : Cmd)
  | bindEid (c : Cmd)
  | bindKnots (c : Cmd)
  | bindFaultQueue (c : Cmd)
  | bindStepComplete (kind : UnitKind) (unit : Nat)
  | grantExtent (c : Cmd)
  | revokeExtent (c : Cmd)
  | revokeDrainDeadline (base : Nat)
  | revokeFinalDeadline (base : Nat)
  | setSealed (c : Cmd)
  | sealingEffective (tenant : Nat)
  | unsealingEffective (tenant : Nat)
  | enrollTenant (c : Cmd)
  | readExtents (c : Cmd)
  -- translation
  | setTableRoot (c : Cmd)
  | invalidate (c : Cmd)
  | pinTranslation (c : Cmd)
  | unpinTranslation (c : Cmd)
  | tableWalkComplete (quadrant tenant tva : Nat)
  | faultPostedEvent (queue : Nat)
  | faultRecordDrain (queue : Nat)
  | faultRecordAllocate (tenant : Nat)
  | resumeFault (c : Cmd)
  | pageOut (c : Cmd)
  | pageIn (c : Cmd)
  | swapResendTimer (transfer : Nat)
  | swapTransferTimeout (transfer : Nat)
  -- engines
  | loadProgram (c : Cmd)
  | loadChain (c : Cmd)
  | submit (c : Cmd)
  | cancel (c : Cmd)
  | restart (c : Cmd)
  | shareTakesContext (core : Nat)
  | tileTranslate (core ctx : Nat)
  | engineReadResponse (core ctx k : Nat) (f : Fetches)
  | engineWriteAck (core ctx : Nat)
  | arithSliceEnd (core : Nat) (badLine : Option Nat)
  | scratchRecomputeComplete (core ctx : Nat)
  | mergeListsReceived (core ctx child : Nat)
  | engineBankSwitch (core : Nat)
  -- synchronisation
  | knotRead (c : Cmd)
  | knotSet (c : Cmd)
  | configureBarrier (c : Cmd)
  | knotIncrement (knot n : Nat)
  | bightLineRise (line : Nat)
  | gateTimeout (core ctx : Nat)
  | fbarArrival (rx : RxPkt)
  | fbarRelease (rx : RxPkt)
  -- lanes
  | bringUpLink (c : Cmd)
  | retrainPort (c : Cmd)
  | setPortWidth (c : Cmd)
  | runLoopback (c : Cmd)
  | runPrbs (c : Cmd)
  | prbsTestEnd (lane : Nat) (received : List (List Bool))
  | loopbackTestEnd (lane : Nat) (received : List (List Bool))
  | codewordLockAcquired (lane : Nat)
  | codewordLockLost (lane : Nat)
  | blockLockAcquired (lane : Nat)
  | blockLockLost (lane : Nat)
  | markerBlock (lane : Nat) (w : Blk) (place : Nat) (decoded : List (Option Nat))
  | trainBlockReceived (lane : Nat) (w : Blk) (eyeOpen : Bool) (wants : Nat × Nat × Nat)
  | verifyEnd (port : Nat)
  | trainPhaseTimeout (port : Nat)
  | rateStep (port : Nat)
  | autoRetrain (port : Nat)
  | changeBlock (port : Nat) (w : Blk) (own : Bool)
  | changeAnswerTimeout (port : Nat)
  | changeBackoff (port : Nat)
  | newLanesTimeout (port : Nat)
  | widthSwitch (port : Nat)
  | loopBlock (lane : Nat) (w : Blk)
  -- link layer
  | badFlit (port : Nat)
  | sequencedFlit (port : Nat) (blocks : List Blk)
  | linkCtlFlit (port : Nat) (m : LinkCtl)
  | abortFlit (port : Nat) (seq : Nat)
  | nakWaitExpiry (port : Nat)
  | ackInterval (port : Nat)
  | ackKeepalive (port : Nat)
  | ackTimeout (port : Nat)
  | linkSilence (port : Nat)
  | transmitFlit (port : Nat)
  | creditNullPacket (port : Nat)
  -- time
  | timingBlockReceived (port : Nat) (w : Blk) (inBadCodeword : Bool)
  | timingBlockTransmit (port : Nat)
  | holdoverEntry
  | holdoverExpiry
  | timeStateChange
  | admissionWindowBoundary
  | markLeaderChange
  -- transactions
  | load (rx : RxPkt)
  | readShared (rx : RxPkt)
  | readOwn (rx : RxPkt)
  | store (rx : RxPkt)
  | storeMasked (rx : RxPkt)
  | writeback (rx : RxPkt)
  | evictClean (rx : RxPkt)
  | atomic (rx : RxPkt)
  | bulkCopy (rx : RxPkt)
  | signal (rx : RxPkt)
  | grantAck (rx : RxPkt)
  | snpAck (rx : RxPkt)
  | snpData (rx : RxPkt)
  | data (rx : RxPkt)
  | completion (rx : RxPkt)
  | homeRequestResume (line : Nat) (upset : Bool)
  | snoopTimeout (line eid : Nat)
  | grantAckTimeout (line : Nat)
  | idemRecordExpiry (quadrant eid tag : Nat)
  | lineFetchComplete (line : Nat) (f : Fetches)
  -- switch
  | packetSwitched (rx : RxPkt)
  | mcastReplicate (rx : RxPkt)
  | fwdRecordTimeout (port src tag : Nat)
  | mcastAckTimeout (tag : Nat)
  | loadRoutes (c : Cmd)
  | flipRouteEpoch (c : Cmd)
  | routeEpochFlipApply
  | routeDrained
  | setMcastGroup (c : Cmd)
  | readCongestionMap (c : Cmd)
  | congestionMapLatch
  -- strands
  | refreshCommand (strand bank : Nat)
  | refreshWindowStart (strand bank : Nat)
  | neighbourRefresh (strand bank row : Nat)
  | scrubRead (strand : Nat) (f : Fetches)
  -- security
  | getAttestation (c : Cmd)
  | sealExtent (c : Cmd)
  | sealHashComplete (base : Nat)
  | loadExtension (c : Cmd)
  | setPortKey (c : Cmd)
  | rngHealthFail
  | measurementStoreFault
  -- errors, counters, interrupts
  | readErrors (c : Cmd)
  | clearFirstError (c : Cmd)
  | interruptDelivery (source : Nat)
  | readCounters (c : Cmd)
  | readTrace (c : Cmd)
  | readAudit (c : Cmd)
  | auditDiscrepancy (kind unit vc : Nat)
  -- global stop
  | haltAtMark (c : Cmd)
  | haltMarkReached
  | landingClose
  | resume (c : Cmd)
  | resumeAtMark
  -- command processor pair
  | forceFailover (c : Cmd)
  | readHealth (c : Cmd)
  | heartbeatSend
  | heartbeatReceived (core path : Nat)
  | heartbeatPathSilent (core path : Nat)
  | failoverTakeover
  | fenceClose
  | standbySelftest (passed : Bool)
  | controlStall
  -- engine firmware
  | imageStartFrame (core : Nat)
  | imageChunkFrame (f : ImgChunk)
  | imageEndFrame (core : Nat)
  | imageBitmapReceived (core missing : Nat)
  | imageConfirm (core : Nat)
  | imageBitmapTimeout (core : Nat)
  | imageLoadDeadline
  -- failures and resets
  | rehomeComplete (core : Nat) (passed : Bool)
  | resetSettled (scope target : Nat)
  | resetRestored (scope target : Nat) (failed : List Nat)
  | deviceScopeReset
  | clocksLocked (locked : Nat)
  | strandsTrained (failed : List Nat)
  | strandPatternComplete (damage other : List (Nat × Line)) (spareDamage spareOther : List (Nat × Nat))
  | startupTestComplete (found : List (Nat × Nat))
  | rngHealthPass
  | strandSliceFault (strand : Nat)
  | engineLogicFault (core : Nat)
  | switchLogicFault (quadrant : Nat)
  | controlMeshFault
deriving DecidableEq, Repr

end Sys2Proof
end

