-- ==== Sys2Proof/Config.lean ====
section
/-! DEFINITION. What one part fixes and what the spec leaves open. Every constant here is opaque: no proof sees a
value of it, so a claim that mentions one holds whatever it is. The log entries named in the docstrings say which
rule leaves each open. -/
namespace Sys2Proof.Config

/-- Free values drawn in order: the next draw is this function of State.draws (log entry 3). -/
opaque free : Nat → Nat

/-- DEV_ID.STEPPING_MAJOR and STEPPING_MINOR, four bits each: per die (R49). -/
opaque steppingMajor : Nat
opaque steppingMinor : Nat

/-- The fused MAC address of an Ethernet port (R93). -/
opaque mac : Nat → Nat

/-- The operator's fused credential as 64 bytes on the wire (R444), the part's SM2 identity public key (R428), the DER bytes of the
leaf certificate, which depend on part code, serial number and the identity key it binds, of Varvia's certificate, and the serial
(R429). -/
opaque operatorKey : Nat
opaque identityPublic : Nat × Nat
opaque leafCert : Nat → Nat → Nat × Nat → List Byte
opaque issuerCert : List Byte
opaque serial : Nat

/-- The Varvia firmware key (R431). -/
opaque firmwareKey : Nat

/-- SM3, its 32 bytes in the order SM3 outputs them as one number, first byte highest; and SM4, one block encrypted and decrypted
under a key: the standards that the spec names, uninterpreted here (log entry 4). -/
opaque sm3 : List Byte → BitVec 256
opaque sm4 : BitVec 128 → BitVec 128 → BitVec 128
opaque sm4Inv : BitVec 128 → BitVec 128 → BitVec 128

/-- SM2: whether x and y are a point of the curve, whether r and s over a digest verify under a public key, the signature of the
identity key over a digest with a drawn nonce, and of the key exchange of R446: the device's ephemeral public key for its draw, the
point V shared with a static and an ephemeral key of the host, and what precedes the public key in Z_A and Z_B (log entry 4). -/
opaque onCurve : Nat → Nat → Bool
opaque sm2Verify : Nat × Nat → Nat → Nat → Nat → Bool
opaque sm2Sign : Nat → Nat → Nat × Nat
opaque ephemeralPoint : Nat → Nat × Nat
opaque sharedPoint : Nat × Nat → Nat × Nat → Nat → Nat × Nat
opaque zPrefix : Bool → List Byte

/-- R137: whether a line not written under the strand's current key passes its check by chance, and what it then
reads as, by line and binding number (log entry 5). -/
opaque strayPass : Nat → Nat → Bool
opaque strayData : Nat → Nat → Line

/-- COSINE (R286): whether the product, the square root and the quotient, steps 0 to 2, are rounded up in magnitude, which
R286 does not state, and the score where there is no finite quotient, from the three sums as binary32 bit patterns (log
entry 6). -/
opaque cosineUp : Nat → Nat → Nat → Nat → Bool
opaque cosine : Nat → Nat → Nat → Nat

/-- R214, R508: the 16-bit check of a directory entry, how its AGE follows from the order of allocation, and which entry
stands at a place of a slice (log entry 13). -/
opaque dirCheck : Nat → Nat
opaque dirAge : Nat → Nat → Nat
opaque dirRank : Nat → Nat → Nat

/-- R331, R336, R348: what the spec does not say of RS(544,514) and of the pattern generators: the field's reduction
polynomial below x^10, the power at which the code's roots begin, and the register that a lane's generator starts from
(log entry 139). -/
opaque fecField : Nat
opaque fecRoot : Nat
opaque prbsSeed : Nat → Nat

end Sys2Proof.Config
end

