-- ==== Sys2Proof/Machine/State.lean ====
section
/-! DEFINITION. The state of the EV-M16 block as plain data: every register, queue, buffer, counter, mode and pin the
spec gives the device, the queue of waiting commands, and the log of what has left the device. Tables are lists of
(key, value) pairs in ascending key order that list only the entries that differ from the table's default. -/
namespace Sys2Proof.Machine

/-- A sparse table: keys strictly rising, no entry equal to the table's default. -/
abbrev Tbl (α : Type) := List (Nat × α)

/-! ### What leaves the device -/

/-- A firmware frame the command processor sends on the control mesh (R470). -/
inductive MeshFrame where
  | start (length digest : Nat)
  | chunk (core : Option Nat) (index : Nat)
  | fin
  | askBitmap (core : Nat)
  | bitmap (core : Nat) (missing : Nat)
  | confirm (core : Nat)
deriving DecidableEq, Repr

/-- The frame in which a datagram leaves an Ethernet port (R90, R91, R116, R122): addresses and UDP ports of both ends,
IEEE 802.1Q tag, and Don't Fragment. -/
structure EthTx where
  srcMac : Nat
  srcIp : Nat
  srcUdp : Nat
  dstMac : Nat
  dstIp : Nat
  dstUdp : Nat
  pcp : Nat
  vid : Nat
  dontFragment : Bool
deriving DecidableEq, Repr

/-- One thing that leaves the device (or, for mesh frames, a block of it), in the order it leaves. -/
inductive Out where
  /-- A KCP reply or event packet on a path, with its tag (R95, R96, R121, R122), and its frame on an Ethernet path. -/
  | kcp (path : Path) (frame : Option EthTx) (pkt : KcpPkt)
  /-- A flit sent on a port, as it stands on the wire (R350). -/
  | flit (port : Nat) (f : Flit)
  /-- A control block that stands in a lane's stream: TRAIN, CHANGE, LOOP or timing (R336, R353). -/
  | block (lane : Nat) (w : Blk)
  /-- Pattern bits sent raw on a lane for a test (R348): pattern, register that the generator starts from, and bits. -/
  | pattern (lane rate : Nat) (p13 : Bool) (start count : Nat)
  /-- A page-swap frame on an Ethernet port (R191). -/
  | swap (port : Nat) (frame : EthTx) (f : SwapFrm)
  /-- An ARP reply or a Neighbour Advertisement (R89, R91). -/
  | arpReply (port addr mac dest : Nat)
  | neighbourAdvertisement (port addr mac dest : Nat)
  /-- A PTP Delay_Req (R60, R91): the port, its MAC address, the address it goes to, and its number; over UDP the frame of
  its datagram. -/
  | ptpDelayReq (port mac dest seq : Nat) (frame : Option EthTx)
  /-- An SMBus Block Read answer with PEC, or a NACK (R551). -/
  | smbus (value : Nat)
  | smbusNack
  /-- Mesh frames of a firmware load (R470) and heartbeats (R498): the core, the path, and on the mesh the core's role, 1 for
  the active one. -/
  | mesh (f : MeshFrame)
  | heartbeat (core path role : Nat)
deriving DecidableEq, Repr

/-! ### Time (R52 to R69) -/

/-- TIME_STATUS.STATE (R64): 0 UNSET, 1 LOCKED, 2 HOLDOVER, 3 LOST. -/
inductive TState where
  | unset | locked | holdover | lost
deriving DecidableEq, Repr

/-- A Sync of the selected master on its way to an update: its sender, its number, the mark count of its arrival in
1/256 mark, and its timestamp as fabric time once it is known. -/
structure PtpSync where
  identity : Nat
  seq : Nat
  received : Nat
  origin : Option Nat := none
deriving DecidableEq, Repr

/-- The PTP client (R60, R61): the masters heard, with the Ethernet port and the mark of their last Announce, the Sync and the Delay_Req in
progress, and the path delay that the last exchange yielded, with its master, in 1/256 mark. -/
structure PtpSt where
  masters : List (PtpAnn × Nat × Nat) := []
  lastSync : Option PtpSync := none
  requestSeq : Nat := 0
  /-- Mark count in 1/256 mark at which the last Delay_Req left. -/
  requestAt : Option Nat := none
  delay : Option (Nat × Nat) := none
deriving DecidableEq, Repr

/-- The timing unit and the mark counters. `pos` is FMT in 1/66,560 mark, the unit in which both the 1/1,024 trim and
the 65 ns marks of R66 are whole; FMT and its fraction are read from it. -/
structure TimeSt where
  lmc : Nat := 0
  /-- LMC marks that passed in a global stop and count toward no paused timeout (R506). -/
  stopped : Nat := 0
  pos : Nat := 0
  st : TState := .unset
  next : Option TState := none
  /-- The first mark of FMT at whose boundary `next` takes effect (R68). -/
  nextAt : Nat := 0
  srcHoldover : Bool := false
  admitOpen : Bool := false
  /-- Admission waits for the first window boundary after entry into LOCKED (R68). -/
  openAtWindow : Bool := false
  rejects : Nat := 0
  fmtHiLatch : Nat := 0
  lmcHiLatch : Nat := 0
  lastAccept : Nat := 0
  prevUpd : Option (Nat × Nat) := none
  goodRun : Nat := 0
  badRun : Nat := 0
  /-- Rate trim in 1/66,560 mark per mark, from -65 to 65; `slow` selects the 65 ns marks of LOST (R66). -/
  trim : Int := 0
  slow : Bool := false
  window : Nat := 0
  winAdmitted : Tbl Nat := []
  winRefused : Tbl Nat := []
  /-- Receiver of R354: the pieces seen so far, the high word when built, the last FMT_LO, the run's length. -/
  rxPieces : List (Nat × Nat) := []
  rxHigh : Option Nat := none
  rxLo : Option Nat := none
  txPiece : Tbl Nat := []
  ptp : PtpSt := {}
  /-- Leader among the mark counters (R39); 4 is the timing unit's own copy. -/
  leader : Nat := 0
  /-- Quadrants whose counter follows since its partition reset, with the mark in which they returned. -/
  following : List (Nat × Nat) := []
deriving DecidableEq, Repr

/-! ### KCP (R89 to R126) -/

/-- A frozen attestation report of a session (R439). -/
structure Report where
  nonce : Nat
  scope : Nat
  select : Nat
  bytes : List Byte
deriving DecidableEq, Repr

/-- A session (R98 to R104, R121, R122). `applied` lists the applied numbers at or above `base`. -/
structure Session where
  id : Nat
  tenant : Nat
  cred : Nat
  tagKey : Nat
  wrapKey : Nat
  path : Path
  isOpen : Bool := false
  openedAt : Nat := 0
  lastAt : Nat := 0
  base : Nat := 1
  applied : List Nat := []
  /-- The last 64 replies, newest first, by sequence number. -/
  replies : List (Nat × KcpPkt) := []
  mask : Nat := 0x380
  nextEvent : Nat := 1
  unacked : List KcpPkt := []
  lost : Nat := 0
  resendAt : Nat := 0
  /-- Control core of the extension module that holds the session (R453). -/
  module : Option Nat := none
  report : Option Report := none
deriving DecidableEq, Repr

/-- An entry of the command ring (R106): placed and not yet taken. -/
structure RingEntry where
  path : Path
  pkt : KcpPkt
  /-- The tenant whose places on the ring the entry takes: of its session, or of the OPEN_SESSION (R106). -/
  tenant : Nat
  parked : Bool
deriving DecidableEq, Repr

/-- A run of STRAND_PATTERN (R425): its strand, rows, banks and parameters. -/
structure PatternRun where
  strand : Nat
  row : Nat
  rows : Nat
  mask : Nat
  pattern : Nat
  seed : Nat
  user : Line
deriving DecidableEq, Repr

/-- What a command that was taken and has not replied waits for. -/
inductive Wait where
  /-- Bind steps of units not yet finished (R130). -/
  | bind (kind : UnitKind) (units : List Nat) (done : Nat) (degraded : Bool)
  | revoke (base : Nat)
  | clocks (quadrants : Nat)
  | train (first count steps : Nat) (quick : Bool)
  | pattern (run : PatternRun) (action : Nat)
  | startup
  | image
  | reset (scope target absorbed : Nat)
  | port (port : Nat)
  | width (port : Nat)
  | retrain (port : Nat)
  | test (first count rate deadline : Nat) (loop : Option Nat) (p13 : Bool) (dur : Nat) (granted : List Nat)
  | flip (version : Nat)
  | load (version : Nat)
  | resume
  | cancel (originSeq : Nat) (shares : List Nat) (count : Nat)
deriving DecidableEq, Repr

/-- A command taken and not yet replied to: the packet's identity, its echoed parameter map, and what it waits for. -/
structure Running where
  session : Nat
  seq : Nat
  tenant : Nat
  opcode : Nat
  ordered : Bool
  echo : List Byte
  wait : Wait
deriving DecidableEq, Repr

/-- A step of a command (R499): one entry of WRITE_REGS, one unit's bind step, one core's queueing, a knot's change by
KNOT_SET, the start of a firmware broadcast, a read of a register that clears, and any other effect that KCP shows. -/
inductive JStep where
  | effect
  | entry (index : Nat)
  | bind (kind : UnitKind) (unit : Nat)
  | queue (core : Nat)
  | knot (knot : Nat)
  | broadcast
  | clearing (offset : Nat)
deriving DecidableEq, Repr

/-- A journal record (R499), in the ring entry of its command: the step, whether it is a once step, which the record then
claims, and the value read by a read that clears. -/
structure JournalRec where
  session : Nat
  seq : Nat
  step : JStep
  once : Bool := false
  value : Nat := 0
deriving DecidableEq, Repr

structure KcpSt where
  ring : List RingEntry := []
  /-- The command journal (R497, R499): records of the commands taken and not yet replied to, oldest first. -/
  journal : List JournalRec := []
  sessions : List Session := []
  usedIds : List Nat := []
  running : List Running := []
  /-- Ethernet ports taken down by a stopped reference clock or rail (R541, R548). -/
  ethDown : List Nat := []
  /-- The tenant that the round-robin of R107 served last. -/
  lastTenant : Nat := 0
deriving DecidableEq, Repr

/-! ### Tenancy (R127 to R159) -/

/-- STATE of a binding-table entry (R139). -/
inductive BindState where
  | unbound | bound | stepping | lost
deriving DecidableEq, Repr

/-- An entry of a binding table (R139), with the outcome of the step in progress. -/
structure BindEnt where
  st : BindState := .unbound
  shared : Bool := false
  epoch : Nat := 0
  tenant : Nat := 0
  newTenant : Nat := 0
  unbind : Bool := false
  newShared : Bool := false
  /-- A LOST unit keeps showing STATE 3 (R132, R475). -/
  isLost : Bool := false
deriving DecidableEq, Repr

/-- State of an extent (R146); FREE is absence from the table. -/
inductive ExtState where
  | granted | draining | dropping
deriving DecidableEq, Repr

/-- A seal of an extent in progress or made (R434 to R437). -/
structure Seal where
  session : Nat
  seq : Nat
  length : Nat
  sealedAt : Option Nat := none
  digest : Nat := 0
deriving DecidableEq, Repr

/-- A revocation in progress (R145, R146): its deadlines in pausable LMC marks and its counts. -/
structure Revocation where
  graceful : Bool
  drainAt : Nat
  finalAt : Nat
  poisoned : Nat := 0
  revoked : Nat := 0
  drained : Bool := false
deriving DecidableEq, Repr

/-- An extent (R140 to R148). -/
structure Extent where
  base : Nat
  granules : Nat
  tenant : Nat
  st : ExtState := .granted
  revocation : Option Revocation := none
  sealing : Option Seal := none
deriving DecidableEq, Repr

structure BindSt where
  strand : Tbl BindEnt := []
  engine : Tbl BindEnt := []
  coilWay : Tbl BindEnt := []
  port : Tbl BindEnt := []
  eid : Tbl BindEnt := []
  knots : Tbl BindEnt := []
  faultQueue : Tbl BindEnt := []
  extents : List Extent := []
  /-- SEAL_CFG (R155): slots in force by tenant, and slots asked for with the mark before which they do not apply. -/
  sealSlots : Tbl Nat := []
  sealPending : Tbl (Nat × Nat) := []
  unsealPending : Tbl Nat := []
deriving DecidableEq, Repr

/-! ### Translation, faults, swapping (R160 to R193) -/

/-- A tenant's table root (R169, R558). -/
structure Root where
  ppa : Nat
  enable : Bool
  engineQueue : Nat
  linkQueue : Nat
deriving DecidableEq, Repr

/-- An entry of a translation cache (R170): a leaf or non-leaf entry of one quadrant's slice of one tenant. -/
structure CacheEnt where
  quadrant : Nat
  tenant : Nat
  base : Nat
  size : Nat
  level : Nat
  leaf : Bool
  ppa : Nat
  writable : Bool
  pinned : Bool := false
deriving DecidableEq, Repr

/-- What the device settles about a packet as its header comes in, before its command is taken: what is looked up at the
header (R380, R387), the binding that it falls under (R134, R139), and the mark and the bound that judge it (R77, R86). -/
structure Arrival where
  /-- LMC mark of its last flit, once that is there; P1_BIND.BOUND of its tenant in that mark. -/
  mark : Nat
  bound : Nat
  /-- The tenant of its source EID, and whether its port carries it (R135). -/
  tenant : Nat
  carried : Bool
  /-- The egress port that the table of its EPOCH names, and the mask of its group. -/
  route : Option Nat
  mask : Nat
  /-- Its number among the packets received, by which its place in the receive buffer is known (R207, R387). -/
  place : Nat
  /-- Lines of it that have crossed the quadrant network or a bridge in turn with other sources (R36, R73). -/
  crossed : Nat := 0
  /-- It is being sent on before its last flit is there (R381). -/
  started : Bool := false
  /-- Its credits are owed to the partner: no longer once the port was lost (R369). -/
  credited : Bool := true
  /-- Flits of it, while it is still arriving, that have left with their credits owed already (R364). -/
  freed : Nat := 0
deriving DecidableEq, Repr

/-- Who waits for a translation walk. -/
inductive Waiter where
  | link (rx : RxPkt) (arrival : Arrival) (pair : Option Nat)
  | engine (core ctx : Nat)
deriving DecidableEq, Repr

/-- A walk in progress (R166, R174). -/
structure Walk where
  quadrant : Nat
  tenant : Nat
  tva : Nat
  access : Nat
  noFill : Bool := false
  waiters : List Waiter := []
deriving DecidableEq, Repr

/-- A fault record (R181) as data. -/
structure FaultRec where
  id : Nat
  cause : Nat
  source : Nat
  access : Nat
  level : Nat
  tva : Nat
  fmt : Nat
  entry : Nat
  waiters : Nat := 0
  tileOffset : Nat := 0
  core : Nat := 0xFFFF
  ctx : Nat := 0
  retry : Nat := 0
  srcEid : Nat := 0xFFFF
  originSeq : Nat := 0
  originSession : Nat := 0
  restart : List Byte := []
deriving DecidableEq, Repr

/-- An open record (R182): its tenant, key, queue, whether it has been written, and the contexts waiting. -/
structure OpenRec where
  tenant : Nat
  queue : Nat
  record : FaultRec
  written : Bool
  waiting : List (Nat × Nat)
deriving DecidableEq, Repr

/-- An engine fault that waits on chip for one of the tenant's 64 records (R183). -/
structure WaitingFault where
  tenant : Nat
  core : Nat
  ctx : Nat
  record : FaultRec
deriving DecidableEq, Repr

/-- What the hardware holds of a fault queue beside its registers (R179, R180). -/
structure FaultQ where
  tail : Nat := 0
  phase : Nat := 1
  badRing : Bool := false
  /-- FMT of the first record written since the last FAULT_POSTED. -/
  postedAt : Option Nat := none
deriving DecidableEq, Repr

/-- A page swap (R188 to R193). -/
structure Transfer where
  id : Nat
  session : Nat
  seq : Nat
  tenant : Nat
  isOut : Bool
  tva : Nat
  size : Nat
  ethernet : Bool
  path : Path
  signal : Bool
  knot : Nat
  hostUdp : Nat
  fabric : Nat
  cookie : Nat
  ppas : List Nat
  /-- Chunks (1,024 B) written to their destination, chunks sent, outstanding link requests (tag, chunk). -/
  done : List Nat := []
  sent : Nat := 0
  outstanding : List (Nat × Nat) := []
  /-- Chunks that the last bitmap of a PAGE_IN showed. -/
  acked : List Nat := []
  lastVerified : Nat := 0
  lastNew : Nat := 0
  /-- Swap frames beyond `sent` that the link path still has to issue. -/
  ended : Bool := false
deriving DecidableEq, Repr

structure XlatSt where
  roots : Tbl (Option Root) := []
  cache : List CacheEnt := []
  walks : List Walk := []
  queues : Tbl FaultQ := []
  openRecs : List OpenRec := []
  waitingFaults : List WaitingFault := []
  nextRecord : Tbl Nat := []
  retries : Tbl Nat := []
  transfers : List Transfer := []
  nextTransfer : Nat := 1
deriving DecidableEq, Repr

/-! ### Home: directory, trackers, line operations (R194 to R229, R372) -/

/-- Who made a request. -/
inductive Requester where
  | link (port eid tag : Nat)
  | engine (core ctx : Nat)
  | swap (transfer : Nat)
  | walker
deriving DecidableEq, Repr

/-- A home tracker (R200): one request, the lines it still waits for, what it has gathered, its bookings (R77). -/
structure Tracker where
  id : Nat
  /-- Number of its packet among the packets received, by which R206 orders. -/
  order : Nat := 0
  who : Requester
  hdr : PktHdr
  tenant : Nat
  quadrant : Nat
  /-- The packet's class after R363. -/
  p1 : Bool
  bound : Nat := 0
  arrived : Nat := 0
  lastMark : Nat := 0
  remaining : Nat
  lines : List (Nat × Line) := []
  status : Nat := 0
  state : Nat := 0
  old : Nat := 0
  /-- The response is answered by the owner itself (FWD_DATA), so the home sends none. -/
  forwarded : Bool := false
  outside : Bool := false
  strandBook : List (Nat × Nat) := []
  egressBook : List (Nat × Nat) := []
  egressPort : Nat := 0
  granted : Bool := false
  pair : Option Nat := none
  /-- First line of the request, and the address it was made with (R198, R226). -/
  firstLine : Nat := 0
  payload : List Line := []
deriving DecidableEq, Repr

/-- What a request does to one line at its home (R221). -/
inductive LineOp where
  | read
  | readShared
  | readOwn
  | write (data : Line)
  | masked (data : Line) (mask : Nat)
  | atomic (aop offset a cmp : Nat)
  /-- WRITEBACK (with its data and POISON) or EVICT_CLEAN. -/
  | release (data : Option Line) (poison : Bool)
deriving DecidableEq, Repr

/-- One line's part of a request. -/
structure Job where
  tracker : Nat
  line : Nat
  op : LineOp
deriving DecidableEq, Repr

/-- A snoop outstanding to one EID for one line (R219, R224, R225). -/
structure Snoop where
  eid : Nat
  code : Nat
  tag : Nat
  sentAt : Nat
  /-- Answer code of R219. -/
  answer : Option Nat := none
  /-- Data of an SNP_DATA, and its POISON. -/
  data : Option (Line × Bool) := none
  /-- The WRITEBACK or EVICT_CLEAN of a crossing has arrived (R224). -/
  released : Bool := false
  /-- The EID has been granted the line again meanwhile, and stays in its entry. -/
  keeps : Bool := false
deriving DecidableEq, Repr

/-- Why a line is busy: a fetch from the strand (R405), snoops (R221), or a grant not yet acknowledged (R212). -/
inductive LinePhase where
  | fetching
  | snooping (snoops : List Snoop)
  | granting (eid tag since : Nat)
  /-- Snoops of a recall (bind step, revocation, seal, directory check, eviction) with no request behind them. -/
  | recalling (snoops : List Snoop)
deriving DecidableEq, Repr

/-- A busy line: the job in progress, its phase, and the jobs queued behind it (R221). -/
structure BusyLine where
  line : Nat
  job : Option Job
  phase : LinePhase
  /-- Snoops still outstanding beside a grant (the crossing of R224). -/
  owed : List Snoop := []
  queue : List Job := []
  discard : Bool := false
  /-- EIDs whose recall waits until the grant of the line is acknowledged (R134, R212). -/
  recalls : List Nat := []
deriving DecidableEq, Repr

/-- Mode of a directory entry (R209). -/
inductive DirMode where
  | shared | owned | broadcast
deriving DecidableEq, Repr

/-- A directory entry (R214), found by its line. -/
structure DirEnt where
  mode : DirMode
  ptrs : List Nat
  tenant : Nat
  reserve : Bool
  age : Nat
  /-- CHECK of R214 no longer holds over the entry (R217). -/
  bad : Bool := false
deriving DecidableEq, Repr

/-- An idempotency record (R372). -/
structure Idem where
  quadrant : Nat
  eid : Nat
  tag : Nat
  code : Nat
  addr : Nat
  tracker : Option Nat
  status : Nat := 0
  old : Nat := 0
  doneAt : Nat := 0
  /-- Repeats that wait for the original, each in a tracker, with their pair entries. -/
  waiting : List (RxPkt × Option Nat) := []
  /-- Freed early: it matches nothing any more, and only answers the repeats that wait for its original. -/
  evicted : Bool := false
deriving DecidableEq, Repr

/-- A signal that waits for earlier writes of its source (R206): the number of its packet among the packets received, source
and class, the knot and the source's tenant, and the tracker that it answers (a SIGNAL without data). -/
structure PendingSig where
  order : Nat
  src : Nat
  cls : Nat
  knot : Nat
  tenant : Nat
  tracker : Option Nat
deriving DecidableEq, Repr

structure CohSt where
  dir : Tbl (Option DirEnt) := []
  nextAge : Nat := 0
  busy : List BusyLine := []
  trackers : List Tracker := []
  nextTracker : Nat := 1
  /-- Evicted victims waiting in eviction slots (R218), by line. -/
  evicting : List Nat := []
  /-- (EID, line) pairs whose late answers are discarded (R226). -/
  silent : List (Nat × Nat) := []
  idem : List Idem := []
  /-- Responses owed to the requests of a lost partner: trackers whose response is discarded (R369). -/
  orphans : List Nat := []
  strandLedger : Tbl Nat := []
  egressLedger : Tbl Nat := []
  /-- Marks that refresh claims (R407): strand, bank, mark. -/
  claims : List (Nat × Nat × Nat) := []
  /-- Booking blackout of a width change (R345): port and mark. -/
  blackout : List (Nat × Nat) := []
  /-- Lines that the walker or a command reads and that an owner has sent (R168, R219): line, data, poison. -/
  gathered : List (Nat × Line × Bool) := []
  /-- Signals not yet applied (R206), oldest first. -/
  signals : List PendingSig := []
deriving DecidableEq, Repr

/-! ### Stacked memory (R402 to R426) -/

/-- A line as a strand stores it (R413 to R416): the data bits, encrypted under the key of binding number `gen`, CHECK and MARK;
beside them the plaintext that was written. -/
structure StoredLine where
  data : Line
  mark : Nat
  check : Nat
  gen : Nat
  raw : Line := 0
deriving DecidableEq, Repr

/-- A line of the coil (R31, R32): plaintext, dirty and poison bits, the way that holds it. -/
structure CoilLine where
  data : Line
  dirty : Bool
  poison : Bool
  way : Nat
deriving DecidableEq, Repr

/-- One bank of a strand (R404, R406 to R411). -/
structure Bank where
  history : Nat := 0
  openRow : Option Nat := none
  /-- The row of the last column access. -/
  lastRow : Option Nat := none
  lag : Nat := 0
  table : List (Nat × Nat) := []
  waiting : List (Nat × Nat) := []
  nextRow : Nat := 0
  /-- The mark from which the bank is free of a refresh (R406, R410). -/
  freeAt : Nat := 0
  /-- The largest smallest count of the table in the present window (R411). -/
  minPeak : Nat := 0
deriving DecidableEq, Repr

/-- POWER of STRAND_STATUS (R426). -/
inductive Power where
  | selfRefresh | active | training | failed
deriving DecidableEq, Repr

/-- A strand slice beside its registers. `gen` numbers the keys drawn for it; `keyed` holds while it has one. -/
structure Strand where
  gen : Nat := 0
  keyed : Bool := false
  /-- Data and tweak key of the present binding (R415, R442). -/
  dataKey : BitVec 128 := 0
  tweakKey : BitVec 128 := 0
  power : Power := .selfRefresh
  hot : Bool := false
  trained : Bool := false
  lostUnit : Bool := false
  banks : Tbl Bank := []
  windowPeak : Nat := 0
  scrubNext : Nat := 0
  /-- The slice's arbiter (R27, R231): whether the engine port is next in turn among F lines, the position of the core
  that is next in turn at the engine port, and the mark from which the next P0 line may be read (R74). -/
  engineNext : Bool := false
  coreTurn : Nat := 0
  p0Free : Nat := 0
  /-- The last mark in which scheduled refresh commands were issued, and how many; the marks from which a neighbour refresh and a
  scrub read may be placed (R406, R412, R421). -/
  refreshMark : Nat := 0
  refreshes : Nat := 0
  neighbourAt : Nat := 0
  scrubAt : Nat := 0
deriving DecidableEq, Repr

/-- An entry of a stack's correctable-error log (R419). -/
structure CeEntry where
  ppa : Nat
  source : Nat
  refetches : Nat
  fmt : Nat
deriving DecidableEq, Repr

structure MemSt where
  lines : Tbl (Option StoredLine) := []
  /-- Patterns written raw, latest first, where no line has been written since (R425). -/
  patterns : List PatternRun := []
  coil : Tbl (Option CoilLine) := []
  strands : Tbl Strand := []
  ceLog : Tbl (Option CeEntry) := []
  ceNext : Tbl Nat := []
  temp : Tbl Nat := []
deriving DecidableEq, Repr

/-! ### Engines (R230 to R301) -/

/-- Gate and post flag of one stage (R312). -/
structure Gate where
  kind : Nat := 0
  select : Nat := 0
  timeout : Nat := 1
  post : Option Nat := none
deriving DecidableEq, Repr

/-- A chain in the chain store (R240), with its gates. -/
structure Chain where
  stages : List Line
  digest : Nat
  loadedAt : Nat
  gates : Tbl Gate := []
deriving DecidableEq, Repr

/-- A filter program in the program store (R293). -/
structure Program where
  words : List Nat
  rowBytes : Nat
  digest : Nat
  loadedAt : Nat
deriving DecidableEq, Repr

/-- Where a share came from (R518): 0 SUBMIT, 1 RESTART, 2 BULK_COPY. -/
structure Origin where
  kind : Nat
  session : Nat
  seq : Nat
  /-- For BULK_COPY: the port and tag that await the COMPLETION, the source EID being `session`. -/
  port : Nat := 0
  tag : Nat := 0
deriving DecidableEq, Repr

/-- One core's share of a command (R237, R243). -/
structure Share where
  gang : Nat
  origin : Origin
  tenant : Nat
  index : Nat
  size : Nat
  first : Nat
  chainId : Option Nat
  stages : List Line
  gates : Tbl Gate := []
  startStage : Nat := 0
  startProgress : Nat := 0
  check : Nat := 0
  /-- SEQ of the original SUBMIT, which restart descriptors carry (R185, R246). -/
  origSeq : Nat := 0
deriving DecidableEq, Repr

/-- A line read of a context (R230, R268): the address kind, the line address, and the tag of the LOAD that asks an
endpoint for it. -/
structure EngRead where
  kind : Nat
  addr : Nat
  tag : Option Nat := none
deriving DecidableEq, Repr

/-- A line of an operand that has arrived in scratch (R230, R262): the scratch line that holds it, 0 to 4,095 in its core, and
the CRC-16 written with it. -/
structure EngLine where
  kind : Nat
  addr : Nat
  data : Line
  poison : Bool
  slot : Nat
  check : Nat
deriving DecidableEq, Repr

/-- A scratch line that holds partial results between tiles (R262, R263). -/
structure HeldLine where
  slot : Nat
  data : Line
  check : Nat
deriving DecidableEq, Repr

/-- A write a context has issued and that is not yet acknowledged (R245). -/
structure EngWrite where
  kind : Nat
  addr : Nat
  data : Line
  mask : Nat
  bytes : Nat
  tag : Option Nat := none
  /-- Answers still awaited of a multicast packet (R388). -/
  answers : Nat := 0
  /-- The destination has written it, and its acknowledgement is on its way (R245). -/
  ready : Bool := false
deriving DecidableEq, Repr

/-- What a context is doing. -/
inductive CtxPhase where
  /-- Waiting at the gate of its stage since this (pausable) mark (R311). -/
  | gate (since : Nat)
  /-- Running its stage. -/
  | running
  /-- Waiting on a fault record of this number, or for one (R178, R183). -/
  | fault (record : Option Nat)
  /-- Waiting for a translation walk. -/
  | walking
  /-- Recomputing scratch content at rung 1 or 2 (R263, R265). -/
  | recompute (rung : Nat)
  /-- Stopping with this status once its issued writes are acknowledged (R245). -/
  | stopping (status : Nat)
  /-- A MERGE stage waiting for its children's lists (R295). -/
  | merging (round : Nat)
deriving DecidableEq, Repr

/-- A context that holds a share. Counts are those of the command record (R518). -/
structure Ctx where
  share : Share
  stage : Nat
  phase : CtxPhase
  /-- Units of the stage's stream issued by this core: destination bytes, or vectors for SCAN (R245, R270). -/
  progress : Nat := 0
  /-- The tile in work: its offset and length in the core's share, in items of the stage (bytes, elements or vectors),
  the reads it still has to issue and those outstanding. -/
  tileOff : Nat := 0
  tileLen : Nat := 0
  /-- Items of the tile after it whose reads are under way too (R248), and operations done on a vector at which a slice ended
  (R236). -/
  aheadLen : Nat := 0
  spent : Nat := 0
  started : Bool := false
  /-- The gate of the stage has been passed (R322). -/
  passed : Bool := false
  /-- The last stage that ran (R273), and whether it has issued a destination byte (R272). -/
  ran : Option Nat := none
  issued : Bool := false
  /-- Every tile of the stage has been worked on. -/
  tilesDone : Bool := false
  wanted : List EngRead := []
  reads : List EngRead := []
  lines : List EngLine := []
  held : List HeldLine := []
  writes : List EngWrite := []
  /-- Split of R184: the tile stops at this offset for a fault. -/
  split : Option FaultRec := none
  /-- Translations and faults that its walks brought for the tile in work (R174): page, level, entry, cause, access. -/
  trans : List CacheEnt := []
  walkFaults : List (Nat × Nat × Nat × Nat × Nat) := []
  /-- Output bytes that do not yet fill a line, and output bytes to drop after a restart within a block (R245). -/
  carry : List Byte := []
  skip : Nat := 0
  /-- Pass of a SCAN (R251), and its lists by query: (score, index), best first; none where scratch holds no list. -/
  pass : Nat := 0
  /-- PASSED and SKIPPED at the start of the present pass, to which a restart of the pass returns. -/
  passMark : Nat × Nat := (0, 0)
  lists : List (Option (List (Nat × Nat))) := []
  /-- Gang indices whose lists have arrived (R295). -/
  arrived : List Nat := []
  /-- Accumulator of a REDUCE to a scalar (R283), as a bit pattern. -/
  accum : Option Nat := none
  stop : Option Nat := none
  res0 : Nat := 0
  res1 : Nat := 0
  beginPos : Nat := 0
  macs : Nat := 0
  linesRead : Nat := 0
  linesWritten : Nat := 0
  saturations : Nat := 0
  nanToInt : Nat := 0
  recomputes : Nat := 0
  port : Nat := 0x7F
  /-- The port that the routes named when the context was taken, whose counts were latched then (R517, R519). -/
  portHint : Nat := 0x7F
  flits0 : Nat × Nat := (0, 0)
  failEid : Nat := 0xFFFF
  /-- Members that sent a failed answer, and the most answers missing from one packet (R301, R388). -/
  failed : List Nat := []
  missing : Nat := 0
  failStatus : Nat := 0
deriving DecidableEq, Repr

/-- State of ENGINE_MAP (R467). -/
inductive MapState where
  | inService | heldInBoot | rehoming | lost
deriving DecidableEq, Repr

/-- An engine core beside its registers. -/
structure Core where
  queue : List Share := []
  ctxs : Tbl (Option Ctx) := []
  turn : Nat := 0
  flags : Nat := 0
  /-- Command records, newest first, at most 8 (R517). -/
  records : List (List Byte) := []
  map : MapState := .heldInBoot
  rehomed : Bool := false
  absent : Bool := false
  physical : Nat := 0
  /-- The spare that is to take the position of a core that re-homes (R474). -/
  spare : Option Nat := none
  /-- The core takes no command until it switches its firmware bank (R472). -/
  switchWait : Bool := false
  inReset : Bool := false
deriving DecidableEq, Repr

/-- A gang (R243) while any of its cores runs: barrier participants of R316 to R322. -/
structure Gang where
  id : Nat
  tenant : Nat
  first : Nat
  count : Nat
  members : List Nat
  ended : List Nat := []
  /-- Cores that wait at a barrier gate: (core, stage); and stages whose barrier broke, with the status. -/
  atGate : List (Nat × Nat) := []
  broken : List (Nat × Nat) := []
  lines : List Nat := []
  failStatus : Option Nat := none
  done : List (Nat × Nat) := []
  /-- Stages and gang indices of the cores whose lists a MERGE has taken (R295). -/
  merged : List (Nat × Nat) := []
deriving DecidableEq, Repr

structure EngSt where
  cores : Tbl Core := []
  chains : Tbl (Option Chain) := []
  programs : Tbl (Option Program) := []
  gangs : List Gang := []
  nextGang : Nat := 1
  nextTag : Nat := 0
deriving DecidableEq, Repr

/-! ### Belay (R302 to R328) -/

/-- A knot (R303). -/
structure Knot where
  count : Nat := 0
  armed : Bool := false
  reload : Bool := false
  fired : Bool := false
  overflow : Bool := false
  target : Nat := 1
deriving DecidableEq, Repr

structure BelaySt where
  knots : Tbl Knot := []
  /-- Gang that holds each bight line (R318). -/
  holders : Tbl Nat := []
  /-- (line, core) pairs: cores that drive the line low. -/
  low : List (Nat × Nat) := []
  raised : Tbl Nat := []
  appliedTok : Tbl Nat := []
  discarded : Tbl Nat := []
deriving DecidableEq, Repr

/-! ### Lanes and ports (R329 to R349) -/

/-- PHASE of LINK_PORT_STATUS (R349). -/
inductive Phase where
  | off | lock | equalise | verify | agree | up | change | lost
deriving DecidableEq, Repr

/-- A width change under way (R345): asked for, adding lanes since a mark, or waiting for its switch after mark `a`,
with the width before it, whether this end has switched, and the old lanes on which the partner's switch has come. -/
inductive WidthChange where
  | asked (width : Nat)
  | adding (width since : Nat)
  | switching (width a old : Nat) (sent : Bool) (got : List Nat)
deriving DecidableEq, Repr

/-- A training under way (R339 to R341): of a port, or of the lanes that a width change adds. Lanes are port lanes. -/
structure Train where
  /-- The lane whose TRAIN blocks speak for both ends, and the lanes that take part. -/
  lead : Nat
  lanes : List Nat
  /-- The training was started by BRING_UP_LINK, whose limit holds for LOCK at rate 1. -/
  bringUp : Bool
  phase : Phase := .lock
  rate : Nat := 1
  /-- Entry to the phase, and the start of the training, from which the limit of BRING_UP_LINK counts (R341). -/
  since : Nat
  began : Nat
  run : Nat := 0
  last : Option TrainBlk := none
  readyOwn : List Nat := []
  readyPartner : List Nat := []
  lanesOk : Nat := 0
  partnerMax : Nat := 1
  fallback : Bool := false
  /-- Silence before a change of rate: the next rate, and the mark in which the silence began. -/
  stepTo : Option (Nat × Nat) := none
deriving DecidableEq, Repr

/-- A flit kept in a replay buffer (R356), as it was sent, and how often. -/
structure TxFlit where
  flit : Flit
  sent : Nat
deriving DecidableEq, Repr

/-- A packet in an egress queue (R394): header, payload, tenant for accounting. -/
structure TxPkt where
  hdr : PktHdr
  payload : List Line
  tenant : Nat
  /-- First line of the pool request that this response answers. -/
  line : Option Nat := none
  /-- The end-to-end window entry that this response frees when it leaves (R390). -/
  pair : Option Nat := none
  /-- Mark by whose start an admitted P1 response must be complete (R77, R84); 0 for none. -/
  due : Nat := 0
  /-- The bound with which the request that it answers was admitted (R145); 0 for none. -/
  bound : Nat := 0
  /-- Its booked egress slots, with their marks (R77, R84). -/
  slots : List (Nat × Nat) := []
  /-- The place in a receive buffer that a forwarded packet keeps until it has left: ingress port and place (R387). -/
  buffer : Option (Nat × Nat) := none
  /-- Its flits that have left with their credits owed already (R364). -/
  freed : Nat := 0
  /-- Its last flit has not arrived yet (R381), or never will: what remains goes out as ABORT flits (R368). -/
  arriving : Bool := false
  aborted : Bool := false
deriving DecidableEq, Repr

/-- An outgoing link layer and egress queues of one port. Queues 0 CONTROL, 1 PROMISED, 2 to 7 W0 to W5; lanes
0 CTL, 1 RSP, 2 REQ; an entry is (queue, lane, packet), oldest first. -/
structure TxSt where
  nextSeq : Nat := 0
  replay : List TxFlit := []
  resend : List Nat := []
  ctlDue : Bool := false
  keepaliveAt : Nat := 0
  ackProgressAt : Nat := 0
  credits : Nat × Nat × Nat := (0, 0, 0)
  grantsSent : Nat := 0
  /-- The partner's grants at UP, and flits sent since UP, by channel (R495, R496). -/
  granted : Nat × Nat × Nat := (0, 0, 0)
  totalSent : Nat × Nat × Nat := (0, 0, 0)
  inProgress : Option (TxPkt × Nat) := none
  queue : List (Nat × Nat × TxPkt) := []
  /-- Deficits of W0 to W5, the queue being visited, and whether its visit has begun (R396). -/
  deficits : Tbl Nat := []
  drrNext : Nat := 0
  drrOpen : Bool := false
  /-- The group being sealed: its flits so far, oldest first, its key and its IV (R375). -/
  group : List Flit := []
  groupKey : Nat := 0
  groupIv : Nat := 0
  /-- The port lane that the next block of the stream is dealt to (R352). -/
  dealt : Nat := 0
deriving DecidableEq, Repr

/-- A packet received whole and not yet taken by its command. -/
structure Arrived where
  pkt : RxPkt
  info : Arrival
deriving DecidableEq, Repr

/-- The receive side of one port. -/
structure RxSt where
  expect : Nat := 0
  splice : List Flit := []
  /-- Missing numbers with the mark in which they were last asked for; those to be asked for now. -/
  asked : List (Nat × Nat) := []
  nakDue : List Nat := []
  unacked : Nat := 0
  ackedAt : Nat := 0
  lastCtl : Nat := 0
  grants : Nat := 0
  /-- The packet being received: bodies accepted so far, oldest first, with its header as the device stamped it (R382)
  and what was settled at the header. -/
  partialPkt : List FlitBody := []
  head : Option (PktHdr × Arrival) := none
  owed : Nat × Nat × Nat := (0, 0, 0)
  /-- Credits returned to the partner since UP, by channel (R496). -/
  totalReturned : Nat × Nat × Nat := (0, 0, 0)
  occupied : Nat × Nat × Nat := (0, 0, 0)
  /-- Packets received whole and not yet taken. -/
  arrived : List Arrived := []
  /-- FIRST_SEQ of the group whose tag failed last (R376). -/
  lastFail : Option Nat := none
deriving DecidableEq, Repr

/-- A link port beside its registers. -/
structure Port where
  phase : Phase := .off
  rate : Nat := 0
  width : Nat := 0
  lanesOk : Nat := 0
  partnerEid : Nat := 0
  partnerClass : Nat := 0
  partnerMax : Nat := 0
  phaseSince : Nat := 0
  changedAt : Nat := 0
  train : Option Train := none
  aux : Option Train := none
  /-- "Old" bookable figure of R342; none when the port has not been up since its last BRING_UP_LINK. -/
  shareBase : Option Nat := none
  lostAt : Nat := 0
  failReason : Nat := 0
  fmtUp : Nat := 0
  /-- A CHANGE that this end has sent and that is not answered: kind, width, mark, collisions. -/
  change : Option (Nat × Nat × Nat × Nat) := none
  backoffUntil : Option Nat := none
  widthChange : Option WidthChange := none
  tx : TxSt := {}
  rx : RxSt := {}
  sealActive : Bool := false
  /-- Key slots in use, and the keys by slot plus one, so that 0 means none loaded (R375, R449, R450). -/
  keyTx : Nat := 0
  keyRx : Nat := 0
  keysTx : Tbl Nat := []
  keysRx : Tbl Nat := []
  keyNewTx : Bool := false
  /-- Times that SEQ has wrapped since entry to UP, in each direction (R375). -/
  wrapsTx : Nat := 0
  wrapsRx : Nat := 0
  /-- Entries to UP under the key in each slot (R375). -/
  upsTx : Tbl Nat := []
  upsRx : Tbl Nat := []
  /-- Port lanes that have failed VERIFY since the last BRING_UP_LINK or RETRAIN_PORT (R340). -/
  dropped : List Nat := []
  /-- The bookable figure that stays in force to a mark after a width change (R345). -/
  figure : Option (Nat × Nat) := none
  /-- A retraining of rung 2 waits for RESUME (R493). -/
  retrainDue : Bool := false
deriving DecidableEq, Repr

/-- A lane beside its registers. -/
structure Lane where
  powered : Bool := false
  rate : Nat := 0
  cwLock : Bool := false
  blockLock : Bool := false
  deskewed : Bool := false
  polarityInv : Bool := false
  skew : Nat := 0
  pre : Nat := 0
  post : Nat := 0
  savedTaps : Tbl (Nat × Nat) := []
  failed : Bool := false
  /-- A test or loop holds the lane, and the loop's mode (R347). -/
  held : Bool := false
  loop : Option Nat := none
  farLoop : Bool := false
  /-- The last marker received: its count, and the block time at which it came (R334). -/
  marker : Option (Nat × Nat) := none
  /-- Codewords since entry to VERIFY: symbols corrected, and codewords that could not be; and uncorrectable codewords in
  a row (R332, R340). -/
  corrected : Nat := 0
  uncorrectable : Nat := 0
  badRun : Nat := 0
  /-- Requests to the partner's taps that wait for an answer; the partner's last requests, and their answers (R338). -/
  asks : Nat × Nat × Nat := (0, 0, 0)
  asked : Nat × Nat × Nat := (0, 0, 0)
  answers : Nat × Nat × Nat := (0, 0, 0)
deriving DecidableEq, Repr

/-- What a lane's driver sends: a bit in NRZ, a level in PAM4 (R330, R331). -/
inductive Sym where
  | nrz (b : Bool)
  | pam4 (level : Int)
deriving DecidableEq, Repr

/-- A lane's transmit stream (R331, R336): blocks sent, markers left out, modulo 65,536; the bits not yet in a codeword and
their number; the register of its payload generator. -/
structure LaneTx where
  sent : Nat := 0
  msg : Nat := 0
  len : Nat := 0
  prbs : Nat := 0
deriving DecidableEq, Repr

structure LinkSt where
  ports : Tbl Port := []
  lanes : Tbl Lane := []
  /-- The lanes' transmit streams, and the codewords that have left, latest first: lane and symbols. -/
  streams : Tbl LaneTx := []
  line : List (Nat × List Sym) := []
  /-- The number of the next packet received (`Arrival.place`). -/
  nextPlace : Nat := 0
deriving DecidableEq, Repr

/-! ### Switch (R379 to R401) -/

/-- A multicast group's entry (R386, R401). -/
structure Group where
  mask : Nat := 0
  assigned : Bool := false
  tenant : Nat := 0
  members : Nat := 0
deriving DecidableEq, Repr

/-- A forward record (R370): egress port, requester, destination, code, when it was made. -/
structure FwdRec where
  port : Nat
  src : Nat
  dst : Nat
  tag : Nat
  code : Nat
  since : Nat
  pair : Option Nat := none
deriving DecidableEq, Repr

/-- Running counts of a port's congestion record (R400). -/
structure Congestion where
  queuePeak : Nat := 0
  flitsSent : Nat := 0
  stalls : Nat := 0
  windowBusy : Nat := 0
  fwdTimeouts : Nat := 0
  bookedPeak : Nat := 0
  drops : Nat := 0
  /-- FLITS_SENT at the last mark boundary, by which CREDIT_STALLS is told. -/
  sentMark : Nat := 0
deriving DecidableEq, Repr

/-- A multicast packet of this device that still awaits answers (R388). -/
structure McastPkt where
  tag : Nat
  group : Nat
  core : Nat
  ctx : Nat
  answers : Nat
  lastCopyAt : Nat
deriving DecidableEq, Repr

structure SwSt where
  active : Nat := 0
  flipTo : Option Nat := none
  /-- The mark in which the flip was asked for: it applies at the next boundary. -/
  flipAsked : Nat := 0
  lastFlip : Nat := 0
  lastFlipLmc : Nat := 0
  everFlipped : Bool := false
  drained : Bool := true
  lastOld : Nat := 0
  routes0 : Tbl Nat := []
  routes1 : Tbl Nat := []
  groups : Tbl Group := []
  /-- Packets that a lost port discarded, by port (R369, R371). -/
  lostPkts : Tbl Nat := []
  /-- The source whose turn is next among the F sources of a path, by its quadrants and the sealed tenant whose cycles it is in
  (R36, R73, R154). -/
  networkTurn : Tbl Nat := []
  pairs : Tbl Nat := []
  /-- Signals and barrier arrivals of the device that wait for their pair's window (R391), oldest first: the quadrant that
  issues them, their EID, header and tenant. -/
  outbox : List (Nat × Nat × PktHdr × Nat) := []
  fwd : List FwdRec := []
  /-- Requests (EID, tag) whose forward record timed out and whose late response would be discarded (R393). -/
  ended : List (Nat × Nat) := []
  mcast : List McastPkt := []
  cong : Tbl Congestion := []
  latched : Tbl Congestion := []
  latchedState : Tbl Nat := []
  intervalEnd : Nat := 0
deriving DecidableEq, Repr

/-! ### Security (R427 to R454) -/

structure SecSt where
  rngOk : Bool := false
  /-- Credential slots 4 × tenant + slot (R444); the operator's slot 0 is fused and not listed. -/
  creds : Tbl (Option Nat) := []
  bootDigest : Nat := 0
  controlDigest : Nat := 0
  engineDigest : Nat := 0
  defectDigest : Nat := 0
  /-- Extension modules on cores 6 and 7: digest and version. -/
  ext : Tbl (Option (Nat × Nat)) := []
  controlVersion : Nat := 0
deriving DecidableEq, Repr

/-! ### Bring-up, firmware, defects, resets (R455 to R480) -/

/-- A defect-list entry (R466). -/
structure Defect where
  kind : Nat
  cause : Nat
  physical : Nat
  start : Nat
deriving DecidableEq, Repr

/-- A core's part of a firmware load (R470). -/
structure CoreLoad where
  /-- Bit i is set when chunk i is still missing. -/
  missing : Nat
  /-- Chunks in the core's staging bank. -/
  staging : Tbl (List Byte) := []
  verified : Bool := false
  confirmed : Bool := false
  excluded : Bool := false
  rounds : Nat := 0
  since : Nat := 0
  asked : Bool := false
deriving DecidableEq, Repr

/-- A firmware load (R469 to R472). -/
structure FwLoad where
  length : Nat
  digest : Nat
  payload : List Line
  taken : Nat
  cores : Tbl (Option CoreLoad)
  running : Bool
deriving DecidableEq, Repr

/-- A partial reset under way (R477 to R480): phase 1 settling, 2 held, 3 restoring. -/
structure Reset where
  scope : Nat
  target : Nat
  phase : Nat
  byLadder : Bool
  started : Nat
  absorbed : Nat := 0
  /-- FMT at which the scope was held. -/
  settledAt : Nat := 0
deriving DecidableEq, Repr

structure BootSt where
  /-- Levels of PWR_GOOD and RESET_N. -/
  pwrGood : Bool := false
  resetN : Bool := false
  inRom : Bool := true
  slot : Nat := 0
  aFailed : Bool := false
  bFailed : Bool := false
  stage : Nat := 0
  startCount : Nat := 0
  powerOk : Nat := 0
  clocksOn : Nat := 0
  quadrants : Nat := 0xF
  stacksPresent : Nat := 0xFFFF
  engineCores : Nat := 0x800
  strandCount : Nat := 0x200
  ports : Nat := 0x60
  coresLost : Nat := 0
  /-- The defect list, held in flash, and failures found while running that await the next test. -/
  defects : List Defect := []
  newFailures : List Defect := []
  /-- Defects that found no room in a full list, excluded for this start only. -/
  unlisted : List Defect := []
  spares : List (Nat × Nat) := []
  fw : Option FwLoad := none
  committed : Option (List Line) := none
  resets : List Reset := []
  lastScope : Nat := 0
  lastPhase : Nat := 0
  lastTarget : Nat := 0
  resetCount : Nat := 0
  deviceResetAt : Option Nat := none
  /-- The device-scope reset that is due is the recovery ladder's (R491). -/
  deviceLadder : Bool := false
  sysref : Bool := true
deriving DecidableEq, Repr

/-! ### Errors, pair, stop, counters, interrupts (R481 to R536) -/

/-- An error record (R482) as data. -/
structure ErrRec where
  seq : Nat
  domain : Nat
  source : Nat
  rung : Nat
  escalated : Bool := false
  tenant : Option Nat := none
  shared : Bool := false
  unitKind : Nat := 0
  unit : Nat := 0
  fmt : Nat := 0
  fraction : Nat := 0
  address : Nat := 0
  detail0 : Nat := 0
  detail1 : Nat := 0
deriving DecidableEq, Repr

structure ErrSt where
  queues : Tbl (List ErrRec) := []
  nextSeq : Tbl Nat := []
  first : Tbl (Option ErrRec) := []
  /-- Domains that hold a first record, earliest detected first (R484). -/
  order : List Nat := []
  fatal : Bool := false
  /-- Units being handled: (domain, unit kind, unit, rung) (R490). -/
  handled : List (Nat × Nat × Nat × Nat) := []
  /-- Quadrants whose partition is to be reset at the next mark boundary: directory slices at rung 3 (R492). -/
  partitionDue : List Nat := []
  /-- Invariants that did not hold at the last mark boundary, kind and unit, and those of them that have written their record (R495). -/
  audited : List (Nat × Nat) := []
  auditDone : List (Nat × Nat) := []
deriving DecidableEq, Repr

/-- State of the core that is not active (R500, R504). -/
inductive Standby where
  | ready | testing | fenced (closeAt : Nat) | none
deriving DecidableEq, Repr

structure PairSt where
  active : Nat := 0
  standby : Standby := .ready
  /-- LMC mark of the last heartbeat heard: 2 × core + path, path 0 mesh, 1 lanyard. -/
  heard : Tbl Nat := []
  reported : List Nat := []
  passes : Nat := 0
  fails : Nat := 0
  failRun : Nat := 0
  lastPass : Nat := 0
  failovers : Nat := 0
  lastFailover : Nat := 0
  lastKind : Nat := 0
  journalAt : Nat := 0
  testAt : Nat := 0
  lnyA : Bool := false
  lnyB : Bool := false
deriving DecidableEq, Repr

/-- HALT_STATUS.STATE (R511). -/
inductive HaltState where
  | running | armed | landing | halted | resuming
deriving DecidableEq, Repr

/-- A landing log record (R511). -/
structure LandRec where
  hdr : PktHdr
  port : Nat
  late : Bool
  afterM : Bool
  fmt : Nat
deriving DecidableEq, Repr

structure HaltSt where
  st : HaltState := .running
  mark : Nat := 0
  flight : Nat := 0
  landing : Nat := 0
  resumeAt : Nat := 0
  /-- The session and SEQ of the HALT_AT_MARK that armed the stop. -/
  session : Nat := 0
  seq : Nat := 0
  /-- Packets held unissued (R508): port, queue, packet. -/
  held : List (Nat × Nat × TxPkt) := []
  /-- HALT_HELD, HALT_PARKED (R511). -/
  heldCount : Nat := 0
  parked : List RxPkt := []
  parkedCount : Nat := 0
  log : List LandRec := []
  late : Nat := 0
  afterM : Nat := 0
  /-- Contexts (core, context) whose gate a knot released in the stop, and that pass at its end (R506). -/
  gates : List (Nat × Nat) := []
deriving DecidableEq, Repr

/-- A trace entry (R524) as its 32 bytes, oldest first in a slice. -/
structure Slice where
  next : Nat := 1
  entries : List (Nat × List Byte) := []
deriving DecidableEq, Repr

structure CtrSt where
  /-- Tenant bank: 16 × tenant + index (R516); device counters by index (R520). -/
  bank : Tbl Nat := []
  device : Tbl Nat := []
  /-- FLITS_SENT and FLITS_RECEIVED: 32 × port + tenant (R514). -/
  sent : Tbl Nat := []
  received : Tbl Nat := []
  /-- Trace slices: 32 × quadrant + tenant (R522). -/
  trace : Tbl Slice := []
deriving DecidableEq, Repr

/-- State of an interrupt source (R529). -/
inductive IntState where
  | inactive | pending | active | activePending
deriving DecidableEq, Repr

structure IntSrc where
  st : IntState := .inactive
  core : Nat := 0
deriving DecidableEq, Repr

structure IntSt where
  sources : Tbl IntSrc := []
  /-- Control cores out of service: in reset, fenced or listed (R530). -/
  outOfService : List Nat := [0, 1, 2, 3, 4, 5, 6, 7]
  /-- Cores by their last delivery, most recent first. -/
  recent : List Nat := []
  /-- Control cores on which the fence interrupt is raised, which nothing masks (R501). -/
  fenced : List Nat := []
deriving DecidableEq, Repr

structure PwrSt where
  /-- RAIL_STATUS.IN_RANGE (R546). -/
  railsOk : Nat := 0
  thermal : Tbl Thermal := []
  level : Tbl Nat := []
  levelAt : Tbl Nat := []
  thermTrip : Bool := false
  alert : Bool := false
deriving DecidableEq, Repr

/-! ### The state -/

/-- The class of a field (R15). -/
inductive FClass where
  | live | edge | held
deriving DecidableEq, Repr

/-- A field write accepted and not yet in force (R15, R16). -/
structure WaitingWrite where
  offset : Nat
  lo : Nat
  value : Nat
  cls : FClass
  at_ : Nat
deriving DecidableEq, Repr

/-- What the read-only fields of class LIVE show: the parts of the state from which they are computed, as they stood at
the last mark boundary (R15, R47); and the counters that READ_COUNTERS latches there (R515). -/
structure Shown where
  fields : Tbl Nat := []
  time : TimeSt := {}
  kcp : KcpSt := {}
  bind : BindSt := {}
  xlat : XlatSt := {}
  coh : CohSt := {}
  mem : MemSt := {}
  eng : EngSt := {}
  belay : BelaySt := {}
  link : LinkSt := {}
  sw : SwSt := {}
  sec : SecSt := {}
  boot : BootSt := {}
  err : ErrSt := {}
  halt : HaltSt := {}
  ctr : CtrSt := {}
  intc : IntSt := {}
  pwr : PwrSt := {}
deriving DecidableEq, Repr

/-- The state of the block. -/
structure State where
  /-- Commands waiting, first in, first out. -/
  pending : List Instr := []
  /-- What has left the device, newest first (the model's own). -/
  out : List Out := []
  /-- Free values drawn so far (the model's own): the next draw is Config's opaque function of this counter. -/
  draws : Nat := 0
  /-- Register fields in force, key 32 × offset + lowest bit; a field not listed holds its reset value. -/
  fields : Tbl Nat := []
  /-- Register fields accepted and not yet in force. -/
  waiting : List WaitingWrite := []
  time : TimeSt := {}
  kcp : KcpSt := {}
  bind : BindSt := {}
  xlat : XlatSt := {}
  coh : CohSt := {}
  mem : MemSt := {}
  eng : EngSt := {}
  belay : BelaySt := {}
  link : LinkSt := {}
  sw : SwSt := {}
  sec : SecSt := {}
  boot : BootSt := {}
  err : ErrSt := {}
  pair : PairSt := {}
  halt : HaltSt := {}
  ctr : CtrSt := {}
  intc : IntSt := {}
  pwr : PwrSt := {}
  shown : Shown := {}
deriving DecidableEq, Repr

/-- The machine right after device reset (R14, R52, R129, R458): every field at the reset value the spec states, and
the values the assumption log names where it states none. -/
def State.reset : State := {}

/-- Why the block stops. No command of this block stops it: every error of the device is a reply, a record or a
state. The type holds one constructor so that it is not empty; nothing raises it (safe). -/
inductive Fault where
  /-- Raised by no command: kept so that the type has an inhabitant (safe). -/
  | none
deriving DecidableEq, Repr

/-- Why a command has no meaning here. -/
inductive Refusal where
  /-- Raised by an arm of `exec` whose command has no meaning yet (safe: the run stops). -/
  | notModelled (mnemonic : String)
deriving DecidableEq, Repr

end Sys2Proof.Machine
end

