-- ==== Sys2Proof/Machine/Ops.lean ====
section
/-! DEFINITION. The operations every family shares: sparse tables, little-endian bytes, the clocks, counters, what
leaves the device, interrupts, events and error records. -/
namespace Sys2Proof.Machine

/-! ### Sparse tables -/

/-- The value of a table at a key: the entry, or the default. -/
def tget {α : Type} (d : α) : Tbl α → Nat → α
  | [], _ => d
  | (k, v) :: t, i => if k = i then v else tget d t i

/-- Put an entry at its place in ascending key order. -/
def tput {α : Type} (i : Nat) (v : α) : Tbl α → Tbl α
  | [] => [(i, v)]
  | (k, w) :: t => if i < k then (i, v) :: (k, w) :: t else if k = i then (i, v) :: t else (k, w) :: tput i v t

/-- Remove the entry of a key. -/
def tdel {α : Type} (i : Nat) (t : Tbl α) : Tbl α := t.filter (fun e => e.1 != i)

/-- Write a table: the default is stored as absence, so equal tables are equal data. -/
def tset {α : Type} [DecidableEq α] (d : α) (t : Tbl α) (i : Nat) (v : α) : Tbl α :=
  if v = d then tdel i t else tput i v t

/-- The canonical form of a table: keys strictly rising and no entry equal to the default. -/
def twf {α : Type} [DecidableEq α] (d : α) : Tbl α → Bool
  | [] => true
  | [(_, v)] => v != d
  | (k, v) :: (k', v') :: t => v != d && k < k' && twf d ((k', v') :: t)

/-- Change one entry by a function. -/
def tmod {α : Type} [DecidableEq α] (d : α) (t : Tbl α) (i : Nat) (f : α → α) : Tbl α := tset d t i (f (tget d t i))

/-! ### Bytes (R3) -/

/-- `n` little-endian bytes of a number. -/
def le : Nat → Nat → List Byte
  | 0, _ => []
  | n + 1, x => BitVec.ofNat 8 x :: le n (x / 256)

/-- The number that little-endian bytes spell. -/
def ofLe : List Byte → Nat
  | [] => 0
  | b :: t => b.toNat + 256 * ofLe t

/-- Byte `j` of a line. -/
def lineByte (l : Line) (j : Nat) : Byte := (l >>> (8 * j)).setWidth 8

/-- The bytes of a line from byte `j`, `n` of them, as a number. -/
def lineNat (l : Line) (j n : Nat) : Nat := (l.toNat >>> (8 * j)) % 2 ^ (8 * n)

/-- The 128 bytes of a line. -/
def lineBytes (l : Line) : List Byte := le 128 l.toNat

/-- A line from at most 128 bytes, zero above them. -/
def lineOf (bs : List Byte) : Line := BitVec.ofNat 1024 (ofLe (bs.take 128))

/-- Bit `i` of a number. -/
def bit (x i : Nat) : Bool := x.testBit i

/-- Bits [lo + w - 1 : lo] of a number. -/
def bits (x lo w : Nat) : Nat := (x >>> lo) % 2 ^ w

/-- 1 for true, 0 for false. -/
def b2n (b : Bool) : Nat := if b then 1 else 0

/-- Restrict to a range (R108). -/
def clampTo (lo hi x : Nat) : Nat := if x < lo then lo else if hi < x then hi else x

/-! ### Clocks (R5, R52, R66) -/

/-- Units of `TimeSt.pos` in one mark: 1,024 × 65, so that the 1/1,024 trim and the 65 ns mark are whole. -/
abbrev posUnit : Nat := 66560

/-- FMT in whole marks. -/
def fmt (s : State) : Nat := s.time.pos / posUnit % 2 ^ 64

/-- The 8-bit fraction of FMT (R5). -/
def fraction (s : State) : Nat := s.time.pos % posUnit / 260

/-- LMC (R52). -/
def lmc (s : State) : Nat := s.time.lmc % 2 ^ 64

/-- LMC marks outside global stops: the clock of every timeout that a stop pauses (R506). -/
def plmc (s : State) : Nat := s.time.lmc - s.time.stopped

/-- A mark boundary: what the device has changed becomes visible in the read-only fields of class LIVE (R15, R47). Rows
that happen at a boundary end with it too. -/
def boundary (s : State) : State :=
  { s with shown := { fields := s.fields, time := s.time, kcp := s.kcp, bind := s.bind, xlat := s.xlat, coh := s.coh,
                      mem := s.mem, eng := s.eng, belay := s.belay, link := s.link, sw := s.sw, sec := s.sec,
                      boot := s.boot, err := s.err, halt := s.halt, ctr := s.ctr, intc := s.intc, pwr := s.pwr } }

/-- The state as the last mark boundary showed it. -/
def atBoundary (s : State) : State :=
  let v := s.shown
  { s with fields := v.fields, time := v.time, kcp := v.kcp, bind := v.bind, xlat := v.xlat, coh := v.coh, mem := v.mem,
           eng := v.eng, belay := v.belay, link := v.link, sw := v.sw, sec := v.sec, boot := v.boot, err := v.err,
           halt := v.halt, ctr := v.ctr, intc := v.intc, pwr := v.pwr }

/-- SAMPLED_AT: the last mark boundary, at which the values of a reply are latched (R496, R515). -/
def sampledAt (s : State) : Nat := fmt (atBoundary s)

/-! ### Free values, outputs, counters -/

/-- Draw a free value (R430, R257 and every choice the spec leaves open). -/
def draw (s : State) : Nat × State := (Config.free s.draws, { s with draws := s.draws + 1 })

/-- Something leaves the device. -/
def emit (o : Out) (s : State) : State := { s with out := o :: s.out }

/-- Add to a counter of the tenant bank (R514, R516). -/
def bump (tenant index n : Nat) (s : State) : State :=
  { s with ctr.bank := tmod 0 s.ctr.bank (16 * tenant + index) (fun x => (x + n) % 2 ^ 64) }

/-- Add to a device counter (R520). -/
def bumpDev (index n : Nat) (s : State) : State :=
  { s with ctr.device := tmod 0 s.ctr.device index (fun x => (x + n) % 2 ^ 64) }

/-- Counters 5, 6 and 7 of a tenant also rise in the device's running totals (R520). -/
def bumpBoth (tenant index n : Nat) (s : State) : State :=
  let s := bump tenant index n s
  match index with
  | 5 => bumpDev 2 n s
  | 6 => bumpDev 1 n s
  | 7 => bumpDev 3 n s
  | _ => s

/-- The key of a register field in `State.fields`. -/
abbrev fkey (off lo : Nat) : Nat := 32 * off + lo

/-- Set a stored register field (RO and RC fields that the device itself keeps). -/
def setField (off lo reset v : Nat) (s : State) : State := { s with fields := tset reset s.fields (fkey off lo) v }

/-- A stored register field in force. -/
def getField (off lo reset : Nat) (s : State) : Nat := tget reset s.fields (fkey off lo)

/-- Raise a saturating count of `w` bits kept in a register field. -/
def sat (off lo w n : Nat) (s : State) : State :=
  setField off lo 0 (min (2 ^ w - 1) (getField off lo 0 s + n)) s

/-! ### Interrupts (R528, R529) -/

/-- A source fires (R529): FIRINGS rises, INACTIVE becomes PENDING, ACTIVE becomes ACTIVE_PENDING. -/
def fire (src : Nat) (s : State) : State :=
  let s := sat (0x000F4000 + 4 * src) 16 16 1 s
  { s with intc.sources := tmod {} s.intc.sources src (fun e =>
      match e.st with
      | .inactive => { e with st := .pending }
      | .active => { e with st := .activePending }
      | _ => e) }

/-- The quadrant of a strand, a stack, a port, an engine core, a knot (R8, R24, R302). -/
def strandQuadrant (st : Nat) : Nat := st / 128
def portQuadrant (p : Nat) : Nat := p / 24
def coreQuadrant (c : Nat) : Nat := c / 512
def knotHome (k : Nat) : Nat := k / 16384

/-! ### Error records, stops -/

/-- Bytes of a record (R482). -/
def recBytes (r : ErrRec) : List Byte :=
  le 4 r.seq ++ le 1 r.domain ++ le 1 r.source ++ le 1 r.rung ++
  le 1 (b2n r.escalated + 2 * b2n r.tenant.isSome + 4 * b2n r.shared) ++ le 1 (r.tenant.getD 0) ++
  le 1 r.unitKind ++ le 2 r.unit ++ le 4 0 ++ le 8 r.fmt ++ le 1 r.fraction ++ le 7 0 ++ le 8 r.address ++
  le 8 r.detail0 ++ le 8 r.detail1 ++ le 8 0

/-- Rung 4 (R491): FATAL is set and the board alert is asserted. -/
def rung4 (s : State) : State := { s with err.fatal := true, pwr.alert := true }

/-- A global stop is in force from M until RESUME (R506). -/
def stopped (s : State) : Bool :=
  match s.halt.st with
  | .landing | .halted | .resuming => true
  | _ => false

/-- No unit issues: a global stop is in force, or rung 4 has been taken (R491, R506). -/
def frozen (s : State) : Bool := stopped s || s.err.fatal

/-- The device serves: it has left the ROM and is not held in reset (R455, R540). -/
def serving (s : State) : Bool := !s.boot.inRom

/-- The device is held in device reset (R540, R548). -/
def heldInReset (s : State) : Bool := !s.boot.pwrGood || !s.boot.resetN || !s.boot.sysref

/-- Units that the defect list, or a failure not yet in it, excludes (R464, R466, R473). -/
def defective (s : State) (kind physical : Nat) : Bool :=
  (s.boot.defects ++ s.boot.newFailures ++ s.boot.unlisted).any (fun d => d.kind == kind && d.physical == physical)

end Sys2Proof.Machine
end

