-- ==== Sys2Proof/Machine/Formats.lean ====
section
/-! DEFINITION. Number formats and arithmetic of the engine cores (R253 to R259): exact values, rounding, storing, and
the FP32 and INT32 accumulators. -/
namespace Sys2Proof.Machine

/-! ### Exact values -/

/-- A value: NaN, an infinity, or ± m × 2^e exactly. -/
inductive Val where
  | nan
  | inf (neg : Bool)
  | fin (neg : Bool) (m : Nat) (e : Int)
deriving DecidableEq, Repr

/-- An integer as a value. -/
def Val.ofInt (x : Int) : Val := .fin (x < 0) x.natAbs 0

/-- A value's mantissa with its sign. -/
def signedOf (neg : Bool) (m : Nat) : Int := if neg then - (m : Int) else m

/-- The exact product. -/
def Val.mul : Val → Val → Val
  | .nan, _ => .nan
  | _, .nan => .nan
  | .inf a, .inf b => .inf (a != b)
  | .inf a, .fin b m _ => if m = 0 then .nan else .inf (a != b)
  | .fin a m _, .inf b => if m = 0 then .nan else .inf (a != b)
  | .fin a m e, .fin b n f => .fin (a != b) (m * n) (e + f)

/-- The lowest exponent of some finite values. -/
def leastExp (l : List Val) : Int :=
  (l.filterMap (fun v => match v with
    | .fin _ _ e => some e
    | _ => none)).foldl min 0

/-- The exact sum (R255, R256): NaN with a NaN or opposite infinities; a zero sum is negative only if all are. -/
def Val.sum (l : List Val) : Val :=
  let pos := l.any (fun v => v == .inf false)
  let neg := l.any (fun v => v == .inf true)
  if l.any (fun v => v == .nan) || (pos && neg) then .nan
  else if pos then .inf false
  else if neg then .inf true
  else
    let e := leastExp l
    let t := l.foldl (fun a v => match v with
      | .fin n m f => a + signedOf n m * 2 ^ (f - e).toNat
      | _ => a) (0 : Int)
    let allNeg := l != [] && l.all (fun v => match v with
      | .fin n _ _ => n
      | _ => false)
    if t = 0 then .fin allNeg 0 0 else .fin (t < 0) t.natAbs e

/-- The value times 2^k. -/
def Val.scale (k : Int) : Val → Val
  | .fin n m e => .fin n m (e + k)
  | v => v

def Val.neg : Val → Val
  | .fin n m e => .fin (!n) m e
  | .inf n => .inf (!n)
  | .nan => .nan

/-- Numeric comparison of values that are not NaN: less, with −0 equal to +0. -/
def Val.lt (a b : Val) : Bool :=
  match a, b with
  | .nan, _ => false
  | _, .nan => false
  | .inf true, .inf true => false
  | .inf true, _ => true
  | _, .inf true => false
  | .inf false, _ => false
  | _, .inf false => true
  | x, y => match Val.sum [x, y.neg] with
    | .fin n m _ => n && m != 0
    | _ => false

def Val.isNan (a : Val) : Bool := a == .nan
def Val.eq (a b : Val) : Bool := !a.isNan && !b.isNan && !a.lt b && !b.lt a

/-- The order of MIN and MAX (R282): −0 below +0. -/
def Val.below (a b : Val) : Bool :=
  a.lt b || (a.eq b && match a, b with
    | .fin true 0 _, .fin false 0 _ => true
    | _, _ => false)

/-! ### Floating-point layouts (R253) -/

/-- A layout: exponent and fraction bits, bias, and kind: 0 with infinity and NaN, 1 with NaN S.1111.111 only, 2 with
neither. -/
structure Fp where
  eb : Nat
  mb : Nat
  bias : Nat
  kind : Nat

def fp32 : Fp := ⟨8, 23, 127, 0⟩

/-- The layout of a format's elements; none for integers. -/
def fpOf : Nat → Option Fp
  | 0x2 | 0x6 => some ⟨4, 3, 7, 1⟩
  | 0x3 | 0x7 => some ⟨5, 2, 15, 0⟩
  | 0x4 => some ⟨5, 10, 15, 0⟩
  | 0x5 => some ⟨8, 7, 127, 0⟩
  | 0x8 => some ⟨2, 3, 1, 2⟩
  | 0x9 => some ⟨3, 2, 3, 2⟩
  | 0xA => some ⟨2, 1, 1, 2⟩
  | 0xC => some fp32
  | _ => none

/-- Bits of one element as stored. -/
def elemBits : Nat → Nat
  | 0x1 | 0xA => 4
  | 0x4 | 0x5 => 16
  | 0x8 | 0x9 => 6
  | 0xC | 0xD => 32
  | _ => 8

/-- MX codes. -/
def isMx (f : Nat) : Bool := 6 ≤ f && f ≤ 0xB

/-- Formats whose elements accumulate in INT32 (R254). -/
def isIntFmt (f : Nat) : Bool := f = 0 || f = 1 || f = 0xD

/-- The exponent of the least significant bit of a subnormal. -/
def Fp.emin (l : Fp) : Int := 1 - (l.bias : Int) - l.mb

/-- The value of a bit pattern. -/
def Fp.decode (l : Fp) (x : Nat) : Val :=
  let neg := x / 2 ^ (l.eb + l.mb) % 2 = 1
  let ex := x / 2 ^ l.mb % 2 ^ l.eb
  let fr := x % 2 ^ l.mb
  let top := ex = 2 ^ l.eb - 1
  if l.kind = 0 && top then (if fr = 0 then .inf neg else .nan)
  else if l.kind = 1 && top && fr = 2 ^ l.mb - 1 then .nan
  else if ex = 0 then .fin neg fr l.emin
  else .fin neg (2 ^ l.mb + fr) (l.emin + (ex - 1 : Nat))

/-- The largest finite magnitude's pattern. -/
def Fp.maxCode (l : Fp) : Nat :=
  match l.kind with
  | 0 => (2 ^ l.eb - 1) * 2 ^ l.mb - 1
  | 1 => 2 ^ (l.eb + l.mb) - 2
  | _ => 2 ^ (l.eb + l.mb) - 1

/-- A magnitude m × 2^e cut to units of 2^t, t ≥ e + …: to nearest with ties to even, or with 16 random bits just below
the kept bit and truncation (R257). -/
def roundAt (m : Nat) (e t : Int) (rnd : Option Nat) : Nat :=
  if t ≤ e then m * 2 ^ (e - t).toNat
  else
    let k := (t - e).toNat
    let q := m / 2 ^ k
    match rnd with
    | some r =>
      let below := if 16 ≤ k then m / 2 ^ (k - 16) % 2 ^ 16 else m * 2 ^ (16 - k) % 2 ^ 16
      if 2 ^ 16 ≤ below + r % 2 ^ 16 then q + 1 else q
    | none =>
      let rest := m % 2 ^ k
      if 2 ^ k < 2 * rest || (2 * rest = 2 ^ k && q % 2 = 1) then q + 1 else q

/-- The pattern of a magnitude rounded to a layout; it may exceed `maxCode`. -/
def Fp.roundCode (l : Fp) (m : Nat) (e : Int) (rnd : Option Nat) : Nat :=
  if m = 0 then 0
  else
    let len : Int := (Nat.log2 m + 1 : Nat)
    let t := max (e + len - (l.mb + 1 : Nat)) l.emin
    let q := roundAt m e t rnd
    if q < 2 ^ l.mb then q
    else
      let (q, t) := if q = 2 ^ (l.mb + 1) then (2 ^ l.mb, t + 1) else (q, t)
      ((t - l.emin).toNat + 1) * 2 ^ l.mb + (q - 2 ^ l.mb)

/-- Store a value in a floating-point layout (R257, R258); the flag tells a NaN that the layout cannot hold. -/
def Fp.store (l : Fp) (infFlag : Bool) (rnd : Option Nat) (v : Val) : Nat × Bool :=
  let sign := fun (n : Bool) => if n then 2 ^ (l.eb + l.mb) else 0
  let infCode := (2 ^ l.eb - 1) * 2 ^ l.mb
  match v with
  | .nan => match l.kind with
    | 0 => (infCode + 2 ^ (l.mb - 1), false)
    | 1 => (2 ^ (l.eb + l.mb) - 1, false)
    | _ => (0, true)
  | .inf n => (sign n + (if l.kind = 0 then infCode else l.maxCode), false)
  | .fin n m e =>
    let c := l.roundCode m e rnd
    if c ≤ l.maxCode then (sign n + c, false)
    else (sign n + (if infFlag && l.kind = 0 then infCode else l.maxCode), false)

/-- Round to FP32 in an accumulator (R255, R256): overflow becomes infinite. -/
def round32 (v : Val) : Val := fp32.decode (fp32.store true none v).1

/-- The FP32 pattern of a value that is FP32 already. -/
def bits32 (v : Val) : Nat := (fp32.store true none v).1

/-! ### Division and square root (R286) -/

/-- A magnitude m × 2^e, plus a little more where `more` holds, in FP32: cut, or with one unit added where the cut was
inexact and `up` holds. -/
def directed32 (up more neg : Bool) (m : Nat) (e : Int) : Val :=
  let len : Int := (Nat.log2 m + 1 : Nat)
  let t := max (e + len - 24) fp32.emin
  let k := (t - e).toNat
  let q := m * 2 ^ (e - t).toNat / 2 ^ k
  round32 (.fin neg (if up && (more || m % 2 ^ k != 0) then q + 1 else q) t)

/-- The integer square root, bit by bit from bit k - 1. -/
def sqrtBits (n : Nat) : Nat → Nat → Nat
  | 0, r => r
  | k + 1, r => sqrtBits n k (if (r + 2 ^ k) * (r + 2 ^ k) ≤ n then r + 2 ^ k else r)

/-- The square root of m × 2^e in FP32. -/
def sqrt32 (up : Bool) (m : Nat) (e : Int) : Val :=
  let k : Nat := 64 + (e % 2).toNat
  let n := m * 2 ^ k
  let r := sqrtBits n (Nat.log2 n / 2 + 1) 0
  directed32 up (r * r != n) false r ((e - k) / 2)

/-- The quotient of two finite values in FP32, the divisor not zero. -/
def div32 (up neg : Bool) (m : Nat) (e : Int) (n : Nat) (f : Int) : Val :=
  let k := 64 + Nat.log2 n
  directed32 up (m * 2 ^ k % n != 0) neg (m * 2 ^ k / n) (e - f - k)

/-- COSINE's score from |x|², |y|² and Σ x·y as FP32 patterns (R286): the product, its root and the quotient, each rounded
to FP32 in a direction that the spec leaves free; without a finite quotient, a free value (log entry 6). -/
def cosineOf (xx yy xy : Nat) : Nat :=
  let up := fun i => Config.cosineUp i xx yy xy
  let other := Config.cosine xx yy xy % 2 ^ 32
  match (fp32.decode xx).mul (fp32.decode yy), fp32.decode xy with
  | .nan, _ | _, .nan => bits32 .nan
  | .fin _ m e, .fin neg n f =>
    match directed32 (up 0) false false m e with
    | .fin _ m e =>
      if m = 0 then other
      else match sqrt32 (up 1) m e with
        | .fin _ m e => if m = 0 then other else bits32 (div32 (up 2) neg n f m e)
        | _ => other
    | _ => other
  | _, _ => other

/-- Saturation to a signed range of `w` bits. -/
def satInt (w : Nat) (x : Int) : Int := max (-(2 ^ (w - 1) : Nat)) (min ((2 ^ (w - 1) : Nat) - 1) x)

/-- The two's-complement pattern of `w` bits. -/
def twos (w : Nat) (x : Int) : Nat := (x % (2 ^ w : Nat)).toNat

/-- The integer that a pattern of `w` bits spells. -/
def ofTwos (w x : Nat) : Int := if x % 2 ^ w < 2 ^ (w - 1) then (x % 2 ^ w : Nat) else ((x % 2 ^ w : Nat) : Int) - (2 ^ w : Nat)

/-- An addition into an INT32 accumulator, and whether it saturated (R255). -/
def addInt32 (a b : Int) : Int × Bool := (satInt 32 (a + b), satInt 32 (a + b) != a + b)

/-! ### Elements -/

/-- The value of one element without its block's scale. -/
def elemVal (f x : Nat) : Val :=
  match fpOf f with
  | some l => l.decode x
  | none => match f with
    | 0xB => (Val.ofInt (ofTwos 8 x)).scale (-6)
    | 0x1 => Val.ofInt (ofTwos 4 x)
    | 0xD => Val.ofInt (ofTwos 32 x)
    | _ => Val.ofInt (ofTwos 8 x)

/-- Element `i` of packed bytes given as a number. -/
def elemAt (f n i : Nat) : Nat := (n >>> (elemBits f * i)) % 2 ^ elemBits f

/-- A scale byte: NaN, or an exponent (R253). -/
def scaleOf (b : Nat) : Option Int := if b = 0xFF then none else some ((b : Int) - 127)

/-- Store into an integer format of `w` bits; the flag tells a NaN (R257, R258). -/
def storeInt (w : Nat) (rnd : Option Nat) (v : Val) : Nat × Bool :=
  match v with
  | .nan => (0, true)
  | .inf n => (twos w (satInt w (signedOf n (2 ^ w))), false)
  | .fin n m e => (twos w (satInt w (signedOf n (roundAt m e 0 rnd))), false)

/-- Store one plain element in a format that is not MX: its pattern, and whether a NaN met an integer format. -/
def storeElem (f : Nat) (infFlag : Bool) (rnd : Option Nat) (v : Val) : Nat × Bool :=
  match fpOf f with
  | some l => ((l.store infFlag rnd v).1, false)
  | none => storeInt (elemBits f) rnd v

/-- e_max of R259. -/
def emaxOf : Nat → Int
  | 0x6 => 8
  | 0x7 => 15
  | 0x8 => 2
  | 0x9 => 4
  | 0xA => 2
  | _ => 0

/-- The shared exponent of a block (R259), and whether all its finite values are zero. -/
def blockExp (f : Nat) (vs : List Val) : Option Int :=
  let tops := vs.filterMap (fun v => match v with
    | .fin _ m e => if m = 0 then none else some ((Nat.log2 m : Int) + e)
    | _ => none)
  match tops with
  | [] => none
  | x :: t => some (max (-127) (min 127 (t.foldl max x - emaxOf f)))

/-- Store one element of an MX block under a shared exponent. -/
def storeMxElem (f : Nat) (infFlag : Bool) (rnd : Option Nat) (x : Int) (v : Val) : Nat × Bool :=
  match fpOf f with
  | some l => l.store infFlag rnd (v.scale (-x))
  | none => match v with
    | .nan => (0, true)
    | .inf n => (twos 8 (signedOf n 127), false)
    | .fin n m e =>
      let q := min 127 (roundAt m (e - x + 6) 0 rnd)
      (twos 8 (signedOf n q), false)

/-- Store a block of elements with their random values: scale byte and elements (R257 to R259). -/
def storeBlock (f : Nat) (infFlag : Bool) (vs : List (Val × Option Nat)) : Nat × List Nat :=
  match blockExp f (vs.map (·.1)) with
  | none =>
    let es := vs.map (fun v => storeMxElem f infFlag v.2 0 v.1)
    (if es.any (·.2) then 0xFF else 0, es.map (·.1))
  | some x =>
    let es := vs.map (fun v => storeMxElem f infFlag v.2 x v.1)
    (if es.any (·.2) then 0xFF else (x + 127).toNat, es.map (·.1))

/-- Pack elements of a format into bytes, lowest first. -/
def packElems (f : Nat) (es : List Nat) : List Byte :=
  let w := elemBits f
  le ((w * es.length + 7) / 8) (es.zipIdx.foldl (fun a e => a + (e.1 % 2 ^ w) * 2 ^ (w * e.2)) 0)

/-! ### Scores (R254 to R256, R286) -/

/-- Consecutive groups of 32. -/
def groups32 {α : Type} (l : List α) : List (List α) :=
  (List.range ((l.length + 31) / 32)).map (fun i => (l.drop (32 * i)).take 32)

/-- The exact sum of products of one group, times the two blocks' scales. -/
def groupSum (xs ys : List Val) (sx sy : Option Int) : Val :=
  let v := Val.sum (List.zipWith Val.mul xs ys)
  match sx, sy with
  | some a, some b => v.scale (a + b)
  | _, _ => .nan

/-- FP32 accumulation of group sums in the order given. -/
def accumulate (gs : List Val) : Val := gs.foldl (fun a g => round32 (Val.sum [a, g])) (.fin false 0 0)

/-- INT32 accumulation of group sums, and how often it saturated. -/
def accumulateInt (gs : List Int) : Int × Nat :=
  gs.foldl (fun a g => let (x, o) := addInt32 a.1 g; (x, a.2 + b2n o)) (0, 0)

/-- The integer of an exact integer value. -/
def Val.toInt : Val → Int
  | .fin n m e => signedOf n m * 2 ^ e.toNat
  | _ => 0

end Sys2Proof.Machine
end

