-- ==== Sys2Proof/Machine/Operands.lean ====
section
/-! DEFINITION. Operands: the parameter bytes of a KCP command (R94, R108, R110), the status codes (R97), identifiers
and addresses (R8, R28), and the header of a Caltil Link packet as bytes (R361). -/
namespace Sys2Proof.Machine

/-! ### Status codes (R97) -/

abbrev stOK : Nat := 0x00
abbrev stBUSY : Nat := 0x01
abbrev stREFUSED : Nat := 0x02
abbrev stREVOKED : Nat := 0x03
abbrev stFAULT : Nat := 0x04
abbrev stPOISONED : Nat := 0x05
abbrev stDENIED : Nat := 0x06
abbrev stUNKNOWN : Nat := 0x07
abbrev stNOT_DONE : Nat := 0x08
abbrev stLOST_UNKNOWN : Nat := 0x09
abbrev stHALTED : Nat := 0x0A
abbrev stDEGRADED : Nat := 0x0B

/-! ### Parameters (R108, R110) -/

/-- `n` bytes from byte `i` of a parameter map; bytes that PARAM_LEN leaves out are zero (R110). -/
def pnum (ps : List Byte) (i n : Nat) : Nat := ofLe ((ps.drop i).take n)

/-- Bits [lo + w - 1 : lo] of byte `i`. -/
def pbits (ps : List Byte) (i lo w : Nat) : Nat := bits (pnum ps i 1) lo w

/-- Bit `k` of byte `i`. -/
def pbit (ps : List Byte) (i k : Nat) : Bool := (pnum ps i 1).testBit k

/-- `n` bytes from byte `i`, zeros where they are left out. -/
def pbytes (ps : List Byte) (i n : Nat) : List Byte := le n (pnum ps i n)

/-- `n` zero bytes. -/
def zeros (n : Nat) : List Byte := List.replicate n 0

/-- Pad with zeros to `n` bytes. -/
def padTo (n : Nat) (bs : List Byte) : List Byte := bs ++ zeros (n - bs.length)

/-- A mask of the `n` lowest bits. -/
def onesMask (n : Nat) : Nat := 2 ^ n - 1

/-! ### Identifiers and addresses (R8, R28, R29) -/

abbrev ppaStrand (ppa : Nat) : Nat := bits ppa 32 9
abbrev ppaOffset (ppa : Nat) : Nat := ppa % 0x100000000
abbrev ppaQuadrant (ppa : Nat) : Nat := strandQuadrant (ppaStrand ppa)
/-- The line number of a PPA: the key of every per-line table. -/
abbrev lineOfPpa (ppa : Nat) : Nat := ppa / 128
abbrev ppaOfLine (l : Nat) : Nat := 128 * l
abbrev lineStrand (l : Nat) : Nat := ppaStrand (128 * l)
abbrev lineQuadrant (l : Nat) : Nat := strandQuadrant (lineStrand l)

/-- An address lies in the populated three quarters of its strand's window (R28). -/
def populated (ppa : Nat) : Bool := ppaOffset ppa < 0xC0000000

/-- The quad's slot, first lane and width in lanes of a port (R34). -/
abbrev portQuad (p : Nat) : Nat := p / 2
def portLane0 (p : Nat) : Nat := 4 * (p / 2) + 2 * (p % 2)
abbrev widthLanes (w : Nat) : Nat := 2 ^ w

/-- Data rate of a rate code in Gbit/s (R120). -/
def rateGbps : Nat → Nat
  | 1 => 25
  | 2 => 100
  | 3 => 200
  | 4 => 400
  | _ => 0

/-- Bookable flits per mark of a port (R75, R342): 80% of its capacity in 264-byte flits, rounded down. -/
def bookable (width rate : Nat) : Nat := 2560 * widthLanes width * rateGbps rate / (264 * 400)

/-! ### Packet headers (R361) -/

/-- The 64 bytes of a packet header. -/
def hdrEncode (h : PktHdr) : List Byte :=
  le 1 h.code ++
  le 1 (h.cls % 4 + 4 * (h.epoch % 2) + 8 * b2n h.mcast + 16 * (h.atype % 2) + 32 * b2n h.poison + 64 * b2n h.sig +
    128 * b2n h.barrier) ++
  le 2 (h.dst % 4096) ++ le 2 (h.src % 4096) ++ le 2 h.tag ++ le 8 h.addr ++ le 1 (h.granules % 64) ++
  le 1 (h.lines % 64) ++ le 1 h.status ++
  le 1 (h.state % 4 + 4 * (h.answer % 8) + 32 * b2n h.fwd + 64 * b2n h.any) ++ le 1 (h.aop % 16) ++ zeros 1 ++
  le 2 h.knot ++ le 2 (h.group % 4096) ++ le 2 (h.core % 2048) ++ le 2 (h.reqEid % 4096) ++ le 2 h.reqTag ++
  le 4 h.idem ++ zeros 12 ++ le 16 h.mask

/-- The header that 64 bytes spell; the receiver ignores reserved bits (R363). -/
def hdrDecode (b : List Byte) : PktHdr :=
  { code := pnum b 0 1, cls := pbits b 1 0 2, epoch := pbits b 1 2 1, mcast := pbit b 1 3, atype := pbits b 1 4 1,
    poison := pbit b 1 5, sig := pbit b 1 6, barrier := pbit b 1 7, dst := pnum b 2 2 % 4096,
    src := pnum b 4 2 % 4096, tag := pnum b 6 2, addr := pnum b 8 8, granules := pbits b 16 0 6,
    lines := pbits b 17 0 6, status := pnum b 18 1, state := pbits b 19 0 2, answer := pbits b 19 2 3,
    fwd := pbit b 19 5, any := pbit b 19 6, aop := pbits b 20 0 4, knot := pnum b 22 2, group := pnum b 24 2 % 4096,
    core := pnum b 26 2 % 2048, reqEid := pnum b 28 2 % 4096, reqTag := pnum b 30 2, idem := pnum b 32 4,
    mask := pnum b 48 16 }

/-- Virtual channel of a packet code (R363): 0 CTL, 1 REQ, 2 RSP. -/
def codeVc (code : Nat) : Nat := if code = 0x80 then 0 else if code < 0x40 then 1 else 2

/-- The response codes and snoops that R194 lists. -/
def rspListed (code : Nat) : Bool :=
  (0x41 ≤ code && code ≤ 0x45) || (0x48 ≤ code && code ≤ 0x4D)

/-- A malformed packet (R363). -/
def malformed (h : PktHdr) : Bool :=
  32 < h.granules || (h.code = 0x80 && 8 < h.granules) || (0x40 ≤ h.code && h.code != 0x80 && !rspListed h.code)

/-- Flits of a packet (R361): header of 64 bytes and granules of 128, in bodies of 256. -/
def pktFlits (granules : Nat) : Nat := (64 + 128 * granules + 255) / 256

/-- The class a packet is handled with (R363): CTL is P0; a REQ of class 0 from an endpoint has become F as it came in. -/
def effClass (h : PktHdr) : Nat := if h.code = 0x80 then 0 else min 2 h.cls

/-! ### Registers' fields used by name -/

/-- LINK_PORT_CTL and the registers beside it (R349, R378). -/
abbrev portReg (p k : Nat) : Nat := 0x00100000 + 0x20 * p + k

def stepLimit (s : State) : Nat := getField 0x00010000 16 2 s
def relockCount (s : State) : Nat := getField 0x00010000 12 8 s
def timeSrc (s : State) : Nat := getField 0x00010000 30 0 s
def timeSrcPort (s : State) : Nat := getField 0x00010000 23 0 s
def gapLimit (s : State) : Nat := getField 0x00010004 0 0x40 s
def linkDelay (s : State) : Nat := getField 0x00010008 0 0 s
def ptpTransport (s : State) : Nat := getField 0x0001000C 8 0 s
def ptpDomain (s : State) : Nat := getField 0x0001000C 0 0 s
def ptpEpoch (s : State) : Nat := getField 0x00010010 0 0 s + 0x100000000 * getField 0x00010014 0 0 s
def p1Enable (s : State) (t : Nat) : Bool := getField (0x00010100 + 4 * t) 31 0 s = 1
def p1Bound (s : State) (t : Nat) : Nat := getField (0x00010100 + 4 * t) 0 0x18 s
def portShare (s : State) (t p : Nat) : Nat := getField (0x00011000 + 4 * (96 * t + p)) 0 0 s
def ethEnabled (s : State) (e : Nat) : Bool := getField (0x00020000 + 0x100 * e) 31 1 s = 1
def kcpUdpPort (s : State) (e : Nat) : Nat := getField (0x00020000 + 0x100 * e) 0 0xBA07 s
def ethVid (s : State) (e : Nat) : Nat := getField (0x00020004 + 0x100 * e) 0 0 s
def swapPcp (s : State) (e : Nat) : Nat := getField (0x00020004 + 0x100 * e) 29 3 s
def eventResendMarks (s : State) : Nat := 1024 * getField 0x00020200 8 0x10 s
def idleMarks (s : State) : Nat := watch * getField 0x00020200 0 0x40 s
def dirReserve (s : State) (t q : Nat) : Nat := 8192 * getField (0x00038600 + 4 * t) (8 * q) 0 s
def ctxLog (s : State) (c : Nat) : Nat := getField (0x00040000 + 4 * c) 0 3 s
def localEid (s : State) (p : Nat) : Nat := getField (portReg p 8) 0 0 s
def nakWait (s : State) (p : Nat) : Nat := getField (portReg p 0x10) 24 8 s
def ackTimeoutMarks (s : State) (p : Nat) : Nat := getField (portReg p 0x10) 16 0x10 s
def retryLimit (s : State) (p : Nat) : Nat := getField (portReg p 0x10) 12 8 s
def silenceMarks (s : State) (p : Nat) : Nat := getField (portReg p 0x10) 0 0x100 s
def vcCtl (s : State) (p : Nat) : Nat := getField (portReg p 0xC) 20 0x20 s
def vcReq (s : State) (p : Nat) : Nat := getField (portReg p 0xC) 10 0x1E0 s
def vcRsp (s : State) (p : Nat) : Nat := getField (portReg p 0xC) 0 0x200 s
/-- The value last written to a field (R108, R114): the waiting write, or the stored value. -/
def lastWritten (s : State) (off lo reset : Nat) : Nat :=
  match s.waiting.find? (fun w => w.offset == off && w.lo == lo) with
  | some w => w.value
  | none => getField off lo reset s
/-- A width of LINK_PORT_CTL as a port can take it: slot 1 has two lanes (R34, R343). -/
def slotWidth (p w : Nat) : Nat := min (if p % 2 = 1 then 1 else 2) w
def portWidthCfg (s : State) (p : Nat) : Nat := slotWidth p (getField (portReg p 0) 30 2 s)
def portMaxRate (s : State) (p : Nat) : Nat := getField (portReg p 0) 27 4 s
def verifyLimit (s : State) (p : Nat) : Nat := getField (portReg p 0) 0 0x400 s
def sealEnable (s : State) (p : Nat) : Bool := getField (portReg p 0x1C) 31 0 s = 1
def idemHold (s : State) : Nat := 1024 * getField 0x00102000 0 0x40 s
def fwdTimeout (s : State) : Nat := 16 * getField 0x00110014 16 0x80 s
def mapInterval (s : State) : Nat := getField 0x00110014 0 0x400 s
def routeQuiet (s : State) : Nat := getField 0x00110010 0 0x400 s
def localWindow (s : State) : Nat := getField 0x00110018 0 0x100 s
def tenantQueue (s : State) (t : Nat) : Nat := getField (0x00110100 + 4 * t) 0 0 s
def poolWindow (s : State) (e : Nat) : Nat := getField (0x0011C000 + 4 * e) 16 0x80 s
def peerWindow (s : State) (e : Nat) : Nat := getField (0x0011C000 + 4 * e) 0 0x40 s
/-- Weight of W0 to W5 on a port, and the bytes charged per packet (R396, R401). -/
def weight (s : State) (p w : Nat) : Nat :=
  if w < 4 then getField (0x00110200 + 8 * p) (8 * w) 1 s else getField (0x00110204 + 8 * p) (8 * (w - 4)) 1 s
def overhead (s : State) (p : Nat) : Nat := getField (0x00110204 + 8 * p) 16 0 s
def flipMask (s : State) (st : Nat) : Nat := getField (0x0006000C + 0x20 * st) 0 1 s
def flipMode (s : State) (st : Nat) : Nat := getField (0x00060008 + 0x20 * st) 30 0 s
def flipArmed (s : State) (st : Nat) : Bool := getField (0x00060008 + 0x20 * st) 29 0 s = 1
def closeMode (s : State) (st : Nat) : Nat := getField (0x00060000 + 0x20 * st) 30 0 s
def refreshRate (s : State) (st : Nat) : Nat := getField (0x00060000 + 0x20 * st) 28 0 s
def scrubEnable (s : State) (st : Nat) : Bool := getField (0x00060000 + 0x20 * st) 27 1 s = 1
def scrubInterval (s : State) (st : Nat) : Nat := 2 ^ getField (0x00060000 + 0x20 * st) 24 1 s
def rowThreshold (s : State) (st : Nat) : Nat := getField (0x00060000 + 0x20 * st) 0 0x400 s
/-- Fault queue registers (R179). -/
abbrev fqReg (q k : Nat) : Nat := 0x0003A000 + 0x20 * q + k
def fqBase (s : State) (q : Nat) : Nat := 128 * getField (fqReg q 0) 7 0 s + 0x100000000 * getField (fqReg q 4) 0 0 s
def fqEnable (s : State) (q : Nat) : Bool := getField (fqReg q 8) 31 0 s = 1
def fqSize (s : State) (q : Nat) : Nat := 2 ^ getField (fqReg q 8) 0 4 s
def fqHead (s : State) (q : Nat) : Nat := getField (fqReg q 0xC) 0 0 s
/-- BELAY_FBAR (R320). -/
abbrev fbarReg (g k : Nat) : Nat := 0x000D0000 + 8 * g + k
def fbarEnable (s : State) (g : Nat) : Bool := getField (fbarReg g 0) 31 0 s = 1
def fbarRoot (s : State) (g : Nat) : Bool := getField (fbarReg g 0) 30 0 s = 1
def fbarLocal (s : State) (g : Nat) : Bool := getField (fbarReg g 0) 29 0 s = 1
def fbarExpect (s : State) (g : Nat) : Nat := getField (fbarReg g 0) 16 1 s
def fbarRknot (s : State) (g : Nat) : Nat := getField (fbarReg g 0) 0 0 s
def fbarArrived (s : State) (g : Nat) : Nat := getField (fbarReg g 4) 16 0 s
def fbarUp (s : State) (g : Nat) : Nat := getField (fbarReg g 4) 0 0 s
def bightTenant (s : State) (n : Nat) : Nat := getField (0x000E0000 + 4 * n) 0 0 s
def throttleC (s : State) : Nat := getField 0x000B0000 24 0x64 s
def stackThrottleC (s : State) : Nat := getField 0x000B0000 16 0x5F s
def currentLimit (s : State) : Nat := getField 0x000B0000 0 0x12C s
def intEnable (s : State) (i : Nat) : Bool := getField (0x000F0000 + 8 * i) 31 0 s = 1
def intPriority (s : State) (i : Nat) : Nat := getField (0x000F0000 + 8 * i) 24 8 s
def intCoreMask (s : State) (i : Nat) : Nat := getField (0x000F0000 + 8 * i) 0 0x100 s

/-- Own EIDs (R379, R401): entry 0 is always valid. -/
def ownEidValid (s : State) (i : Nat) : Bool := i = 0 || getField (0x00110000 + 4 * i) 31 0 s = 1
def ownEid (s : State) (i : Nat) : Nat := getField (0x00110000 + 4 * i) 0 0 s
def ownEids (s : State) : List Nat := ((List.range 4).filter (ownEidValid s)).map (ownEid s)
def isOwnEid (s : State) (e : Nat) : Bool := (ownEids s).contains e

/-- MAC address of an Ethernet port (R93): fused unless written. -/
def ethMac (s : State) (e : Nat) : Nat :=
  getField (0x00020020 + 0x100 * e) 0 (Config.mac e % 0x100000000) s +
  0x100000000 * getField (0x00020024 + 0x100 * e) 0 (Config.mac e / 0x100000000 % 0x10000) s

/-- IPv6 link-local address by the modified EUI-64 rule (R92). -/
def linkLocal (mac : Nat) : Nat :=
  let o := fun i => mac / 256 ^ (5 - i) % 256
  0xFE80 * 2 ^ 112 + (o 0 ^^^ 2) * 2 ^ 56 + o 1 * 2 ^ 48 + o 2 * 2 ^ 40 + 0xFFFE * 2 ^ 24 + o 3 * 2 ^ 16 + o 4 * 2 ^ 8 +
  o 5

/-- ETH_IPV6 as one 128-bit address (R93). -/
def ethIpv6 (s : State) (e : Nat) : Nat :=
  (List.range 4).foldl (fun a i => a + 2 ^ (32 * i) * getField (0x00020010 + 0x100 * e + 4 * i) 0 0 s) 0

/-- The addresses of an Ethernet port that are in use (R92, R93). -/
def ethAddresses4 (s : State) (e : Nat) : List Nat :=
  if getField (0x00020000 + 0x100 * e) 30 0 s = 1 then [getField (0x00020008 + 0x100 * e) 0 0 s] else []
def ethAddresses6 (s : State) (e : Nat) : List Nat :=
  if getField (0x00020000 + 0x100 * e) 29 1 s = 1 then
    linkLocal (ethMac s e) :: (if ethIpv6 s e = 0 then [] else [ethIpv6 s e])
  else []

/-- An Ethernet port receives and transmits: enabled, not taken down (R93, R541, R548), and the device out of reset. -/
def ethUp (s : State) (e : Nat) : Bool := e < 2 && ethEnabled s e && !s.kcp.ethDown.contains e

/-- Whether a port is in STATE 2 of DISCOVER (R120, R349). -/
def portUp (s : State) (p : Nat) : Bool :=
  match (tget {} s.link.ports p).phase with
  | .up | .change => true
  | _ => false

/-- STATE of DISCOVER and LINK_PORT_STATUS (R120, R349). -/
def portState (x : Port) : Nat :=
  match x.phase with
  | .off => 0
  | .up | .change => 2
  | .lost => 3
  | _ => 1

/-- PHASE of LINK_PORT_STATUS (R349). -/
def phaseCode : Phase → Nat
  | .off => 0
  | .lock => 1
  | .equalise => 2
  | .verify => 3
  | .agree => 4
  | .up => 5
  | .change => 6
  | .lost => 7

/-- The bookable flits that P1_PORT_SHARE is clamped against (R85): R75's figure while the port is up, R342's "old"
figure while it is not, with LINK_PORT_CTL.WIDTH as last accepted (R108). -/
def shareLimit (s : State) (p : Nat) : Nat :=
  let x := tget {} s.link.ports p
  if !portUp s p then x.shareBase.getD (bookable (slotWidth p (lastWritten s (portReg p 0) 30 2)) 4)
  else
    let now := bookable x.width x.rate
    let now := match x.figure with
      | some (f, m) => if lmc s ≤ m then min f now else now
      | none => now
    match x.widthChange with
    | some (.switching w _ _ false _) => min now (bookable w x.rate)
    | _ => now

end Sys2Proof.Machine
end

