-- ==== Sys2Proof/Machine/Descriptors.lean ====
section
/-! DEFINITION. Stage descriptors (R239, R268, R274, R276, R279, R281, R284, R294, R299): their fields and how every
field clamps. -/
namespace Sys2Proof.Machine

/-! ### Header fields (R239) -/

abbrev dOp (d : Line) : Nat := lineNat d 0 1
abbrev dStoch (d : Line) : Bool := bit (lineNat d 1 1) 0
abbrev dInf (d : Line) : Bool := bit (lineNat d 1 1) 1
abbrev dSignal (d : Line) : Bool := bit (lineNat d 1 1) 2
abbrev dIn (d : Line) : Nat := lineNat d 2 1
abbrev dOut (d : Line) : Nat := lineNat d 3 1
abbrev dKnot (d : Line) : Nat := lineNat d 4 2
abbrev dW (d : Line) (i : Nat) : Nat := lineNat d i 8

/-! ### Clamps (R108, R268) -/

/-- A stream address: bits [6:0] clear, and for a TVA bits [63:57] taken as zero. -/
def clampAddr (kind a : Nat) : Nat := (if kind = 0 then a % 2 ^ 57 else a) / 128 * 128

/-- A byte length: a multiple of 128, at least 128, at most 2^48. -/
def clampLen (n : Nat) : Nat :=
  let n := min n (2 ^ 48) / 128 * 128
  if n = 0 then 128 else n

/-- IN_FMT by operation: COMPARE and REDUCE take no MX code, SCAN neither FP32 nor INT32. -/
def clampIn (op f : Nat) : Nat :=
  let f := min 0xD f
  if op = 3 || op = 4 then (if 6 ≤ f && f ≤ 8 then 5 else if 9 ≤ f && f ≤ 0xB then 0xC else f)
  else if op = 5 then min 0xB f else f

/-- DIMS of SCAN (R284). -/
def clampDims (f n : Nat) : Nat :=
  let n := min 4096 n
  if isMx f then max 32 (n / 32 * 32) else if f = 1 then max 2 (n / 2 * 2) else max 1 n

/-- Bytes of one vector's elements, rounded up to whole lines. -/
def vecBytes (f dims : Nat) : Nat := ((dims * elemBits f + 7) / 8 + 127) / 128 * 128

/-- The body of a clamped descriptor, bytes 16 to 127. `prevK` is K of the SCAN that a MERGE follows. -/
def clampBody (op fin out prevK : Nat) (d : Line) : List Byte :=
  let w := fun (i n : Nat) => lineNat d i n
  match op with
  | 1 =>
    let kind := w 40 1 % 2
    let inl := w 40 1 / 2 % 2
    le 8 (clampAddr kind (w 16 8)) ++ le 8 (clampLen (w 24 8)) ++ le 8 (clampAddr 0 (w 32 8)) ++ le 1 (kind + 2 * inl) ++
    le 1 (min (if inl = 1 then 4 else 7) (w 41 1)) ++ zeros 6 ++ le 16 (w 48 16) ++ zeros 64
  | 2 =>
    let dk := w 40 1 % 2
    let sk := w 40 1 / 2 % 2
    let sig := if dk = 0 then 0 else w 40 1 / 4 % 2
    le 8 (clampAddr dk (w 16 8)) ++ le 8 (clampAddr sk (w 24 8)) ++ le 8 (clampLen (w 32 8)) ++
    le 1 (dk + 2 * sk + 4 * sig) ++ zeros 1 ++ le 2 (w 42 2) ++ zeros 84
  | 3 =>
    let ak := w 49 1 % 2
    let bk := w 49 1 / 2 % 2
    le 8 (clampAddr 0 (w 16 8)) ++ le 8 (clampAddr ak (w 24 8)) ++ le 8 (clampAddr bk (w 32 8)) ++
    le 8 (clampTo 1 (2 ^ 40) (w 40 8)) ++ le 1 (min 6 (w 48 1 % 8)) ++ le 1 (ak + 2 * bk) ++ zeros 78
  | 4 =>
    let sk := w 49 1 / 8 % 2
    let cnt := clampTo 1 (2 ^ 40) (w 40 8)
    let cnt := if isMx out && w 49 1 / 4 % 2 = 0 then max 32 (cnt / 32 * 32) else cnt
    le 8 (clampAddr 0 (w 16 8)) ++ le 8 (clampAddr sk (w 24 8)) ++ le 8 (w 32 8 / 128 * 128) ++ le 8 cnt ++
    le 1 (clampTo 1 64 (w 48 1)) ++ le 1 (min 2 (w 49 1 % 4) + 4 * (w 49 1 / 4 % 2) + 8 * sk) ++ zeros 6 ++
    le 8 (clampAddr 0 (w 56 8)) ++ zeros 64
  | 5 =>
    let dims := clampDims fin (w 68 2)
    (List.range 6).flatMap (fun i => le 8 (clampAddr 0 (w (16 + 8 * i) 8))) ++ le 4 (clampTo 1 0xFFFFFFFE (w 64 4)) ++
    le 2 dims ++ le 2 (clampTo 1 1024 (w 70 2)) ++ le 1 (clampTo 1 32 (w 72 1)) ++
    le 1 (min 2 (w 73 1 % 4) + 4 * (w 73 1 / 4 % 2)) ++ le 1 (w 74 1 % 64 + 128 * (w 74 1 / 128)) ++ zeros 1 ++
    le 4 (max (vecBytes fin dims) (w 76 4 / 128 * 128)) ++ zeros 48
  | 6 =>
    let kind := w 26 1 % 2
    le 8 (clampAddr kind (w 16 8)) ++ le 2 (clampTo 1 prevK (w 24 2)) ++ le 1 kind ++ zeros 101
  | _ =>
    le 8 (w 16 8 % 2 ^ 52 / 128 * 128) ++ le 8 (clampAddr 0 (w 24 8)) ++ le 8 (clampLen (w 32 8)) ++
    le 2 (min 4095 (w 40 2)) ++ le 1 (w 42 1 % 2) ++ zeros 1 ++ le 2 (w 44 2) ++ zeros 82

/-- A descriptor with every field clamped. -/
def clampDesc (prevK : Nat) (d : Line) : Line :=
  let op := clampTo 1 7 (dOp d)
  let fin := clampIn op (dIn d)
  let out := min 0xD (dOut d)
  lineOf (le 1 op ++ le 1 (lineNat d 1 1 % 8) ++ le 1 fin ++ le 1 out ++ le 2 (dKnot d) ++ zeros 10 ++
    clampBody op fin out prevK d)

/-- K of a SCAN descriptor. -/
abbrev scanK (d : Line) : Nat := lineNat d 70 2
abbrev scanDims (d : Line) : Nat := lineNat d 68 2
abbrev scanBatch (d : Line) : Nat := lineNat d 72 1
abbrev scanMetric (d : Line) : Nat := lineNat d 73 1 % 4
abbrev scanSkip (d : Line) : Bool := bit (lineNat d 73 1) 2
abbrev scanFilter (d : Line) : Bool := bit (lineNat d 74 1) 7
abbrev scanProgram (d : Line) : Nat := lineNat d 74 1 % 64
abbrev scanStride (d : Line) : Nat := lineNat d 76 4
abbrev scanVectors (d : Line) : Nat := lineNat d 64 4

/-- REDUCE to a scalar (R283), and the format of REDUCE's elementwise results: the scalar form ignores OUT_FMT and reduces them
in the accumulator's 32 bits. -/
def isScalar (d : Line) : Bool := dOp d = 4 && bit (lineNat d 49 1) 2
def reduceOut (d : Line) : Nat := if isScalar d then 0xC else dOut d

/-- Address of REDUCE's source i (R281). DESIGN CHOICE (log entry 131): the sum is taken within the bits of the address, so
that every source of kind 1 names the same EID. -/
def sourceAddr (d : Line) (i : Nat) : Nat :=
  let a := dW d 24
  let n := if lineNat d 49 1 / 8 % 2 = 1 then 2 ^ 52 else 2 ^ 57
  a / n * n + (a + i * dW d 32) % n

/-- The stages of an image, each clamped; a MERGE sees the SCAN before it. -/
def clampStages : Nat → List Line → List Line
  | _, [] => []
  | k, d :: t =>
    let d := clampDesc k d
    d :: clampStages (if dOp d = 5 then scanK d else 1) t

/-- Every MERGE directly follows a SCAN (R294). -/
def mergesFollow : List Line → Bool
  | [] => true
  | d :: t => dOp d != 6 && aux d t
where
  aux : Line → List Line → Bool
    | _, [] => true
    | p, d :: t => (dOp d != 6 || dOp p = 5) && aux d t

/-! ### Stream sizes (R248 to R250, R270) -/

/-- Bytes of `n` elements of a format. -/
def bytesOf (f n : Nat) : Nat := (n * elemBits f + 7) / 8

/-- Units of a stage's stream, and items in one unit: bytes, elements or vectors (R270). -/
def stageUnits (d : Line) : Nat × Nat :=
  match dOp d with
  | 1 => (dW d 24 / 128, 128)
  | 2 | 7 => (dW d 32 / 128, 128)
  | 3 | 4 => ((dW d 40 + 1023) / 1024, 1024)
  | 5 => (scanVectors d, 1)
  | _ => (0, 1)

/-- Items of the whole stream. -/
def stageItems (d : Line) : Nat :=
  match dOp d with
  | 1 => dW d 24
  | 2 | 7 => dW d 32
  | 3 | 4 => dW d 40
  | 5 => scanVectors d
  | _ => 0

/-- First item and number of items of a core's share (R270). -/
def shareItems (d : Line) (i n : Nat) : Nat × Nat :=
  let (u, k) := stageUnits d
  let lo := i * u / n * k
  let hi := min ((i + 1) * u / n * k) (stageItems d)
  (lo, hi - lo)

/-- Scratch need in 1/32 bytes per primary byte, fixed scratch and granule (R249); widths are counted with MX scales. -/
def widthOf (f : Nat) : Nat := 4 * elemBits f + (if isMx f then 1 else 0)

/-- One query's bytes: elements and scales rounded up to lines. -/
def queryBytes (d : Line) : Nat :=
  let n := scanDims d
  (bytesOf (dIn d) n + (if isMx (dIn d) then n / 32 else 0) + 127) / 128 * 128

/-- The largest multiple of g, at most 16,384, whose need `fix + copies × L × num ÷ den` is at most the partition. -/
def largestTile (g fix copies num den partition : Nat) : Nat :=
  if partition < fix then 0
  else
    let most := (partition - fix) * den / (copies * num)
    min (min most 16384 / g * g) (16384 / g * g)

/-- Tile length of a stage that is not SCAN or MERGE, in bytes of its primary stream, where so many tiles of each stream are held
(R249). -/
def tilesOf (copies : Nat) (d : Line) (partition : Nat) : Nat :=
  let (fix, num, den) : Nat × Nat × Nat := match dOp d with
    | 1 => (128, 1, 1)
    | 3 => (0, 17, 8)
    | 4 => (256, lineNat d 48 1 * widthOf (dIn d) + widthOf (reduceOut d), widthOf (reduceOut d))
    | _ => (0, 1, 1)
  largestTile 128 fix copies num den partition

/-- Two tiles of each stream are held, or one where two do not fit (R248, R250); 0 when nothing fits. -/
def tileBytes (d : Line) (partition : Nat) : Nat :=
  let two := tilesOf 2 d partition
  if two != 0 then two else tilesOf 1 d partition

/-- The next tile is filled while one is worked on (R248); a SCAN's pass always holds two (R251). -/
def holdsTwo (d : Line) (partition : Nat) : Bool := dOp d = 5 || (dOp d != 6 && tilesOf 2 d partition != 0)

/-- Passes of a SCAN (R251), and the tile length of pass sizes: need of `b` queries. -/
def scanFits (d : Line) (rowBytes partition b : Nat) : Nat :=
  let q := queryBytes d
  let fix := b * (q + 8 * scanK d) + (if scanFilter d then 4096 else 0)
  let v := bytesOf (dIn d) (scanDims d)
  let all := v + (if isMx (dIn d) then scanDims d / 32 else 0) + (if scanFilter d then rowBytes else 0)
  let g := (all + 127) / 128 * 128
  largestTile g fix 2 all v partition

/-- The fewest passes for which every pass fits. -/
def scanPasses (d : Line) (rowBytes partition : Nat) : Nat :=
  let b := scanBatch d
  ((List.range b).map (· + 1)).find? (fun n => scanFits d rowBytes partition ((b + n - 1) / n) != 0) |>.getD b

/-- Queries of a pass: first and count; sub-batches are as equal as possible, larger ones first. -/
def passQueries (b n p : Nat) : Nat × Nat :=
  let small := b / n
  let extra := b % n
  if p < extra then (p * (small + 1), small + 1) else (extra * (small + 1) + (p - extra) * small, small)

/-- Items of a tile. DESIGN CHOICE (log entry 132): L of a SCAN holds L ÷ n vectors, n being the bytes of one vector rounded up to
128. DESIGN CHOICE (log entry 172): a REDUCE tile takes whole groups of 32 elements, one at least, where its L bytes hold no whole
number of 6-bit elements. -/
def tileItems (d : Line) (rowBytes partition pass : Nat) : Nat :=
  match dOp d with
  | 3 => tileBytes d partition * 8 / elemBits (dIn d)
  | 4 => max 32 (tileBytes d partition * 8 / elemBits (reduceOut d) / 32 * 32)
  | 5 =>
    let n := scanPasses d rowBytes partition
    max 1 (scanFits d rowBytes partition (passQueries (scanBatch d) n pass).2 / vecBytes (dIn d) (scanDims d))
  | 6 => 1
  | _ => tileBytes d partition

end Sys2Proof.Machine
end

