-- ==== Sys2Proof/Machine/Filter.lean ====
section
/-! DEFINITION. Filter programs (R288 to R293): clamping, checks and evaluation. -/
namespace Sys2Proof.Machine

/-! ### Instructions (R291) -/

abbrev opOf (w : Nat) : Nat := bits w 0 8
abbrev fieldA (w : Nat) : Nat := bits w 8 8
abbrev fieldB (w : Nat) : Nat := bits w 16 16

/-- An instruction clamped under R108 and R292 at word `w` of an image of `n` words with rows of `r` bytes. -/
def clampInstr (n r w x : Nat) : Nat :=
  let op := if opOf x = 0 then 1 else min 0x18 (opOf x)
  let a := fieldA x
  let b := fieldB x
  let mk := fun (a b : Nat) => op + 256 * a + 65536 * b
  match op with
  | 0x01 => mk 0 (min b (r - 1))
  | 0x02 => mk 0 (min (b / 2 * 2) (r - 2))
  | 0x03 => mk 0 (min (b / 4 * 4) (r - 4))
  | 0x05 => mk (min 7 a) 0
  | 0x0C => mk (min 31 a) 0
  | 0x13 => mk (max 1 a) b
  | 0x17 =>
    let b := max 1 b
    mk 0 (if n ≤ w + b then n - 1 - w else b)
  | _ => mk 0 0

/-- Words an instruction pops and pushes. -/
def stackUse (op : Nat) : Nat × Nat :=
  match op with
  | 0x01 | 0x02 | 0x03 | 0x04 | 0x05 => (0, 1)
  | 0x06 => (1, 2)
  | 0x07 => (2, 2)
  | 0x08 => (1, 0)
  | 0x0C | 0x13 | 0x14 => (1, 1)
  | 0x12 => (3, 1)
  | 0x17 => (1, 1)
  | 0x18 => (1, 0)
  | _ => (2, 1)

/-- What the traversal keeps: the stack depth at each word that a path reaches, and the first failure. -/
structure Scan where
  depth : Tbl (Option Nat) := []
  err : Option (Nat × Nat) := none

/-- A path reaches word `w` with a depth (R292, codes 3 and 4); `pushed` are the words that PUSH passes over. DESIGN CHOICE (log entry
173): code 3 names the word that the path leaves from, code 4 the word where the paths join, and the first failure is the first in the
order of the words. -/
def Scan.reach (n : Nat) (pushed : List Nat) (from' w d : Nat) (x : Scan) : Scan :=
  if x.err.isSome then x
  else if n ≤ w || pushed.contains w then { x with err := some (from', 3) }
  else match tget none x.depth w with
    | none => { x with depth := tset none x.depth w (some d) }
    | some e => if e = d then x else { x with err := some (w, 4) }

/-- The data words of the PUSH instructions that some path reaches. A path that reaches one of them is not followed there. -/
def pushData (n r : Nat) (ws : List Nat) : Nat → Nat → List Nat → List Nat → List Nat
  | 0, _, _, data => data
  | k + 1, w, reached, data =>
    if !reached.contains w || data.contains w then pushData n r ws k (w + 1) reached data
    else
      let i := clampInstr n r w (ws.getD w 0)
      match opOf i with
      | 0x04 => pushData n r ws k (w + 1) ((w + 2) :: reached) ((w + 1) :: data)
      | 0x17 => pushData n r ws k (w + 1) ((w + 1) :: (w + fieldB i) :: reached) data
      | 0x18 => pushData n r ws k (w + 1) reached data
      | _ => pushData n r ws k (w + 1) ((w + 1) :: reached) data

/-- Follow every path from word 0; jumps only go forward, so one pass in word order meets every word after all the
paths into it; `pushed` are the data words of its PUSH instructions. Returns the image with its instructions clamped. -/
def scanWords (n r : Nat) : Nat → Nat → List Nat → List Nat → Scan → List Nat × Scan
  | 0, _, ws, _, x => (ws, x)
  | k + 1, w, ws, pushed, x =>
    match tget none x.depth w with
    | none => scanWords n r k (w + 1) ws pushed x
    | some d =>
      if x.err.isSome then (ws, x)
      else
        let i := clampInstr n r w (ws.getD w 0)
        let ws := ws.set w i
        let op := opOf i
        let (pops, pushes) := stackUse op
        let d' := d - pops + pushes
        let x :=
          if d < pops then { x with err := some (w, 1) }
          else if 16 < d' then { x with err := some (w, 2) }
          else if op = 0x18 then (if d = 1 then x else { x with err := some (w, 5) })
          else if op = 0x04 then x.reach n pushed w (w + 2) d'
          else if op = 0x17 then (x.reach n pushed w (w + 1) (d - 1)).reach n pushed w (w + fieldB i) d
          else x.reach n pushed w (w + 1) d'
        scanWords n r k (w + 1) ws pushed x

/-- An IN table that fails (R292, code 6). -/
def badTable (n : Nat) (ws : List Nat) (x : Scan) (w : Nat) : Bool :=
  let i := ws.getD w 0
  let a := fieldA i
  let b := fieldB i
  let words := (ws.drop b).take a
  (tget none x.depth w).isSome && opOf i = 0x13 &&
  (n < b + a || (List.range a).any (fun j => (tget none x.depth (b + j)).isSome) ||
   !(List.zipWith (fun p q => decide (p < q)) words (words.drop 1)).all id)

/-- Check an image (R292): the clamped words, or the failing word and its code. -/
def checkProgram (ws : List Nat) (r : Nat) : Except (Nat × Nat) (List Nat) :=
  let n := ws.length
  let (ws, x) := scanWords n r n 0 ws (pushData n r ws n 0 [0] []) { depth := [(0, some 0)] }
  match x.err with
  | some e => .error e
  | none => match (List.range n).find? (badTable n ws x) with
    | some w => .error (w, 6)
    | none => .ok ws

/-! ### Evaluation (R290, R291) -/

/-- Signed comparison of 32-bit words. -/
def slt32 (a b : Nat) : Bool := ofTwos 32 a < ofTwos 32 b

/-- One binary operation: pops b, then a. -/
def binOp (op a b : Nat) : Nat :=
  match op with
  | 0x09 => (a + b) % 2 ^ 32
  | 0x0A => (a + 2 ^ 32 - b) % 2 ^ 32
  | 0x0B => a &&& b
  | 0x0D => b2n (a = b)
  | 0x0E => b2n (slt32 a b)
  | 0x0F => b2n (a < b)
  | 0x10 => b2n ((fp32.decode a).lt (fp32.decode b))
  | 0x11 => b2n ((fp32.decode a).eq (fp32.decode b))
  | 0x15 => b2n (a != 0 && b != 0)
  | _ => b2n (a != 0 || b != 0)

/-- Run a checked program on a row and the parameter words of a query: whether it accepts the pair. -/
def runProgram (ws : List Nat) (row : List Byte) (params : Nat → Nat) : Nat → Nat → List Nat → Bool
  | 0, _, _ => false
  | n + 1, w, st =>
    let i := ws.getD w 0
    let op := opOf i
    let next := runProgram ws row params n
    let top := st.headD 0
    let rest := st.drop 1
    match op with
    | 0x01 => next (w + 1) (ofLe ((row.drop (fieldB i)).take 1) :: st)
    | 0x02 => next (w + 1) (ofLe ((row.drop (fieldB i)).take 2) :: st)
    | 0x03 => next (w + 1) (ofLe ((row.drop (fieldB i)).take 4) :: st)
    | 0x04 => next (w + 2) (ws.getD (w + 1) 0 :: st)
    | 0x05 => next (w + 1) (params (fieldA i) :: st)
    | 0x06 => next (w + 1) (top :: st)
    | 0x07 => next (w + 1) (rest.headD 0 :: top :: rest.drop 1)
    | 0x08 => next (w + 1) rest
    | 0x0C => next (w + 1) (top / 2 ^ fieldA i :: rest)
    | 0x12 => match st with
      | hi :: lo :: x :: t => next (w + 1) (b2n (!slt32 x lo && !slt32 hi x) :: t)
      | _ => false
    | 0x13 => next (w + 1) (b2n (((ws.drop (fieldB i)).take (fieldA i)).contains top) :: rest)
    | 0x14 => next (w + 1) (b2n (top = 0) :: rest)
    | 0x17 => if top = 0 then next (w + fieldB i) st else next (w + 1) rest
    | 0x18 => top != 0
    | _ => next (w + 1) (binOp op (rest.headD 0) top :: rest.drop 1)

/-- Whether a program accepts a row for a query. -/
def accepts (p : Program) (row : List Byte) (params : Nat → Nat) : Bool :=
  runProgram p.words row params p.words.length 0 []

end Sys2Proof.Machine
end

