-- ==== Sys2Proof/Machine/Crypto.lean ====
section
/-! DEFINITION. Hashes, tags, keys and signatures over the standards that Config leaves uninterpreted: the byte orders and the
inputs that the spec gives them (R375, R427 to R429, R441, R446, R448, R449). -/
namespace Sys2Proof.Machine

/-! ### SM3 and its tag (R427, R448) -/

/-- `n` big-endian bytes of a number. -/
def be (n x : Nat) : List Byte := (le n x).reverse

/-- An SM3 digest as a number, its first byte highest. -/
def sm3 (bs : List Byte) : Nat := (Config.sm3 bs).toNat

/-- The bytes of an SM3 digest in the order SM3 outputs them. -/
def digestBytes (d : Nat) : List Byte := be 32 d

/-- The 64-byte block of an HMAC: the 32-byte key, zeros, and a pad over every byte. -/
def hmacBlock (key : Nat) (pad : Byte) : List Byte := (be 32 key ++ zeros 32).map (· ^^^ pad)

/-- HMAC with SM3 under a 256-bit key: a 64-byte block, a 32-byte output, as the little-endian number that a packet's last 32 bytes
spell (R448). -/
def hmacSm3 (key : Nat) (bs : List Byte) : Nat :=
  ofLe (digestBytes (sm3 (hmacBlock key 0x5C ++ digestBytes (sm3 (hmacBlock key 0x36 ++ bs)))))

/-! ### Points, keys and signatures of SM2 (R427 to R429, R441) -/

/-- The two 32-byte integers of 64 bytes on the wire: x before y, r before s (R427). -/
def pairOf (v : Nat) : Nat × Nat := (v % 2 ^ 256, v / 2 ^ 256 % 2 ^ 256)

/-- 64 bytes on the wire: each integer little-endian. -/
def pairBytes (p : Nat × Nat) : List Byte := le 32 p.1 ++ le 32 p.2

/-- The big-endian form of a point, for hash and key-derivation inputs. -/
def pointBytes (p : Nat × Nat) : List Byte := be 32 p.1 ++ be 32 p.2

/-- 64 bytes that a command carries are a point of the SM2 curve. -/
def onCurve (v : Nat) : Bool := Config.onCurve (pairOf v).1 (pairOf v).2

/-- A signature, 64 bytes on the wire, over a digest verifies under a public key. -/
def verifies (key digest sig : Nat) : Bool :=
  Config.sm2Verify (pairOf key) digest (pairOf sig).1 (pairOf sig).2

/-- The signature of the identity key over a digest, r then s. -/
def identitySign (digest nonce : Nat) : List Byte := pairBytes (Config.sm2Sign digest nonce)

/-- The serial number of the leaf certificate: 64 bits. -/
def serial : Nat := Config.serial % 2 ^ 64

/-- The certificate chain as GET_ATTESTATION returns it: the leaf, which binds the identity key to part code and serial, then the
intermediate; at most 4,096 bytes (R429, R441). -/
def certChain : List Byte := (Config.leafCert 0x4D10 serial Config.identityPublic ++ Config.issuerCert).take 4096

/-- The digest of the Varvia firmware key that the ROM holds (R431), over the key as R427 has it in hash inputs. -/
def romKeyDigest : Nat := sm3 (pointBytes (pairOf Config.firmwareKey))

/-! ### Session keys (R446) -/

/-- What the two ends of a key exchange share: V, Z_A of the host's static key, Z_B of the identity key, and both ephemeral
keys. -/
structure Exchange where
  shared : Nat × Nat
  zHost : Nat
  zDevice : Nat
  hostEph : Nat × Nat
  devEph : Nat × Nat

/-- SM3 over a party's identifier, the curve and its public key. -/
def zOf (device : Bool) (key : Nat × Nat) : Nat := sm3 (Config.zPrefix device ++ pointBytes key)

/-- The key exchange of OPEN_SESSION: the credential, EPHEMERAL_KEY and the device's draw. -/
def exchange (cred eph draw : Nat) : Exchange :=
  { shared := Config.sharedPoint (pairOf cred) (pairOf eph) draw, zHost := zOf false (pairOf cred),
    zDevice := zOf true Config.identityPublic, hostEph := pairOf eph, devEph := Config.ephemeralPoint draw }

/-- Block `n` of the standard's KDF over x_V, y_V, Z_A, Z_B, HOST_NONCE and SESSION_ID. -/
def kdfBlock (x : Exchange) (nonce id n : Nat) : List Byte :=
  digestBytes (sm3 (pointBytes x.shared ++ digestBytes x.zHost ++ digestBytes x.zDevice ++ le 16 nonce ++ le 4 id ++ be 4 n))

/-- The 384 derived bits. -/
def kdf (x : Exchange) (nonce id : Nat) : List Byte := (kdfBlock x nonce id 1 ++ kdfBlock x nonce id 2).take 48

/-- The first 256 bits are the tag key, as a number with its first byte highest, the next 128 the wrap key, first byte lowest. -/
def tagKeyOf (x : Exchange) (nonce id : Nat) : Nat := ofLe ((kdf x nonce id).take 32).reverse
def wrapKeyOf (x : Exchange) (nonce id : Nat) : Nat := ofLe ((kdf x nonce id).drop 32)

/-- S_B: SM3(0x02, y_V, SM3(x_V, Z_A, Z_B, x_1, y_1, x_2, y_2)). -/
def confirmation (x : Exchange) : List Byte :=
  let inner := digestBytes (sm3 (be 32 x.shared.1 ++ digestBytes x.zHost ++ digestBytes x.zDevice ++ pointBytes x.hostEph ++
    pointBytes x.devEph))
  digestBytes (sm3 ([0x02] ++ be 32 x.shared.2 ++ inner))

/-! ### SM4: a wrapped key, and GCM over a group of flits (R375, R449) -/

/-- One block under SM4: key and block are numbers with their first byte lowest. -/
def sm4 (key block : Nat) : Nat := (Config.sm4 (BitVec.ofNat 128 key) (BitVec.ofNat 128 block)).toNat

/-- A wrapped key decrypted under a wrap key (R449). -/
def sm4Unwrap (wrap block : Nat) : Nat := (Config.sm4Inv (BitVec.ofNat 128 wrap) (BitVec.ofNat 128 block)).toNat

/-- The counter block `n` of a 96-bit IV. -/
def counterBlock (iv n : Nat) : Nat := ofLe (le 12 iv ++ be 4 n)

/-- The key stream over body `i` of a group: 16 blocks, the group's first from counter 2 on. -/
def gcmStream (key iv i : Nat) : FlitBody :=
  BitVec.ofNat 2048 (ofLe ((List.range 16).flatMap (fun j => le 16 (sm4 key (counterBlock iv (2 + 16 * i + j))))))

/-- Product in the field of GCM, where the highest bit of a block's first byte is the coefficient of 1. -/
def gcmMul (y : BitVec 128) : Nat → BitVec 128 → BitVec 128 → BitVec 128
  | 0, _, z => z
  | n + 1, v, z =>
    gcmMul y n ((v >>> 1) ^^^ (if v.getLsbD 0 then 0xE1#128 <<< 120 else 0)) (if y.getLsbD n then z ^^^ v else z)

/-- A block of at most 16 bytes, its first byte highest, zeros after them. -/
def gcmBlock (bs : List Byte) : BitVec 128 := BitVec.ofNat 128 (ofLe ((bs ++ zeros 16).take 16).reverse)

/-- GHASH over `n` blocks of bytes. -/
def ghash (h : BitVec 128) : Nat → List Byte → BitVec 128 → BitVec 128
  | 0, _, x => x
  | n + 1, bs, x => ghash h n (bs.drop 16) (gcmMul h 128 (x ^^^ gcmBlock bs) 0)

/-- GHASH over bytes padded to whole blocks. -/
def ghashOver (h : BitVec 128) (bs : List Byte) (x : BitVec 128) : BitVec 128 := ghash h ((bs.length + 15) / 16) bs x

/-- The tag of a group: over its bodies as encrypted and the additional data, as the number of 16 bytes on the wire. -/
def gcmTag (key iv : Nat) (bodies : List FlitBody) (extra : List Byte) : Nat :=
  let h := gcmBlock (le 16 (sm4 key 0))
  let text := bodies.flatMap (fun b => le 256 b.toNat)
  let y := ghashOver h text (ghashOver h extra 0)
  let y := ghash h 1 (be 8 (8 * extra.length) ++ be 8 (8 * text.length)) y
  ofLe (be 16 (y ^^^ gcmBlock (le 16 (sm4 key (counterBlock iv 1)))).toNat)

end Sys2Proof.Machine
end

