-- ==== Sys2Proof/Machine/Flags.lean ====
section
/-! DEFINITION. The control space: where each register lies, its fields with access, reset value, class and clamp
(R11 to R18, R108), who may read and write it (R101, R111, R112), and what a read returns. -/
namespace Sys2Proof.Machine

/-! ### Owners of units (R139) -/

/-- The tenant that a binding-table entry serves: a unit in its step serves none, but a port or an EID in its step
already serves its new tenant (R139), which its entry then shows. -/
def served (inStep : Bool) (e : BindEnt) : Option Nat :=
  match e.st with
  | .bound => some e.tenant
  | .stepping => if inStep && !e.unbind then some e.newTenant else none
  | _ => none

def strandTenant (s : State) (st : Nat) : Option Nat := served false (tget {} s.bind.strand st)
def engineTenant (s : State) (c : Nat) : Option Nat := served false (tget {} s.bind.engine c)
def eidTenant (s : State) (e : Nat) : Option Nat := served true (tget {} s.bind.eid e)
def knotTenant (s : State) (k : Nat) : Option Nat := served false (tget {} s.bind.knots (k / 256))
def fqTenant (s : State) (q : Nat) : Option Nat := served false (tget {} s.bind.faultQueue q)
def wayTenant (s : State) (w : Nat) : Option Nat := served false (tget {} s.bind.coilWay w)
/-- A port serves every tenant when bound SHARED (R135). -/
def portShared (s : State) (p : Nat) : Bool :=
  let e := tget {} s.bind.port p
  match e.st with
  | .bound => e.shared
  | .stepping => e.newShared
  | _ => false
def portTenant (s : State) (p : Nat) : Option Nat :=
  if portShared s p then none else served true (tget {} s.bind.port p)
/-- Whether a port carries packets of a tenant (R135). -/
def portServes (s : State) (p t : Nat) : Bool := portShared s p || portTenant s p == some t

/-- A tenant is sealed (R155). -/
def sealedTenant (s : State) (t : Nat) : Bool := tget 0 s.bind.sealSlots t != 0

/-- The tenant of a multicast group while assigned (R386). -/
def groupTenant (s : State) (g : Nat) : Option Nat :=
  let e := tget {} s.sw.groups g
  if e.assigned then some e.tenant else none

/-! ### The lanes of a port (R34) -/

/-- A width change adds lanes 2 and 3 of the quad, or is about to stripe over them (R345). -/
def widensToQuad (x : Port) : Bool :=
  match x.widthChange with
  | some (.adding w _) | some (.switching w _ _ _ _) => w = 2
  | _ => false

/-- Slot 0 of a quad takes the whole quad. -/
def quadWhole (s : State) (quad : Nat) : Bool :=
  let p := tget {} s.link.ports (2 * quad)
  p.phase != .off &&
    ((p.phase != .lost && (p.width = 2 || widensToQuad p)) ||
      (portWidthCfg s (2 * quad) = 2 && (tget {} s.link.ports (2 * quad + 1)).phase == .off))

/-- The port that a lane belongs to. -/
def lanePort (s : State) (l : Nat) : Nat :=
  if 2 ≤ l % 4 && !quadWhole s (l / 4) then 2 * (l / 4) + 1 else 2 * (l / 4)

/-- The lanes of a port at a width. -/
def portLanes (p w : Nat) : List Nat := (List.range (widthLanes w)).map (portLane0 p + ·)

/-! ### The register map -/

/-- The register families. -/
inductive RegFam where
  | devId | inventory0 | inventory1 | bringup | resetStatus | bootStatus
  | timeCtl | timeGap | timeLinkDelay | ptpCfg | epochLo | epochHi | timeStatus | fmtLo | fmtHi | lmcLo | lmcHi
  | p1Bind | p1Stats | p1Share
  | ethCfg | ethVlan | ethIpv4 | ethIpv6 | ethMacLo | ethMacHi | ethStats0 | ethStats1 | kcpCfg
  | strandBind | engineBind | coilWayMap | portBind | eidBind | knotBind | faultqBind
  | sealCfg | dirReserve | dirUse | cohStats0 | cohStats1
  | fqBaseLo | fqBaseHi | fqSize | fqHead | fqTail | fqStatus
  | ctxCfg | engStatus | engErr
  | strandCfg | strandStatus | flipCtl | flipMask | strandErr0 | strandErr1 | rowGuard | ceLog | ceStatus | stackStatus
  | secStatus | engineMap | defectList | errFirst | errDomain | errGlobal
  | haltStatus | haltHeld | haltParked | haltLate | haltMarkLo | haltMarkHi | landingLog | dirSnapshot
  | thermalCfg | thermalStatus | railStatus
  | fbar0 | fbar1 | bightMap | belayStatus
  | intcCfg | intcVector | intcState | intcCore | intcEoi
  | portCtl | portStatus | portEid | vcCfg | retryCfg | linkStats0 | linkStats1 | linkSeal
  | laneEq | laneStatus | laneFec | laneErr
  | idemCfg | idemStatus
  | ownEidReg | routeEpoch | swCfg | swLocalWindow | swTenantQueue | weight0 | weight1 | routeV0 | routeV1
  | e2eWindow | mcastGroup
  | knotCount | knotCfg
deriving DecidableEq, Repr

/-- Where a family lies: base, stride, number of registers, and the index of the first. -/
structure RegRow where
  fam : RegFam
  base : Nat
  stride : Nat := 4
  count : Nat := 1
  first : Nat := 0

/-- Registers below 0x0003_0000 (R49 to R51, R64, R85, R93, R457, R462, R480). -/
def regRows0 : List RegRow := [
  { fam := .devId, base := 0x00000000 }, { fam := .inventory0, base := 0x00000008 },
  { fam := .inventory1, base := 0x0000000C }, { fam := .bringup, base := 0x00000010 },
  { fam := .resetStatus, base := 0x00000014 }, { fam := .bootStatus, base := 0x00000018 },
  { fam := .timeCtl, base := 0x00010000 }, { fam := .timeGap, base := 0x00010004 },
  { fam := .timeLinkDelay, base := 0x00010008 }, { fam := .ptpCfg, base := 0x0001000C },
  { fam := .epochLo, base := 0x00010010 }, { fam := .epochHi, base := 0x00010014 },
  { fam := .timeStatus, base := 0x00010018 }, { fam := .fmtLo, base := 0x00010020 },
  { fam := .fmtHi, base := 0x00010024 }, { fam := .lmcLo, base := 0x00010028 }, { fam := .lmcHi, base := 0x0001002C },
  { fam := .p1Bind, base := 0x00010100, count := 32 }, { fam := .p1Stats, base := 0x00010200, count := 32 },
  { fam := .p1Share, base := 0x00011000, count := 3072 },
  { fam := .ethCfg, base := 0x00020000, stride := 0x100, count := 2 },
  { fam := .ethVlan, base := 0x00020004, stride := 0x100, count := 2 },
  { fam := .ethIpv4, base := 0x00020008, stride := 0x100, count := 2 },
  { fam := .ethIpv6, base := 0x00020010, count := 4 }, { fam := .ethIpv6, base := 0x00020110, count := 4, first := 4 },
  { fam := .ethMacLo, base := 0x00020020, stride := 0x100, count := 2 },
  { fam := .ethMacHi, base := 0x00020024, stride := 0x100, count := 2 },
  { fam := .ethStats0, base := 0x00020030, stride := 0x100, count := 2 },
  { fam := .ethStats1, base := 0x00020034, stride := 0x100, count := 2 },
  { fam := .kcpCfg, base := 0x00020200 } ]

/-- Registers of 0x0003_0000 to 0x0008_FFFF (R139, R152, R155, R179, R229, R234, R238, R266, R426, R454, R466, R467). -/
def regRows1 : List RegRow := [
  { fam := .strandBind, base := 0x00030000, count := 512 }, { fam := .engineBind, base := 0x00031000, count := 2048 },
  { fam := .coilWayMap, base := 0x00033000, count := 32 }, { fam := .portBind, base := 0x00033100, count := 96 },
  { fam := .eidBind, base := 0x00034000, count := 4096 }, { fam := .knotBind, base := 0x00038000, count := 256 },
  { fam := .faultqBind, base := 0x00038400, count := 64 }, { fam := .sealCfg, base := 0x00038500, count := 32 },
  { fam := .dirReserve, base := 0x00038600, count := 32 }, { fam := .dirUse, base := 0x00038800, count := 128 },
  { fam := .cohStats0, base := 0x00038A00, stride := 8, count := 32 },
  { fam := .cohStats1, base := 0x00038A04, stride := 8, count := 32 },
  { fam := .fqBaseLo, base := 0x0003A000, stride := 0x20, count := 64 },
  { fam := .fqBaseHi, base := 0x0003A004, stride := 0x20, count := 64 },
  { fam := .fqSize, base := 0x0003A008, stride := 0x20, count := 64 },
  { fam := .fqHead, base := 0x0003A00C, stride := 0x20, count := 64 },
  { fam := .fqTail, base := 0x0003A010, stride := 0x20, count := 64 },
  { fam := .fqStatus, base := 0x0003A014, stride := 0x20, count := 64 },
  { fam := .ctxCfg, base := 0x00040000, count := 2048 }, { fam := .engStatus, base := 0x00042000, count := 2048 },
  { fam := .engErr, base := 0x00044000, count := 2048 },
  { fam := .strandCfg, base := 0x00060000, stride := 0x20, count := 512 },
  { fam := .strandStatus, base := 0x00060004, stride := 0x20, count := 512 },
  { fam := .flipCtl, base := 0x00060008, stride := 0x20, count := 512 },
  { fam := .flipMask, base := 0x0006000C, stride := 0x20, count := 512 },
  { fam := .strandErr0, base := 0x00060010, stride := 0x20, count := 512 },
  { fam := .strandErr1, base := 0x00060014, stride := 0x20, count := 512 },
  { fam := .rowGuard, base := 0x00060018, stride := 0x20, count := 512 },
  { fam := .ceLog, base := 0x00068000, count := 4096 }, { fam := .ceStatus, base := 0x0006C000, count := 16 },
  { fam := .stackStatus, base := 0x0006C040, count := 16 }, { fam := .secStatus, base := 0x00070000 },
  { fam := .engineMap, base := 0x00080000, count := 2048 }, { fam := .defectList, base := 0x00084000, count := 2048 } ]

/-- Registers of 0x0009_0000 to 0x000F_FFFF (R317, R320, R324, R486, R508, R511, R535, R546). -/
def regRows2 : List RegRow := [
  { fam := .errFirst, base := 0x00090000, count := 160 }, { fam := .errDomain, base := 0x00090400, count := 10 },
  { fam := .errGlobal, base := 0x00090440 }, { fam := .haltStatus, base := 0x00090800 },
  { fam := .haltHeld, base := 0x00090804 }, { fam := .haltParked, base := 0x00090808 },
  { fam := .haltLate, base := 0x0009080C }, { fam := .haltMarkLo, base := 0x00090810 },
  { fam := .haltMarkHi, base := 0x00090814 }, { fam := .thermalCfg, base := 0x000B0000 },
  { fam := .thermalStatus, base := 0x000B0010, count := 4 }, { fam := .railStatus, base := 0x000B0020 },
  { fam := .fbar0, base := 0x000D0000, stride := 8, count := 4096 },
  { fam := .fbar1, base := 0x000D0004, stride := 8, count := 4096 },
  { fam := .bightMap, base := 0x000E0000, count := 16 }, { fam := .belayStatus, base := 0x000E0100, count := 32 },
  { fam := .intcCfg, base := 0x000F0000, stride := 8, count := 1024 },
  { fam := .intcVector, base := 0x000F0004, stride := 8, count := 1024 },
  { fam := .intcState, base := 0x000F4000, count := 1024 }, { fam := .intcCore, base := 0x000F8000, count := 8 },
  { fam := .intcEoi, base := 0x000F8100, count := 8 },
  { fam := .landingLog, base := 0x00A00000, count := 1048576 },
  { fam := .dirSnapshot, base := 0x40000000, count := 33554432 } ]

/-- Registers of 0x0010_0000 upward (R303, R349, R373, R378, R401). -/
def regRows3 : List RegRow := [
  { fam := .portCtl, base := 0x00100000, stride := 0x20, count := 96 },
  { fam := .portStatus, base := 0x00100004, stride := 0x20, count := 96 },
  { fam := .portEid, base := 0x00100008, stride := 0x20, count := 96 },
  { fam := .vcCfg, base := 0x0010000C, stride := 0x20, count := 96 },
  { fam := .retryCfg, base := 0x00100010, stride := 0x20, count := 96 },
  { fam := .linkStats0, base := 0x00100014, stride := 0x20, count := 96 },
  { fam := .linkStats1, base := 0x00100018, stride := 0x20, count := 96 },
  { fam := .linkSeal, base := 0x0010001C, stride := 0x20, count := 96 },
  { fam := .laneEq, base := 0x00101000, stride := 0x10, count := 192 },
  { fam := .laneStatus, base := 0x00101004, stride := 0x10, count := 192 },
  { fam := .laneFec, base := 0x00101008, stride := 0x10, count := 192 },
  { fam := .laneErr, base := 0x0010100C, stride := 0x10, count := 192 },
  { fam := .idemCfg, base := 0x00102000 }, { fam := .idemStatus, base := 0x00102010, count := 4 },
  { fam := .ownEidReg, base := 0x00110000, count := 4 }, { fam := .routeEpoch, base := 0x00110010 },
  { fam := .swCfg, base := 0x00110014 }, { fam := .swLocalWindow, base := 0x00110018 },
  { fam := .swTenantQueue, base := 0x00110100, count := 32 },
  { fam := .weight0, base := 0x00110200, stride := 8, count := 96 },
  { fam := .weight1, base := 0x00110204, stride := 8, count := 96 },
  { fam := .routeV0, base := 0x00114000, count := 4096 }, { fam := .routeV1, base := 0x00118000, count := 4096 },
  { fam := .e2eWindow, base := 0x0011C000, count := 4096 }, { fam := .mcastGroup, base := 0x00120000, count := 16384 },
  { fam := .knotCount, base := 0x00140000, stride := 8, count := 65536 },
  { fam := .knotCfg, base := 0x00140004, stride := 8, count := 65536 } ]

/-- Whether a row holds an offset, and which register of the family it is. -/
def RegRow.hit (r : RegRow) (off : Nat) : Option (RegFam × Nat) :=
  if r.base ≤ off && (off - r.base) % r.stride = 0 && (off - r.base) / r.stride < r.count then
    some (r.fam, (off - r.base) / r.stride + r.first) else none

/-- The register at an offset. -/
def locate (off : Nat) : Option (RegFam × Nat) :=
  (if off < 0x00030000 then regRows0 else if off < 0x00090000 then regRows1
   else if off < 0x00100000 || 0x00A00000 ≤ off then regRows2 else regRows3).findSome? (fun r => r.hit off)

/-! ### Fields -/

/-- Access of a field (R12). `kept` is RO that the device sets by itself and State.fields holds; every other RO field
is computed from the state. -/
inductive Acc where
  | rw | rc | wo | kept
deriving DecidableEq, Repr

/-- A stored field: lowest bit, width, access, reset value and class. -/
structure Fld where
  lo : Nat
  w : Nat
  acc : Acc := .rw
  reset : Nat := 0
  cls : FClass := .live

/-- An RC field with reset value zero. -/
def rcF (lo w : Nat) : Fld := { lo := lo, w := w, acc := .rc }

/-- The stored fields of each register, from the field maps. -/
def fieldsOf (f : RegFam) (i : Nat) : List Fld :=
  match f with
  | .timeCtl => [{ lo := 30, w := 2 }, { lo := 23, w := 7 }, { lo := 16, w := 7, reset := 2 },
                 { lo := 12, w := 4, reset := 8 }]
  | .timeGap => [{ lo := 0, w := 16, reset := 0x40 }]
  | .timeLinkDelay => [{ lo := 0, w := 16 }]
  | .ptpCfg => [{ lo := 8, w := 2, cls := .held }, { lo := 0, w := 8, cls := .held }]
  | .epochLo => [{ lo := 0, w := 32, cls := .held }]
  | .epochHi => [{ lo := 0, w := 16, cls := .held }]
  | .p1Bind => [{ lo := 31, w := 1 }, { lo := 0, w := 11, reset := 0x18 }]
  | .p1Stats => [{ lo := 16, w := 16, acc := .kept }, { lo := 0, w := 16, acc := .kept }]
  | .p1Share => [{ lo := 0, w := 6 }]
  | .ethCfg => [{ lo := 31, w := 1, reset := 1 }, { lo := 30, w := 1, cls := .edge },
                { lo := 29, w := 1, reset := 1, cls := .edge }, { lo := 0, w := 16, reset := 0xBA07, cls := .edge }]
  | .ethVlan => [{ lo := 29, w := 3, reset := 3, cls := .edge }, { lo := 0, w := 12, cls := .edge }]
  | .ethIpv4 => [{ lo := 0, w := 32, cls := .edge }]
  | .ethIpv6 => [{ lo := 0, w := 32, cls := .edge }]
  | .ethMacLo => [{ lo := 0, w := 32, reset := Config.mac i % 0x100000000, cls := .edge }]
  | .ethMacHi => [{ lo := 0, w := 16, reset := Config.mac i / 0x100000000 % 0x10000, cls := .edge }]
  | .ethStats0 => [rcF 16 16, rcF 0 16]
  | .ethStats1 => [rcF 16 16, rcF 0 16]
  | .kcpCfg => [{ lo := 8, w := 16, reset := 0x10 }, { lo := 0, w := 8, reset := 0x40 }]
  | .dirReserve => [{ lo := 24, w := 8 }, { lo := 16, w := 8 }, { lo := 8, w := 8 }, { lo := 0, w := 8 }]
  | .cohStats0 => [rcF 16 16, rcF 0 16]
  | .cohStats1 => [rcF 16 16, rcF 0 16]
  | .fqBaseLo => [{ lo := 7, w := 25, cls := .held }]
  | .fqBaseHi => [{ lo := 0, w := 9, cls := .held }]
  | .fqSize => [{ lo := 31, w := 1, cls := .held }, { lo := 0, w := 4, reset := 4, cls := .held }]
  | .fqHead => [{ lo := 0, w := 16 }]
  | .fqStatus => [rcF 16 16]
  | .ctxCfg => [{ lo := 0, w := 2, reset := 3, cls := .held }]
  | .engErr => [rcF 16 16, rcF 8 8, rcF 0 8]
  | .strandCfg => [{ lo := 30, w := 2, cls := .edge }, { lo := 28, w := 2 }, { lo := 27, w := 1, reset := 1 },
                   { lo := 24, w := 3, reset := 1 }, { lo := 0, w := 16, reset := 0x400 }]
  | .flipCtl => [{ lo := 30, w := 2, cls := .edge }, { lo := 29, w := 1, acc := .kept }]
  | .flipMask => [{ lo := 0, w := 32, reset := 1, cls := .edge }]
  | .strandErr0 => [rcF 16 16, rcF 0 16]
  | .strandErr1 => [rcF 16 16, rcF 0 16]
  | .rowGuard => [rcF 16 16, { lo := 0, w := 16, acc := .kept }]
  | .ceStatus => [rcF 16 16]
  | .errDomain => [rcF 0 16]
  | .thermalCfg => [{ lo := 24, w := 8, reset := 0x64 }, { lo := 16, w := 8, reset := 0x5F },
                    { lo := 0, w := 9, reset := 0x12C }]
  | .fbar0 => [{ lo := 31, w := 1, cls := .edge }, { lo := 30, w := 1, cls := .held },
               { lo := 29, w := 1, cls := .held }, { lo := 16, w := 7, reset := 1, cls := .held },
               { lo := 0, w := 16, cls := .held }]
  | .fbar1 => [{ lo := 16, w := 16, acc := .kept }, { lo := 0, w := 12, cls := .held }]
  | .bightMap => [{ lo := 0, w := 5, cls := .held }]
  | .belayStatus => [rcF 16 16, rcF 8 8, rcF 0 8]
  | .intcCfg => [{ lo := 31, w := 1, cls := .edge }, { lo := 24, w := 4, reset := 8, cls := .edge },
                 { lo := 0, w := 9, reset := 0x100, cls := .edge }]
  | .intcVector => [{ lo := 0, w := 32, cls := .edge }]
  | .intcState => [rcF 16 16]
  | .intcCore => [rcF 0 16]
  | .intcEoi => [{ lo := 0, w := 10, acc := .wo }]
  | .portCtl => [{ lo := 30, w := 2, reset := 2, cls := .held }, { lo := 27, w := 3, reset := 4, cls := .held },
                 { lo := 26, w := 1 }, { lo := 25, w := 1 }, { lo := 0, w := 16, reset := 0x400, cls := .held }]
  | .portEid => [{ lo := 0, w := 12, cls := .held }]
  | .vcCfg => [{ lo := 20, w := 10, reset := 0x20, cls := .held }, { lo := 10, w := 10, reset := 0x1E0, cls := .held },
               { lo := 0, w := 10, reset := 0x200, cls := .held }]
  | .retryCfg => [{ lo := 24, w := 8, reset := 8 }, { lo := 16, w := 8, reset := 0x10 },
                  { lo := 12, w := 4, reset := 8 }, { lo := 0, w := 12, reset := 0x100 }]
  | .linkStats0 => [rcF 16 16, rcF 0 16]
  | .linkStats1 => [rcF 16 16, rcF 8 8, rcF 0 8]
  | .linkSeal => [{ lo := 31, w := 1, cls := .held }, rcF 0 16]
  | .laneEq => [{ lo := 31, w := 1, cls := .held }, { lo := 8, w := 5, cls := .held }, { lo := 0, w := 4, cls := .held }]
  | .laneFec => [rcF 0 32]
  | .laneErr => [rcF 16 16, rcF 8 8, rcF 0 8]
  | .idemCfg => [{ lo := 0, w := 16, reset := 0x40 }]
  | .idemStatus => [rcF 16 16, rcF 0 16]
  | .ownEidReg => [{ lo := 31, w := 1, reset := if i = 0 then 1 else 0, cls := .edge }, { lo := 0, w := 12, cls := .edge }]
  | .routeEpoch => [{ lo := 0, w := 16, reset := 0x400 }]
  | .swCfg => [{ lo := 16, w := 16, reset := 0x80 }, { lo := 0, w := 16, reset := 0x400 }]
  | .swLocalWindow => [{ lo := 0, w := 16, reset := 0x100 }]
  | .swTenantQueue => [{ lo := 0, w := 3, cls := .edge }]
  | .weight0 => [{ lo := 24, w := 8, reset := 1, cls := .edge }, { lo := 16, w := 8, reset := 1, cls := .edge },
                 { lo := 8, w := 8, reset := 1, cls := .edge }, { lo := 0, w := 8, reset := 1, cls := .edge }]
  | .weight1 => [{ lo := 16, w := 11, cls := .edge }, { lo := 8, w := 8, reset := 1, cls := .edge },
                 { lo := 0, w := 8, reset := 1, cls := .edge }]
  | .e2eWindow => [{ lo := 16, w := 16, reset := 0x80 }, { lo := 0, w := 16, reset := 0x40 }]
  | .knotCfg => [{ lo := 31, w := 1, cls := .edge }, { lo := 30, w := 1, cls := .edge },
                 { lo := 29, w := 1, acc := .wo, cls := .edge }, { lo := 0, w := 24, reset := 1, cls := .edge }]
  | _ => []

/-- The field of a register at a bit. -/
def fieldAt (f : RegFam) (i lo : Nat) : Option Fld := (fieldsOf f i).find? (fun x => x.lo == lo)

/-- The value of a stored field in force. The knots' fields live with the knots, and LANE_TX_EQ reads the taps in
force (R349). -/
def inForce (s : State) (f : RegFam) (i off : Nat) (x : Fld) : Nat :=
  match f with
  | .knotCfg =>
    let k := tget {} s.belay.knots i
    if x.lo = 31 then b2n k.armed else if x.lo = 30 then b2n k.reload else k.target
  | .laneEq =>
    let l := tget {} s.link.lanes i
    if x.lo = 8 then l.post else if x.lo = 0 then l.pre else getField off x.lo x.reset s
  | _ => getField off x.lo x.reset s

/-- The value last accepted (R16): the waiting write, or the value in force. -/
def accepted (s : State) (f : RegFam) (i off : Nat) (x : Fld) : Nat :=
  match s.waiting.find? (fun w => w.offset == off && w.lo == x.lo) with
  | some w => w.value
  | none => inForce s f i off x

/-- A register with a HELD write pending (R16, R111). -/
def pendingAt (s : State) (off : Nat) : Bool := s.waiting.any (fun w => w.offset == off && w.cls == .held)

/-! ### Fields computed from the state -/

/-- STATE of a binding-table entry (R139). -/
def bindStateCode (e : BindEnt) : Nat :=
  if e.isLost then 3 else
  match e.st with
  | .unbound => 0
  | .bound => 1
  | .stepping => 2
  | .lost => 3

/-- A binding-table register (R139). -/
def bindWord (s : State) (k : UnitKind) (e : BindEnt) : Nat :=
  let isPort : Bool := k == .port
  let early : Bool := k == .port || k == .eid
  let t := if e.st == .stepping && early then (if e.unbind then 0 else e.newTenant)
    else if e.st == .bound then e.tenant else 0
  let sh := isPort && (if e.st == .stepping then e.newShared else e.st == .bound && e.shared)
  bindStateCode e <<< 30 ||| b2n sh <<< 29 |||
    b2n (!sh && sealedTenant s t) <<< 28 |||
    (if k == .strand then (e.epoch % 65536) <<< 5 else 0) ||| t

/-- Directory entries of a tenant in a quadrant (R229). -/
def dirCount (s : State) (t q : Nat) (bcast : Bool) : Nat :=
  s.coh.dir.countP (fun e => lineQuadrant e.1 == q && (match e.2 with
    | some d => d.tenant == t && (!bcast || d.mode == .broadcast)
    | none => false))

/-- Contexts of a core that hold a share. -/
def coreCtxs (c : Core) : List (Nat × Ctx) := c.ctxs.filterMap (fun e => e.2.map (fun x => (e.1, x)))

/-- Whether a context waits at a gate for a knot (R312: kinds 1 and 2 are a knot gate). -/
def gateWaitsKnot (x : Ctx) (k : Nat) : Bool :=
  match x.phase with
  | .gate _ => let g := tget {} x.share.gates x.stage; g.kind == 1 && g.select == k
  | _ => false

/-- BELAY_KNOT_CFG.WAITING (R303). -/
def knotAwaited (s : State) (k : Nat) : Bool :=
  s.eng.cores.any (fun e => (coreCtxs e.2).any (fun x => gateWaitsKnot x.2 k))

/-- The two words of a knot as registers and KNOT_READ show them (R303). -/
def knotCfgWord (s : State) (k : Nat) : Nat :=
  let x := tget {} s.belay.knots k
  b2n x.armed <<< 31 ||| b2n x.reload <<< 30 ||| b2n x.fired <<< 28 ||| b2n x.overflow <<< 27 |||
    b2n (knotAwaited s k) <<< 26 ||| x.target

/-- Packets held stamped with the inactive routing version (R385, R401), the copies of a multicast packet as one: in receive
buffers, whole or still arriving, at the home in trackers, behind walks and behind idempotency records, and at the egress ports. -/
def oldHeld (s : State) : Nat :=
  let old := fun (h : PktHdr) => h.epoch != s.sw.active
  let leaving := s.halt.held.map (·.2.2) ++ s.link.ports.flatMap (fun e => e.2.tx.queue.map (·.2.2) ++
    (e.2.tx.inProgress.map (·.1)).toList)
  let copies := leaving.filter (fun k => old k.hdr && k.hdr.mcast)
  let atPorts := s.link.ports.foldl (fun n e =>
    n + e.2.rx.arrived.countP (fun r => old r.pkt.hdr) + b2n (e.2.rx.head.any (fun x => old x.1 && !x.2.started))) 0 +
    leaving.countP (fun k => old k.hdr && !k.hdr.mcast) +
    (copies.map (fun k => (k.buffer, k.hdr.group, k.hdr.tag))).dedup.length
  let atHome := s.coh.trackers.countP (fun t => old t.hdr && (match t.who with
    | .link _ _ _ => true
    | _ => false))
  let atWalks := s.xlat.walks.foldl (fun n w => n + w.waiters.countP (fun x => match x with
    | .link rx _ _ => old rx.hdr && rx.hdr.code != 6 && rx.hdr.code != 7
    | _ => false)) 0
  let atIdem := s.coh.idem.foldl (fun n r => n + r.waiting.countP (fun x => old x.1.hdr)) 0
  atPorts + atHome + atWalks + atIdem

/-- Running priority of a control core (R530): the highest PRIORITY of the sources active on it. -/
def runningPriority (s : State) (core : Nat) : Nat :=
  s.intc.sources.foldl (fun m e =>
    match e.2.st with
    | .active | .activePending => if e.2.core = core then max m (intPriority s e.1) else m
    | _ => m) 0

def nested (s : State) (core : Nat) : Nat :=
  s.intc.sources.countP (fun e => e.2.core == core && (e.2.st == .active || e.2.st == .activePending))

/-- A control core is in service (R530): not in reset, fenced or listed. -/
def coreInService (s : State) (core : Nat) : Bool := core < 8 && !s.intc.outOfService.contains core

/-- The running contexts of a core. -/
def runningCtxs (s : State) (c : Nat) : Nat := (coreCtxs (tget {} s.eng.cores c)).length

def throttleLevel (s : State) (q : Nat) : Nat := tget 0 s.pwr.level q

def haltCode : HaltState → Nat
  | .running => 0
  | .armed => 1
  | .landing => 2
  | .halted => 3
  | .resuming => 4

def timeCode : TState → Nat
  | .unset => 0
  | .locked => 1
  | .holdover => 2
  | .lost => 3

def powerCode : Power → Nat
  | .selfRefresh => 0
  | .active => 1
  | .training => 2
  | .failed => 3

/-- Bytes of a landing log record (R511). -/
def landBytes (r : LandRec) : List Byte :=
  le 1 r.hdr.code ++ le 1 (r.hdr.cls % 4 + 4 * b2n r.late + 8 * b2n r.afterM) ++ le 1 r.port ++ le 1 0 ++
  le 2 r.hdr.src ++ le 2 r.hdr.dst ++ le 2 r.hdr.tag ++ le 1 r.hdr.granules ++ le 1 0 ++ le 4 r.hdr.idem ++
  le 8 r.hdr.addr ++ le 8 r.fmt

/-- Sealed extents a tenant holds (R454). -/
def sealedExtents (s : State) (t : Nat) : Nat :=
  s.bind.extents.countP (fun e => e.tenant == t && (match e.sealing with
    | some x => x.sealedAt.isSome
    | none => false))

/-- The enrolled credential slots of a tenant; the operator's slot 0 is fused (R444, R454). -/
def credMask (s : State) (t : Nat) : Nat :=
  (List.range 4).foldl (fun m i => if (t = 0 && i = 0) || (tget none s.sec.creds (4 * t + i)).isSome then m + 2 ^ i else m) 0

/-- A quadrant is in this start's inventory and out of partition reset. -/
def quadrantRuns (s : State) (q : Nat) : Bool :=
  bit s.boot.quadrants q && !s.boot.resets.any (fun r => r.scope == 2 && r.target == q)

/-- Quadrants that are out of reset and serving (R51). -/
def quadrantsServing (s : State) : Nat :=
  (List.range 4).foldl (fun m q => if quadrantRuns s q then m + 2 ^ q else m) 0

/-- A quadrant that CHECK_POWER or LOCK_CLOCKS has reported bad, or that is listed, is excluded from this start (R458,
R464). -/
def quadrantOut (s : State) (q : Nat) : Bool :=
  !bit s.boot.quadrants q || (2 ≤ s.boot.stage && !bit s.boot.powerOk q) || (3 ≤ s.boot.stage && !bit s.boot.clocksOn q)

/-- A port that is ABSENT (R465, R476). -/
def portAbsent (s : State) (p : Nat) : Bool := (tget {} s.bind.port p).isLost || quadrantOut s (portQuadrant p)

/-- A port whose quadrant is not held in partition reset: only then can it train (R478). -/
def portFree (s : State) (p : Nat) : Bool := !quadrantOut s (portQuadrant p) && quadrantRuns s (portQuadrant p)

/-- A knot of an ABSENT block (R465, R476). -/
def knotAbsent (s : State) (k : Nat) : Bool := (tget {} s.bind.knots (k / 256)).isLost

/-- A directory entry as its 128 bits (R214). The spec fixes neither the check nor how AGE counts: both are free values
(log entry 13). -/
def dirWord (s : State) (line : Nat) (d : DirEnt) : Nat :=
  let ptr := fun k => match d.ptrs[k]? with
    | some e => 4096 + e % 4096
    | none => 0
  let mode := match d.mode with
    | .shared => 0
    | .owned => 1
    | .broadcast => 2
  let b := (Config.dirAge d.age s.coh.nextAge % 256) <<< 104 ||| ptr 2 <<< 85 ||| ptr 1 <<< 72 ||| ptr 0 <<< 59 |||
    (line % 2 ^ 32) <<< 27 ||| d.tenant <<< 22 ||| b2n d.reserve <<< 21 ||| mode <<< 1 ||| 1
  let check := Config.dirCheck b % 65536
  (if d.bad then (check + 1) % 65536 else check) <<< 112 ||| b

/-- A word of the directory snapshot (R508): in the halted state, of the entry that stands at a place of a slice. Which
entry stands at which place is the device's own (log entry 13). -/
def snapshotWord (s : State) (i : Nat) : Nat :=
  if s.halt.st != .halted then 0
  else
    let q := i / 8388608
    let es := s.coh.dir.filterMap (fun e => match e.2 with
      | some d => if lineQuadrant e.1 = q then some (e.1, d) else none
      | none => none)
    match es[Config.dirRank q (i / 4 % 2097152)]? with
    | some e => bits (dirWord s e.1 e.2) (32 * (i % 4)) 32
    | none => 0

/-- The read-only fields of a register that are computed from the state, as the calling tenant sees them. -/
def roWord (s : State) (t : Nat) (f : RegFam) (i : Nat) : Nat :=
  match f with
  | .devId => 0x4D10 <<< 16 ||| (Config.steppingMajor % 16) <<< 12 ||| (Config.steppingMinor % 16) <<< 8
  | .inventory0 => s.boot.engineCores <<< 20 ||| s.boot.strandCount <<< 10 ||| s.boot.ports <<< 3
  | .inventory1 => s.boot.stacksPresent <<< 16 ||| quadrantsServing s <<< 12 |||
      (if t = 0 then s.boot.coresLost % 4096 else 0)
  | .bringup => s.boot.stage <<< 28 ||| b2n (1024 ≤ s.boot.defects.length) <<< 27 |||
      min 1024 s.boot.defects.length <<< 16 ||| s.boot.startCount % 65536
  | .resetStatus => s.boot.lastScope <<< 30 ||| s.boot.lastPhase <<< 27 ||| s.boot.lastTarget <<< 16 |||
      min 0xFFFF s.boot.resetCount
  | .bootStatus => s.boot.slot <<< 31 ||| b2n s.boot.aFailed <<< 30 ||| b2n s.boot.bFailed <<< 29 |||
      b2n s.boot.inRom <<< 28 ||| s.sec.controlVersion % 65536
  | .timeStatus => timeCode s.time.st <<< 30 ||| b2n (s.time.srcHoldover && timeSrc s < 2) <<< 29 ||| b2n s.time.admitOpen <<< 28 |||
      s.time.rejects % 65536
  | .fmtLo => fmt s % 0x100000000
  | .fmtHi => s.time.fmtHiLatch
  | .lmcLo => lmc s % 0x100000000
  | .lmcHi => s.time.lmcHiLatch
  | .strandBind => bindWord s .strand (tget {} s.bind.strand i)
  | .engineBind => bindWord s .engine (tget {} s.bind.engine i)
  | .coilWayMap => bindWord s .coilWay (tget {} s.bind.coilWay i)
  | .portBind => bindWord s .port (tget {} s.bind.port i)
  | .eidBind => bindWord s .eid (tget {} s.bind.eid i)
  | .knotBind => bindWord s .knots (tget {} s.bind.knots i)
  | .faultqBind => bindWord s .faultQueue (tget {} s.bind.faultQueue i)
  | .sealCfg => b2n (sealedTenant s i) <<< 31 ||| tget 0 s.bind.sealSlots i
  | .dirUse => (dirCount s (i / 4) (i % 4) true / 2048) <<< 22 ||| dirCount s (i / 4) (i % 4) false
  | .fqTail => ((tget {} s.xlat.queues i).phase % 2) <<< 16 ||| (tget {} s.xlat.queues i).tail
  | .fqStatus => b2n (tget {} s.xlat.queues i).badRing
  | .engStatus =>
    let c := tget {} s.eng.cores i
    (coreCtxs c).length <<< 28 ||| (coreCtxs c).countP (fun x => match x.2.phase with
      | .fault _ => true
      | _ => false) <<< 24 ||| c.queue.length <<< 18 |||
      ctxLog s i <<< 16 ||| b2n (throttleLevel s (coreQuadrant i) != 0) <<< 15
  | .strandStatus =>
    let x := tget {} s.mem.strands i
    powerCode x.power <<< 30 ||| b2n (refreshRate s i = 2 || (refreshRate s i = 0 && x.hot)) <<< 29 ||| b2n x.trained <<< 28
  | .ceLog =>
    match tget none s.mem.ceLog (i / 4) with
    | none => 0
    | some e => match i % 4 with
      | 0 => e.ppa % 0x100000000
      | 1 => 1 <<< 14 ||| (e.source % 8) <<< 11 ||| (e.refetches % 4) <<< 9 ||| e.ppa / 0x100000000 % 512
      | 2 => e.fmt % 0x100000000
      | _ => e.fmt / 0x100000000
  | .ceStatus => tget 0 s.mem.ceNext i
  | .stackStatus => tget 0 s.mem.temp i
  | .secStatus => b2n s.sec.rngOk <<< 31 ||| b2n (tget none s.sec.ext 6).isSome <<< 30 |||
      b2n (tget none s.sec.ext 7).isSome <<< 29 ||| sealedExtents s t <<< 16 |||
      s.kcp.sessions.countP (fun x => x.tenant == t) <<< 8 ||| credMask s t
  | .engineMap =>
    let c := tget {} s.eng.cores i
    (match c.map with
      | .inService => 0
      | .heldInBoot => 1
      | .rehoming => 2
      | .lost => 3) <<< 30 ||| b2n c.rehomed <<< 29 ||| b2n c.absent <<< 28 ||| c.physical
  | .defectList => match s.boot.defects[i / 2]? with
    | some e => if i % 2 = 0 then e.start % 0x100000000
      else (e.kind % 16) <<< 28 ||| (e.cause % 16) <<< 24 ||| (e.physical % 4096) <<< 12 ||| 1
    | none => 0
  | .errFirst => match tget none s.err.first (i / 16) with
    | some r => pnum (recBytes r) (4 * (i % 16)) 4
    | none => 0
  | .errDomain => b2n (tget none s.err.first i).isSome <<< 31 ||| (tget [] s.err.queues i).length <<< 22
  | .errGlobal => b2n (!s.err.order.isEmpty) <<< 31 ||| b2n s.err.fatal <<< 30 ||| s.err.order.headD 0
  | .haltStatus => haltCode s.halt.st <<< 29 ||| b2n (131072 ≤ s.halt.log.length) <<< 28 ||| min 131072 s.halt.log.length
  | .haltHeld => s.halt.heldCount
  | .haltParked => s.halt.parkedCount % 0x100000000
  | .haltLate => min 0xFFFF s.halt.late <<< 16 ||| min 0xFFFF s.halt.afterM
  | .haltMarkLo => s.halt.mark % 0x100000000
  | .haltMarkHi => s.halt.mark / 0x100000000
  | .dirSnapshot => snapshotWord s i
  | .landingLog => match s.halt.log[i / 8]? with
    | some r => pnum (landBytes r) (4 * (i % 8)) 4
    | none => 0
  | .thermalStatus =>
    let x := tget ⟨0, 0, 0⟩ s.pwr.thermal i
    min 255 x.die <<< 24 ||| min 255 x.stack <<< 16 ||| min 255 (x.amps / 2) <<< 8 ||| throttleLevel s i
  | .railStatus => s.pwr.railsOk % 2 ^ 28
  | .bightMap => b2n (tget 0 s.belay.holders i != 0) <<< 31
  | .intcState =>
    let x := tget {} s.intc.sources i
    (match x.st with
      | .active | .activePending => x.core <<< 4
      | _ => 0) ||| (match x.st with
      | .inactive => 0
      | .pending => 1
      | .active => 2
      | .activePending => 3)
  | .intcCore => b2n (coreInService s i) <<< 31 ||| runningPriority s i <<< 20 ||| min 15 (nested s i) <<< 16
  | .portStatus =>
    let x := tget {} s.link.ports i
    let up := portUp s i
    portState x <<< 29 ||| (if up then x.rate else 0) <<< 26 ||| (if up then x.width else 0) <<< 24 |||
      phaseCode x.phase <<< 20 ||| (if up then x.lanesOk else 0) <<< 16 ||| (x.partnerClass % 16) <<< 12 |||
      (if up then x.partnerEid else 0)
  | .linkSeal =>
    let x := tget {} s.link.ports i
    b2n x.sealActive <<< 30 ||| (x.keyTx % 2) <<< 29 ||| (x.keyRx % 2) <<< 28
  | .laneEq =>
    let x := tget {} s.link.lanes i
    (48 - x.pre - x.post) <<< 16
  | .laneStatus =>
    let x := tget {} s.link.lanes i
    b2n x.cwLock <<< 31 ||| b2n x.blockLock <<< 30 ||| b2n x.deskewed <<< 29 ||| b2n x.polarityInv <<< 28 |||
      (x.skew % 256) <<< 16
  | .routeEpoch => s.sw.active <<< 31 ||| b2n s.sw.drained <<< 30 ||| b2n (s.kcp.running.any (fun r => r.wait == .load 0 || r.wait == .load 1)) <<< 29 |||
      min 0x1FFF (oldHeld s) <<< 16
  | .routeV0 => let e := tget 0 s.sw.routes0 i; if e = 0 then 0 else 1 <<< 31 ||| (e - 1)
  | .routeV1 => let e := tget 0 s.sw.routes1 i; if e = 0 then 0 else 1 <<< 31 ||| (e - 1)
  | .mcastGroup =>
    let g := tget {} s.sw.groups (i / 4)
    if i % 4 < 3 then bits g.mask (32 * (i % 4)) 32
    else b2n g.assigned <<< 31 ||| g.tenant <<< 24 ||| g.members
  | .knotCount => (tget {} s.belay.knots i).count
  | .knotCfg => knotCfgWord s i &&& 0x1C000000
  | _ => 0

/-- Registers whose read-only fields follow at once: those of class EDGE, whose unit is at its boundary after every
command (R15, R303, R317, R320), and the latches of R64, which the reader's own read sets. -/
def shownAtOnce : RegFam → Bool
  | .knotCount | .knotCfg | .bightMap | .fbar1 | .flipCtl | .fmtHi | .lmcHi => true
  | _ => false

/-- The read-only fields of a register as a read shows them (R47). -/
def roShown (s : State) (t : Nat) (f : RegFam) (i : Nat) : Nat :=
  roWord (if shownAtOnce f then s else atBoundary s) t f i

/-- A stored field as a read shows it: RO fields that the device keeps by R47, the others as last accepted (R16). -/
def fieldShown (s : State) (f : RegFam) (i off : Nat) (x : Fld) : Nat :=
  accepted (if x.acc = .kept && !shownAtOnce f then atBoundary s else s) f i off x

/-- A register as a read shows it (R16, R47): the values last accepted, and the read-only fields. Write-only fields read
zero. -/
def regWord (s : State) (t : Nat) (f : RegFam) (i off : Nat) : Nat :=
  (fieldsOf f i).foldl (fun a x =>
    if x.acc = .wo then a else a ||| fieldShown s f i off x <<< x.lo) (roShown s t f i)

/-! ### Rights (R101, R111) -/

/-- What a caller gets from a register: its value, zeros, or DENIED. -/
inductive ReadRight where
  | value | zero | denied
deriving DecidableEq, Repr

/-- A tenant sees its own entries and zeros elsewhere. -/
def ownZero (t : Nat) (o : Option Nat) : ReadRight := if o == some t then .value else .zero

/-- A tenant sees its own entries and is refused elsewhere. -/
def ownOnly (t : Nat) (o : Nat) : ReadRight := if o = t then .value else .denied

/-- Read rights of a tenant other than the operator. -/
def tenantReads (s : State) (t : Nat) (f : RegFam) (i : Nat) : ReadRight :=
  match f with
  | .devId | .inventory0 | .inventory1 | .bringup | .bootStatus | .timeCtl | .timeGap | .timeLinkDelay | .ptpCfg
  | .epochLo | .epochHi | .timeStatus | .fmtLo | .fmtHi | .lmcLo | .lmcHi | .ethCfg | .ethVlan | .ethIpv4 | .ethIpv6
  | .ethMacLo | .ethMacHi | .kcpCfg | .secStatus | .haltStatus | .stackStatus => .value
  | .resetStatus | .ethStats0 | .ethStats1 | .engineMap | .defectList | .dirSnapshot => .denied
  | .p1Bind | .p1Stats => ownOnly t i
  | .p1Share => ownOnly t (i / 96)
  | .dirReserve | .belayStatus => ownOnly t i
  | .strandBind => ownZero t (strandTenant s i)
  | .engineBind => ownZero t (engineTenant s i)
  | .coilWayMap => ownZero t (wayTenant s i)
  | .portBind => ownZero t (portTenant s i)
  | .eidBind => ownZero t (eidTenant s i)
  | .knotBind => ownZero t (knotTenant s (256 * i))
  | .faultqBind | .fqBaseLo | .fqBaseHi | .fqSize | .fqHead | .fqTail | .fqStatus => ownZero t (fqTenant s i)
  | .sealCfg | .cohStats0 | .cohStats1 | .swTenantQueue => ownZero t (some i)
  | .dirUse => ownZero t (some (i / 4))
  | .ctxCfg | .engStatus | .engErr => ownZero t (engineTenant s i)
  | .strandCfg | .strandStatus | .flipCtl | .flipMask | .strandErr0 | .strandErr1 | .rowGuard =>
    ownZero t (strandTenant s i)
  | .ceLog => match tget none (atBoundary s).mem.ceLog (i / 4) with
    | some e => ownZero t (strandTenant s (ppaStrand e.ppa))
    | none => .zero
  | .knotCount | .knotCfg => ownZero t (knotTenant s i)
  | .bightMap => ownZero t (some (bightTenant s i))
  | .fbar0 | .fbar1 => ownZero t (groupTenant s i)
  | .portCtl | .portStatus | .portEid | .vcCfg | .retryCfg | .linkStats0 | .linkStats1 | .linkSeal =>
    ownZero t (portTenant s i)
  | .laneEq | .laneStatus | .laneFec | .laneErr => ownZero t (portTenant s (lanePort s i))
  | .e2eWindow => ownZero t (eidTenant s i)
  | .mcastGroup => ownZero t (groupTenant s (i / 4))
  | .ceStatus | .errFirst | .errDomain | .errGlobal | .haltHeld | .haltParked | .haltLate | .haltMarkLo | .haltMarkHi
  | .landingLog | .thermalCfg | .thermalStatus | .railStatus | .intcCfg | .intcVector | .intcState | .intcCore
  | .intcEoi | .idemCfg | .idemStatus | .ownEidReg | .routeEpoch | .swCfg | .swLocalWindow | .weight0 | .weight1
  | .routeV0 | .routeV1 => .zero

/-- Read rights of a caller; the operator reads every register. -/
def readRight (s : State) (t : Nat) (f : RegFam) (i : Nat) : ReadRight :=
  if t = 0 then .value else tenantReads s t f i

/-- Write rights (R112): the operator everywhere; a tenant where the field map's home rule grants it. DESIGN CHOICE (log entry
136): an entry where no register exists passes the check, and its write has no effect. -/
def mayWrite (s : State) (t : Nat) (off : Nat) : Bool :=
  match locate off with
  | none => true
  | some (f, i) =>
    t = 0 || (match f with
      | .fqBaseLo | .fqBaseHi | .fqSize | .fqHead | .fqTail | .fqStatus => fqTenant s i == some t
      | .ctxCfg => engineTenant s i == some t
      | .flipCtl | .flipMask => strandTenant s i == some t
      | .knotCfg => knotTenant s i == some t
      | .fbar0 | .fbar1 => groupTenant s i == some t
      | _ => false)

/-- Clear the RC fields of a register that has been read (R12) and take the latches of R64. -/
def readEffects (f : RegFam) (i off : Nat) (s : State) : State :=
  let s := (fieldsOf f i).foldl (fun s x => if x.acc = .rc then setField off x.lo x.reset x.reset s else s) s
  match f with
  | .fmtLo => { s with time.fmtHiLatch := fmt (atBoundary s) / 0x100000000 }
  | .lmcLo => { s with time.lmcHiLatch := lmc (atBoundary s) / 0x100000000 }
  | _ => s

/-- Read one register (R111): its value and PENDING, or none when the caller may not read it. -/
def readReg (t off : Nat) (s : State) : Option (Nat × Bool) × State :=
  match locate off with
  | none => (some (0, false), s)
  | some (f, i) => match readRight s t f i with
    | .denied => (none, s)
    | .zero => (some (0, false), s)
    | .value => (some (regWord s t f i off, pendingAt s off), readEffects f i off s)

/-! ### Clamps (R10, R108) -/

/-- The nearest of a list of numbers, the lower on a tie. -/
def nearest (v : Nat) : List Nat → Nat
  | [] => v
  | x :: t => t.foldl (fun b y =>
      let d := fun z => if z ≤ v then v - z else z - v
      if d y < d b || (d y = d b && y < b) then y else b) x

/-- The last accepted value of a field of another register, by offset. -/
def acceptedAt (s : State) (off lo : Nat) : Nat :=
  match locate off with
  | none => 0
  | some (f, i) => match fieldAt f i lo with
    | some x => accepted s f i off x
    | none => 0

/-- Shares of the other tenants on a port, as last accepted (R85, R108). -/
def otherShares (s : State) (t p : Nat) : Nat :=
  ((List.range 32).filter (· != t)).foldl (fun n u => n + acceptedAt s (0x00011000 + 4 * (96 * u + p)) 0) 0

/-- Shares of a tenant on the other ports of a port's quadrant (R158). -/
def quadrantShares (s : State) (t p : Nat) : Nat :=
  ((List.range 24).filter (fun k => 24 * (p / 24) + k != p)).foldl
    (fun n k => n + acceptedAt s (0x00011000 + 4 * (96 * t + (24 * (p / 24) + k))) 0) 0

/-- The nearest legal value of a field (R108), from its field map. -/
def clampField (s : State) (f : RegFam) (i off lo v : Nat) : Nat :=
  match f, lo with
  | .timeCtl, 23 => min 95 v
  | .timeCtl, 16 => max 1 v
  | .timeCtl, 12 => max 1 v
  | .timeGap, 0 => max 1 v
  | .ptpCfg, 8 => min 2 v
  | .p1Bind, 0 => clampTo 16 1024 v
  | .p1Share, 0 =>
    let t := i / 96
    let p := i % 96
    let v := min v (shareLimit s p - otherShares s t p)
    if sealedTenant s t || (tget (0, 0) s.bind.sealPending t).1 != 0 then
      let now := tget 0 s.bind.sealSlots t
      let next := (tget (0, 0) s.bind.sealPending t).1
      min v (44 * (if now = 0 || next = 0 then max now next else min now next) - quadrantShares s t p) else v
  | .ethCfg, 0 => clampTo 1 0xFFFE v
  | .ethVlan, 29 => min 6 v
  | .ethVlan, 0 => min 0xFFE v
  | .ethMacHi, 0 => v &&& 0xFEFF
  | .kcpCfg, _ => max 1 v
  | .dirReserve, _ =>
    min v (192 - ((List.range 32).filter (· != i)).foldl (fun n u => n + acceptedAt s (0x00038600 + 4 * u) lo) 0)
  | .fqSize, 0 => clampTo 4 12 v
  | .fqHead, 0 => min v (2 ^ acceptedAt s (off - 4) 0 - 1)
  | .strandCfg, 30 => min 2 v
  | .strandCfg, 28 => min 2 v
  | .strandCfg, 24 => max 1 v
  | .strandCfg, 0 => max 64 v
  | .flipCtl, 30 => min 2 v
  | .flipMask, 0 => max 1 v
  | .thermalCfg, 24 => clampTo 70 105 v
  | .thermalCfg, 16 => clampTo 70 95 v
  | .thermalCfg, 0 => clampTo 100 320 v
  | .fbar0, 16 => clampTo 1 97 v
  | .intcCfg, 24 => max 1 v
  | .intcCfg, 0 => if v = 0 then 0x100 else v
  | .intcVector, 0 => v / 4 * 4
  | .portCtl, 30 => min (if i % 2 = 1 then 1 else 2) v
  | .portCtl, 27 => clampTo 1 4 v
  | .portCtl, 0 => max 1 v
  | .portEid, 0 => nearest v (((List.range 4).filter (fun k => k = 0 || acceptedAt s (0x00110000 + 4 * k) 31 = 1)).map
      (fun k => acceptedAt s (0x00110000 + 4 * k) 0))
  | .vcCfg, 20 => max 5 v
  | .vcCfg, _ => max 17 v
  | .retryCfg, 0 => max 32 v
  | .retryCfg, _ => max 1 v
  | .laneEq, 0 => min 12 v
  | .laneEq, 8 => min v (min 20 (24 - lastWritten s off 0 0))
  | .idemCfg, 0 => max 1 v
  | .ownEidReg, 31 => if i = 0 then 1 else v
  | .routeEpoch, 0 => max 1 v
  | .swCfg, 16 => max 1 v
  | .swCfg, 0 => max 16 v
  | .swLocalWindow, 0 => clampTo 1 8192 v
  | .swTenantQueue, 0 => min 5 v
  | .weight0, _ => max 1 v
  | .weight1, 16 => min 1024 v
  | .weight1, _ => max 1 v
  | .e2eWindow, 16 => clampTo 1 16384 v
  | .e2eWindow, 0 => clampTo 1 8192 v
  | .knotCfg, 0 => max 1 v
  | _, _ => v

/-- Whether the block that uses a field is idle (R17, R65, R113, R179, R235, R317, R320, R349, R378): a HELD or EDGE
write to an idle block takes effect at once. -/
def blockIdle (s : State) (f : RegFam) (i : Nat) : Bool :=
  match f with
  | .ptpCfg | .epochLo | .epochHi => timeSrc s < 2
  | .fqBaseLo | .fqBaseHi | .fqSize => fqHead s i = (tget {} s.xlat.queues i).tail
  | .ctxCfg => runningCtxs s i = 0
  | .strandCfg | .flipCtl | .flipMask => !s.coh.busy.any (fun b => lineStrand b.line == i && b.phase == .fetching)
  | .bightMap => tget 0 s.belay.holders i = 0
  | .fbar0 | .fbar1 => fbarArrived s i = 0 || !fbarEnable s i
  | .intcCfg | .intcVector => match (tget {} s.intc.sources i).st with
    | .active | .activePending => false
    | _ => true
  | .portCtl | .portEid | .vcCfg | .linkSeal => match (tget {} s.link.ports i).phase with
    | .off | .lost => true
    | _ => false
  | .laneEq => !(tget {} s.link.lanes i).held && !(tget {} s.link.lanes i).farLoop && (match (tget {} s.link.ports (lanePort s i)).phase with
    | .off | .lost => true
    | _ => false)
  | .weight0 | .weight1 => (tget {} s.link.ports i).tx.inProgress.isNone
  | .swTenantQueue => s.link.ports.all (fun e => e.2.tx.inProgress.isNone)
  | .ownEidReg => s.link.ports.all (fun e => e.2.tx.inProgress.isNone && e.2.rx.head.isNone)
  | _ => true

end Sys2Proof.Machine
end

