-- ==== Sys2Proof/Machine/Events.lean ====
section
/-! DEFINITION. What the device sends: KCP packets and their tags, events, packets into egress queues; and the error
records of every domain. -/
namespace Sys2Proof.Machine

/-! ### Packets and events (R94, R121 to R123) -/

/-- The 20 header bytes of a KCP packet (R94), its reserved bits as sent. -/
def hdrBytes (p : KcpPkt) : List Byte :=
  le 1 (p.version % 16 + 16 * (p.type % 16)) ++ le 1 (b2n p.unordered + 2 * b2n p.retry + 4 * (p.spare1 % 64)) ++ le 2 p.opcode ++
  le 4 p.session ++ le 8 p.seq ++ le 2 (p.tenant % 32 + 32 * (p.spare16 % 2048)) ++ le 2 p.paramLen

/-- The tag of a packet under a session's tag key (R95, R448). -/
def tagOf (key : Nat) (p : KcpPkt) : Nat := hmacSm3 key (hdrBytes p ++ p.params)

/-- A packet the device sends on a session, tagged. -/
def seal' (ss : Session) (type opcode seq tenant : Nat) (params : List Byte) : KcpPkt :=
  let p : KcpPkt := { type := type, opcode := opcode, session := ss.id, seq := seq, tenant := tenant,
                      paramLen := params.length, params := params, got := params.length + 32, tag := 0 }
  { p with tag := tagOf ss.tagKey p }

/-! ### Tags of the device's own requests and snoops (R362) -/

/-- Tags the device has outstanding. -/
def tagsInUse (s : State) : List Nat :=
  s.coh.busy.flatMap (fun b => (b.owed ++ (match b.phase with
    | .snooping l => l
    | .recalling l => l
    | _ => [])).map (·.tag)) ++
  s.eng.cores.flatMap (fun e => (coreCtxs e.2).flatMap (fun c =>
    c.2.reads.filterMap (·.tag) ++ c.2.writes.filterMap (·.tag))) ++
  s.xlat.transfers.flatMap (fun t => t.outstanding.map (·.1)) ++ s.sw.mcast.map (·.tag) ++
  s.sw.fwd.filterMap (fun f => if isOwnEid s f.src then some f.tag else none) ++
  s.link.ports.flatMap (fun e => e.2.tx.queue.filterMap (fun q =>
    if codeVc q.2.2.hdr.code = 1 && isOwnEid s q.2.2.hdr.src then some q.2.2.hdr.tag else none))

/-- The first tag from a number on that is not outstanding. -/
def freeTag (used : List Nat) : Nat → Nat → Nat
  | 0, c => c % 65536
  | n + 1, c => if used.contains (c % 65536) then freeTag used n (c + 1) else c % 65536

/-- A fresh tag. -/
def newTag (s : State) : Nat × State :=
  let used := tagsInUse s
  let t := freeTag used used.length s.eng.nextTag
  (t, { s with eng.nextTag := (t + 1) % 65536 })

/-! ### Egress queues (R379, R382, R394) -/

/-- Change a port. -/
def modPort (p : Nat) (f : Port → Port) (s : State) : State := { s with link.ports := tmod {} s.link.ports p f }

/-- A port's state. -/
def portOf (s : State) (p : Nat) : Port := tget {} s.link.ports p

/-- The egress port that a routing version gives an EID (R380): entries hold port + 1 while VALID. -/
def routeIn (s : State) (ver eid : Nat) : Option Nat :=
  let e := if ver % 2 = 0 then tget 0 s.sw.routes0 eid else tget 0 s.sw.routes1 eid
  if e = 0 then none else some (e - 1)

/-- The route of a packet the device originates: the active version (R382). -/
def routeOf (s : State) (eid : Nat) : Option Nat := routeIn s s.sw.active eid

/-- Lane of a packet in its queue (R395): 0 CTL, 1 RSP, 2 REQ. -/
def laneOf (code : Nat) : Nat :=
  match codeVc code with
  | 0 => 0
  | 2 => 1
  | _ => 2

/-- Queue of a packet (R394): 0 CONTROL, 1 PROMISED, 2 to 7 W0 to W5. -/
def queueOf (s : State) (h : PktHdr) (promised : Bool) (tenant : Nat) : Nat :=
  if h.code = 0x80 || (h.code = 0x42 && h.status = stREFUSED) || effClass h = 0 then 0
  else if promised then 1 else 2 + tenantQueue s tenant

/-- Place a packet in an egress queue; from M of a global stop, what is not CTL is held unissued (R506, R508). -/
def enqueue (port queue : Nat) (p : TxPkt) (s : State) : State :=
  if frozen s && p.hdr.code != 0x80 then { s with halt.held := s.halt.held ++ [(port, queue, p)], halt.heldCount := s.halt.heldCount + 1 }
  else modPort port (fun x => { x with tx.queue := x.tx.queue ++ [(queue, laneOf p.hdr.code, p)] }) s

/-- The lines of a byte string, padded to whole granules (R125). -/
def linesOf (bs : List Byte) : List Line :=
  (List.range ((bs.length + 127) / 128)).map (fun i => lineOf ((bs.drop (128 * i)).take 128))

/-- A KCP packet as bytes (R94). -/
def kcpBytes (p : KcpPkt) : List Byte := hdrBytes p ++ p.params ++ le 32 p.tag

/-- An IP address is of IPv6: IPv4 addresses are the numbers below 2^32. -/
def isV6 (ip : Nat) : Bool := 2 ^ 32 ≤ ip

/-- The address a port sends from (R92, R93; log entry 124): of IPv6 its global address toward another than a link-local
one, where it has one. -/
def sourceIp (s : State) (port ip : Nat) : Nat :=
  if !isV6 ip then getField (0x00020008 + 0x100 * port) 0 0 s
  else if ip / 2 ^ 118 = 0x3FA || ethIpv6 s port = 0 then linkLocal (ethMac s port) else ethIpv6 s port

/-- The frame of a datagram to a host (R90, R91, R116): it leaves from the port's addresses as they are in force. -/
def ethFrame (s : State) (port mac ip udp srcUdp pcp : Nat) : EthTx :=
  { srcMac := ethMac s port, srcIp := sourceIp s port ip, srcUdp := srcUdp, dstMac := mac, dstIp := ip, dstUdp := udp,
    pcp := pcp, vid := ethVid s port, dontFragment := !isV6 ip }

/-- The frame of a KCP packet (R90): PCP 7. -/
def kcpFrame (s : State) (port mac ip udp : Nat) : EthTx := ethFrame s port mac ip udp (kcpUdpPort s port) 7

/-- Send a KCP packet on a path (R90, R122, R126): on an Ethernet port that is up, or as a CTL packet toward the EID.
What cannot leave is kept with the session for its next path (R369). -/
def sendKcp (path : Path) (p : KcpPkt) (s : State) : State :=
  match path with
  | .eth port mac ip udp => if ethUp s port then emit (.kcp path (some (kcpFrame s port mac ip udp)) p) s else s
  | .link _ eid =>
    match routeOf s eid with
    | some port =>
      if portUp s port then
        let ls := linesOf (kcpBytes p)
        emit (.kcp path none p) (enqueue port 0
          { hdr := { code := 0x80, cls := 0, epoch := s.sw.active, dst := eid, src := localEid s port,
                     granules := ls.length }, payload := ls, tenant := p.tenant } s)
      else s
    | none => s

/-- Replicate a multicast packet (R387): one copy at each port of the group's mask that is in STATE 2, other than the
ingress port; its class is F. -/
def replicate (g : Nat) (h : PktHdr) (payload : List Line) (tenant : Nat) (s : State) : State :=
  let grp := tget {} s.sw.groups g
  ((List.range 96).filter (fun p => bit grp.mask p && portUp s p)).foldl (fun s p =>
    enqueue p (2 + tenantQueue s tenant) { hdr := { h with cls := 2, src := localEid s p }, payload := payload, tenant := tenant } s) s

/-- Send a packet that the device originates toward an EID, with the pair entry that it takes (R379, R382, R390): SRC_EID
is the LOCAL_EID of the port it leaves by; with no route or no port in STATE 2 it cannot leave, and takes none. -/
def originateWith (hold : Nat → Option Nat) (dst : Nat) (h : PktHdr) (payload : List Line) (tenant : Nat) (s : State) : State :=
  match routeOf s dst with
  | some p => if portUp s p then
      let h := { h with dst := dst, src := localEid s p, epoch := s.sw.active, granules := payload.length }
      let s' := match hold p with
        | some k => { s with sw.pairs := tmod 0 s.sw.pairs k (· + 1) }
        | none => s
      enqueue p (queueOf s h false tenant) { hdr := h, payload := payload, tenant := tenant, pair := hold p } s' else s
  | none => s

/-- A packet that takes no pair entry: a snoop. -/
def originate : Nat → PktHdr → List Line → Nat → State → State := originateWith (fun _ => none)

/-! ### End-to-end windows (R390, R391) -/

/-- Pair entries of an ingress quadrant. -/
abbrev pairEntries : Nat := 16384

/-- Key of a pair: the quadrant that tracks it, source, destination, where all own EIDs are the one destination 4,096. -/
def pairKeyOf (s : State) (q src dst : Nat) : Nat := (4096 * q + src) * 4097 + (if isOwnEid s dst then 4096 else dst)

/-- Requests that a pair may still hold under a limit: none where it needs a new entry and none is free. -/
def pairRoom (s : State) (k limit : Nat) : Nat :=
  let n := tget 0 s.sw.pairs k
  if n = 0 && pairEntries ≤ s.sw.pairs.countP (fun e => e.1 / 4097 / 4096 == k / 4097 / 4096) then 0 else limit - n

/-- A request freed of its window. -/
def freePair (k : Option Nat) (s : State) : State :=
  match k with
  | some i => { s with sw.pairs := tmod 0 s.sw.pairs i (· - 1) }
  | none => s

/-- Requests that a unit of a quadrant may still originate toward an EID under E2E_WINDOW[source].PEER; with no route the
request does not wait. -/
def ownRoom (s : State) (q dst : Nat) : Nat :=
  match routeOf s dst with
  | some p => pairRoom s (pairKeyOf s q (localEid s p) dst) (peerWindow s (localEid s p))
  | none => 1

/-- Requests that a quadrant's engine cores and swap unit hold toward an EID (R392): what the pairs of the device's own EIDs
toward it count there. DESIGN CHOICE (log entry 181): a fabric barrier's arrival on its way counts among them. -/
def localOutstanding (s : State) (q eid : Nat) : Nat :=
  s.sw.pairs.foldl (fun n e =>
    if e.1 / 4097 / 4096 = q && e.1 % 4097 = eid && isOwnEid s (e.1 / 4097 % 4096) then n + e.2 else n) 0

/-- Requests that a unit of a quadrant may still issue toward an EID: SW_LOCAL_WINDOW and its pair's window leave room
(R391, R392). -/
def requestRoom (s : State) (q eid : Nat) : Nat := min (localWindow s - localOutstanding s q eid) (ownRoom s q eid)

/-- Originate a request that counts against its window. -/
def request (q dst : Nat) (h : PktHdr) (payload : List Line) (tenant : Nat) (s : State) : State :=
  originateWith (fun p => some (pairKeyOf s q (localEid s p) dst)) dst h payload tenant s

/-- Send a signal or a barrier arrival that waits at the requester until its pair has room (R391), a signal of an engine core also
until its quadrant's window has (R392). -/
def sendWaiting (x : Nat × Nat × PktHdr × Nat) (s : State) : State :=
  if (if x.2.2.1.barrier then ownRoom else requestRoom) s x.1 x.2.1 = 0 || s.sw.outbox.any (fun y => y.1 == x.1 && y.2.1 == x.2.1) then
    { s with sw.outbox := s.sw.outbox ++ [x] }
  else
    let (tag, s) := newTag s
    request x.1 x.2.1 { x.2.2.1 with tag := tag } [] x.2.2.2 s

/-- What waits at the requester is offered again. -/
def pumpOutbox (s : State) : State := s.sw.outbox.foldl (fun s x => sendWaiting x s) { s with sw.outbox := [] }

/-! ### Sessions and events -/

/-- Change the session with an ID. -/
def modSession (id : Nat) (f : Session → Session) (s : State) : State :=
  { s with kcp.sessions := s.kcp.sessions.map (fun x => if x.id = id then f x else x) }

/-- The session with an ID. -/
def sessionOf (s : State) (id : Nat) : Option Session := s.kcp.sessions.find? (fun x => x.id == id)

/-- The 64 parameter bytes of an event packet (R121), SUBJECT to DETAIL. -/
def eventParams (subject fmt' frac lost : Nat) (detail : List Byte) : List Byte :=
  le 4 subject ++ le 8 fmt' ++ le 1 frac ++ le 1 0 ++ le 2 lost ++ (detail ++ le (48 - detail.length) 0)

/-- Send one event to one session (R121, R122): it takes the next event number and is held until acknowledged; while
256 are held it is dropped and counted. DESIGN CHOICE (log entry 137): beyond 65,535 dropped events LOST_COUNT wraps. -/
def eventTo (ss : Session) (code subject fmt' frac : Nat) (detail : List Byte) (s : State) : State :=
  if 256 ≤ ss.unacked.length then modSession ss.id (fun x => { x with lost := x.lost + 1 }) s
  else
    let p := seal' ss 2 code ss.nextEvent ss.tenant (eventParams subject fmt' frac ss.lost detail)
    sendKcp ss.path p (modSession ss.id (fun x =>
      { x with nextEvent := x.nextEvent + 1, unacked := x.unacked ++ [p], lost := 0,
               resendAt := if x.unacked = [] then lmc s else x.resendAt }) s)

/-- An event that happened at this FMT and fraction, to every subscribed session that may receive it (R123). -/
def eventAt (code subject fmt' frac : Nat) (to? : Nat → Bool) (detail : List Byte) (s : State) : State :=
  (s.kcp.sessions.filter (fun x => x.isOpen && bit x.mask code && (x.tenant == 0 || to? x.tenant))).foldl
    (fun s x => eventTo x code subject fmt' frac detail s) s

/-- An event that happens now. -/
def event (code subject : Nat) (to? : Nat → Bool) (detail : List Byte) (s : State) : State :=
  eventAt code subject (fmt s) (fraction s) to? detail s

/-- COMMAND_DONE to the issuing session alone (R123): OPCODE and final status, then the command's own detail. -/
def commandDone (session seq opcode status : Nat) (rest : List Byte) (s : State) : State :=
  match sessionOf s session with
  | some ss => if ss.isOpen && bit ss.mask 7 then
      eventTo ss 7 (seq % 2 ^ 32) (fmt s) (fraction s) (le 2 opcode ++ le 1 status ++ rest) s else s
  | none => s

/-! ### Error records (R481 to R492) -/

/-- The interrupt source a record raises (R528), by its domain and the quadrant or stack it concerns. -/
def errSource (domain quadrant sub : Nat) : Option Nat :=
  match domain with
  | 0 => some (256 * quadrant + 24 + sub % 4)
  | 1 => some (256 * quadrant + 36)
  | 2 => some (256 * quadrant + 28 + sub % 4)
  | 4 => some (256 * quadrant + 37)
  | 5 => some (256 * quadrant + 38)
  | 6 => some 322
  | 7 => some 324
  | 8 => some 323
  | 9 => some (256 * quadrant + 39)
  | _ => none

/-- Write an error record (R483, R484): it takes its SEQ, is offered to the first-error register, and is queued and
announced unless the domain's queue holds 256, when it is dropped and counted. `quadrant` and `sub` (the stack or
cluster) pick the interrupt source. -/
def errWrite (r : ErrRec) (quadrant sub : Nat) (s : State) : State :=
  let r := { r with seq := tget 1 s.err.nextSeq r.domain, fmt := fmt s, fraction := fraction s }
  let s := { s with err.nextSeq := tset 1 s.err.nextSeq r.domain ((r.seq + 1) % 2 ^ 32) }
  let s := if (tget none s.err.first r.domain).isSome then s else
    { s with err.first := tset none s.err.first r.domain (some r), err.order := s.err.order ++ [r.domain] }
  if 256 ≤ (tget [] s.err.queues r.domain).length then sat (0x00090400 + 4 * r.domain) 0 16 1 s
  else
    let s := { s with err.queues := tmod [] s.err.queues r.domain (· ++ [r]) }
    let s := match errSource r.domain quadrant sub with
      | some i => fire i s
      | none => s
    eventAt 4 r.domain r.fmt r.fraction (fun t => r.tenant == some t) ((recBytes r).take 48) s

/-! ### Errors in units being handled (R489, R490) -/

/-- The quadrant in which a unit lies. -/
def unitQuadrant (kind unit : Nat) : Nat :=
  match kind with
  | 1 | 9 => strandQuadrant unit
  | 2 => coreQuadrant unit
  | 3 => portQuadrant unit
  | 4 => unit / 48
  | 6 => knotHome unit
  | 11 => unit / 4
  | _ => unit

/-- A unit is another, or lies within it: all but EIDs and control cores in their quadrant, strands and lines in their stack,
lines in their strand, lanes in their port. -/
def unitWithin (s : State) (kind unit kind' unit' : Nat) : Bool :=
  (kind = kind' && unit = unit') || (kind' = 5 && kind != 0 && kind != 7 && kind != 8 && unitQuadrant kind unit = unit') ||
  (kind' = 11 && (kind = 1 || kind = 9) && unit / 32 = unit') || (kind' = 1 && kind = 9 && unit = unit') ||
  (kind' = 3 && kind = 4 && lanePort s unit = unit')

/-- A unit is being handled (R490): itself, one that it lies within, or the whole device. -/
def beingHandled (s : State) (kind unit : Nat) : Bool :=
  s.boot.deviceLadder || s.err.handled.any (fun h => unitWithin s kind unit h.2.1 h.2.2.1)

/-- The handling of a unit ends. -/
def endHandling (kind unit : Nat) (s : State) : State :=
  { s with err.handled := s.err.handled.filter (fun h => !(h.2.1 == kind && h.2.2.1 == unit)) }

/-- The unit that an error's handling is listed under; an error of no numbered unit is listed under its own source. -/
def handledUnit (r : ErrRec) : Nat := if r.unitKind = 0 then 16 * r.domain + r.source else r.unit

/-- An error is detected (R483, R490): its record is written, and the rung taken is the record's own, or that of a nested
error, to which the unit's handling moves. -/
def detect (r : ErrRec) (nested q sub : Nat) (s : State) : Nat × State :=
  let inside := beingHandled s r.unitKind (handledUnit r)
  let rung := if inside then nested else r.rung
  let s := errWrite { r with rung := rung, escalated := inside } q sub s
  let s := if rung = 0 then s else
    let s := endHandling r.unitKind (handledUnit r) s
    { s with err.handled := s.err.handled ++ [(r.domain, r.unitKind, handledUnit r, rung)] }
  (rung, s)

/-- An error whose rung is none (R490): it starts no handling; a nested one says so in its record. -/
def recordError (r : ErrRec) (q sub : Nat) (s : State) : State := (detect { r with rung := 0 } 0 q sub s).2

end Sys2Proof.Machine
end

