-- ==== Sys2Proof/Machine/Blocks.lean ====
section
/-! DEFINITION. What travels on serial lanes (R331, R334, R336, R348, R350 to R353, R355): 66-bit blocks bit by bit, the flit
as 33 of them, each lane's transmit stream with its markers, codewords and line symbols, and pattern tests. -/
namespace Sys2Proof.Machine

/-! ### Fields of words -/

/-- A word from its fields, the lowest first: width and value. -/
def packFields : List (Nat × Nat) → Nat
  | [] => 0
  | (w, v) :: t => v % 2 ^ w + 2 ^ w * packFields t

/-- The fields of a word, the lowest first. -/
def fieldsAt (x : Nat) : List Nat → List Nat
  | [] => []
  | w :: t => x % 2 ^ w :: fieldsAt (x / 2 ^ w) t

/-- The low bits of a word, bit 0 first. -/
def bitsOf (n x : Nat) : List Bool := (List.range n).map x.testBit

/-- The number that bits spell, bit 0 first. -/
def ofBits : List Bool → Nat
  | [] => 0
  | b :: t => b2n b + 2 * ofBits t

/-! ### Control blocks (R334, R336, R352, R353) -/

/-- Sync header of control blocks. -/
abbrev shControl : Nat := 2

/-- One bit of the CRC-8 with x^8 + x^2 + x + 1. -/
def crc8Step (c : Nat) (b : Bool) : Nat :=
  let d := c * 2 % 256
  if c.testBit 7 == b then d else d ^^^ 0x07

/-- The CRC-8 over bits [57:2], in the order they are sent. DESIGN CHOICE (log entry 140): x^7 of the remainder is bit 65. -/
def crc8 (w : Nat) : Nat := (bitsOf 56 (w / 4)).foldl crc8Step 0

/-- A control block of a TYPE: its fields in bits [57:10], and its CRC. -/
def crcBlock (type : Nat) (fields : List (Nat × Nat)) : Blk :=
  let n := packFields ((2, shControl) :: (8, type) :: fields) % 2 ^ 58
  BitVec.ofNat 66 (n + crc8 n * 2 ^ 58)

/-- A block is a control block of a TYPE. -/
def isType (w : Blk) (type : Nat) : Bool := bits w.toNat 0 2 = shControl && bits w.toNat 2 8 = type

/-- A control block of a TYPE whose CRC holds. -/
def crcHolds (w : Blk) (type : Nat) : Bool := isType w type && crc8 w.toNat = bits w.toNat 58 8

abbrev typeIDLE : Nat := 0x1E
abbrev typeMARKER : Nat := 0x4A
abbrev typeTRAIN : Nat := 0x4B
abbrev typeCHANGE : Nat := 0x4C
abbrev typeLOOP : Nat := 0x4D
abbrev typeTIMING : Nat := 0x4E

/-- A TRAIN, CHANGE or LOOP block on the wire. -/
def trainWord (b : TrainBlk) : Blk :=
  crcBlock b.type [(3, b.rate), (3, b.maxRate), (2, b.lane), (4, b.lanesOk), (2, b.width), (12, b.eid), (4, b.cls),
    (2, b.reqPre), (2, b.reqMain), (2, b.reqPost), (2, b.statPre), (2, b.statMain), (2, b.statPost), (1, b2n b.ready),
    (1, b.kind), (2, b.phase)]

/-- A block of one of these types as received; none when the type differs or the CRC fails. -/
def readBlk (type : Nat) (w : Blk) : Option TrainBlk :=
  if !crcHolds w type then none
  else match fieldsAt (w.toNat / 2 ^ 10) [3, 3, 2, 4, 2, 12, 4, 2, 2, 2, 2, 2, 2, 1, 1, 2] with
  | [rate, maxRate, lane, lanesOk, width, eid, cls, a, b, c, d, e, f, ready, kind, phase] =>
    some { type := type, rate := rate, maxRate := maxRate, lane := lane, lanesOk := lanesOk, width := width, eid := eid,
           cls := cls, reqPre := a, reqMain := b, reqPost := c, statPre := d, statMain := e, statPost := f,
           ready := ready = 1, kind := kind, phase := phase }
  | _ => none

/-- A marker block: its count and the port lane. -/
def markerWord (count lane : Nat) : Blk := crcBlock typeMARKER [(8, count), (2, lane), (38, 0)]

/-- Count and port lane of a marker received; none when the type differs or the CRC fails. -/
def readMarker (w : Blk) : Option (Nat × Nat) :=
  if crcHolds w typeMARKER then some (bits w.toNat 10 8, bits w.toNat 18 2) else none

/-- An IDLE block. -/
def idleWord : Blk := BitVec.ofNat 66 (packFields [(2, shControl), (8, typeIDLE)])

/-- Bits of the high word that a piece carries. -/
def pieceOf (h sel : Nat) : Nat := if sel = 2 then bits h 24 8 else bits h (12 * sel) 12

/-- A timing control block. -/
def timingWord (state fraction fmt sel : Nat) : Blk :=
  BitVec.ofNat 66 (packFields [(2, shControl), (8, typeTIMING), (2, state), (8, fraction), (32, fmt), (2, sel),
    (12, pieceOf (fmt / 2 ^ 32) sel)])

/-- The fields of a timing control block. -/
def readTiming (w : Blk) : TimingBlk :=
  { state := bits w.toNat 10 2, fraction := bits w.toNat 12 8, fmtLo := bits w.toNat 20 32, pieceSel := bits w.toNat 52 2,
    piece := bits w.toNat 54 12 }

/-! ### Flits as blocks (R350, R352) -/

/-- Numbers of the 20-bit sequence space. -/
abbrev seqMod : Nat := 1048576

/-- Trailer bits [31:0]. -/
def trailer (f : Flit) : Nat := f.seq % seqMod + f.credN % 1024 * 2 ^ 20 + f.credVc % 4 * 2 ^ 30

/-- The 33 data blocks of a flit. -/
def flitBlocks (f : Flit) : List Blk :=
  let n := f.body.toNat + 2 ^ 2048 * (trailer f + 2 ^ 32 * (f.crc % 2 ^ 32))
  (List.range 33).map (fun k => BitVec.ofNat 66 (1 + 4 * (n / 2 ^ (64 * k) % 2 ^ 64)))

/-- What the receiver counts into flits: IDLE blocks, markers, timing and other control blocks are removed, and a block with
an invalid sync header counts as a data block. -/
def dataBlocks (ws : List Blk) : List Blk := ws.filter (fun w => bits w.toNat 0 2 != shControl)

/-- The flit that blocks bring; none unless 33 of them are data blocks. -/
def flitIn (ws : List Blk) : Option Flit :=
  let ds := dataBlocks ws
  if ds.length = 33 then
    let n := ds.foldr (fun w n => w.toNat / 4 + 2 ^ 64 * n) 0
    let t := n / 2 ^ 2048
    some { seq := bits t 0 20, credN := bits t 20 10, credVc := bits t 30 2, crc := bits t 32 32, body := BitVec.ofNat 2048 n }
  else none

/-- The body of a link control flit (R355). -/
def ctlBody (m : LinkCtl) : FlitBody :=
  BitVec.ofNat 2048 (packFields ([(20, m.ack), (12, 0), (20, m.nextSeq), (12, 0), (8, m.naks.length), (56, 0)] ++
    m.naks.flatMap (fun e => [(20, e.1), (8, e.2), (4, 0)])))

/-- What the body of a link control flit says; entries past the sixtieth do not exist. -/
def ctlOf (b : FlitBody) : LinkCtl :=
  let n := b.toNat
  { ack := bits n 0 20, nextSeq := bits n 32 20,
    naks := (List.range (min 60 (bits n 64 8))).map (fun i => (bits n (128 + 32 * i) 20, bits n (148 + 32 * i) 8)) }

/-! ### RS(544,514) (R331) -/

/-- A product in GF(2^10). -/
def gfMul (a b : Nat) : Nat :=
  (List.range 10).foldl (fun c i =>
    let d := 2 * c
    let d := if d < 1024 then d else d ^^^ (1024 + Config.fecField % 1024)
    if b.testBit (9 - i) then d ^^^ a else d) 0

/-- A power of the field's generator x. -/
def gfPow : Nat → Nat
  | 0 => 1
  | n + 1 => gfMul 2 (gfPow n)

/-- The coefficients below the leading one of the code's generator polynomial with `n` roots, the highest first. -/
def rsGenerator : Nat → List Nat
  | 0 => []
  | n + 1 =>
    let r := gfPow (Config.fecRoot % 1023 + n)
    let g := rsGenerator n
    List.zipWith (fun a b => a ^^^ gfMul r b) (g ++ [0]) (1 :: g)

/-- One message symbol goes into the parity register. -/
def rsStep (g reg : List Nat) (m : Nat) : List Nat :=
  let f := m ^^^ reg.headD 0
  List.zipWith (fun r c => r ^^^ gfMul f c) (reg.drop 1 ++ [0]) g

/-- The 30 parity symbols of a message of 514 symbols. -/
def rsParity (msg : Nat) : List Nat :=
  ((List.range 514).map (fun i => bits msg (10 * i) 10)).foldl (rsStep (rsGenerator 30)) (List.replicate 30 0)

/-- A codeword as bits, the message first. DESIGN CHOICE (log entry 139): a symbol's first bit is its lowest. -/
def codeword (msg : Nat) : List Bool := bitsOf 5140 msg ++ (rsParity msg).flatMap (bitsOf 10)

/-- PAM4 levels of pairs of bits, the first the most significant. -/
def pam4 : List Bool → List Sym
  | a :: b :: t => .pam4 (match a, b with
    | false, false => -3
    | false, true => -1
    | true, true => 1
    | true, false => 3) :: pam4 t
  | _ => []

/-- Bits as a lane sends them at a rate (R330, R331). -/
def lineForm (rate : Nat) (bs : List Bool) : List Sym := if rate ≤ 1 then bs.map .nrz else pam4 bs

/-! ### A lane's transmit stream (R331, R334, R336) -/

/-- One block goes into the stream of a lane; a message that is full leaves as a codeword. -/
def streamBlock (rate : Nat) (w : Blk) (x : LaneTx) : LaneTx × List (List Sym) :=
  let msg := x.msg + w.toNat * 2 ^ x.len
  let len := x.len + 66
  if len < 5140 then ({ x with msg := msg, len := len }, [])
  else ({ x with msg := msg / 2 ^ 5140, len := len - 5140 }, [lineForm rate (codeword (msg % 2 ^ 5140))])

/-- One block of a port lane, and the marker after every 256. -/
def laneBlock (rate lane : Nat) (w : Blk) (x : LaneTx) : LaneTx × List (List Sym) :=
  let (x, a) := streamBlock rate w { x with sent := (x.sent + 1) % 65536 }
  if x.sent % 256 = 0 then
    let (x, b) := streamBlock rate (markerWord (x.sent / 256) lane) x
    (x, a ++ b)
  else (x, a)

/-- Blocks go out on a lane. -/
def sendBlocks (l : Nat) (ws : List Blk) (s : State) : State :=
  let rate := (tget {} s.link.lanes l).rate
  let lane := l - portLane0 (lanePort s l)
  let r := ws.foldl (fun (r : LaneTx × List (List Sym)) w =>
    let (x, a) := laneBlock rate lane w r.1
    (x, a.reverse ++ r.2)) (tget {} s.link.streams l, [])
  { s with link.streams := tset {} s.link.streams l r.1, link.line := r.2.map (fun y => (l, y)) ++ s.link.line }

/-- A control block goes out on a lane. -/
def sendBlock (l : Nat) (w : Blk) (s : State) : State := emit (.block l w) (sendBlocks l [w] s)

/-- The lanes' streams begin anew. -/
def restartStream (l : Nat) (s : State) : State := { s with link.streams := tdel l s.link.streams }

/-- Lane ID of a port lane. -/
def laneId (p i : Nat) : Nat := portLane0 p + i

/-! ### Patterns (R336, R348) -/

/-- Length of a pattern's register. -/
def prbsLen (p13 : Bool) : Nat := if p13 then 13 else 31

/-- The next bit of PRBS31 (x^31 + x^28 + 1) or PRBS13 (x^13 + x^12 + x^2 + x + 1) after the bits of a register, the latest in
bit 0. -/
def prbsBit (p13 : Bool) (x : Nat) : Bool :=
  if p13 then (x.testBit 12 ^^ x.testBit 11) ^^ (x.testBit 1 ^^ x.testBit 0) else x.testBit 30 ^^ x.testBit 27

/-- A bit goes into the register. -/
def prbsPush (p13 : Bool) (x : Nat) (b : Bool) : Nat := (2 * x + b2n b) % 2 ^ prbsLen p13

/-- The next bits of a generator, and its register after them. -/
def prbsBits (p13 : Bool) : Nat → Nat → List Bool × Nat
  | 0, x => ([], x)
  | n + 1, x =>
    let b := prbsBit p13 x
    let r := prbsBits p13 n (prbsPush p13 x b)
    (b :: r.1, r.2)

/-- One step of a generator, and a linear map over its bits, given by what it makes of each bit. -/
def prbsStep (p13 : Bool) (x : Nat) : Nat := prbsPush p13 x (prbsBit p13 x)
def applyMap (m : List Nat) (x : Nat) : Nat :=
  m.zipIdx.foldl (fun v e => if x.testBit e.2 then v ^^^ e.1 else v) 0

/-- A generator `n` bits on: its step is linear over GF(2), so the map of n steps comes by squaring, for n below 2^32. -/
def prbsAfter (p13 : Bool) (n x : Nat) : Nat :=
  ((List.range 32).foldl (fun a i => (a.1.map (applyMap a.1), if n.testBit i then applyMap a.1 a.2 else a.2))
    ((List.range (prbsLen p13)).map (fun i => prbsStep p13 (2 ^ i)), x)).2

/-- The register that a lane's generator starts from: any but zero, in which it would stand still. -/
def prbsStart (p13 : Bool) (l : Nat) : Nat := 1 + Config.prbsSeed l % (2 ^ prbsLen p13 - 1)

/-- Data blocks with PRBS13 for payload. -/
def prbsBlocks : Nat → Nat → List Blk × Nat
  | 0, x => ([], x)
  | n + 1, x =>
    let (b, x) := prbsBits true 64 x
    let r := prbsBlocks n x
    (BitVec.ofNat 66 (1 + 4 * ofBits b) :: r.1, r.2)

/-- Data blocks with PRBS13 go out on a lane that trains. -/
def sendFill (l n : Nat) (s : State) : State :=
  let x := tget {} s.link.streams l
  let r := prbsBlocks n (if x.prbs = 0 then prbsStart true l else x.prbs)
  sendBlocks l r.1 { s with link.streams := tset {} s.link.streams l { x with prbs := r.2 } }

/-- A TRAIN block goes out on a lane that trains, after 31 data blocks. -/
def sendTrainBlock (l : Nat) (w : Blk) (s : State) : State := sendBlock l w (sendFill l 31 s)

/-! ### A port's stream over its lanes (R334, R352) -/

/-- Every `n`-th block of a list from the `i`-th on. -/
def dealtTo (n i : Nat) (ws : List Blk) : List Blk := (ws.zipIdx.filter (fun e => e.2 % n == i)).map (·.1)

/-- Blocks by which a lane's stream lies behind another's. -/
def behind (s : State) (first l : Nat) : Nat :=
  ((tget {} s.link.streams first).sent + 65536 - (tget {} s.link.streams l).sent) % 65536

/-- Lanes that a width change adds send data blocks beside the port's own, so that their markers bear the same count
(R334); in their marks of silence they send none. -/
def keepPace (p : Nat) (s : State) : State :=
  match (portOf s p).aux with
  | some t =>
    if t.stepTo.isSome then s
    else t.lanes.foldl (fun s i => sendFill (laneId p i) (behind s (laneId p 0) (laneId p i)) s) s
  | none => s

/-- A port deals blocks to the lanes of its width, one to each in turn (R352). -/
def deal (p : Nat) (ws : List Blk) (s : State) : State :=
  let x := portOf s p
  let n := widthLanes x.width
  let d := x.tx.dealt % n
  let s := (List.range n).foldl (fun s i => sendBlocks (laneId p i) (dealtTo n ((i + n - d) % n) ws) s) s
  keepPace p (modPort p (fun x => { x with tx := { x.tx with dealt := (d + ws.length) % n } }) s)

/-- IDLE blocks up to the port's first lane: every lane has sent as many blocks. -/
def fillRow (p : Nat) (s : State) : State :=
  let n := widthLanes (portOf s p).width
  let d := (portOf s p).tx.dealt % n
  if d = 0 then s else deal p (List.replicate (n - d) idleWord) s

/-- A flit goes out on a port. -/
def sendOnPort (p : Nat) (f : Flit) (s : State) : State := emit (.flit p f) (deal p (flitBlocks f) s)

/-- A control block goes out on one lane of a port. Beside it the other lanes send an IDLE block in service, and a data block
in training, so that no lane's markers run ahead (R334). -/
def sendControl (p i : Nat) (w : Blk) (s : State) : State :=
  match (portOf s p).train with
  | some t => emit (.block (laneId p i) w) ((t.lanes.filter (· != i)).foldl (fun s k => sendFill (laneId p k) 1 s)
      (sendBlocks (laneId p i) [w] s))
  | none =>
    let n := widthLanes (portOf s p).width
    emit (.block (laneId p i) w)
      (deal p ((List.range n).map (fun k => if k = i then w else idleWord)) (fillRow p s))

/-! ### Pattern tests (R348) -/

/-- Bits that a lane carries in one mark at a rate (R5, R330). -/
def bitsPerMark : Nat → Nat
  | 1 => 1700
  | 2 => 6800
  | 3 => 13600
  | _ => 27200

/-- A lane sends a pattern for a number of marks. -/
def sendPattern (l rate : Nat) (p13 : Bool) (marks : Nat) (s : State) : State :=
  emit (.pattern l rate p13 (prbsStart p13 l) (marks * bitsPerMark rate)) s

/-- The symbols of a pattern that leaves a lane. -/
def patternForm (rate : Nat) (p13 : Bool) (start count : Nat) : List Sym := lineForm rate (prbsBits p13 count start).1

/-- The checker of a pattern: bits seen, the last of them, error-free bits in a row for each polarity; once locked the
polarity, and the bits compared and in error. -/
structure PrbsChk where
  seen : Nat := 0
  reg : Nat := 0
  run : Nat := 0
  runInv : Nat := 0
  locked : Option Bool := none
  compared : Nat := 0
  errors : Nat := 0
deriving DecidableEq, Repr

/-- One bit reaches the checker: it seeds itself from the bits received, and counts errors after 64 error-free ones. -/
def chkBit (p13 : Bool) (c : PrbsChk) (b : Bool) : PrbsChk :=
  let e := prbsBit p13 c.reg
  match c.locked with
  | some inv => { c with reg := prbsPush p13 c.reg e, compared := c.compared + 1, errors := c.errors + b2n ((e ^^ inv) != b) }
  | none =>
    let all := 2 ^ prbsLen p13 - 1
    let full := prbsLen p13 ≤ c.seen
    let run := if full && b == e && c.reg != 0 then c.run + 1 else 0
    let runInv := if full && b != e && c.reg != all then c.runInv + 1 else 0
    let reg := prbsPush p13 c.reg b
    let c := { c with seen := c.seen + 1, reg := reg, run := run, runInv := runInv }
    if 64 ≤ run then { c with locked := some false }
    else if 64 ≤ runInv then { c with locked := some true, reg := all - reg }
    else c

/-- The record of a lane in a test's results: bits, errors, and flags 0 and 2. -/
def checkPattern (p13 : Bool) (bs : List Bool) : PrbsChk := bs.foldl (chkBit p13) {}

end Sys2Proof.Machine
end

