-- ==== Sys2Proof/Machine/Kcp.lean ====
section
/-! DEFINITION. The Keakin command protocol (R89 to R126, R444 to R448, R557): packets, sessions, the command ring,
how a command is taken and answered, events, and the commands of chapter 3 that touch no register. -/
namespace Sys2Proof.Machine

/-! ### The opcode map (R117, R119, R459) -/

/-- Opcodes that the device implements. -/
def implemented (op : Nat) : Bool :=
  (1 ≤ op && op ≤ 7) || (0x101 ≤ op && op ≤ 0x108) || (0x201 ≤ op && op ≤ 0x20C) || (0x301 ≤ op && op ≤ 0x307) ||
  (0x401 ≤ op && op ≤ 0x405) || (0x501 ≤ op && op ≤ 0x503) || (0x601 ≤ op && op ≤ 0x609) ||
  (0x701 ≤ op && op ≤ 0x704) || (0x801 ≤ op && op ≤ 0x809)

/-- Opcodes issued by the operator only. -/
def operatorOnly (op : Nat) : Bool :=
  (0x101 ≤ op && op ≤ 0x108) || (0x201 ≤ op && op ≤ 0x20B) || op = 0x502 || (0x601 ≤ op && op ≤ 0x609) ||
  op = 0x703 || op = 0x704 || op = 0x802 || (0x805 ≤ op && op ≤ 0x809)

/-- Commands whose name begins with READ_. -/
def isReadCmd (op : Nat) : Bool := [4, 0x20C, 0x609, 0x801, 0x803, 0x804, 0x805, 0x809].contains op

/-- Commands executed while a global stop is in force (R119). -/
def runsInStop (op : Nat) : Bool := isReadCmd op || [1, 2, 3, 6, 0x501, 0x502, 0x807, 0x108, 0x808].contains op

/-- Earliest bring-up stage of a command (R459). -/
def earliestStage (op : Nat) : Nat :=
  match op with
  | 0x101 => 1
  | 0x102 => 2
  | 0x103 | 0x104 | 0x601 | 0x602 | 0x603 | 0x604 | 0x605 => 3
  | 0x105 => 4
  | 0x201 | 0x203 | 0x204 | 0x205 | 0x206 | 0x207 | 0x208 | 0x106 => 5
  | 0x202 => 6
  | _ => 0

/-! ### Replies (R96, R102, R122) -/

/-- The journal without the records of a command, whose ring entry is freed or placed afresh (R106, R499). -/
def journalWithout (session seq : Nat) (js : List JournalRec) : List JournalRec :=
  js.filter (fun j => !(j.session == session && j.seq == seq))

/-- Write a journal record before its step is applied (R499, R500). -/
def writeJournal (j : JournalRec) (s : State) : State :=
  { s with kcp.journal := s.kcp.journal ++ [j], pair.journalAt := lmc s }

/-- The ring grants each claim of a once step once (R499). -/
def grants (s : State) (j : JournalRec) : Bool :=
  !s.kcp.journal.any (fun x => x.once && x.session == j.session && x.seq == j.seq && x.step == j.step)

/-- Apply a once step: claimed at the ring first, and left out where its claim has been granted before (R499). -/
def applyOnce (session seq : Nat) (step : JStep) (f : State → State) (s : State) : State :=
  let j : JournalRec := { session := session, seq := seq, step := step, once := true }
  if grants s j then f (writeJournal j s) else s

/-- Send a reply to a command of a session; a full reply is cached among the session's last 64, and the command's ring
entry is freed with its journal. -/
def reply (session tenant seq opcode : Nat) (cache : Bool) (body : List Byte) (s : State) : State :=
  let s := if cache then { s with kcp.journal := journalWithout session seq s.kcp.journal } else s
  match sessionOf s session with
  | none => s
  | some ss =>
    let p := seal' ss 1 opcode seq tenant body
    let s := sendKcp ss.path p s
    if cache then modSession session (fun x => { x with replies := (seq, p) :: x.replies.take 63 }) s else s

/-- A deferred command replies (R117): status word, echoed map, results; its ring entry is freed. A command of a
closed session completes without reply (R100). -/
def finish (r : Running) (st : Nat) (res : List Byte) (s : State) : State :=
  reply r.session r.tenant r.seq r.opcode true (le 4 st ++ r.echo ++ res)
    { s with kcp.running := s.kcp.running.filter (fun x => !(x.session == r.session && x.seq == r.seq && x.opcode == r.opcode)) }

/-- Change what a running command waits for. -/
def rewait (r : Running) (w : Wait) (s : State) : State :=
  { s with kcp.running := s.kcp.running.map (fun x =>
      if x.session = r.session && x.seq = r.seq && x.opcode = r.opcode then { x with wait := w } else x) }

/-! ### Sequence numbers (R102, R103) -/

/-- Advance B past every applied number. -/
def advanceBase : Nat → Session → Session
  | 0, x => x
  | n + 1, x =>
    if x.applied.contains x.base then
      advanceBase n { x with base := x.base + 1, applied := x.applied.filter (· != x.base) } else x

/-- Mark a number applied. -/
def markApplied (n : Nat) (x : Session) : Session := advanceBase 64 { x with applied := n :: x.applied }

/-- A SEQ that was applied: below B or recorded. -/
def wasApplied (x : Session) (n : Nat) : Bool := n < x.base || x.applied.contains n

/-- The conditions under which an ordered command runs (R103): every lower number applied, every lower ordered command
has replied. -/
def orderedReady (s : State) (x : Session) (n : Nat) : Bool :=
  x.base = n && !s.kcp.running.any (fun r => r.session == x.id && r.ordered && r.seq < n)

/-- Ring entries that a tenant holds: on the ring, parked, or taken without a reply (R106). -/
def ringHeld (s : State) (t : Nat) : Nat :=
  s.kcp.ring.countP (fun e => e.tenant == t) + s.kcp.running.countP (fun r => r.tenant == t)

def ringLimit (t : Nat) : Nat := if t = 0 then 256 else 64

/-- Place a command on the ring (R106), parked or not; source 320 fires. On an empty ring the marks without a journal write
count from now (R500). -/
def ringPlace (path : Path) (p : KcpPkt) (tenant : Nat) (parked : Bool) (s : State) : State :=
  let s := if s.kcp.ring = [] then { s with pair.journalAt := lmc s } else s
  fire 320 { s with kcp.ring := s.kcp.ring ++ [{ path := path, pkt := p, tenant := tenant, parked := parked }] }

/-- An entry of the ring that may be taken now (R103). -/
def entryReady (s : State) (e : RingEntry) : Bool :=
  e.pkt.unordered || e.pkt.session = 0 || (match sessionOf s e.pkt.session with
    | some x => orderedReady s x e.pkt.seq
    | none => false)

/-- Parked commands of a session (R104): those that still wait for a lower number. -/
def parkedOf (s : State) (id : Nat) : Nat :=
  s.kcp.ring.countP (fun e => e.pkt.session == id && e.parked && !entryReady s e)

/-- The entry of a command of a session on the ring. -/
def entryOf (session seq : Nat) (e : RingEntry) : Bool := e.pkt.session == session && e.pkt.seq == seq

/-- The entry of an OPEN_SESSION, which has no session, from a host. -/
def openEntry (path : Path) (c : Cmd) (e : RingEntry) : Bool :=
  e.pkt.session == 0 && e.pkt.opcode == 2 && e.pkt.seq == c.seq && e.pkt.tenant == c.tenant && e.path == path

/-- Whether the command processor takes a tenant's entry next (R107): operator commands first, then the tenants in
turn after the one served last. A command with no entry on the ring has no competitor. -/
def turnOf (s : State) (mine : RingEntry → Bool) (tenant : Nat) : Bool :=
  if !s.kcp.ring.any mine then true
  else
    let ready := (s.kcp.ring.filter (entryReady s)).map (·.tenant)
    if tenant = 0 then true
    else if ready.contains 0 then false
    else
      let dist := fun t => (t + 32 - s.kcp.lastTenant - 1) % 32
      ready.all (fun t => dist tenant ≤ dist t)

/-- The turn of a session's command (R107). -/
def ringTurn (s : State) (session seq tenant : Nat) : Bool := turnOf s (entryOf session seq) tenant

/-! ### Taking a command (R96, R101, R103, R117, R119) -/

/-- How a command ends its taking. -/
inductive Answer where
  /-- Status word, echoed map and results. -/
  | done (st : Nat) (res : List Byte)
  /-- The status word alone. -/
  | bare (st : Nat)
  /-- Status word and the whole body, where the echo depends on what the command did (R112). -/
  | whole (st : Nat) (body : List Byte)
  /-- The reply comes later. -/
  | later (w : Wait)

/-- Refusals that come before a command's own checks: header tenant, rung 4, global stop, operator rights, stage. -/
def refusal (s : State) (ss : Session) (op tenant : Nat) : Option Nat :=
  if tenant != ss.tenant then some stDENIED
  else if s.err.fatal && !isReadCmd op then some stDENIED
  else if !implemented op then none
  else if stopped s && !runsInStop op then some stHALTED
  else if operatorOnly op && ss.tenant != 0 then some stDENIED
  else if s.boot.stage < earliestStage op then some stDENIED
  else none

/-- Drop a command's ring entry. -/
def ringDrop (session seq : Nat) (s : State) : State :=
  { s with kcp.ring := s.kcp.ring.filter (fun e => !(e.pkt.session == session && e.pkt.seq == seq)) }

/-- The tenant served last: an operator's command leaves the round of the tenants where it stood (R107). -/
def lastServed (t : Nat) (s : State) : Nat := if t = 0 then s.kcp.lastTenant else t

/-- Record that a session's command verified and was taken: the session is open (R447), the number is applied, the
round of R107 goes on from the session's tenant, and the journal of its ring entry begins (R499). A command that never
stood on the ring arrives as it is taken, so the idle time of its session starts again (R100). -/
def takeNumber (c : Cmd) (s : State) : State :=
  let t := match sessionOf s c.session with
    | some x => x.tenant
    | none => c.tenant
  let heard := fun (at' : Nat) => if s.kcp.ring.any (entryOf c.session c.seq) then at' else lmc s
  let j : JournalRec := { session := c.session, seq := c.seq, step := .effect }
  let js := journalWithout c.session c.seq s.kcp.journal ++ [j]
  modSession c.session (fun x => markApplied c.seq { x with isOpen := true, lastAt := heard x.lastAt })
    { ringDrop c.session c.seq s with kcp.lastTenant := lastServed t s, pair.journalAt := lmc s, kcp.journal := js }

/-- Deliver an answer: reply now, or keep the command running. -/
def answer (op : Nat) (c : Cmd) (echo : List Byte) (a : Answer) (s : State) : State :=
  match a with
  | .done st res => reply c.session c.tenant c.seq op true (le 4 st ++ echo ++ res) s
  | .bare st => reply c.session c.tenant c.seq op true (le 4 st) s
  | .whole st body => reply c.session c.tenant c.seq op true (le 4 st ++ body) s
  | .later w =>
    let r : Running := { session := c.session, seq := c.seq, tenant := c.tenant, opcode := op,
                         ordered := !c.unordered, echo := echo, wait := w }
    { s with kcp.running := s.kcp.running ++ [r] }

/-- The packet of a command, as it stands on the ring. -/
def cmdPkt (op : Nat) (c : Cmd) : KcpPkt :=
  { opcode := op, session := c.session, seq := c.seq, tenant := c.tenant, unordered := c.unordered,
    paramLen := c.params.length, params := c.params, got := c.params.length + 32, tag := 0 }

/-- Park an ordered command whose predecessors are not done (R103, R104, R106). -/
def park (op : Nat) (c : Cmd) (ss : Session) (s : State) : State :=
  if s.kcp.ring.any (fun e => e.pkt.session == c.session && e.pkt.seq == c.seq) then
    { s with kcp.ring := s.kcp.ring.map (fun e =>
        if e.pkt.session = c.session && e.pkt.seq = c.seq then { e with parked := true } else e) }
  else if 16 ≤ parkedOf s c.session || ringLimit ss.tenant ≤ ringHeld s ss.tenant then
    reply c.session c.tenant c.seq op false (le 4 stBUSY) s
  else ringPlace ss.path (cmdPkt op c) ss.tenant true s

/-- A command processor takes a command: it is a duplicate, it parks, it is refused, or `body` runs it. `echo` is the
effective parameter map. -/
def kcpTake (op : Nat) (c : Cmd) (echo : List Byte) (body : State → Answer × State) (s : State) : State :=
  if !serving s then s else
  match sessionOf s c.session with
  | none => ringDrop c.session c.seq s
  | some ss =>
    if wasApplied ss c.seq || ss.base + 63 < c.seq then ringDrop c.session c.seq s
    else if !c.unordered && !orderedReady s ss c.seq then park op c ss s
    else if !ringTurn s c.session c.seq ss.tenant then s
    else
      let s := takeNumber c s
      match refusal s ss op c.tenant with
      | some st => answer op c echo (.done st []) s
      | none => let (a, s) := body s; answer op c echo a s

/-- A command that replies at once with a status and results. -/
def kcpNow (op : Nat) (c : Cmd) (echo : List Byte) (body : State → Nat × List Byte × State) (s : State) : State :=
  kcpTake op c echo (fun s => let (st, res, s) := body s; (.done st res, s)) s

/-! ### Sessions (R98 to R100, R445 to R447, R557) -/

/-- Close a session (R100, R193): its parked commands are discarded, its keys forgotten, its page swaps end, and
SESSION_CLOSED goes to the other operator sessions. DESIGN CHOICE (log entry 135): its commands that wait on the ring
without being parked are discarded too. -/
def closeSession (id cause : Nat) (s : State) : State :=
  match sessionOf s id with
  | none => s
  | some ss =>
    let s := { s with kcp.sessions := s.kcp.sessions.filter (fun x => x.id != id),
                      kcp.ring := s.kcp.ring.filter (fun e => e.pkt.session != id) }
    let s := (s.xlat.transfers.filter (fun x => x.session = id)).foldl (fun s x =>
      fire (256 * ppaQuadrant (x.ppas.headD 0) + 40) s)
      { s with xlat.transfers := s.xlat.transfers.filter (fun x => x.session != id) }
    event 11 id (fun _ => false) (le 1 cause ++ le 1 ss.tenant) s

/-- Session slots of a tenant (R98). -/
def sessionSlots (t : Nat) : Nat := if t = 0 then 8 else 2

/-- The first ID from a drawn one on that is non-zero and was never used (R99, R100). -/
def freshId (used : List Nat) : Nat → Nat → Nat
  | 0, c => c
  | n + 1, c => if c % 2 ^ 32 = 0 || used.contains (c % 2 ^ 32) then freshId used n (c % 2 ^ 32 + 1) else c % 2 ^ 32

/-- A tenant's credential in a slot (R444). -/
def credential (s : State) (t i : Nat) : Option Nat :=
  if t = 0 && i = 0 then some Config.operatorKey else tget none s.sec.creds (4 * t + i)

/-- OPEN_SESSION (R98, R99, R107, R430, R446): it carries no session, so its answer goes to the path it came on,
untagged. One that names a session is that session's command, and is answered DENIED. DESIGN CHOICE (log entry 166). -/
def execOpenSession (path : Path) (c : Cmd) (s : State) : Host.Outcome State Fault Refusal :=
  let cred := min 3 (pnum c.params 0 1)
  let eph := pnum c.params 4 64
  let nonce := pnum c.params 68 16
  let echo := le 1 cred ++ zeros 3 ++ le 64 eph ++ le 16 nonce
  if c.session != 0 then .next (kcpNow 2 c echo (fun s => (stDENIED, [], s)) s)
  else if !serving s || !turnOf s (openEntry path c) (c.tenant % 32) then .next s else
  let t := c.tenant % 32
  let send := fun (st : Nat) (res : List Byte) (s : State) =>
    let body := le 4 st ++ echo ++ res
    sendKcp path { type := 1, opcode := 2, session := 0, seq := c.seq, tenant := t, paramLen := body.length,
                   params := body, got := body.length + 32, tag := 0 } s
  let s := { s with kcp.ring := s.kcp.ring.eraseP (openEntry path c), kcp.lastTenant := lastServed t s, pair.journalAt := lmc s }
  if s.err.fatal then .next (send stDENIED [] s)
  else if !s.sec.rngOk then .next (send stBUSY [] s)
  else if sessionSlots t ≤ s.kcp.sessions.countP (fun x => x.tenant == t) then .next (send stBUSY [] s)
  else match credential s t cred with
    | none => .next (send stDENIED [] s)
    | some key =>
      if !onCurve eph then .next (send stDENIED [] s)
      else
        let (d, s) := draw s
        let (r, s) := draw s
        let id := freshId s.kcp.usedIds (s.kcp.usedIds.length + 2) (d % 2 ^ 32)
        let x := exchange key eph r
        let ss : Session :=
          { id := id, tenant := t, cred := cred, path := path, openedAt := lmc s, lastAt := lmc s,
            tagKey := tagKeyOf x nonce id, wrapKey := wrapKeyOf x nonce id }
        let s := { s with kcp.sessions := s.kcp.sessions ++ [ss], kcp.usedIds := id :: s.kcp.usedIds }
        .next (send stOK (le 4 id ++ pairBytes x.devEph ++ confirmation x) s)

/-- CLOSE_SESSION (R557): the reply first, then the session closes with cause 0. -/
def execCloseSession (c : Cmd) (s : State) : Host.Outcome State Fault Refusal :=
  let closes := match sessionOf s c.session with
    | some ss => serving s && !wasApplied ss c.seq && c.seq ≤ ss.base + 63 &&
        (c.unordered || orderedReady s ss c.seq) && ringTurn s c.session c.seq ss.tenant &&
        (refusal s ss 3 c.tenant).isNone
    | none => false
  let s := kcpNow 3 c [] (fun s => (stOK, [], s)) s
  .next (if closes then closeSession c.session 0 s else s)

/-- The session idle limit (R100, cause 1). -/
def execSessionIdleTimeout (session : Nat) (s : State) : Host.Outcome State Fault Refusal :=
  match sessionOf s session with
  | some ss => if ss.isOpen && ss.lastAt + idleMarks s ≤ lmc s then .next (closeSession session 1 s) else .next s
  | none => .next s

/-- A session without a verified command within 1 watch of its reply (R447, R100 cause 2). -/
def execSessionOpenTimeout (session : Nat) (s : State) : Host.Outcome State Fault Refusal :=
  match sessionOf s session with
  | some ss => if !ss.isOpen && ss.openedAt + watch ≤ lmc s then .next (closeSession session 2 s) else .next s
  | none => .next s

/-! ### Commands that touch no register -/

/-- NOP (R117): it does nothing and replies OK. -/
def execNop (c : Cmd) (s : State) : Host.Outcome State Fault Refusal :=
  .next (kcpNow 1 c [] (fun s => (stOK, [], s)) s)

/-- An opcode that the device does not implement (R23, R96): the status word alone, and no other effect. -/
def execUnknownOpcode (c : Cmd) (opcode : Nat) (s : State) : Host.Outcome State Fault Refusal :=
  if implemented opcode then .next s
  else .next (kcpTake opcode c [] (fun s => (.bare stUNKNOWN, s)) s)

/-- The 16-byte record of a port (R120), as the calling tenant sees it. -/
def discoverRecord (s : State) (t p : Nat) : List Byte :=
  let x := portOf s p
  if t != 0 && portTenant s p != some t then le 1 p ++ zeros 15
  else
    let up := portUp s p
    le 1 p ++ le 1 (portState x + 8 * (if up then x.width else 0) + 32 * (if up then x.rate else 0)) ++
    le 2 ((if up then x.partnerEid else 0) + 4096 * (x.partnerClass % 16)) ++
    le 1 ((portTenant s p).getD 0) ++ zeros 3 ++ le 8 x.changedAt

/-- DISCOVER (R120). -/
def execDiscover (c : Cmd) (s : State) : Host.Outcome State Fault Refusal :=
  let first := min 95 (pnum c.params 0 1)
  let count := min (clampTo 1 60 (pnum c.params 1 1)) (96 - first)
  .next (kcpNow 6 c (le 1 first ++ le 1 count ++ zeros 2) (fun s =>
    (stOK, (List.range count).flatMap (fun i => discoverRecord s c.tenant (first + i)), s)) s)

/-- Event codes a tenant may receive (R123): all but SESSION_CLOSED, which is the operator's. -/
def eventCodes (t : Nat) : Nat := if t = 0 then 0xFFE else 0x7FE

/-- SUBSCRIBE_EVENTS (R121). -/
def execSubscribeEvents (c : Cmd) (s : State) : Host.Outcome State Fault Refusal :=
  let m := pnum c.params 0 4 &&& eventCodes c.tenant
  .next (kcpNow 7 c (le 4 m) (fun s => (stOK, [], modSession c.session (fun x => { x with mask := m }) s)) s)

/-! ### Packets (R89, R91, R95, R102 to R106, R122) -/

/-- Conditions of R91 that discard a frame before it is sorted. -/
def frameSound (i : EthInfo) : Bool := !i.fragmentOrOptions && (if i.checksumZero then !i.v6 else i.checksumOk)

/-- The destination is one of the port's addresses (R89). -/
def addressed (s : State) (i : EthInfo) : Bool :=
  (if i.v6 then ethAddresses6 s i.port else ethAddresses4 s i.port).contains i.dst

/-- A frame bears the tag of the reserved receive queue (R89). -/
def rightTag (s : State) (i : EthInfo) : Bool := i.tagged == some (7, ethVid s i.port)

/-- A frame of another priority, or untagged, which counts in WRONG_PRIO (R89); one of another VLAN does not. -/
def wrongPrio (i : EthInfo) : Bool :=
  match i.tagged with
  | some (pcp, _) => pcp != 7
  | none => true

/-- Count in ETH_KCP_STATS0 or ETH_KCP_STATS1 of the port a packet came on (R93). -/
def ethCount (path : Path) (reg lo : Nat) (s : State) : State :=
  match path with
  | .eth port _ _ _ => sat (0x00020030 + 0x100 * port + reg) lo 16 1 s
  | .link _ _ => s

/-- The checks of R95 that come before the session and the tag. -/
def wellFormedKcp (p : KcpPkt) : Bool :=
  p.version = 1 && (p.type = 0 || p.type = 3) && p.paramLen ≤ 972 && p.paramLen + 32 ≤ p.got

/-- Acknowledge events cumulatively (R122). -/
def ackEvents (id n : Nat) (s : State) : State :=
  modSession id (fun x => { x with unacked := x.unacked.filter (fun p => n < p.seq) }) s

/-- A verified packet moves its session's path and restarts its idle time (R100, R122). -/
def verified (path : Path) (p : KcpPkt) (s : State) : State :=
  modSession p.session (fun x => { x with path := path, lastAt := lmc s, isOpen := x.isOpen || p.type = 0 }) s

/-- A verified command at the receive hardware (R102 to R106): duplicate, beyond the window, ring full, parked, or
placed. DESIGN CHOICE (log entry 134): the BUSY that answers a duplicate, or a 17th parked command, carries the status word
alone. -/
def receiveCommand (path : Path) (p : KcpPkt) (ss : Session) (s : State) : State :=
  let busy := reply ss.id p.tenant p.seq p.opcode false (le 4 stBUSY)
  if wasApplied ss p.seq then
    match ss.replies.find? (fun r => r.1 == p.seq) with
    | some r => sendKcp path r.2 s
    | none => if s.kcp.running.any (fun r => r.session == ss.id && r.seq == p.seq) then busy s else s
  else if s.kcp.ring.any (fun e => e.pkt.session == ss.id && e.pkt.seq == p.seq) then busy s
  else if ss.base + 63 < p.seq then s
  else if ringLimit ss.tenant ≤ ringHeld s ss.tenant then ethCount path 4 0 (busy s)
  else if p.unordered || orderedReady s ss p.seq then ringPlace path p ss.tenant false s
  else if 16 ≤ parkedOf s ss.id then busy s
  else ringPlace path p ss.tenant true s

/-- A link port carries a CTL packet of an EID (R135). -/
def linkCarries (s : State) (port eid : Nat) : Bool :=
  match eidTenant s eid with
  | some t => portServes s port t
  | none => false

/-- A KCP packet arrives (R89, R91, R95, R135): the frame is sorted, or over a link its port must carry its source EID; then the
packet is checked for form, session and tag. An OPEN_SESSION without a session is taken whatever its last 32 bytes hold, which R95
gives as zeros: DESIGN CHOICE (log entry 167). -/
def receiveKcp (path : Path) (info : Option EthInfo) (p : KcpPkt) (s : State) : State :=
  let sorted := match path, info with
    | .eth port _ _ _, some i => i.port = port && ethUp s port && frameSound i && addressed s i &&
        i.dstUdp = kcpUdpPort s port
    | .eth port _ _ _, none => ethUp s port
    | .link _ _, _ => true
  let bound := match path with
    | .link port eid => linkCarries s port eid
    | .eth _ _ _ _ => true
  let prio := match info with
    | some i => rightTag s i
    | none => true
  let count := match info with
    | some i => wrongPrio i
    | none => false
  if !serving s || !sorted then s
  else if !bound then bumpDev 0 1 s
  else if !prio then (if count then ethCount path 4 16 s else s)
  else if !wellFormedKcp p then ethCount path 0 0 s
  else
    let enters := fun s => match path with
      | .eth port _ _ _ => fire (if port = 0 then 42 else 554) s
      | .link _ _ => s
    if p.opcode = 2 && p.type = 0 && p.session = 0 then
      if ringLimit p.tenant ≤ ringHeld s p.tenant then
        let body := le 4 stBUSY
        let r : KcpPkt := { type := 1, opcode := 2, session := 0, seq := p.seq, tenant := p.tenant,
                            paramLen := body.length, params := body, got := body.length + 32, tag := 0 }
        ethCount path 4 0 (sendKcp path r s)
      else ringPlace path p p.tenant false (enters s)
    else match sessionOf s p.session with
      | none => ethCount path 0 16 s
      | some ss =>
        if p.tag != tagOf ss.tagKey p then ethCount path 0 16 s
        else
          let s := verified path p (enters s)
          if p.type = 3 then ackEvents ss.id p.seq s else receiveCommand path p ss s

/-- KCP_PACKET_RECEIVED (R72, R95). -/
def execKcpPacketReceived (path : Path) (info : Option EthInfo) (p : KcpPkt) (s : State) :
    Host.Outcome State Fault Refusal := .next (receiveKcp path info p s)

/-- EVENT_ACKNOWLEDGEMENT (R122): a TYPE 3 packet, checked like any other; it gets no reply. -/
def execEventAcknowledgement (path : Path) (p : KcpPkt) (s : State) : Host.Outcome State Fault Refusal :=
  .next (receiveKcp path none { p with type := 3 } s)

/-- EVENT_RESEND (R122): the oldest unacknowledged event of a session goes out again. -/
def execEventResend (session : Nat) (s : State) : Host.Outcome State Fault Refusal :=
  match sessionOf s session with
  | none => .next s
  | some ss => match ss.unacked with
    | [] => .next s
    | p :: _ =>
      if ss.resendAt + eventResendMarks s ≤ lmc s then
        .next (modSession session (fun x => { x with resendAt := lmc s }) (sendKcp ss.path p s))
      else .next s

/-- ARP_REQUEST (R89): answered when it asks for an IPv4 address in use on the port. -/
def execArpRequest (port target mac : Nat) (s : State) : Host.Outcome State Fault Refusal :=
  if serving s && ethUp s port && (ethAddresses4 s port).contains target then
    .next (emit (.arpReply port target (ethMac s port) mac) s) else .next s

/-- NEIGHBOUR_SOLICITATION (R89, R91): answered with a Neighbour Advertisement for an IPv6 address in use. -/
def execNeighbourSolicitation (port target mac : Nat) (s : State) : Host.Outcome State Fault Refusal :=
  if serving s && ethUp s port && (ethAddresses6 s port).contains target then
    .next (emit (.neighbourAdvertisement port target (ethMac s port) mac) s) else .next s

/-- ETH_FRAME_DISCARD (R89, R91): the frame is dropped; a KCP datagram at the port's address with another priority
counts in WRONG_PRIO. -/
def execEthFrameDiscard (i : EthInfo) (s : State) : Host.Outcome State Fault Refusal :=
  if serving s && ethUp s i.port && frameSound i && addressed s i && i.dstUdp = kcpUdpPort s i.port && wrongPrio i then
    .next (sat (0x00020034 + 0x100 * i.port) 16 16 1 s) else .next s

end Sys2Proof.Machine
end

