-- ==== Sys2Proof/Machine/Belay.lean ====
section
/-! DEFINITION. The Belay unit (R302 to R328): knots, gates, local flags, cluster barriers, bight lines and fabric
barriers. -/
namespace Sys2Proof.Machine

/-! ### Contexts at gates -/

/-- Change an engine core. -/
def modCore (c : Nat) (f : Core → Core) (s : State) : State := { s with eng.cores := tmod {} s.eng.cores c f }

/-- The context of a core that holds a share. -/
def ctxOf (s : State) (c k : Nat) : Option Ctx := tget none (tget {} s.eng.cores c).ctxs k

/-- Replace a context. -/
def putCtx (c k : Nat) (x : Option Ctx) (s : State) : State :=
  modCore c (fun y => { y with ctxs := tset none y.ctxs k x }) s

/-- A context passes its gate (R314): its stage may start. -/
def passGate (x : Ctx) : Ctx := { x with phase := .running, started := false, passed := true }

/-- Change every context of the device for which a test holds. -/
def mapCtxs (f : Nat → Nat → Ctx → Ctx) (s : State) : State :=
  { s with eng.cores := s.eng.cores.map (fun e =>
      (e.1, { e.2 with ctxs := e.2.ctxs.map (fun y => (y.1, y.2.map (f e.1 y.1))) })) }

/-- The gate in front of a context's stage. -/
def gateOf (x : Ctx) : Gate := tget {} x.share.gates x.stage

/-- A context waits at its gate. -/
def atGate (x : Ctx) : Bool :=
  match x.phase with
  | .gate _ => true
  | _ => false

/-! ### Knots (R303 to R306) -/

def knotOf (s : State) (k : Nat) : Knot := tget {} s.belay.knots k

def putKnot (k : Nat) (x : Knot) (s : State) : State := { s with belay.knots := tset {} s.belay.knots k x }

/-- Release every gate that waits on a knot (R314); in a global stop they pass at its end (R506). -/
def releaseKnot (k : Nat) (s : State) : State :=
  if frozen s then
    let hit := s.eng.cores.flatMap (fun e => (coreCtxs e.2).filterMap (fun x =>
      if gateWaitsKnot x.2 k && !s.halt.gates.contains (e.1, x.1) then some (e.1, x.1) else none))
    { s with halt.gates := s.halt.gates ++ hit }
  else mapCtxs (fun _ _ x => if gateWaitsKnot x k then passGate x else x) s

/-- The firing test of R304: a latch-mode knot fires once, a pulse-mode knot as often as COUNT holds TARGET. -/
def knotTest (k : Nat) (s : State) : State :=
  let x := knotOf s k
  if !x.armed || x.count < x.target then s
  else if x.reload then releaseKnot k (putKnot k { x with count := x.count % x.target } s)
  else releaseKnot k (putKnot k { x with fired := true, armed := false } s)

/-- Count a knot's saturation for the tenant bound to its block (R324). -/
def countOverflow (k : Nat) (s : State) : State :=
  match knotTenant s k with
  | some t => sat (0x000E0100 + 4 * t) 0 8 1 s
  | none => s

/-- COUNT + n with saturation (R304), without the firing test. -/
def knotAdd (k n : Nat) (s : State) : State :=
  let x := knotOf s k
  if 0xFFFFFFFF < x.count + n then
    let s := if x.overflow then s else countOverflow k s
    putKnot k { x with count := 0xFFFFFFFF, overflow := true } s
  else putKnot k { x with count := x.count + n } s

/-- A signal that was not applied under R206 (R495). -/
def knotDiscard (k : Nat) (s : State) : State :=
  { s with belay.raised := tmod 0 s.belay.raised (knotHome k) (fun x => (x + 1) % 2 ^ 32),
           belay.discarded := tmod 0 s.belay.discarded (knotHome k) (fun x => (x + 1) % 2 ^ 32) }

/-- The quadrant at which a knot is at home runs: one that is listed or in partition reset keeps its knots at their reset values
(R464, R478). -/
def knotRuns (s : State) (k : Nat) : Bool := quadrantRuns s (knotHome k)

/-- An increment (R304, R308): add, then test. The token is raised and applied in one step (log entry 7), or discarded where the
knot's home does not run. -/
def knotIncrement (k n : Nat) (s : State) : State :=
  if !knotRuns s k then knotDiscard k s else
  let q := knotHome k
  let s := { s with belay.raised := tmod 0 s.belay.raised q (fun x => (x + 1) % 2 ^ 32),
                    belay.appliedTok := tmod 0 s.belay.appliedTok q (fun x => (x + 1) % 2 ^ 32) }
  knotTest k (knotAdd k n s)

/-- CLEAR of BELAY_KNOT_CFG (R303): COUNT to 0 and OVERFLOW clear. -/
def knotCleared (x : Knot) : Knot := { x with count := 0, overflow := false }

/-- A write of BELAY_KNOT_CFG with a value for each field that it writes (R304); a knot whose home does not run takes none. -/
def knotWrite (k : Nat) (clear : Bool) (armed : Option Bool) (reload : Option Bool) (target : Option Nat) (s : State) :
    State :=
  if !knotRuns s k then s else
  let x := knotOf s k
  let x := if clear then knotCleared x else x
  let x := { x with reload := reload.getD x.reload, target := max 1 (target.getD x.target) }
  let x := match armed with
    | some true => { x with armed := true, fired := false }
    | some false => { x with armed := false }
    | none => x
  knotTest k (putKnot k x s)

/-- A whole CFG word written to a knot (R303, R304). -/
def knotWriteWord (k cfg : Nat) (s : State) : State :=
  knotWrite k (bit cfg 29) (some (bit cfg 31)) (some (bit cfg 30)) (some (bits cfg 0 24)) s

/-- KNOT_ARM: a CFG write with ARMED set (R304). -/
def execKnotArm (knot cfg : Nat) (s : State) : Host.Outcome State Fault Refusal :=
  .next (knotWrite knot (bit cfg 29) (some true) (some (bit cfg 30)) (some (bits cfg 0 24)) s)

/-- KNOT_DISARM: a CFG write with ARMED clear (R304). -/
def execKnotDisarm (knot cfg : Nat) (s : State) : Host.Outcome State Fault Refusal :=
  .next (knotWrite knot (bit cfg 29) (some false) (some (bit cfg 30)) (some (bits cfg 0 24)) s)

/-- KNOT_CLEAR: COUNT to 0 and OVERFLOW clear, before the write's other fields (R303); the firing test follows. -/
def execKnotClear (knot : Nat) (s : State) : Host.Outcome State Fault Refusal :=
  .next (if !knotRuns s knot then s else knotTest knot (putKnot knot (knotCleared (knotOf s knot)) s))

/-- KNOT_INCREMENT (R304): an increment by n reaches the knot's home and is applied. -/
def execKnotIncrement (knot n : Nat) (s : State) : Host.Outcome State Fault Refusal := .next (knotIncrement knot n s)

/-- The two registers of a knot as bytes (R326). -/
def knotPair (s : State) (k : Nat) : List Byte := le 4 (knotOf s k).count ++ le 4 (knotCfgWord s k)

/-- KNOT_READ (R326); DEGRADED where a knot of the range is ABSENT (R476). -/
def execKnotRead (c : Cmd) (s : State) : Host.Outcome State Fault Refusal :=
  let first := pnum c.params 0 2
  let count := min (clampTo 1 64 (pnum c.params 2 1)) (65536 - first)
  .next (kcpNow 0x501 c (le 2 first ++ le 1 count ++ zeros 1) (fun s =>
    let ks := (List.range count).map (first + ·)
    if c.tenant = 0 || ks.all (fun k => knotTenant s k == some c.tenant) then
      (if ks.any (knotAbsent s) then stDEGRADED else stOK, ks.flatMap (knotPair s), s)
    else (stDENIED, [], s)) s)

/-- Fire a knot in its mode whether or not it is armed (R327): in pulse mode COUNT falls by TARGET, to 0 at least, and
the test is made again. -/
def knotFireNow (k : Nat) (s : State) : State :=
  let x := knotOf s k
  if x.reload then knotTest k (releaseKnot k (putKnot k { x with count := x.count - x.target } s))
  else releaseKnot k (putKnot k { x with fired := true, armed := false } s)

/-- The effective value of KNOT_SET's CFG: reserved bits are zero and a TARGET of 0 is 1 (R108, R303). -/
def knotCfgEffective (cfg : Nat) : Nat :=
  let x := cfg &&& 0xFCFFFFFF
  if x % 0x1000000 = 0 then x + 1 else x

/-- KNOT_SET (R327, R328): DEGRADED for a knot that is ABSENT (R476), BUSY for one whose home is in partition reset. DESIGN
CHOICE (log entry 169). -/
def execKnotSet (c : Cmd) (s : State) : Host.Outcome State Fault Refusal :=
  let k := pnum c.params 0 2
  let action := min 2 (pnum c.params 2 1)
  let value := pnum c.params 4 4
  let cfg := knotCfgEffective (pnum c.params 8 4)
  .next (kcpNow 0x502 c (le 2 k ++ le 1 action ++ zeros 1 ++ le 4 value ++ le 4 cfg) (fun s =>
    let before := knotPair s k
    if knotAbsent s k then (stDEGRADED, before ++ before, s)
    else if !knotRuns s k then (stBUSY, before ++ before, s) else
    let s := match action with
      | 0 =>
        let x := knotOf s k
        let x := if bit cfg 29 then knotCleared x else x
        knotWriteWord k (cfg &&& 0xDFFFFFFF) (putKnot k { x with count := value } s)
      | 1 => applyOnce c.session c.seq (.knot k) (fun s => knotTest k (knotAdd k value s)) s
      | _ => applyOnce c.session c.seq (.knot k) (knotFireNow k) s
    let s := recordError { seq := 0, domain := 5, source := 3, rung := 0, tenant := knotTenant s k, unitKind := 6, unit := k }
      (knotHome k) 0 s
    (stOK, before ++ knotPair s k, s)) s)

/-! ### CONFIGURE_BARRIER (R312, R313) -/

/-- The key of a tenant's chain or program in its store. -/
abbrev storeKey (tenant id : Nat) : Nat := 64 * tenant + id

/-- A queued or running share uses a chain ID (R240, R313). -/
def chainInUse (s : State) (t id : Nat) : Bool :=
  s.eng.cores.any (fun e => e.2.queue.any (fun x => x.tenant == t && x.chainId == some id) ||
    (coreCtxs e.2).any (fun y => y.2.share.tenant == t && y.2.share.chainId == some id))

/-- CONFIGURE_BARRIER sets the gate and the post flag of one stage of a loaded chain; DEGRADED for a knot that is ABSENT (R476). -/
def execConfigureBarrier (c : Cmd) (s : State) : Host.Outcome State Fault Refusal :=
  let id := min 63 (pnum c.params 0 1)
  let stage := min 15 (pnum c.params 1 1)
  let kind := min 5 (pbits c.params 2 0 3)
  let post := if pbit c.params 3 3 then some (pbits c.params 3 0 3) else none
  let sel := pnum c.params 4 2
  let sel := match kind with
    | 2 => min 7 sel
    | 4 => min 15 sel
    | 5 => min 4095 sel
    | _ => sel
  let timeout := max 1 (pnum c.params 6 2)
  let echo := le 1 id ++ le 1 stage ++ le 1 kind ++ le 1 (pbits c.params 3 0 4) ++ le 2 sel ++ le 2 timeout ++ zeros 4
  .next (kcpNow 0x503 c echo (fun s =>
    if (kind = 1 && knotTenant s sel != some c.tenant) || (kind = 4 && bightTenant s sel != c.tenant) ||
       (kind = 5 && groupTenant s sel != some c.tenant) then (stDENIED, [], s)
    else if kind = 1 && knotAbsent s sel then (stDEGRADED, [], s)
    else if chainInUse s c.tenant id then (stBUSY, [], s)
    else
      let g : Gate := { kind := kind, select := sel, timeout := timeout, post := post }
      let key := storeKey c.tenant id
      match tget none s.eng.chains key with
      | none => (stOK, [], s)
      | some ch =>
        (stOK, [], { s with eng.chains := tset none s.eng.chains key (some { ch with gates := tset {} ch.gates stage g }) }))
    s)

/-! ### Barriers (R316 to R322) -/

def gangOf (s : State) (g : Nat) : Option Gang := s.eng.gangs.find? (fun x => x.id == g)

def modGang (g : Nat) (f : Gang → Gang) (s : State) : State :=
  { s with eng.gangs := s.eng.gangs.map (fun x => if x.id = g then f x else x) }

/-- The key of a barrier of a gang: stage, and the cluster for a cluster barrier (R316). -/
def barrierKey (kind core stage : Nat) : Nat := if kind = 3 then 16 * (1 + core / 128) + stage else stage

/-- The participants of the barrier that a core's gate belongs to. -/
def participants (g : Gang) (kind core : Nat) : List Nat :=
  if kind = 3 then g.members.filter (fun m => m / 128 = core / 128) else g.members

/-- Every participant waits at the gate of this stage. -/
def allArrived (g : Gang) (kind core stage : Nat) : Bool :=
  (participants g kind core).all (fun m => g.atGate.contains (m, stage))

/-- Contexts of a gang that wait at the gate of a stage pass, for the participants of a core's barrier. -/
def releaseBarrier (g : Gang) (kind core stage : Nat) (s : State) : State :=
  let ps := participants g kind core
  let s := mapCtxs (fun c _ x =>
    if x.share.gang = g.id && ps.contains c && x.stage = stage && atGate x then passGate x else x) s
  modGang g.id (fun y => { y with atGate := y.atGate.filter (fun e => !(ps.contains e.1 && e.2 == stage)) }) s

/-- Count an arrival at a fabric barrier node (R321): beyond EXPECT it is discarded and recorded; a full count goes up
or, at the root, releases. -/
def fbarCount (g : Nat) (s : State) : State :=
  let t := (groupTenant s g).getD 0
  if !fbarEnable s g then s
  else if fbarExpect s g ≤ fbarArrived s g then
    recordError { seq := 0, domain := 5, source := 2, rung := 0, tenant := groupTenant s g, detail0 := g } 0 0 s
  else
    let n := fbarArrived s g + 1
    let s := setField (fbarReg g 4) 16 0 n s
    if n < fbarExpect s g then s
    else if fbarRoot s g then
      let s := setField (fbarReg g 4) 16 0 0 s
      let s := (s.eng.gangs.filter (fun y => y.tenant = t)).foldl (fun s y =>
        (y.atGate.map (·.2)).dedup.foldl (fun s stage =>
          mapCtxs (fun _ _ x => if x.share.gang = y.id && x.stage = stage && atGate x && (gateOf x).kind = 5 &&
            (gateOf x).select = g then passGate x else x) s) s) s
      let (tag, s) := newTag s
      replicate g { code := 0x0A, mcast := true, barrier := true, epoch := s.sw.active,
                         group := g, knot := fbarRknot s g, tag := tag } [] t s
    else sendWaiting (0, fbarUp s g, { code := 0x0A, barrier := true, group := g }, t) s

/-- The release of a fabric barrier reaches this device (R321): ARRIVED to 0 and its gangs pass. -/
def fbarReleaseHere (g : Nat) (s : State) : State :=
  let s := setField (fbarReg g 4) 16 0 0 s
  let hit := fun (x : Ctx) => atGate x && (gateOf x).kind == 5 && (gateOf x).select == g
  let waiting := s.eng.cores.flatMap (fun e => (coreCtxs e.2).filterMap (fun y =>
    if hit y.2 then some (e.1, y.2.share.gang, y.2.stage) else none))
  let s := mapCtxs (fun _ _ x => if hit x then passGate x else x) s
  waiting.foldl (fun s w => modGang w.2.1 (fun y => { y with atGate := y.atGate.filter (· != (w.1, w.2.2)) }) s) s

/-- A context that passes a gate counts no longer at it; a bight line that its gang holds is released on arrival and
driven low again by a core with a later gate on it (R318). -/
def arriveBarrier (core k : Nat) (x : Ctx) (s : State) : State :=
  let gate := gateOf x
  match gangOf s x.share.gang with
  | none => s
  | some g =>
    let g' := { g with atGate := g.atGate ++ [(core, x.stage)] }
    let s := modGang g.id (fun _ => g') s
    match g.broken.find? (fun b => b.1 == barrierKey gate.kind core x.stage) with
    | some b => putCtx core k (some { x with phase := .stopping b.2 }) s
    | none =>
      match gate.kind with
      | 3 => if allArrived g' 3 core x.stage then releaseBarrier g' 3 core x.stage s else s
      | 4 => { s with belay.low := s.belay.low.filter (· != (gate.select, core)) }
      | 5 => if allArrived g' 5 core x.stage && fbarLocal s gate.select then fbarCount gate.select s else s
      | _ => s

/-- The knot, line or group of the gate in front of a context's stage is its tenant's (R269, R313, R319). -/
def gateOwned (s : State) (x : Ctx) : Bool :=
  let g := gateOf x
  let t := x.share.tenant
  (g.kind != 1 || knotTenant s g.select == some t) && (g.kind != 4 || bightTenant s g.select = t) &&
  (g.kind != 5 || groupTenant s g.select == some t)

/-- A context arrives at the gate of its stage (R311, R314, R319): it passes at once, or waits from this mark; at a gate
that is no longer its tenant's it ends DENIED. -/
def gateArrive (core k : Nat) (x : Ctx) (s : State) : State :=
  if !gateOwned s x then putCtx core k (some { x with phase := .stopping stDENIED }) s else
  let gate := gateOf x
  let wait : Ctx := { x with phase := .gate (plmc s) }
  match gate.kind with
  | 0 => putCtx core k (some (passGate x)) s
  | 1 =>
    let n := knotOf s gate.select
    if n.fired && !n.reload then putCtx core k (some (passGate x)) s else putCtx core k (some wait) s
  | 2 =>
    if bit (tget {} s.eng.cores core).flags gate.select then
      putCtx core k (some (passGate x)) (modCore core (fun y => { y with flags := y.flags ^^^ 2 ^ gate.select }) s)
    else putCtx core k (some wait) s
  | _ => arriveBarrier core k wait (putCtx core k (some wait) s)

/-- Set a local flag (R315): a waiting context passes and clears it. DESIGN CHOICE (log entry 175): of several that wait on it, the one of
the lowest number. -/
def setFlag (core f : Nat) (s : State) : State :=
  let y := tget {} s.eng.cores core
  match (coreCtxs y).find? (fun e => atGate e.2 && (gateOf e.2).kind == 2 && (gateOf e.2).select == f) with
  | some e => putCtx core e.1 (some (passGate e.2)) s
  | none => modCore core (fun y => { y with flags := y.flags ||| 2 ^ f }) s

/-- A participant ended before it arrived (R322): the barrier of every gate that it had not yet passed breaks with its
status; waiters at those gates stop, later arrivals find the break. -/
def breakBarriers (core : Nat) (x : Ctx) (status : Nat) (s : State) : State :=
  match gangOf s x.share.gang with
  | none => s
  | some g =>
    let ahead := x.share.gates.filter (fun e => 3 ≤ e.2.kind && e.2.kind ≤ 5 &&
      (if x.passed then x.stage < e.1 else x.stage ≤ e.1) && e.1 < x.share.stages.length)
    let keys := (ahead.map (fun e => barrierKey e.2.kind core e.1)).filter (fun k => !g.broken.any (fun b => b.1 == k))
    if keys = [] then s
    else
      let s := modGang g.id (fun y => { y with broken := y.broken ++ keys.map (fun k => (k, status)) }) s
      let s := sat (0x000E0100 + 4 * g.tenant) 8 8 keys.length s
      let s := recordError { seq := 0, domain := 5, source := 1, rung := 0, tenant := some g.tenant, unitKind := 2,
                             unit := core, detail0 := status } (coreQuadrant core) 0 s
      mapCtxs (fun c _ y =>
        if y.share.gang = g.id && atGate y && 3 ≤ (gateOf y).kind && keys.contains (barrierKey (gateOf y).kind c y.stage)
        then { y with phase := .stopping status } else y) s

/-- BIGHT_LINE_RISE (R318): with no core driving the line low, every core waiting on it passes; a core with a later gate
on the line drives it low again. -/
def execBightLineRise (line : Nat) (s : State) : Host.Outcome State Fault Refusal :=
  if frozen s || tget 0 s.belay.holders line = 0 || s.belay.low.any (fun e => e.1 == line) then .next s
  else
    let hit := fun (x : Ctx) => atGate x && (gateOf x).kind == 4 && (gateOf x).select == line
    let waiting := s.eng.cores.flatMap (fun e => (coreCtxs e.2).filterMap (fun y =>
      if hit y.2 then some (e.1, y.2) else none))
    let s := mapCtxs (fun _ _ x => if hit x then passGate x else x) s
    let again := (waiting.filter (fun w => w.2.share.gates.any (fun e =>
      e.2.kind == 4 && e.2.select == line && w.2.stage < e.1 && e.1 < w.2.share.stages.length))).map (fun w => (line, w.1))
    let s := waiting.foldl (fun s w =>
      modGang w.2.share.gang (fun y => { y with atGate := y.atGate.filter (· != (w.1, w.2.stage)) }) s) s
    .next { s with belay.low := s.belay.low ++ again }

/-- FBAR_DISABLE (R320): ENABLE 0 stops counting and sets ARRIVED to 0. -/
def fbarDisable (g : Nat) (s : State) : State := setField (fbarReg g 0) 31 0 0 (setField (fbarReg g 4) 16 0 0 s)

def execFbarDisable (group : Nat) (s : State) : Host.Outcome State Fault Refusal := .next (fbarDisable group s)

end Sys2Proof.Machine
end

