-- ==== Sys2Proof/Machine/Memory.lean ====
section
/-! DEFINITION. Stacked memory (R402 to R426) and the coil (R30 to R33): where a line lies, its check and encryption, reads
with refetch, writes, rows and refresh, scrub, and the helpers of the checker. -/
namespace Sys2Proof.Machine

/-! ### Places (R402) -/

/-- Bank of a line, 0 to 63: bank within the pseudo-channel and, above it, the pseudo-channel (R402, R425). -/
def lineBank (l : Nat) : Nat := bits (128 * l) 11 5 + 32 * bits (128 * l) 10 1

/-- Row of a line in its bank (R402). -/
def lineRow (l : Nat) : Nat := bits (128 * l) 16 16

/-- Rows of a bank, lines of a strand. -/
abbrev rowCount : Nat := 49152
abbrev strandLines : Nat := 25165824

def strandOf (s : State) (st : Nat) : Strand := tget {} s.mem.strands st
def modStrand (st : Nat) (f : Strand → Strand) (s : State) : State :=
  { s with mem.strands := tmod {} s.mem.strands st f }
def epochOf (s : State) (st : Nat) : Nat := (tget {} s.bind.strand st).epoch
abbrev strandReg (st k : Nat) : Nat := 0x00060000 + 0x20 * st + k
/-- The stack of a strand (R28: 32 strands to a stack). -/
abbrev strandStack (st : Nat) : Nat := st / 32

/-! ### The check (R414) -/

def crcStep (c : Nat) : Nat := if c % 2 = 1 then c / 2 ^^^ 0x82F63B78 else c / 2

def crcByte (c : Nat) (b : Byte) : Nat :=
  crcStep (crcStep (crcStep (crcStep (crcStep (crcStep (crcStep (crcStep (c ^^^ b.toNat))))))))

/-- CRC-32C, bit-reflected, initial value and final XOR all ones. -/
def crc32c (bs : List Byte) : Nat := bs.foldl crcByte 0xFFFFFFFF ^^^ 0xFFFFFFFF

/-- CHECK of a line (R414): plaintext, PPA, epoch, MARK. -/
def checkOf (line : Nat) (data : Line) (epoch mark : Nat) : Nat :=
  crc32c (lineBytes data ++ le 8 (ppaOfLine line) ++ le 2 epoch ++ le 1 mark)

/-- MARK of a poisoned line (R413). -/
abbrev markPoison : Nat := 0xA5

/-! ### Encryption (R415) -/

/-- The next tweak of XTS: multiplied by x modulo x^128 + x^7 + x^2 + x + 1, the first byte lowest. -/
def nextTweak (t : BitVec 128) : BitVec 128 := (t <<< 1) ^^^ (if t.msb then 0x87 else 0)

/-- XTS over the 16-byte blocks of a line from block `i` on. -/
def xtsFrom (f : BitVec 128 → BitVec 128) (d : Line) : Nat → Nat → BitVec 128 → Line
  | 0, _, _ => 0
  | n + 1, i, t =>
    let b := f (d.extractLsb' (128 * i) 128 ^^^ t) ^^^ t
    (b.setWidth 1024 <<< (128 * i)) ||| xtsFrom f d n (i + 1) (nextTweak t)

/-- The tweak of a line: its PPA under the tweak key. -/
def lineTweak (k : BitVec 128) (line : Nat) : BitVec 128 := Config.sm4 k (BitVec.ofNat 128 (ppaOfLine line))

/-- SM4-XTS of a line under the keys of its strand, and its inverse. -/
def encryptLine (x : Strand) (line : Nat) (d : Line) : Line := xtsFrom (Config.sm4 x.dataKey) d 8 0 (lineTweak x.tweakKey line)
def decryptLine (x : Strand) (line : Nat) (d : Line) : Line :=
  xtsFrom (Config.sm4Inv x.dataKey) d 8 0 (lineTweak x.tweakKey line)

/-! ### Rows (R404, R410) -/

/-- The entry with the smallest count, lowest row first. -/
def leastRow : List (Nat × Nat) → Option (Nat × Nat)
  | [] => none
  | e :: t => match leastRow t with
    | none => some e
    | some m => if m.2 < e.2 || (m.2 = e.2 && m.1 < e.1) then some m else some e

/-- The smallest count of a table, 0 while an entry is free (R411). -/
def leastCount (t : List (Nat × Nat)) : Nat := if t.length < 16 then 0 else ((leastRow t).map (·.2)).getD 0

/-- An activate of a row updates the bank's table (R410) and the peak of its smallest count (R411); a count at the threshold asks
for a neighbour refresh. -/
def activate (threshold row now : Nat) (b : Bank) : Bank :=
  let table := match b.table.find? (fun e => e.1 == row) with
    | some _ => b.table.map (fun e => if e.1 = row then (row, e.2 + 1) else e)
    | none =>
      if b.table.length < 16 then b.table ++ [(row, 1)]
      else match leastRow b.table with
        | some m => b.table.filter (fun e => e.1 != m.1) ++ [(row, m.2 + 1)]
        | none => [(row, 1)]
  let due := table.any (fun e => e.1 == row && threshold ≤ e.2) && !b.waiting.any (fun e => e.1 == row)
  { b with table := table, minPeak := max b.minPeak (leastCount table),
           waiting := if due then b.waiting ++ [(row, now)] else b.waiting }

/-- One column access (R404): the history learns whether it hit the row of the access before, the row is activated
unless it is open, and stays open as the prediction or BANK_CLOSE_MODE says (log entry 8). -/
def touchBank (mode threshold row now : Nat) (b : Bank) : Bank :=
  let hist := match b.lastRow with
    | some r => if r = row then min 3 (b.history + 1) else b.history - 1
    | none => b.history
  let b := if b.openRow = some row then b else activate threshold row now b
  let keep := match mode with
    | 1 => true
    | 2 => false
    | _ => 2 ≤ hist
  { b with history := hist, lastRow := some row, openRow := if keep then some row else none }

/-- A number of column accesses to a line. -/
def touchTimes (n line : Nat) (s : State) : State :=
  let st := lineStrand line
  let access := touchBank (closeMode s st) (rowThreshold s st) (lineRow line) (lmc s)
  modStrand st (fun x => { x with banks := tmod {} x.banks (lineBank line) (fun b => (List.replicate n ()).foldl (fun b _ => access b) b) }) s

/-- A column access to a line. -/
def touch (line : Nat) (s : State) : State := touchTimes 1 line s

/-! ### The flip mask (R423) -/

/-- The mask is armed in a mode. -/
def flipReady (s : State) (st mode : Nat) : Bool := flipArmed s st && flipMode s st == mode

/-- The use of the mask clears ARMED and sets MODE to 0. -/
def flipUsed (st : Nat) (s : State) : State := setField (strandReg st 8) 30 0 0 (setField (strandReg st 8) 29 0 0 s)

/-! ### Writes (R416) -/

/-- A whole-line write to the strand. -/
def writeStrand (line : Nat) (data : Line) (poison : Bool) (s : State) : State :=
  let st := lineStrand line
  let mark := if poison then markPoison else 0
  let c := checkOf line data (epochOf s st) mark
  let flip := flipReady s st 1
  let c := if flip then c ^^^ flipMask s st else c
  let s := touch line (if flip then flipUsed st s else s)
  let k := strandOf s st
  let x : StoredLine := { data := data, mark := mark, check := c, gen := k.gen, raw := encryptLine k line data }
  { s with mem.lines := tset none s.mem.lines line (some x) }

/-! ### Raw patterns (R425) -/

/-- Lines that a run covers. -/
def PatternRun.covers (r : PatternRun) (line : Nat) : Bool :=
  lineStrand line = r.strand && r.row ≤ lineRow line && lineRow line < r.row + r.rows && bit r.mask (lineBank line)

/-- The banks of a run in ascending order of offset: bank above, pseudo-channel below (R402). -/
def PatternRun.banks (r : PatternRun) : List Nat := (List.range 64).filter (fun k => bit r.mask (k / 2 + 32 * (k % 2)))

/-- Its lines in ascending order of strand offset. -/
def PatternRun.lines (r : PatternRun) : List Nat :=
  (List.range r.rows).flatMap (fun i => r.banks.flatMap (fun k =>
    (List.range 8).map (fun j => 33554432 * r.strand + 512 * (r.row + i) + 8 * k + j)))

/-- The number of a line among them. -/
def PatternRun.index (r : PatternRun) (line : Nat) : Nat :=
  8 * ((lineRow line - r.row) * r.banks.length + r.banks.countP (· < line / 8 % 64)) + line % 8

/-- Line `n` of a pattern with its 64 spare bits. DESIGN CHOICE (log entry 164): the spec gives the patterns' names. PRBS31 runs on
from line to line, data before spare bits; the one walks from lane to lane with each of the 16 transfers of a line; even lines
hold 0x55; spare bits are 0 in the patterns that name data alone. -/
def PatternRun.lineAt (r : PatternRun) (n : Nat) : Line × Nat :=
  match r.pattern with
  | 0 =>
    let x := prbsAfter false (1088 * n) r.seed
    let v := ofBits (prbsBits false 1088 x).1
    (BitVec.ofNat 1024 v, v / 2 ^ 1024)
  | 1 => ((List.range 16).foldl (fun d k => d ||| (1 <<< (64 * k + (16 * n + k) % 64))) 0, 0)
  | 2 =>
    let b := if n % 2 = 0 then 0x55 else 0xAA
    (lineOf (List.replicate 128 (BitVec.ofNat 8 b)), ofLe (List.replicate 8 (BitVec.ofNat 8 b)))
  | _ => (r.user, 0)

/-- What a strand holds raw at a line: data bits and spare bits, where anything is known of it. -/
def rawAt (s : State) (line : Nat) : Option (Line × Nat) :=
  match tget none s.mem.lines line with
  | some x => some (x.raw, x.check % 2 ^ 32 + 2 ^ 32 * x.mark)
  | none => (s.mem.patterns.find? (fun r => r.covers line)).map (fun r => r.lineAt (r.index line))

/-- Bits of data and of spare in which a line read raw differs from the pattern (R425): `damage` is what the channel turned over,
`other` what a line holds of which nothing is known. -/
def patternErrors (s : State) (r : PatternRun) (damage other : Tbl Line) (spareDamage spareOther : Tbl Nat) (line : Nat) :
    Line × Nat :=
  let want := r.lineAt (r.index line)
  let held := (rawAt s line).getD (tget 0 other line, tget 0 spareOther line)
  (held.1 ^^^ tget 0 damage line ^^^ want.1, (held.2 ^^^ tget 0 spareDamage line ^^^ want.2) % 2 ^ 64)

/-- The results of a compare (R425): LINES, lines that differ, the offset of the first, DQ_ERRORS, SPARE_ERRORS. Lane `i` carries bits
`i`, `i + 64` and so on of a line; MISMATCHES counts lines (log entry 164). -/
def patternResults (lines : List Nat) (errs : Nat → Line × Nat) : List Byte :=
  let bad := lines.filter (fun l => errs l != (0, 0))
  let dq := bad.foldl (fun m l => (List.range 16).foldl (fun m k => m ||| lineNat (errs l).1 (8 * k) 8) m) 0
  le 4 lines.length ++ le 4 bad.length ++ le 4 ((bad.head?.map (fun l => 128 * (l % 33554432))).getD 0xFFFFFFFF) ++ le 8 dq ++
  le 1 (b2n (bad.any (fun l => (errs l).2 != 0))) ++ zeros 3

/-! ### Reads (R417 to R419) -/

/-- The plaintext that a fetch of a line brings back when the channel does no damage, with the CHECK and MARK beside it: of a
line written under the present key what was written, of any other what its raw bits decrypt to. -/
def fetched (s : State) (line : Nat) : Option (Line × Nat × Nat) :=
  let k := strandOf s (lineStrand line)
  match tget none s.mem.lines line with
  | some x => some (if x.gen = k.gen then x.data else decryptLine k line x.raw, x.check, x.mark)
  | none => (rawAt s line).map (fun r => (decryptLine k line r.1, r.2 % 2 ^ 32, r.2 / 2 ^ 32 % 256))

/-- What an undamaged fetch of a line gives where the check matches (R417): plaintext and MARK. Of a line that nothing has
written, whether it passes and what it then reads as are free (R137). -/
def matching (s : State) (line : Nat) : Option (Line × Nat) :=
  let st := lineStrand line
  let gen := (strandOf s st).gen
  match fetched s line with
  | none => if Config.strayPass line gen then some (Config.strayData line gen, 0) else none
  | some (d, check, mark) =>
    if check = checkOf line d (epochOf s st) mark && (mark = 0 || mark = markPoison) then some (d, mark) else none

/-- A correctable-error log entry (R419). -/
def logCured (line source refetches : Nat) (s : State) : State :=
  let k := strandStack (lineStrand line)
  let n := tget 0 s.mem.ceNext k
  let s := if (tget none s.mem.ceLog (64 * k + n)).isSome then sat (0x0006C000 + 4 * k) 16 16 1 s else s
  let e : CeEntry := { ppa := ppaOfLine line, source := source, refetches := refetches, fmt := fmt s }
  { s with mem.ceLog := tset none s.mem.ceLog (64 * k + n) (some e),
           mem.ceNext := tset 0 s.mem.ceNext k ((n + 1) % 64) }

/-- A memory-domain record that names a strand's tenant. -/
def memRecord (source rung kind unit st address : Nat) (s : State) : State :=
  recordError { seq := 0, domain := 0, source := source, rung := rung, tenant := strandTenant s st, unitKind := kind,
                unit := unit, address := address } (strandQuadrant st) (strandStack st) s

/-- An uncured line (R418): poisoned in place with the data as last fetched, counted and recorded. -/
def uncured (line : Nat) (f : Fetches) (s : State) : State :=
  let st := lineStrand line
  let (d, s) := match fetched s line with
    | some x => if f.getD 2 true then (x.1, s) else let (n, s) := draw s; (BitVec.ofNat 1024 n, s)
    | none => (Config.strayData line (strandOf s st).gen, s)
  let s := sat (strandReg st 0x10) 0 16 1 (writeStrand line d true s)
  memRecord 1 0 9 st st (ppaOfLine line) s

/-- A line read from its strand (R417): data, whether it completed POISONED, and whether it was uncured. A scrub read
ignores the flip mask and writes nothing (R421, R423). `source` is that of R419. -/
def readStrand (line source : Nat) (scrub : Bool) (f : Fetches) (s : State) : (Line × Bool × Bool) × State :=
  let st := lineStrand line
  let flip := !scrub && flipReady s st 2
  let good := fun k => f.getD k true && !(flip && k == 0)
  let m := matching s line
  let first := [0, 1, 2].find? good
  -- each refetch is a column access of its own (R404)
  let s := touchTimes (if m.isNone then 3 else (first.getD 2) + 1) line (if flip then flipUsed st s else s)
  let fail : (Line × Bool × Bool) × State :=
    if scrub then ((0, true, true), sat (strandReg st 0x14) 16 16 1 s) else ((0, true, true), uncured line f s)
  match m with
  | none => fail
  | some (d, mark) =>
    match first with
    | none => fail
    | some k =>
      let s := if k = 0 then s else logCured line source k (sat (strandReg st 0x10) 16 16 1 s)
      if mark = markPoison then ((d, true, false), sat (strandReg st 0x14) 0 16 1 s) else ((d, false, false), s)

/-! ### The coil (R30 to R33) -/

def coilOf (s : State) (line : Nat) : Option CoilLine := tget none s.mem.coil line

/-- Coil ways that serve a tenant (R139: a way in its step serves none). -/
def tenantWays (s : State) (t : Nat) : List Nat := (List.range 32).filter (fun w => wayTenant s w == some t)

/-- Lines of one way in one quadrant's slice (R24: 2 MiB). -/
abbrev wayLines : Nat := 16384

def coilSet (line : Nat) (c : Option CoilLine) (s : State) : State :=
  { s with mem.coil := tset none s.mem.coil line c }

/-- A line leaves the coil; a dirty one is written back to its strand (R32). -/
def coilEvict (line : Nat) (s : State) : State :=
  match coilOf s line with
  | none => s
  | some c => let s := coilSet line none s
    if c.dirty then writeStrand line c.data c.poison s else s

/-- Lines of a quadrant's slice that lie in the given ways. -/
def coilIn (s : State) (q : Nat) (ways : List Nat) : List Nat :=
  s.mem.coil.filterMap (fun e => match e.2 with
    | some c => if lineQuadrant e.1 = q && ways.contains c.way then some e.1 else none
    | none => none)

/-- Allocate a line in the tenant's ways. Which line makes room is the device's own choice (log entry 9). -/
def coilAllocate (tenant line : Nat) (data : Line) (dirty poison : Bool) (s : State) : State :=
  let q := lineQuadrant line
  let ways := tenantWays s tenant
  match ways.find? (fun w => (coilIn s q [w]).length < wayLines) with
  | some w => coilSet line (some { data := data, dirty := dirty, poison := poison, way := w }) s
  | none =>
    let ls := coilIn s q ways
    let (n, s) := draw s
    let v := ls.getD (n % ls.length) 0
    match coilOf s v with
    | none => if dirty then writeStrand line data poison s else s
    | some c => coilSet line (some { data := data, dirty := dirty, poison := poison, way := c.way }) (coilEvict v s)

/-- Home data of a line (R31, R33): from the coil, or from the strand; a link's read allocates. -/
def homeRead (tenant line : Nat) (link : Bool) (source : Nat) (f : Fetches) (s : State) : (Line × Bool) × State :=
  let s := bump tenant 1 1 s
  match coilOf s line with
  | some c => ((c.data, c.poison), s)
  | none =>
    let (r, s) := readStrand line source false f s
    if link && tenantWays s tenant != [] then ((r.1, r.2.1), coilAllocate tenant line r.1 false r.2.1 s)
    else ((r.1, r.2.1), s)

/-- Write a whole line at the home (R31, R203, R416): in the coil on a hit, or where a link's write allocates;
otherwise at the strand. -/
def homeWrite (tenant line : Nat) (data : Line) (poison link : Bool) (s : State) : State :=
  let s := bump tenant 2 1 s
  match coilOf s line with
  | some c => coilSet line (some { c with data := data, dirty := true, poison := poison }) s
  | none =>
    if link && tenantWays s tenant != [] then coilAllocate tenant line data true poison s
    else writeStrand line data poison s

/-- What the channel does to a read whose command names no damage: the outcome of each of its fetches is free (R417; log entry
165). -/
def drawFetches (s : State) : Fetches × State :=
  let (n, s) := draw s
  ([n.testBit 0, n.testBit 1, n.testBit 2], s)

/-- Poison a line at its home (R420): its current contents are written back with MARK 0xA5; a read that is uncured has poisoned
it already. -/
def poisonHome (line : Nat) (s : State) : State :=
  match coilOf s line with
  | some c => coilSet line (some { c with poison := true, dirty := false }) (writeStrand line c.data true s)
  | none =>
    let (f, s) := drawFetches s
    let (r, s) := readStrand line 3 false f s
    if r.2.2 then s else writeStrand line r.1 true s

/-! ### Refresh (R406 to R411) -/

/-- Lines of a tracker's bookings with their marks, in booking order. -/
def bookedLines (t : Tracker) : List (Nat × Nat) :=
  ((t.strandBook.flatMap (fun b => List.replicate b.2 b.1)).zipIdx).map (fun e => (e.1, t.firstLine + e.2))

/-- A booked line of a bank is due in a mark. -/
def bankBooked (s : State) (st bank mark : Nat) : Bool :=
  s.coh.trackers.any (fun t => t.p1 && lineStrand t.firstLine == st &&
    (bookedLines t).any (fun e => e.1 == mark && lineBank e.2 == bank))

/-- The last mark booked on a strand, or the present one. -/
def lastBooked (s : State) (st : Nat) : Nat :=
  s.coh.strandLedger.foldl (fun m e => if e.1 % 512 = st && e.2 != 0 then max m (e.1 / 512) else m) (lmc s)

/-- The bank can be refreshed now: no booked line of it is due in this mark or the next, and no refresh holds it (R407). -/
def bankFree (s : State) (st bank : Nat) : Bool :=
  !bankBooked s st bank (lmc s) && !bankBooked s st bank (lmc s + 1) && (tget {} (strandOf s st).banks bank).freeAt ≤ lmc s

/-- Change a bank. -/
def modBank (st bank : Nat) (f : Bank → Bank) (s : State) : State :=
  modStrand st (fun x => { x with banks := tmod {} x.banks bank f }) s

/-- A number of refresh commands, 8 rows each: the bank's row is closed. -/
def refreshBank (n : Nat) (b : Bank) : Bank :=
  if n = 0 then b else { b with openRow := none, nextRow := (b.nextRow + 8 * n) % rowCount }

/-- All that is owed to a bank is paid (R409). -/
def payAll (b : Bank) : Bank := { refreshBank b.lag b with lag := 0 }

/-- The claims of a strand or of one of its banks are given up. -/
def dropClaims (test : Nat × Nat × Nat → Bool) (s : State) : State :=
  { s with coh.claims := s.coh.claims.filter (fun c => !test c) }

/-- A slice that enters self-refresh first pays all that it owes; on leaving it the schedule restarts with no lag, and its tables
are empty (R409). -/
def slicePaid (st : Nat) (s : State) : State :=
  dropClaims (fun c => c.1 == st) (modStrand st (fun x =>
    { x with banks := (x.banks.map (fun e => (e.1, payAll e.2))).filter (fun e => e.2 != {}) }) s)
def sliceRestarts (st : Nat) (s : State) : State :=
  dropClaims (fun c => c.1 == st) (modStrand st (fun x =>
    { x with banks := (x.banks.map (fun e => (e.1, { e.2 with lag := 0, table := [], waiting := [], minPeak := 0 }))).filter
                        (fun e => e.2 != {}) }) s)

/-- Two marks are claimed for a bank after the last one booked on the strand, unless claims of it stand (R407). -/
def claimMarks (st bank : Nat) (s : State) : State :=
  if s.coh.claims.any (fun c => c.1 == st && c.2.1 == bank) then s
  else
    let m := lastBooked s st
    { s with coh.claims := s.coh.claims ++ [(st, bank, m + 1), (st, bank, m + 2)] }

/-- Refresh commands of a strand in a mark (R406): two while it is at double rate. -/
def commandsPerMark (s : State) (st : Nat) : Nat :=
  if refreshRate s st = 2 || (refreshRate s st = 0 && (strandOf s st).hot) then 2 else 1

/-- A command goes to a bank: it holds the bank for 2 marks. -/
def refreshNow (st bank : Nat) (s : State) : State := modBank st bank (fun b => { refreshBank 1 b with freeAt := lmc s + 2 }) s

/-- REFRESH_COMMAND (R406, R407, R412): the slice's next scheduled command, of one bank, within the commands of this mark. While
the bank is booked or held it is owed, and at 256 owed the slice claims two marks. -/
def refreshCommand (st bank : Nat) (s : State) : State :=
  let x := strandOf s st
  let now := lmc s
  let issued := if x.refreshMark = now then x.refreshes else 0
  if x.power = .selfRefresh || commandsPerMark s st ≤ issued then s
  else
    let free := bankFree s st bank
    let s := modStrand st (fun x => { x with refreshMark := now, refreshes := issued + 1 }) s
    if free then refreshNow st bank s
    else
      let s := modBank st bank (fun b => { b with lag := b.lag + 1 }) s
      if 256 ≤ (tget {} (strandOf s st).banks bank).lag then claimMarks st bank s else s

def execRefreshCommand (strand bank : Nat) (s : State) : Host.Outcome State Fault Refusal :=
  .next (refreshCommand strand bank s)

/-- One command that is owed is paid to a bank that is free now, the one owed most first. -/
def payOne (st : Nat) (s : State) : State :=
  let owed := (strandOf s st).banks.filter (fun e => e.2.lag != 0 && bankFree s st e.1)
  match owed.foldl (fun (m : Option (Nat × Bank)) e => match m with
      | none => some e
      | some y => if y.2.lag < e.2.lag then some e else some y) none with
  | some e => modBank st e.1 (fun b => { b with lag := b.lag - 1 }) (refreshNow st e.1 s)
  | none => s

/-- What a slice does in each mark (R407, R410): up to two commands that are owed are paid, and a neighbour refresh that has waited
for 64 marks claims its bank. Claims of marks that are past have ended. -/
def sliceMark (st : Nat) (s : State) : State :=
  let x := strandOf s st
  if x.power = .selfRefresh then s
  else
    let s := x.banks.foldl (fun s e => if e.2.waiting.any (fun w => w.2 + 64 ≤ lmc s) then claimMarks st e.1 s else s) s
    payOne st (payOne st s)

def slicesMark (s : State) : State :=
  s.mem.strands.foldl (fun s e => sliceMark e.1 s) (dropClaims (fun c => c.2.2 < lmc s) s)

/-- REFRESH_WINDOW_START (R410, R411): the bank's table is emptied; the peak of its smallest count enters the window's, which
TABLE_MIN_PEAK shows once the last bank's window has ended (log entry 10). -/
def execRefreshWindowStart (strand bank : Nat) (s : State) : Host.Outcome State Fault Refusal :=
  let x := strandOf s strand
  let b := tget {} x.banks bank
  let peak := max x.windowPeak b.minPeak
  let s := modStrand strand (fun x => { x with banks := tmod {} x.banks bank (fun b => { b with table := [], minPeak := 0 }),
                                               windowPeak := if bank = 63 then 0 else peak }) s
  .next (if bank = 63 then setField (strandReg strand 0x18) 0 0 (min 0xFFFF peak) s else s)

/-- NEIGHBOUR_REFRESH (R410, R412): rows r − 2 to r + 2 but r are refreshed, the count returns to 0, and the bank is held for 1 mark.
It is placed as a refresh is, and takes no more than one mark in two. -/
def execNeighbourRefresh (strand bank row : Nat) (s : State) : Host.Outcome State Fault Refusal :=
  let x := strandOf s strand
  let b := tget {} x.banks bank
  if !b.waiting.any (fun e => e.1 == row) || !bankFree s strand bank || lmc s < x.neighbourAt then .next s
  else .next (sat (strandReg strand 0x18) 16 16 1 (modStrand strand (fun x =>
    { x with neighbourAt := lmc s + 2, banks := tmod {} x.banks bank (fun b =>
        { b with openRow := none, waiting := b.waiting.filter (fun e => e.1 != row), freeAt := lmc s + 1,
                 table := b.table.map (fun e => if e.1 = row then (row, 0) else e) }) }) s))

/-- Lines that a strand delivers in a mark (R412), and those that booked and P0 lines take of the present mark. -/
abbrev linesPerMark : Nat := 51
def linesTaken (s : State) (st : Nat) : Nat :=
  s.coh.strandLedger.foldl (fun n e => if e.1 = 512 * lmc s + st then n + e.2 else n) 0 +
  b2n (lmc s < (strandOf s st).p0Free)

/-- SCRUB_READ (R408, R412, R421): one line of a bound strand, in ascending offset, every 2^SCRUB_LOG2_INTERVAL marks; a mark in which
nothing is left for it, or its bank is held, is skipped. -/
def execScrubRead (strand : Nat) (f : Fetches) (s : State) : Host.Outcome State Fault Refusal :=
  let x := strandOf s strand
  let n := x.scrubNext
  let line := strand * 33554432 + n
  if !scrubEnable s strand || (tget {} s.bind.strand strand).st != .bound || x.power != .active || frozen s ||
     lmc s < x.scrubAt || linesPerMark ≤ linesTaken s strand || !bankFree s strand (lineBank line) then .next s
  else
    let (_, s) := readStrand line 2 true f s
    .next (modStrand strand (fun x => { x with scrubNext := (n + 1) % strandLines, scrubAt := lmc s + scrubInterval s strand }) s)

/-- A stack's temperature is read (R406, R492, R528): above 85 °C its strands refresh at double rate, below 80 °C at
single rate again. -/
def stackTemp (stack temp : Nat) (s : State) : State :=
  let old := tget 0 s.mem.temp stack
  let crossed := fun (d : Nat) => (old ≤ d) != (temp ≤ d)
  let low := (old < 80) != (temp < 80)
  let s := { s with mem.temp := tset 0 s.mem.temp stack (min 255 temp) }
  let s := (List.range 32).foldl (fun s k => modStrand (32 * stack + k) (fun x =>
    { x with hot := if 85 < temp then true else if temp < 80 then false else x.hot }) s) s
  let s := if crossed 85 || low then fire (256 * (stack / 4) + 24 + stack % 4) s else s
  if old ≤ 85 && 85 < temp then
    recordError { seq := 0, domain := 0, source := 3, rung := 0, shared := true, unitKind := 11, unit := stack,
                  detail0 := temp } (stack / 4) stack s else s

/-- REFRESH_RATE_CHANGE (R406). -/
def execRefreshRateChange (stack temp : Nat) (s : State) : Host.Outcome State Fault Refusal :=
  .next (if 16 ≤ stack || heldInReset s then s else stackTemp stack temp s)

/-! ### The canonical form of the pool -/

/-- The stored lines and the coil keep their canonical form: addresses strictly rising, no entry equal to what an
unlisted line holds. -/
def Memory.wf (m : MemSt) : Bool := twf none m.lines && twf none m.coil

/-! ### Arming the flip mask (R423) -/

/-- A write of MODE: non-zero sets ARMED, zero disarms. -/
def flipArm (st mode : Nat) (s : State) : State :=
  setField (strandReg st 8) 30 0 mode (setField (strandReg st 8) 29 0 (if mode = 0 then 0 else 1) s)

def execFlipArmNextWrite (strand : Nat) (s : State) : Host.Outcome State Fault Refusal := .next (flipArm strand 1 s)
def execFlipArmNextRead (strand : Nat) (s : State) : Host.Outcome State Fault Refusal := .next (flipArm strand 2 s)
def execFlipDisarm (strand : Nat) (s : State) : Host.Outcome State Fault Refusal := .next (flipArm strand 0 s)

end Sys2Proof.Machine
end

