-- ==== Sys2Proof/Machine/Switch.lean ====
section
/-! DEFINITION. What a packet meets on its way in and out: drops, receive buffers, parking in a global stop, end-to-end
windows, responses and synthetic completions (R135, R364, R371, R379, R382, R390, R391, R507). -/
namespace Sys2Proof.Machine

/-! ### Congestion counts (R400) -/

def modCong (p : Nat) (f : Congestion → Congestion) (s : State) : State :=
  { s with sw.cong := tmod {} s.sw.cong p f }

/-- A packet discarded under R380 or R387. -/
def countDrop (p : Nat) (s : State) : State := modCong p (fun x => { x with drops := min 255 (x.drops + 1) }) s

/-- A response or snoop that cannot leave a lost port (R369, R371). DESIGN CHOICE (log entry 162): it is counted where no register
shows it, since DROPS counts other discards. -/
def countLostPkt (p : Nat) (s : State) : State := { s with sw.lostPkts := tmod 0 s.sw.lostPkts p (· + 1) }

/-- P1 flits booked on a port in a mark, over all tenants. -/
def bookedIn (s : State) (p mark : Nat) : Nat :=
  (s.coh.egressLedger.filter (fun e => e.1 / 32 == 96 * mark + p)).foldl (fun n e => n + e.2) 0

/-- What a port's running counts take in at a mark boundary: the flits that wait, whether a packet waited for credits
alone while nothing was sent, and the flits booked in the mark. -/
def congestionMark (p : Nat) (x : Port) (s : State) : State :=
  let waiting := x.tx.queue.foldl (fun n q => n + pktFlits q.2.2.hdr.granules) 0
  let booked := bookedIn s p (lmc s)
  let c := tget {} s.sw.cong p
  let short := x.tx.queue.any (fun q =>
    let v := codeVc q.2.2.hdr.code
    (match v with
      | 0 => x.tx.credits.1
      | 1 => x.tx.credits.2.1
      | _ => x.tx.credits.2.2) < pktFlits q.2.2.hdr.granules)
  let stall := b2n (portUp s p && short && x.tx.inProgress.isNone && c.flitsSent = c.sentMark)
  modCong p (fun c => { c with queuePeak := min 0xFFFF (max c.queuePeak waiting), stalls := min 0xFFFF (c.stalls + stall),
                               bookedPeak := min 255 (max c.bookedPeak booked), sentMark := c.flitsSent }) s

/-! ### Receive buffers (R364) -/

/-- Add to one channel of a triple CTL, REQ, RSP. -/
def vcAdd (vc n : Nat) (x : Nat × Nat × Nat) : Nat × Nat × Nat :=
  match vc with
  | 0 => (x.1 + n, x.2.1, x.2.2)
  | 1 => (x.1, x.2.1 + n, x.2.2)
  | _ => (x.1, x.2.1, x.2.2 + n)

def vcSub (vc n : Nat) (x : Nat × Nat × Nat) : Nat × Nat × Nat :=
  match vc with
  | 0 => (x.1 - n, x.2.1, x.2.2)
  | 1 => (x.1, x.2.1 - n, x.2.2)
  | _ => (x.1, x.2.1, x.2.2 - n)

def vcGet (vc : Nat) (x : Nat × Nat × Nat) : Nat :=
  match vc with
  | 0 => x.1
  | 1 => x.2.1
  | _ => x.2.2

/-- Flits of a channel leave a port's receive buffer: their credits are owed to the partner. -/
def oweFlits (p vc n : Nat) (s : State) : State :=
  modPort p (fun x => { x with rx.owed := vcAdd vc n x.rx.owed, rx.occupied := vcSub vc n x.rx.occupied }) s

/-- A packet leaves a port's receive buffer, `freed` flits of it before. -/
def oweRest (p : Nat) (h : PktHdr) (freed : Nat) (s : State) : State :=
  if h.code = 0 && h.granules = 0 then s else oweFlits p (codeVc h.code) (pktFlits h.granules - freed) s

def oweCredits (p : Nat) (h : PktHdr) (s : State) : State := oweRest p h 0 s

/-! ### Arrival (R77, R86, R133 to R135, R380, R382, R387) -/

/-- The tenant of a packet: the tenant bound to its source EID (R133). -/
def pktTenant (s : State) (h : PktHdr) : Nat := (eidTenant s h.src).getD 0

/-- A port carries a packet (R135): it is bound SHARED or to the tenant of a bound source EID. -/
def carries (s : State) (p : Nat) (h : PktHdr) : Bool :=
  match eidTenant s h.src with
  | some t => portServes s p t
  | none => false

/-- The header of a packet as a port stamps it: only a partner of class 2 keeps its EPOCH (R382), and a CLASS of 0 on a REQ
packet (R363). -/
def stampedHdr (s : State) (p : Nat) (h : PktHdr) : PktHdr :=
  if (portOf s p).partnerClass = 2 then h
  else { h with epoch := s.sw.active, cls := if codeVc h.code = 1 && h.cls = 0 then 2 else h.cls }

/-- What is settled about a packet when its header is accepted now. -/
def arrivalNow (s : State) (p : Nat) (h : PktHdr) : Arrival :=
  let t := pktTenant s h
  { mark := lmc s, bound := p1Bound s t, tenant := t, carried := carries s p h,
    route := routeIn s (stampedHdr s p h).epoch h.dst, mask := (tget {} s.sw.groups h.group).mask,
    place := s.link.nextPlace }

/-- A packet of the receive buffer that waits for its command. -/
def waitingPkt (s : State) (rx : RxPkt) : Option Arrived := (portOf s rx.port).rx.arrived.find? (fun a => a.pkt == rx)

/-- What was settled about a packet at its arrival; one that its command alone brings arrives now. -/
def arrivalOf (s : State) (rx : RxPkt) : Arrival :=
  match waitingPkt s rx with
  | some a => a.info
  | none => arrivalNow s rx.port rx.hdr

/-- A packet joins those received whole on its port. -/
def keepPacket (rx : RxPkt) (a : Arrival) (s : State) : State :=
  modPort rx.port (fun x => { x with rx.arrived := x.rx.arrived ++ [{ pkt := rx, info := a }] }) s

/-- A packet is taken up at its port with what was settled at its arrival; one that its command alone brings arrives now
and takes the next number. -/
def arrive (rx : RxPkt) (s : State) : Arrival × State :=
  (arrivalOf s rx, if (waitingPkt s rx).isSome then s else { s with link.nextPlace := s.link.nextPlace + 1 })

/-- A packet that its command alone brings, and that must wait, takes its place in the receive buffer. -/
def keepFresh (rx : RxPkt) (a : Arrival) (s : State) : State :=
  if (waitingPkt s rx).isSome then s else
  modPort rx.port (fun x => { x with
    rx.occupied := vcAdd (codeVc rx.hdr.code) (pktFlits rx.hdr.granules) x.rx.occupied }) (keepPacket rx a s)

/-- Take a packet out of its port's receive buffer, where it lies there. -/
def takeArrived (rx : RxPkt) (s : State) : State :=
  match waitingPkt s rx with
  | some a =>
    let s := modPort rx.port (fun x => { x with rx.arrived := x.rx.arrived.erase a }) s
    if a.info.credited then oweCredits rx.port rx.hdr s else s
  | none => s

/-- Take a packet that is to be forwarded: it keeps its place in the receive buffer until it has left (R364, R387). -/
def takeForward (rx : RxPkt) (s : State) : Option (Nat × Nat) × State :=
  match waitingPkt s rx with
  | some a =>
    (if a.info.credited then some (rx.port, a.info.place) else none,
     modPort rx.port (fun x => { x with rx.arrived := x.rx.arrived.erase a }) s)
  | none => (none, s)

/-- A packet still lies in an egress queue with a place in a receive buffer. -/
def placeHeld (s : State) (b : Nat × Nat) : Bool :=
  s.halt.held.any (fun x => x.2.2.buffer == some b) ||
  s.link.ports.any (fun e => e.2.tx.queue.any (fun q => q.2.2.buffer == some b) || (match e.2.tx.inProgress with
    | some (k, _) => k.buffer == some b
    | none => false))

/-- A packet that is being sent on is still arriving at its ingress port. -/
def stillArriving (s : State) (b : Nat × Nat) : Bool :=
  match (portOf s b.1).rx.head with
  | some (_, a) => a.place == b.2
  | none => false

/-- A packet has left its egress port, or was discarded there: with its last copy its place is free and its credits are
owed, once it has arrived whole. -/
def leaveBuffer (k : TxPkt) (s : State) : State :=
  match k.buffer with
  | none => s
  | some b => if placeHeld s b || stillArriving s b then s else oweRest b.1 k.hdr k.freed s

/-- A flit of a packet with one copy has left its egress port: its credit is owed (R364). -/
def flitLeaves (k : TxPkt) (s : State) : TxPkt × State :=
  match k.buffer with
  | none => (k, s)
  | some b =>
    if k.hdr.mcast || k.aborted then (k, s)
    else
      let s := oweFlits b.1 (codeVc k.hdr.code) 1 s
      if stillArriving s b then
        (k, modPort b.1 (fun x => { x with rx.head := x.rx.head.map (fun y => (y.1, { y.2 with freed := y.2.freed + 1 })) }) s)
      else ({ k with freed := k.freed + 1 }, s)

/-! ### Parking (R507 to R511) -/

/-- The landing log holds this many records. -/
abbrev logRecords : Nat := 131072

/-- A packet that arrives from M onward is parked, counted and logged. -/
def park' (rx : RxPkt) (s : State) : State :=
  let late := s.halt.landing ≤ fmt s
  let after := (portOf s rx.port).partnerClass != 2
  let r : LandRec := { hdr := rx.hdr, port := rx.port, late := late, afterM := after, fmt := fmt s }
  { s with halt.parked := s.halt.parked ++ [rx], halt.parkedCount := s.halt.parkedCount + 1,
           halt.log := if s.halt.log.length < logRecords then s.halt.log ++ [r] else s.halt.log,
           halt.late := s.halt.late + b2n late, halt.afterM := s.halt.afterM + b2n after }

/-! ### Ingress (R135, R363, R382) -/

/-- The EPOCH of a packet accepted at a port; one that bears the inactive version keeps it from being drained. -/
def stampEpoch (p : Nat) (h : PktHdr) (s : State) : PktHdr × State :=
  let h := stampedHdr s p h
  (h, if h.epoch = s.sw.active then s else { s with sw.lastOld := lmc s, sw.drained := false })

/-- What becomes of a transaction packet at its port: it ends here, or it goes on as its port has stamped it, with what was
settled at its arrival. -/
inductive Ingress where
  | stops (s : State)
  | goes (rx : RxPkt) (a : Arrival) (s : State)

/-- A packet can be taken from its port: the port is in STATE 2, or the packet was received whole before it was lost. -/
def receivable (s : State) (rx : RxPkt) : Bool := portUp s rx.port || (waitingPkt s rx).isSome

/-- The packet as its port accepts it: one that has not come through the receive buffer is stamped now (R382). -/
def stamped (rx : RxPkt) (s : State) : RxPkt × State :=
  if (waitingPkt s rx).isSome then (rx, s)
  else
    let (h, s) := stampEpoch rx.port rx.hdr s
    ({ rx with hdr := h }, s)

/-- A packet taken from its port: parked in a global stop (R507), discarded under R135, or accepted. -/
def ingress (rx : RxPkt) (s : State) : Ingress :=
  if !serving s || !receivable s rx || s.err.fatal then .stops s
  else
    let (rx, s) := stamped rx s
    let (a, s') := arrive rx s
    if stopped s then .stops (if s.halt.parked.contains rx then s else park' rx (keepFresh rx a s'))
    else if !a.carried then .stops (bumpDev 0 1 (takeArrived rx s))
    else .goes rx a s'

/-! ### End-to-end windows (R390, R391) -/

/-- Key of the pair of a request that arrives at a port. -/
def pairKey (s : State) (port : Nat) (h : PktHdr) : Nat := pairKeyOf s (portQuadrant port) h.src h.dst

/-- Outcome of the window check of R391: BUSY, or accepted with its pair entry. -/
inductive Window where
  | busy (s : State)
  | held (k : Option Nat) (s : State)

/-- Count a request against its window; WRITEBACK and EVICT_CLEAN and requests from another EV-M16 do not count. -/
def window (rx : RxPkt) (s : State) : Window :=
  let h := rx.hdr
  if (portOf s rx.port).partnerClass = 2 || h.code = 0x06 || h.code = 0x07 || 0x40 ≤ h.code then .held none s
  else
    let k := pairKey s rx.port h
    let limit := if isOwnEid s h.dst then poolWindow s h.src else peerWindow s h.src
    if pairRoom s k limit = 0 then .busy (modCong rx.port (fun x => { x with windowBusy := min 0xFFFF (x.windowBusy + 1) }) s)
    else .held (some k) { s with sw.pairs := tmod 0 s.sw.pairs k (· + 1) }

/-! ### Routing versions and forward records (R370, R382, R385, R393) -/

/-- A packet that answers a request (R194). -/
def isAnswer (code : Nat) : Bool := 0x41 ≤ code && code ≤ 0x44

/-- What becomes of the answer to a forwarded request: it passes back with its window entry, or it is late. -/
inductive Passing where
  | late (s : State)
  | goes (pair : Option Nat) (s : State)

/-- An answer passes its forward record, which is freed; one whose record has timed out is late. -/
def passBack (p : Nat) (h : PktHdr) (s : State) : Passing :=
  if !isAnswer h.code then .goes none s
  else match s.sw.fwd.find? (fun f => f.src == h.dst && f.tag == h.tag) with
  | some f => .goes f.pair { s with sw.fwd := s.sw.fwd.erase f }
  | none =>
    if s.sw.ended.contains (h.dst, h.tag) then
      .late (modCong p (fun x => { x with fwdTimeouts := min 0xFFFF (x.fwdTimeouts + 1) })
        { s with sw.ended := s.sw.ended.erase (h.dst, h.tag) })
    else .goes none s

/-! ### Responses (R362, R371, R379, R382, R394) -/

/-- Send a response to a request; `promised` is the bound of an admitted P1 request, `due` its last mark and booked slots. It goes
from its DST_EID to its source, by the active routing version. A response that cannot leave is discarded and counted, and frees
its window (R371, R390). -/
def respond (rq : PktHdr) (tenant : Nat) (pair : Option Nat) (promised : Option Nat) (line : Option Nat)
    (due : Nat × List (Nat × Nat)) (h : PktHdr) (payload : List Line) (s : State) : State :=
  match routeOf s rq.src with
  | none => freePair pair s
  | some p =>
    if !portUp s p then freePair pair (countLostPkt p s)
    else
      let h := { h with dst := rq.src, src := rq.dst, tag := rq.tag, epoch := s.sw.active,
                        cls := if promised.isSome then 1 else 2, granules := payload.length }
      enqueue p (queueOf s h promised.isSome tenant)
        { hdr := h, payload := payload, tenant := tenant, line := line, pair := pair, due := due.1,
          slots := due.2, bound := promised.getD 0 } s

/-- A COMPLETION with a status. -/
def complete (rq : PktHdr) (tenant : Nat) (pair : Option Nat) (status : Nat) (s : State) : State :=
  respond rq tenant pair none none (0, []) { code := 0x42, status := status } [] s

/-- Counters that a final status raises (R516): REVOKED, POISONED, LINK_LOST. -/
def countStatus (tenant status : Nat) (s : State) : State :=
  if status = stREVOKED then bump tenant 10 1 s
  else if status = stPOISONED then bump tenant 11 1 s
  else if status = stNOT_DONE || status = stLOST_UNKNOWN then bump tenant 12 1 s
  else s

/-- An access denied under R133 or R162. -/
def countDenied (tenant : Nat) (s : State) : State := bumpBoth tenant 6 1 s

/-- LINK_LOST_NOT_DONE or LINK_LOST_UNKNOWN of a request whose port was lost or whose answer never came (R369, R393). -/
def lostStatus (code : Nat) : Nat := if 1 ≤ code && code ≤ 3 then stNOT_DONE else stLOST_UNKNOWN

/-- SIGNAL toward an endpoint that a unit of a quadrant originates, its answer of no consequence (R278, R300, R389). -/
def signalTo (q eid knot tenant : Nat) (s : State) : State :=
  if isOwnEid s eid then (if knotTenant s knot == some tenant then knotIncrement knot 1 s else knotDiscard knot s)
  else sendWaiting (q, eid, { code := 0x0A, knot := knot }, tenant) s

end Sys2Proof.Machine
end

