-- ==== Sys2Proof/Machine/Scratch.lean ====
section
/-! DEFINITION. The scratch of an engine core (R230, R233, R262): 4,096 lines of 128 bytes, each with a CRC-16, in one
partition for each context. -/
namespace Sys2Proof.Machine

/-- Remainders of the nibbles times x^16 modulo polynomial 0x1021. -/
def crc16Table : List Nat :=
  [0x0000, 0x1021, 0x2042, 0x3063, 0x4084, 0x50A5, 0x60C6, 0x70E7,
   0x8108, 0x9129, 0xA14A, 0xB16B, 0xC18C, 0xD1AD, 0xE1CE, 0xF1EF]

/-- CRC-16 over the 128 bytes of a line, byte 0 first and each byte from its top bit. DESIGN CHOICE (log entry 133): R262 gives
the polynomial alone, and the initial value here is 0, so that a line of zeros has the check 0. -/
def crc16 (d : Line) : Nat :=
  let n := d.toNat
  (List.range 256).foldl (fun c i =>
    let nib := n >>> (8 * (i / 2) + 4 * (1 - i % 2)) % 16
    (c % 4096) * 16 ^^^ crc16Table.getD (c / 4096 ^^^ nib) 0) 0

/-- Lines of a context's partition where a core has 2^log contexts, and its first line. -/
abbrev partitionSize (log : Nat) : Nat := 4096 / 2 ^ log
abbrev partitionBase (log k : Nat) : Nat := k * partitionSize log

/-- The context whose partition holds a scratch line. -/
abbrev partitionWith (log l : Nat) : Nat := l / partitionSize log

/-- Bytes of a context's partition (R233). -/
def partitionOf (s : State) (core : Nat) : Nat := 128 * partitionSize (ctxLog s core)

/-- The first scratch line from one on that is not in use, within some lines. -/
def freeSlot (used : List Nat) : Nat → Nat → Nat
  | 0, i => i
  | n + 1, i => if used.contains i then freeSlot used n (i + 1) else i

/-- A line of an operand arrives in the partition of a context, and its check is written with it. Which scratch line takes it
is the model's choice (log entry 133). -/
def loadLine (s : State) (core k kind addr : Nat) (data : Line) (poison : Bool) (x : Ctx) : Ctx :=
  let log := ctxLog s core
  let slot := freeSlot (x.lines.map (·.slot)) (partitionSize log - 1) (partitionBase log k)
  let l : EngLine := { kind := kind, addr := addr, data := data, poison := poison, slot := slot, check := crc16 data }
  { x with lines := x.lines ++ [l] }

/-- Bytes held in a partition from its last line down, with their checks; a partition holds no more than its lines. -/
def heldLines (log k : Nat) (bs : List Byte) : List HeldLine :=
  (List.range (min (partitionSize log) ((bs.length + 127) / 128))).map (fun i =>
    let d := lineOf ((bs.drop (128 * i)).take 128)
    { slot := partitionBase log k + partitionSize log - 1 - i, data := d, check := crc16 d })

/-- The checks of the operands' lines, and of the partial results' lines, hold (R262). -/
def linesSound (x : Ctx) : Bool := x.lines.all (fun l => crc16 l.data = l.check)
def heldSound (x : Ctx) : Bool := x.held.all (fun l => crc16 l.data = l.check)

/-- One bit of a line turned over. -/
def flipBit (d : Line) (n : Nat) : Line := d ^^^ BitVec.ofNat 1024 (2 ^ (n % 1024))

/-- What a context holds in a scratch line, with one bit turned over. -/
def upsetLine (l n : Nat) (x : Ctx) : Ctx :=
  { x with lines := x.lines.map (fun y => if y.slot = l then { y with data := flipBit y.data n } else y),
           held := x.held.map (fun y => if y.slot = l then { y with data := flipBit y.data n } else y) }

end Sys2Proof.Machine
end

