-- ==== Sys2Proof/Machine/Share.lean ====
section
/-! DEFINITION. Command shares on engine cores: restart descriptors, command records, trace entries, and how a share
ends (R185, R244, R245, R273, R316 to R322, R517 to R525). -/
namespace Sys2Proof.Machine

/-! ### Descriptors (R239) -/

/-- The stage descriptor that a context runs. -/
def stageLine (x : Ctx) : Line := x.share.stages.getD x.stage 0
def descOp (d : Line) : Nat := lineNat d 0 1
def descSignal (d : Line) : Bool := bit (lineNat d 1 1) 2
def descKnot (d : Line) : Nat := lineNat d 4 2

/-! ### Restart descriptors (R185, R187) -/

/-- SCAN, MERGE and the reduce-to-scalar form keep partial results in scratch, so their PROGRESS is zero (R185). -/
def keepsPartial (d : Line) : Bool := descOp d = 5 || descOp d = 6 || (descOp d = 4 && bit (lineNat d 49 1) 2)

/-- Where a share begins in its first stage (R185, R187): the PROGRESS of its RESTART, in whole lines. DESIGN CHOICE (log
entry 130): a PROGRESS that is no multiple of 128 is taken down to one. -/
def startPoint (sh : Share) : Nat := min (sh.startProgress / 128 * 128) (2 ^ 50)

/-- The 32-byte restart descriptor of a context. -/
def restartDesc (x : Ctx) : List Byte :=
  le 8 x.share.origSeq ++ le 1 x.stage ++ zeros 7 ++ le 8 (if keepsPartial (stageLine x) then 0 else x.progress) ++
  le 8 x.share.check

/-! ### Records and trace (R517 to R525) -/

/-- ORIGIN_SEQ and ORIGIN of records and trace entries. -/
def originSeq (o : Origin) : Nat := if o.kind = 2 then 0 else o.seq

/-- FLITS_SENT and FLITS_RECEIVED of a tenant on a port. -/
def portFlits (s : State) (p t : Nat) : Nat × Nat := (tget 0 s.ctr.sent (32 * p + t), tget 0 s.ctr.received (32 * p + t))

/-- Five free values in a row. -/
def draw5 (s : State) : (Nat × Nat × Nat × Nat) × State :=
  let (a, s) := draw s
  let (b, s) := draw s
  let (c, s) := draw s
  let (d, s) := draw s
  ((a, b, c, d), s)

/-- A command record (R518). Its cycle counts are free values: the model keeps no cycles (log entry 11). -/
def commandRecord (core k : Nat) (x : Ctx) (status : Nat) (s : State) : List Byte × State :=
  let (cy, s) := draw5 s
  let f := portFlits s x.port x.share.tenant
  (le 8 (originSeq x.share.origin) ++ le 4 x.share.origin.session ++ le 2 core ++ le 1 k ++ le 1 x.share.tenant ++
   le 1 status ++ le 1 x.stage ++ le 1 x.port ++ le 1 x.share.origin.kind ++ le 8 (x.beginPos / posUnit) ++
   le 1 (x.beginPos % posUnit / 260) ++ le 1 (fraction s) ++ zeros 2 ++ le 8 (fmt s) ++ le 8 cy.1 ++ le 8 x.macs ++
   le 8 x.linesRead ++ le 8 x.linesWritten ++ le 8 cy.2.1 ++ le 8 cy.2.2.1 ++ le 4 cy.2.2.2 ++
   le 4 (min 0xFFFFFFFF x.saturations) ++ le 4 (min 0xFFFFFFFF x.nanToInt) ++ le 4 (min 0xFFFFFFFF x.recomputes) ++
   le 8 (if x.port = 0x7F then 0 else f.1 - x.flits0.1) ++ le 8 (if x.port = 0x7F then 0 else f.2 - x.flits0.2) ++
   zeros 8, s)

/-- Keep a core's record, at most the last 8 (R517). -/
def keepRecord (core : Nat) (r : List Byte) (s : State) : State :=
  let s := if 8 ≤ (tget {} s.eng.cores core).records.length then bumpDev 10 1 s else s
  modCore core (fun y => { y with records := r :: y.records.take 7 }) s

/-- Entries of a trace slice (R522). -/
abbrev sliceEntries : Nat := 2048

/-- Write a trace entry into the slice of a tenant in a core's quadrant (R523 to R525). -/
def traceEntry (kind status core k stage : Nat) (x : Ctx) (s : State) : State :=
  let key := 32 * coreQuadrant core + x.share.tenant
  let sl := tget {} s.ctr.trace key
  let o := x.share.origin
  let b := le 4 sl.next ++ le 1 kind ++ le 1 status ++ le 2 core ++ le 1 k ++ le 1 stage ++ le 1 o.kind ++
    le 1 x.share.tenant ++ le 4 (originSeq o) ++ le 8 (fmt s) ++ le 1 (fraction s) ++ zeros 3 ++ le 4 o.session
  let full := sliceEntries ≤ sl.entries.length
  let s := if full then bumpDev 9 1 s else s
  let sl' : Slice := { next := if sl.next = 0xFFFFFFFF then 1 else sl.next + 1,
                       entries := (if full then sl.entries.drop 1 else sl.entries) ++ [(sl.next, b)] }
  { s with ctr.trace := tset {} s.ctr.trace key sl' }

/-! ### COMMAND_DONE of a share (R123, R185, R244, R273) -/

/-- Results of the last stage that the core ran (R273). -/
def stageResults (x : Ctx) : List Byte :=
  match x.ran.map (fun i => descOp (x.share.stages.getD i 0)) with
  | some 2 | some 7 => le 2 x.failEid ++ zeros 2 ++ le 4 (x.failed.length + x.missing)
  | some 3 | some 5 | some 6 => le 4 x.res0 ++ le 4 x.res1
  | _ => zeros 8

/-- DETAIL of a share's COMMAND_DONE after the status. -/
def shareDetail (core : Nat) (x : Ctx) (status : Nat) : List Byte :=
  le 1 (b2n (status != stOK)) ++ le 2 core ++ zeros 2 ++
  (if status = stOK then zeros 32 else restartDesc x) ++ stageResults x

/-- Report a share's end: COMMAND_DONE, or the COMPLETION of a BULK_COPY (R208). -/
def reportShare (core : Nat) (x : Ctx) (status : Nat) (s : State) : State :=
  let o := x.share.origin
  match o.kind with
  | 0 => commandDone o.session o.seq 0x403 status (shareDetail core x status) s
  | 1 => commandDone o.session o.seq 0x405 status (shareDetail core x status) s
  | _ => complete { code := 0x09, src := o.session, dst := o.seq, tag := o.tag } x.share.tenant
           (if o.port = 0 then none else some (o.port - 1)) status s

/-! ### The gang (R243, R316 to R318) -/

/-- The parent of a gang index in a MERGE (R295): its lowest set bit cleared. -/
def lowBit : Nat → Nat → Nat
  | 0, _ => 1
  | n + 1, i => if i % 2 = 1 then 1 else 2 * lowBit n (i / 2)

def parentOf (i : Nat) : Nat := i - lowBit 11 i

/-- The core of a gang index still takes part. -/
def gangAlive (g : Gang) (i : Nat) : Bool := g.members.contains (g.first + i) && !g.ended.contains (g.first + i)

/-- Where a core's lists go: the nearest ancestor that takes part (R297). -/
def effParent (g : Gang) : Nat → Nat → Option Nat
  | 0, _ => none
  | n + 1, i =>
    if i = 0 then none
    else if gangAlive g (parentOf i) then some (parentOf i) else effParent g n (parentOf i)

/-- A core that offers its lists and has no ancestor left waits for none (R297). -/
def releaseLists (g : Gang) (s : State) : State :=
  mapCtxs (fun _ _ x => if x.share.gang = g.id && x.phase = .merging 2 && (effParent g 12 x.share.index).isNone then
    { x with phase := .merging 3 } else x) s

/-- A core's part of its gang ends: it drives no bight line, and with the last core the gang's lines are free. -/
def leaveGang (core gang : Nat) (s : State) : State :=
  match gangOf s gang with
  | none => s
  | some g =>
    let ended := core :: g.ended
    let s := { s with belay.low := s.belay.low.filter (fun e => !(e.2 == core && g.lines.contains e.1)) }
    if g.members.all ended.contains then
      { s with eng.gangs := s.eng.gangs.filter (fun x => x.id != gang),
               belay.holders := g.lines.foldl (fun t l => tset 0 t l 0) s.belay.holders }
    else releaseLists { g with ended := ended }
      (modGang gang (fun y => { y with ended := ended, atGate := y.atGate.filter (fun e => e.1 != core) }) s)

/-- CANCEL waits for its shares (R247): one has ended. -/
def cancelProgress (core : Nat) (o : Origin) (s : State) : State :=
  s.kcp.running.foldl (fun s r => match r.wait with
    | .cancel seq shares n =>
      if r.session = o.session && seq = o.seq && o.kind != 2 && shares.contains core then
        let left := shares.erase core
        if left = [] then finish r stOK (le 2 n ++ zeros 2) s else rewait r (.cancel seq left n) s
      else s
    | _ => s) s

/-- A share ends with a status (R244, R245, R273, R322, R517, R523, R528): record, trace, interrupt, report; its
context and its place in the gang are free, and a barrier it never reached breaks. -/
def endShare (core k status : Nat) (s : State) : State :=
  match ctxOf s core k with
  | none => s
  | some x =>
    let (r, s) := commandRecord core k x status s
    let s := traceEntry 2 status core k x.stage x (keepRecord core r s)
    let s := bump x.share.tenant 14 1 s
    let s := if status = stREVOKED then bump x.share.tenant 10 1 s else s
    let s := fire (256 * coreQuadrant core + 32 + core / 128 % 4) s
    let s := putCtx core k none s
    let s := if status = stOK then s else breakBarriers core x status s
    let s := leaveGang core x.share.gang s
    cancelProgress core x.share.origin (reportShare core x status s)

/-- A context that has stopped, with every write it issued acknowledged. -/
def stoppedCtx (s : State) : Option (Nat × Nat × Nat) :=
  s.eng.cores.findSome? (fun e => (coreCtxs e.2).findSome? (fun c => match c.2.phase with
    | .stopping st => if c.2.writes = [] then some (e.1, c.1, st) else none
    | _ => none))

/-- End every share that has stopped, and those that a barrier it broke stops in turn. -/
def settleStops : Nat → State → State
  | 0, s => s
  | n + 1, s => match stoppedCtx s with
    | some (c, k, st) => settleStops n (endShare c k st s)
    | none => s

/-- All the contexts of the device. -/
abbrev allContexts : Nat := 16384

/-- A context leaves every list that holds it waiting: fault records, faults without a record, walks. -/
def leaveWaits (core k : Nat) (s : State) : State :=
  { s with xlat.openRecs := s.xlat.openRecs.map (fun r => { r with waiting := r.waiting.filter (· != (core, k)) }),
           xlat.waitingFaults := s.xlat.waitingFaults.filter (fun w => !(w.core == core && w.ctx == k)),
           xlat.walks := s.xlat.walks.map (fun w => { w with waiters := w.waiters.filter (· != .engine core k) }) }

/-- The home forgets the reads of a context that stops; the lines they hold go on without them. -/
def dropEngineReads (core k : Nat) (s : State) : State :=
  let ids := s.coh.trackers.filterMap (fun t => if t.who = .engine core k && t.hdr.code = 0x01 then some t.id else none)
  let gone := fun (j : Job) => ids.contains j.tracker
  if ids = [] then s else
  { s with coh.trackers := s.coh.trackers.filter (fun t => !ids.contains t.id),
           coh.busy := s.coh.busy.map (fun b =>
             { b with job := if b.job.any gone then none else b.job, queue := b.queue.filter (fun j => !gone j) }) }

/-- Stop a context with a status (R245): issued writes complete first, then its share ends. -/
def stopCtx (core k status : Nat) (s : State) : State :=
  match ctxOf s core k with
  | none => s
  | some x =>
    let s := putCtx core k (some { x with phase := .stopping status, wanted := [], reads := [], lines := [], held := [], carry := [] }) s
    settleStops allContexts (dropEngineReads core k (leaveWaits core k s))

/-- Stop every context of a list. -/
def stopAll (l : List (Nat × Nat)) (status : Nat) (s : State) : State :=
  l.foldl (fun s e => stopCtx e.1 e.2 status s) s

/-- A queued share leaves its queue without a context (R247): it ends, but writes no record and no trace entry. -/
def endQueued (core : Nat) (sh : Share) (status : Nat) (s : State) : State :=
  let x : Ctx := { share := sh, stage := sh.startStage, phase := .running, progress := startPoint sh }
  let s := modCore core (fun y => { y with queue := y.queue.erase sh }) s
  let s := bump sh.tenant 14 1 s
  let s := if status = stREVOKED then bump sh.tenant 10 1 s else s
  let s := breakBarriers core x status s
  let s := leaveGang core sh.gang s
  settleStops allContexts (cancelProgress core sh.origin (reportShare core x status
    (fire (256 * coreQuadrant core + 32 + core / 128 % 4) s)))

/-! ### What the home and the links deliver to a context -/

/-- The key of a read within its context. -/
def readKey (r : EngRead) : Nat := 2 * r.addr + r.kind

/-- A line read arrives in scratch. -/
def engineRead (core k key : Nat) (data : Line) (poison : Bool) (s : State) : State :=
  match ctxOf s core k with
  | none => s
  | some x => match x.reads.find? (fun r => readKey r == key) with
    | none => s
    | some r =>
      let x := { x with reads := x.reads.erase r, linesRead := x.linesRead + 1 }
      putCtx core k (some (loadLine s core k r.kind r.addr data poison x)) s

/-- An access of a context ended with a status that stops its command (R146, R271, R272). -/
def engineFail (core k status : Nat) (s : State) : State :=
  match ctxOf s core k with
  | none => s
  | some x => match x.phase with
    | .stopping _ => s
    | _ => stopCtx core k status s

/-- Mark the first write that a test picks as arrived at its destination. -/
def markReady (f : EngWrite → Bool) : List EngWrite → List EngWrite
  | [] => []
  | w :: t => if f w && !w.ready then { w with ready := true } :: t else w :: markReady f t

/-- A pool write of a context has been performed at the home. -/
def engineWrote (core k addr : Nat) (s : State) : State :=
  match ctxOf s core k with
  | none => s
  | some x => putCtx core k (some { x with writes := markReady (fun w => w.tag.isNone && w.addr == addr) x.writes }) s

end Sys2Proof.Machine
end

