-- ==== Sys2Proof/Machine/Transfer.lean ====
section
/-! DEFINITION. The swap unit (R188 to R193): transfers, the packets and frames they send, and how they end. -/
namespace Sys2Proof.Machine

def transferOf (s : State) (id : Nat) : Option Transfer := s.xlat.transfers.find? (fun t => t.id == id)
def modTransfer (id : Nat) (f : Transfer → Transfer) (s : State) : State :=
  { s with xlat.transfers := s.xlat.transfers.map (fun t => if t.id = id then f t else t) }

/-- 1,024-byte chunks of a page: 64 for 64 KiB, 2,048 for 2 MiB. -/
def chunksOf (t : Transfer) : Nat := if t.size = 0 then 64 else 2048

/-- PPA of a chunk: the page's 4 KiB pieces were walked before any data moved (R189). -/
def chunkPpa (t : Transfer) (c : Nat) : Nat := t.ppas.getD (c / 4) 0 + 1024 * (c % 4)

/-- The quadrant of the page's home, whose swap unit carries the transfer out. -/
def transferQuadrant (t : Transfer) : Nat := ppaQuadrant (t.ppas.headD 0)

/-- A transfer ends (R188, R190, R308, R528): its signal on OK, its interrupt, and COMMAND_DONE with TRANSFER_ID and
CHUNKS_DONE. -/
def endTransfer (id status : Nat) (s : State) : State :=
  match transferOf s id with
  | none => s
  | some t =>
    let s := { s with xlat.transfers := s.xlat.transfers.filter (fun x => x.id != id) }
    let s := if status = stOK && t.signal then
      (if knotTenant s t.knot == some t.tenant then knotIncrement t.knot 1 s else knotDiscard t.knot s) else s
    let s := fire (256 * transferQuadrant t + 40) s
    commandDone t.session t.seq (if t.isOut then 0x306 else 0x307) status
      (le 1 0 ++ le 4 (id % 2 ^ 32) ++ le 4 t.done.length) s

/-- The status of a transfer whose path is lost (R190, R193). -/
def lostTransfer (t : Transfer) : Nat := if t.done = [] then stNOT_DONE else stLOST_UNKNOWN

/-- Chunks have reached their destination (R188): SWAP_BYTES rises, and the last one ends the transfer; a PAGE_IN over
Ethernet ends on a full bitmap (R192). -/
def chunksDone (id : Nat) (cs : List Nat) (s : State) : State :=
  match transferOf s id with
  | none => s
  | some t =>
    let new := (cs.filter (fun c => c < chunksOf t && !t.done.contains c)).dedup
    if new = [] then s
    else
      let s := bump t.tenant 15 (1024 * new.length) (modTransfer id (fun x =>
        { x with done := x.done ++ new, lastNew := plmc s }) s)
      if t.done.length + new.length = chunksOf t && (t.isOut || !t.ethernet) then endTransfer id stOK s else s

/-- The swap unit may issue one more request to the transfer's EID. -/
def swapWindow (s : State) (t : Transfer) : Bool :=
  0 < requestRoom s (transferQuadrant t) (t.fabric / 2 ^ 52) && !frozen s

/-- Send one request of a transfer over its link: a LOAD of 4,096 bytes for PAGE_OUT, a STORE for PAGE_IN (R190). With
no way to the EID the transfer ends. -/
def swapSend (id c : Nat) (payload : List Line) (s : State) : State :=
  match transferOf s id with
  | none => s
  | some t =>
    let eid := t.fabric / 2 ^ 52
    match routeOf s eid with
    | some p =>
      if portUp s p then
        let (tag, s) := newTag s
        let s := modTransfer id (fun x => { x with outstanding := x.outstanding ++ [(tag, c)] }) s
        let h : PktHdr := { code := if t.isOut then 0x01 else 0x04, atype := 1, tag := tag, addr := t.fabric + 1024 * c,
                            lines := if t.isOut then 32 else 0 }
        request (transferQuadrant t) eid h payload t.tenant s
      else endTransfer id (lostTransfer t) s
    | none => endTransfer id (lostTransfer t) s

/-- Issue PAGE_OUT's reads while the window allows. -/
def pumpOut : Nat → Nat → State → State
  | 0, _, s => s
  | n + 1, id, s => match transferOf s id with
    | some t =>
      if t.isOut && !t.ethernet && t.sent < chunksOf t && swapWindow s t then
        pumpOut n id (swapSend id t.sent [] (modTransfer id (fun x => { x with sent := x.sent + 4 }) s))
      else s
    | none => s

/-- The header and data of a swap frame as bytes (R191), reserved bytes as sent (R448). -/
def swapBytes (f : SwapFrm) : List Byte :=
  le 4 f.session ++ le 4 f.transfer ++ le 2 f.chunk ++ le 1 f.type ++ le 5 f.spare11 ++ le 8 f.cookie ++ le 8 f.spare24 ++ f.data

/-- Send a swap frame of a transfer on its session's Ethernet path (R90, R191). -/
def swapFrameOut (t : Transfer) (chunk type : Nat) (data : List Byte) (s : State) : State :=
  match sessionOf s t.session with
  | none => s
  | some ss => match ss.path with
    | .eth port mac ip _ =>
      let f : SwapFrm := { session := t.session, transfer := t.id % 2 ^ 32, chunk := chunk, type := type,
                           cookie := t.cookie, data := data, tag := 0 }
      if ethUp s port && !frozen s then
        emit (.swap port (ethFrame s port mac ip t.hostUdp (kcpUdpPort s port + 1) (swapPcp s port))
          { f with tag := hmacSm3 ss.tagKey (swapBytes f) }) s
      else s
    | .link _ _ => s

/-- The swap unit has read or written the lines of its chunks at the home (R190, R192). A status other than OK ends
the transfer (log entry 12 for POISONED). -/
def swapDelivered (id first status : Nat) (lines : List Line) (s : State) : State :=
  match transferOf s id with
  | none => s
  | some t =>
    if status != stOK then endTransfer id status s
    else if t.isOut then
      let s := chunksDone id (if t.ethernet then [first] else [first, first + 1, first + 2, first + 3]) s
      pumpOut 1 id s
    else if t.ethernet then swapFrameOut t first 1 (lines.flatMap lineBytes) s
    else swapSend id first lines s

end Sys2Proof.Machine
end

