-- ==== Sys2Proof/Machine/Arbiter.lean ====
section
/-! DEFINITION. The arbiters inside the device (R27, R36, R73, R74, R154, R207): the tables of the home, the strand slices,
and the quadrant networks and bridges. -/
namespace Sys2Proof.Machine

/-! ### Tables of the home -/

def dirOf (s : State) (line : Nat) : Option DirEnt := tget none s.coh.dir line
def setDir (line : Nat) (d : Option DirEnt) (s : State) : State := { s with coh.dir := tset none s.coh.dir line d }
def busyOf (s : State) (line : Nat) : Option BusyLine := s.coh.busy.find? (fun b => b.line == line)
def dropBusy (line : Nat) (s : State) : State := { s with coh.busy := s.coh.busy.filter (fun b => b.line != line) }
/-- Replace a line's busy entry, or add one at the end. -/
def putBusy (b : BusyLine) (s : State) : State :=
  if s.coh.busy.any (fun x => x.line == b.line) then
    { s with coh.busy := s.coh.busy.map (fun x => if x.line = b.line then b else x) }
  else { s with coh.busy := s.coh.busy ++ [b] }
def trackerOf (s : State) (id : Nat) : Option Tracker := s.coh.trackers.find? (fun t => t.id == id)
def modTracker (id : Nat) (f : Tracker → Tracker) (s : State) : State :=
  { s with coh.trackers := s.coh.trackers.map (fun t => if t.id = id then f t else t) }
def dropTracker (id : Nat) (s : State) : State :=
  { s with coh.trackers := s.coh.trackers.filter (fun t => t.id != id) }

/-- Whether a request's writes and reads allocate in the coil: a link's, and the walker's tables (R31, R168). So do those
of a page swap, of which the spec does not speak (DESIGN CHOICE, log entry 125). -/
def allocates (t : Tracker) : Bool :=
  match t.who with
  | .engine _ _ => false
  | _ => true

/-! ### The strand slice's arbiter (R27, R74, R231) -/

/-- The request that a busy line's job belongs to. -/
def jobTracker (s : State) (b : BusyLine) : Option Tracker := b.job.bind (fun j => trackerOf s j.tracker)

/-- What a busy line's job does, and for whom. -/
def jobOp (b : BusyLine) : Option LineOp := b.job.map Job.op
def jobWho (s : State) (b : BusyLine) : Option Requester := (jobTracker s b).map Tracker.who

/-- A write goes into the coil: on a hit, or where it allocates (R31). -/
def intoCoil (s : State) (t : Tracker) (line : Nat) : Bool :=
  (coilOf s line).isSome || (allocates t && tenantWays s t.tenant != [])

/-- A line waits at its strand: it is to be fetched from there, or written there. -/
def atStrand (s : State) (b : BusyLine) : Bool :=
  b.phase == .fetching && (coilOf s b.line).isNone && (match jobOp b, jobTracker s b with
    | some (.write _), some t => !intoCoil s t b.line
    | _, _ => true)

/-- Class of a line at its strand: 0 P0, 1 P1 in its booked slot, 2 F, among it P1 outside its bound. -/
def lineClass (s : State) (b : BusyLine) : Nat :=
  match jobTracker s b with
  | some t => match t.who with
    | .walker => 0
    | .link _ _ _ => if t.p1 && !t.outside then 1 else if effClass t.hdr = 0 then 0 else 2
    | _ => 2
  | none => 2

/-- The mark booked for a P1 line. -/
def slotOf (s : State) (b : BusyLine) : Nat :=
  (((jobTracker s b).bind (fun t => (bookedLines t).find? (fun e => e.2 == b.line))).map (·.1)).getD 0

/-- The core whose line waits at the engine port: it sits beside the strand, and no spare holds its position. -/
def enginePort (s : State) (b : BusyLine) : Option Nat :=
  match jobWho s b with
  | some (.engine core _) =>
    if core / 4 = lineStrand b.line && (tget {} s.eng.cores core).physical < 128 then some core else none
  | _ => none

/-- Whether the engine port is served before the network port, F lines waiting at either: they are taken alternately. -/
def engineFirst (x : Strand) (engine network : Bool) : Bool := engine && (!network || x.engineNext)

/-- No refresh holds the bank of a line (R406). -/
def bankServes (s : State) (line : Nat) : Bool :=
  (tget {} (strandOf s (lineStrand line)).banks (lineBank line)).freeAt ≤ lmc s

/-- It is a line's turn at its strand: no P0 line waits unless it is one, no P1 line whose slot has come unless it is one or
P0; a P1 line has its slot; F lines are taken alternately from the two ports, and at the engine port from the four cores
in turn. A line that the coil holds waits for nothing. -/
def strandTurn (s : State) (line : Nat) : Bool :=
  match busyOf s line with
  | none => true
  | some b =>
    if !atStrand s b then true
    else
      let st := lineStrand line
      let x := strandOf s st
      let ws := s.coh.busy.filter (fun y => lineStrand y.line == st && atStrand s y && (bankServes s y.line || lineClass s y = 1))
      let due := fun (y : BusyLine) => lineClass s y = 1 && slotOf s y ≤ lmc s
      match lineClass s b with
      | 0 => x.p0Free ≤ lmc s && bankServes s line
      | 1 => slotOf s b ≤ lmc s && !ws.any (fun y => lineClass s y = 0 && x.p0Free ≤ lmc s)
      | _ =>
        let fs := ws.filter (fun y => lineClass s y = 2)
        let cores := fs.filterMap (enginePort s)
        let engine := engineFirst x (cores != []) (fs.any (fun y => (enginePort s y).isNone))
        bankServes s line && !ws.any (fun y => lineClass s y = 0 && x.p0Free ≤ lmc s) && !ws.any due &&
        (match enginePort s b with
        | none => !engine
        | some c => engine && (((List.range 4).map (fun i => 4 * st + (x.coreTurn + i) % 4)).find? cores.contains) == some c)

/-- A line has been taken from its strand: the other port and the next core are in turn, and a P0 line uses up its mark. -/
def strandServed (line : Nat) (s : State) : State :=
  match busyOf s line with
  | none => s
  | some b =>
    if !atStrand s b then s
    else
      let now := lmc s
      match lineClass s b, enginePort s b with
      | 0, _ => modStrand (lineStrand line) (fun x => { x with p0Free := now + 1 }) s
      | 1, _ => s
      | _, some c => modStrand (lineStrand line) (fun x => { x with engineNext := false, coreTurn := (c + 1) % 4 }) s
      | _, none => modStrand (lineStrand line) (fun x => { x with engineNext := true }) s

/-! ### Cached translations (R170, R172) -/

/-- A cached entry covers an address. -/
def covers (x : CacheEnt) (q t tva : Nat) : Bool :=
  x.quadrant = q && x.tenant = t && x.base ≤ tva && tva < x.base + x.size

/-- The cached leaf that serves an access. -/
def cachedLeaf (s : State) (q t tva : Nat) (write : Bool) : Option CacheEnt :=
  s.xlat.cache.find? (fun x => x.leaf && covers x q t tva && (!write || x.writable))

/-- The physical address of an access through a leaf. -/
def leafPpa (x : CacheEnt) (tva : Nat) : Nat := x.ppa + (tva - x.base)

/-! ### The quadrant networks and the bridges (R36, R40, R73, R154, R207) -/

/-- Class by which the network serves: 0 P0, 1 P1, 2 F. -/
def netClass (h : PktHdr) : Nat := effClass h

/-- Lines of a packet that have still to cross. -/
def linesLeft (x : Arrived) : Nat := max 1 x.pkt.hdr.granules - x.info.crossed

/-- Where a request to this device goes in the network: the quadrant of its line's home, known by its PPA or by a cached
translation, or that of a signal's knot. -/
def homeOf (s : State) (rx : RxPkt) (t : Nat) : List Nat :=
  let h := rx.hdr
  if h.code = 0x0A then (if h.barrier then [] else [knotHome h.knot])
  else if !((1 ≤ h.code && h.code ≤ 5) || h.code = 8) then []
  else if h.atype = 1 then [ppaQuadrant (h.addr % 2 ^ 41)]
  else match cachedLeaf s (portQuadrant rx.port) t (h.addr % 2 ^ 57) (h.code = 3 || h.code = 4 || h.code = 5 || h.code = 8) with
    | some x => [ppaQuadrant (leafPpa x (h.addr % 2 ^ 57))]
    | none => []

/-- The quadrants that a packet goes to through the network: those of its egress ports, or of its home. -/
def goesTo (s : State) (rx : RxPkt) (a : Arrival) : List Nat :=
  let h := rx.hdr
  if h.code = 0 || malformed h || !a.carried || (stopped s && h.code != 0x80) then []
  else if h.mcast then
    (((List.range 96).filter (fun p => bit a.mask p && p != rx.port && portUp s p)).map portQuadrant).dedup
  else if isOwnEid s h.dst then homeOf s rx a.tenant
  else match a.route with
    | some p => if portUp s p then [portQuadrant p] else []
    | none => []

/-- What waits to cross from one quadrant to another: its class, the tenant in whose own cycles it crosses (R154), its
source, the lines it has left, whether it is a packet, and its number there. -/
structure Crosser where
  cls : Nat
  cycles : Option Nat
  source : Nat
  left : Nat
  packet : Bool
  name : Nat
deriving DecidableEq, Repr

/-- The cycles that a tenant's traffic has to itself, if it is sealed (R154). -/
def ownCycles (s : State) (t : Nat) : Option Nat := if sealedTenant s t then some t else none

/-- A packet of a receive buffer; each channel of a port is a source, so that an answer waits for no request (R195). -/
def packetCrosser (s : State) (x : Arrived) : Crosser :=
  { cls := if x.pkt.hdr.mcast then 2 else netClass x.pkt.hdr, cycles := ownCycles s x.info.tenant,
    source := 3 * x.pkt.port + codeVc x.pkt.hdr.code, left := linesLeft x, packet := true, name := x.info.place }

/-- The quadrant at whose units an access of this device starts or ends: that of a link's port, of a core, of the Ethernet
port or the link of a page swap (R24, R40). -/
def requesterQuadrant (s : State) (t : Tracker) : Option Nat :=
  match t.who with
  | .link p _ _ => some (portQuadrant ((routeOf s t.hdr.src).getD p))
  | .engine core _ => some (coreQuadrant core)
  | .swap id => (transferOf s id).bind (fun x =>
      if x.ethernet then (match (sessionOf s x.session).map Session.path with
        | some (.eth port _ _ _) => some (2 * port)
        | _ => none)
      else (routeOf s (x.fabric / 2 ^ 52)).map portQuadrant)
  | .walker => none

/-- The way of a line through the network: of what is read from its home to the requester, of what a unit of this device
writes to the home. The line of a core beside its strand takes none. -/
def lineWay (s : State) (b : BusyLine) : Option (Nat × Nat) :=
  match jobTracker s b, jobOp b with
  | some t, some op =>
    let home := lineQuadrant b.line
    let link := match t.who with
      | .link _ _ _ => true
      | _ => false
    if (enginePort s b).isSome && (coilOf s b.line).isNone then none
    else match op with
      | .read | .readShared | .readOwn => (requesterQuadrant s t).map (fun q => (home, q))
      | .write _ => if link then none else (requesterQuadrant s t).map (fun q => (q, home))
      | _ => none
  | _, _ => none

/-- A line on its way: a read's source is its strand, a write's is the unit that writes. -/
def lineCrosser (s : State) (b : BusyLine) : Crosser :=
  let t := jobTracker s b
  { cls := lineClass s b, cycles := ownCycles s ((t.map (·.tenant)).getD 0),
    source := (match jobWho s b, jobOp b with
      | some (.engine core _), some (.write _) => 800 + core
      | some (.swap _), some (.write _) => 2848
      | _, _ => 288 + lineStrand b.line),
    left := 1, packet := false, name := b.line }

/-- What waits to go from one quadrant to another: packets of receive buffers, and lines whose turn it is at their strand. -/
def waitingToCross (s : State) (a b : Nat) : List Crosser :=
  s.link.ports.flatMap (fun e => (e.2.rx.arrived.filter (fun x =>
    portQuadrant x.pkt.port == a && (goesTo s x.pkt x.info).contains b)).map (packetCrosser s)) ++
  (s.coh.busy.filter (fun y => y.phase == .fetching && lineWay s y == some (a, b) && strandTurn s y.line)).map (lineCrosser s)

/-- The F sources that wait: the first F packet or line of each. -/
def fHeads (l : List Crosser) : List Crosser :=
  l.filter (fun x => x.cls = 2 && !l.any (fun y => y.source == x.source && y.cls = 2 && y.name < x.name))

/-- Distance of a source from the one whose turn it is. -/
def turnDistance (next p : Nat) : Nat := (p + 4096 - next % 4096) % 4096

/-- The F source that is through first when the sources are served line by line in turn: the fewest lines left, among equals
the nearest in turn. -/
def firstThrough (next : Nat) (l : List Crosser) : Option Crosser :=
  l.foldl (fun m x => match m with
    | none => some x
    | some y =>
      if x.left < y.left || (x.left = y.left && turnDistance next x.source < turnDistance next y.source) then some x else some y) none

/-- Key of a path's turn: its quadrants, and the tenant whose cycles it is in. -/
def turnKey (a b : Nat) (c : Option Nat) : Nat := (4 * a + b) * 33 + (c.map (· + 1)).getD 0

/-- It is a crosser's turn from one quadrant to another: in its cycles nothing of a higher class waits, and among F it is the one
that the round-robin by line lets through first. -/
def mayCross (s : State) (a b : Nat) (me : Crosser) : Bool :=
  let l := (waitingToCross s a b).filter (fun x => x.cycles == me.cycles)
  let l := if l.contains me then l else l ++ [me]
  !l.any (fun x => x.cls < me.cls) &&
  (me.cls != 2 || firstThrough (tget 0 s.sw.networkTurn (turnKey a b me.cycles)) (fHeads l) == some me)

/-- An F packet or line is through: the lines that the other sources have sent meanwhile count, and the next source is in
turn. -/
def passCrosser (a b : Nat) (me : Crosser) (s : State) : State :=
  if me.cls != 2 then s
  else
    let k := turnKey a b me.cycles
    let next := tget 0 s.sw.networkTurn k
    let heads := fHeads ((waitingToCross s a b).filter (fun x => x.cycles == me.cycles))
    let d := turnDistance next me.source
    let upd := fun (x : Arrived) =>
      let c := packetCrosser s x
      if heads.contains c && c.source != me.source then
        { x with info := { x.info with crossed := x.info.crossed + (if turnDistance next c.source < d then me.left else me.left - 1) } }
      else x
    { s with sw.networkTurn := tset 0 s.sw.networkTurn k ((me.source + 1) % 4096),
             link.ports := s.link.ports.map (fun e => (e.1, { e.2 with rx.arrived := e.2.rx.arrived.map upd })) }

/-- An earlier packet of the same pair, channel and class waits in a receive buffer (R207). -/
def overtakes (s : State) (rx : RxPkt) (a : Arrival) : Bool :=
  s.link.ports.any (fun e => e.2.rx.arrived.any (fun x => x.info.place < a.place && x.pkt.hdr.src == rx.hdr.src &&
    x.pkt.hdr.dst == rx.hdr.dst && !x.pkt.hdr.mcast && codeVc x.pkt.hdr.code == codeVc rx.hdr.code &&
    netClass x.pkt.hdr == netClass rx.hdr))

/-- It is a packet's turn in the network, on every path that it takes. One that its command alone brings stands among those
that wait. -/
def networkTurn (s : State) (rx : RxPkt) (a : Arrival) : Bool :=
  let q := portQuadrant rx.port
  (goesTo s rx a).all (fun b => mayCross s q b (packetCrosser s { pkt := rx, info := a }))

/-- A packet is through the network. -/
def crossed (rx : RxPkt) (a : Arrival) (s : State) : State :=
  (goesTo s rx a).foldl (fun s b => passCrosser (portQuadrant rx.port) b (packetCrosser s { pkt := rx, info := a }) s) s

/-- It is a line's turn: at its strand, and on its way through the network. -/
def lineTurn (s : State) (line : Nat) : Bool :=
  strandTurn s line && (match busyOf s line with
    | none => true
    | some b => match lineWay s b with
      | none => true
      | some (x, y) => mayCross s x y (lineCrosser s b))

/-- A line has been taken in its turn. -/
def lineTaken (line : Nat) (s : State) : State :=
  strandServed line (match busyOf s line with
    | none => s
    | some b => match lineWay s b with
      | none => s
      | some (x, y) => passCrosser x y (lineCrosser s b) s)

end Sys2Proof.Machine
end

