-- ==== Sys2Proof/Machine/Home.lean ====
section
/-! DEFINITION. The home (R133, R194 to R229, R146, R372): who may access a line, the directory, what each request does
to a line, snoops and their answers, and how a request ends. -/
namespace Sys2Proof.Machine

/-! ### Rights (R29, R133, R146, R435, R475, R478) -/

/-- The extent that holds a PPA (R141). -/
def extentAt (s : State) (ppa : Nat) : Option Extent :=
  s.bind.extents.find? (fun e => e.base ≤ ppa && ppa < e.base + 0x200000 * e.granules)

/-- Change the extent with a base. -/
def modExtent (base : Nat) (f : Extent → Extent) (s : State) : State :=
  { s with bind.extents := s.bind.extents.map (fun e => if e.base = base then f e else e) }

/-- A stack is in a cluster or partition reset (R478). -/
def stackInReset (s : State) (st : Nat) : Bool :=
  s.boot.resets.any (fun r => (r.scope == 1 && r.target == strandStack st) ||
    (r.scope == 2 && r.target == strandQuadrant st))

/-- The status that refuses an access of `n` lines, and whether it is counted as DENIED: outside the populated part
(R29), outside the tenant's extents (R133), in revocation (R146), a write to a sealed extent (R435), a LOST strand
(R475), a stack in reset (R478). -/
def refusedAt (s : State) (t ppa n : Nat) (write : Bool) : Option (Nat × Bool) :=
  if 0xC0000000 < ppaOffset ppa + 128 * n then some (stDENIED, true)
  else match extentAt s ppa with
    | none => some (stDENIED, true)
    | some e =>
      if e.tenant != t then some (stDENIED, true)
      else if e.st != .granted then some (stREVOKED, false)
      else if write && e.sealing.isSome then some (stDENIED, false)
      else if (strandOf s (ppaStrand ppa)).lostUnit then some (stPOISONED, false)
      else if stackInReset s (ppaStrand ppa) then some (stBUSY, false)
      else none

/-! ### Counts of the coherence registers (R229) -/

/-- COH_STATS0 and COH_STATS1 of a tenant (R229). -/
abbrev coh0 (t : Nat) : Nat := 0x00038A00 + 8 * t
abbrev coh1 (t : Nat) : Nat := 0x00038A04 + 8 * t

/-- A late answer or an unexpected release is discarded and counted (R226). -/
def countLate (t : Nat) (s : State) : State := sat (coh0 t) 0 16 1 s

/-- EIDs bound to a tenant now (R216). -/
def tenantEids (s : State) (t : Nat) : List Nat := (s.bind.eid.map (·.1)).filter (fun e => eidTenant s e == some t)

/-- Holders that a snoop of an entry goes to (R209, R216). -/
def holders (s : State) (d : DirEnt) : List Nat := if d.mode = .broadcast then tenantEids s d.tenant else d.ptrs

/-! ### Bookings (R84) -/

/-- Keys of the ledgers: strand and egress port with tenant, by mark. -/
abbrev strandKey (mark st : Nat) : Nat := 512 * mark + st
abbrev egressKey (mark p t : Nat) : Nat := (96 * mark + p) * 32 + t

/-- Booked egress slots of a tenant on a port, from the present mark on, are released unused. -/
def releaseEgress (p tenant : Nat) (book : List (Nat × Nat)) (s : State) : State :=
  book.foldl (fun s b => if lmc s ≤ b.1 then
    { s with coh.egressLedger := tmod 0 s.coh.egressLedger (egressKey b.1 p tenant) (· - b.2) } else s) s

/-- A request's booked slots from the present mark on are released unused. -/
def releaseBookings (t : Tracker) (s : State) : State :=
  let now := lmc s
  let st := lineStrand t.firstLine
  let s := t.strandBook.foldl (fun s b => if now ≤ b.1 then
    { s with coh.strandLedger := tmod 0 s.coh.strandLedger (strandKey b.1 st) (· - b.2) } else s) s
  releaseEgress t.egressPort t.tenant t.egressBook s

/-- An admitted P1 request that leaves its bound (R84, R223): its slots are released, it is counted once. -/
def goesOutside (id : Nat) (s : State) : State :=
  match trackerOf s id with
  | some t =>
    if t.p1 && !t.outside then
      bumpBoth t.tenant 5 1 (modTracker id (fun t => { t with outside := true, strandBook := [], egressBook := [] })
        (releaseBookings t s))
    else s
  | none => s

/-! ### Signals (R206) -/

/-- A request that writes, of the classes that R206 orders. -/
def isWriteCode (c : Nat) : Bool := c = 4 || c = 5 || c = 6 || c = 8

/-- A packet is a write of the source and class of a signal. -/
def orderedBy (g : PendingSig) (h : PktHdr) : Bool := isWriteCode h.code && h.src == g.src && effClass h == g.cls

/-- An earlier write of the same source and class has not been written yet: it waits in a receive buffer, for a walk, or
at its home. -/
def earlierWrite (s : State) (g : PendingSig) : Bool :=
  s.coh.trackers.any (fun t => t.order < g.order && t.remaining != 0 && orderedBy g t.hdr && (match t.who with
      | .link _ _ _ => true
      | _ => false)) ||
  s.xlat.walks.any (fun w => w.waiters.any (fun x => match x with
      | .link rx a _ => a.place < g.order && orderedBy g rx.hdr
      | _ => false)) ||
  s.link.ports.any (fun e => e.2.rx.arrived.any (fun x =>
    x.info.place < g.order && orderedBy g x.pkt.hdr && isOwnEid s x.pkt.hdr.dst && !x.pkt.hdr.mcast))

/-- Apply a signal: an increment where the knot is the source's tenant's, otherwise it is discarded (R206, R495). -/
def applySignal (g : PendingSig) (s : State) : State :=
  if knotTenant s g.knot == some g.tenant then knotIncrement g.knot 1 s else knotDiscard g.knot s

/-! ### How a request ends -/

/-- Lines of a tracker in ascending order. -/
def trackerLines (t : Tracker) : List Line := (t.lines.mergeSort (fun a b => a.1 ≤ b.1)).map (·.2)

/-- Response code and payload of a link request that ends OK (R194, R199, R202). -/
def okResponse (t : Tracker) : PktHdr × List Line :=
  match t.hdr.code with
  | 0x01 => ({ code := 0x41 }, (t.lines.mergeSort (fun a b => a.1 ≤ b.1)).map (·.2))
  | 0x02 | 0x03 => ({ code := 0x41, addr := ppaOfLine t.firstLine, state := t.state }, t.lines.map (·.2))
  | 0x08 => ({ code := 0x43 }, [BitVec.ofNat 1024 t.old])
  | _ => ({ code := 0x42 }, [])

/-- Answer a link request from its tracker. -/
def answerTracker (t : Tracker) (status : Nat) (s : State) : State :=
  let s := countStatus t.tenant status s
  let (h, ls) := if status = stOK then okResponse t else ({ code := 0x42, status := status }, [])
  if s.coh.orphans.contains t.id then
    freePair t.pair { s with coh.orphans := s.coh.orphans.erase t.id }
  else
  let inside := t.p1 && !t.outside
  respond t.hdr t.tenant t.pair (if t.p1 then some t.bound else none) (some t.firstLine)
    (if inside then t.arrived + t.bound else 0, if inside then t.egressBook else []) h ls s

/-- The idempotency record of a request takes its outcome, and its waiting repeats are answered from it (R372). -/
def settleIdem (t : Tracker) (status : Nat) (s : State) : State :=
  match s.coh.idem.find? (fun r => r.tracker == some t.id) with
  | none => s
  | some r =>
    let r' := { r with tracker := none, status := status, old := t.old, doneAt := lmc s, waiting := [] }
    let s := { s with coh.idem := (s.coh.idem.map (fun x => if x.tracker == some t.id then r' else x)).filter (fun x =>
      !(x.evicted && x.tracker.isNone)) }
    r.waiting.foldl (fun s w =>
      let (h, ls) : PktHdr × List Line :=
        if status = stOK && r.code = 8 then ({ code := 0x43 }, [BitVec.ofNat 1024 t.old]) else ({ code := 0x42, status := status }, [])
      respond w.1.hdr t.tenant w.2 none none (0, []) h ls (sat (0x00102010 + 4 * r.quadrant) 0 16 1 s)) s

/-- What an on-chip requester receives: a context its line or its write's acknowledgement, the swap unit its chunks, the
walker and the command processor their line. -/
def deliverOnChip (t : Tracker) (status : Nat) (s : State) : State :=
  match t.who with
  | .engine core k =>
    let s := countStatus t.tenant status s
    if status != stOK && status != stPOISONED then engineFail core k status s
    else if t.hdr.code = 0x01 then
      match t.lines with
      | (_, d) :: _ => engineRead core k t.hdr.tag d (status = stPOISONED) s
      | [] => engineRead core k t.hdr.tag 0 true s
    else if status = stPOISONED then engineFail core k status (engineWrote core k t.hdr.tag s)
    else engineWrote core k t.hdr.tag s
  | .walker =>
    let g := (t.firstLine, (t.lines.map (·.2)).headD 0, status == stPOISONED)
    { s with coh.gathered := s.coh.gathered.filter (fun g => g.1 != t.firstLine) ++ [g] }
  | .swap id => swapDelivered id t.hdr.tag status (trackerLines t) (countStatus t.tenant status s)
  | .link _ _ _ => s

/-- A request has no line left to wait for: it is answered, its signal is raised, its record is settled. -/
def endTracker (id : Nat) (s : State) : State :=
  match trackerOf s id with
  | none => s
  | some t =>
    match t.who with
    | .link _ _ _ =>
      let s := dropTracker id s
      let sigs := t.hdr.sig && t.status = stOK && isWriteCode t.hdr.code && t.hdr.code != 6
      let good := knotTenant s t.hdr.knot == some t.tenant
      let status := if sigs && !good then stDENIED else t.status
      let s := if t.forwarded && status = stOK then freePair t.pair s else answerTracker t status s
      let s := settleIdem t status s
      let g : PendingSig := { order := t.order, src := t.hdr.src, cls := effClass t.hdr, knot := t.hdr.knot,
                              tenant := t.tenant, tracker := none }
      if sigs then (if good then { s with coh.signals := s.coh.signals ++ [g] } else knotDiscard t.hdr.knot s) else s
    | _ => deliverOnChip t t.status (dropTracker id s)

/-- One line of a request is done: its data and status enter the tracker. -/
def lineDone (id line : Nat) (data : Option Line) (status : Nat) (s : State) : State :=
  let add := fun (t : Tracker) => match data with
    | some d => t.lines ++ [(line, d)]
    | none => t.lines
  let s := modTracker id (fun t => { t with remaining := t.remaining - 1, lines := add t,
                                            status := if t.status = stOK then status else t.status }) s
  match trackerOf s id with
  | some t => if t.remaining = 0 then endTracker id s else s
  | none => s

/-! ### Directory entries (R210, R215, R218, R152, R153, R158) -/

/-- Entries of a slice, and slots for victims. -/
abbrev dirEntries : Nat := 2097152
abbrev evictionSlots : Nat := 4096

/-- Entries of a quadrant that satisfy a test. -/
def dirWhere (s : State) (q : Nat) (f : Nat → DirEnt → Bool) : List (Nat × DirEnt) :=
  s.coh.dir.filterMap (fun e => match e.2 with
    | some d => if lineQuadrant e.1 = q && f e.1 d then some (e.1, d) else none
    | none => none)

/-- The least recently allocated of some entries. -/
def oldest : List (Nat × DirEnt) → Option (Nat × DirEnt)
  | [] => none
  | e :: t => match oldest t with
    | none => some e
    | some m => if m.2.age < e.2.age then some m else some e

/-- Reserves of all tenants in a quadrant. -/
def reservedEntries (s : State) (q : Nat) : Nat := (List.range 32).foldl (fun n t => n + dirReserve s t q) 0

/-- What allocation of a new entry finds (R218): a place in the reserve or the pool, a victim, or nothing. A sealed tenant's
victim is one of its own entries. DESIGN CHOICE (log entry 160): it is one that counts against its reserve, since another would
make no place there. -/
inductive Place where
  | free (reserve : Bool)
  | evict (victim : Nat) (reserve : Bool)
  | none

def placeFor (s : State) (t line : Nat) : Place :=
  let q := lineQuadrant line
  let own := (dirWhere s q (fun _ d => d.tenant == t && d.reserve)).length
  let slots := (s.coh.evicting.filter (fun l => lineQuadrant l = q)).length < evictionSlots
  let idle := fun l (d : DirEnt) => (busyOf s l).isNone && l != line && !d.bad
  let victim := fun (v : Option (Nat × DirEnt)) (reserve : Bool) => match v with
    | some v => if slots then Place.evict v.1 reserve else .none
    | none => .none
  let common := oldest (dirWhere s q (fun l d => !d.reserve && idle l d))
  let ownVictim := oldest (dirWhere s q (fun l d => d.tenant == t && d.reserve && idle l d))
  if own < dirReserve s t q then
    if (dirWhere s q (fun _ _ => true)).length < dirEntries then .free true
    else victim (if sealedTenant s t then ownVictim else common) true
  else if sealedTenant s t then victim ownVictim true
  else if (dirWhere s q (fun _ d => !d.reserve)).length < dirEntries - reservedEntries s q then .free false
  else victim common false

/-- A tenant's entries up to its reserve count against it, whichever were allocated before it was raised or became free
(R153): the oldest common-pool entries of a tenant with room in its reserve join it (log entry 126). -/
def fillReserve (q t : Nat) (s : State) : State :=
  let own := (dirWhere s q (fun _ d => d.tenant == t && d.reserve)).length
  let pool := (dirWhere s q (fun _ d => d.tenant == t && !d.reserve)).mergeSort (fun a b => a.2.age ≤ b.2.age)
  (pool.take (dirReserve s t q - own)).foldl (fun s e => setDir e.1 (some { e.2 with reserve := true }) s) s

/-- The tenants and quadrants with an entry in the common pool. -/
def poolHolders (s : State) : List (Nat × Nat) :=
  (s.coh.dir.filterMap (fun e => match e.2 with
    | some d => if d.reserve then none else some (lineQuadrant e.1, d.tenant)
    | none => none)).dedup

def fillReserves (s : State) : State := (poolHolders s).foldl (fun s k => fillReserve k.1 k.2 s) s

/-! ### Snoops (R219) -/

/-- An own EID, which a snoop names when the home itself takes the data. -/
def homeEid (s : State) : Nat := ownEid s 0

/-- Send a snoop for a line; the tenant is that of its entry. -/
def sendSnoop (line eid code : Nat) (fwd : Bool) (reqEid reqTag tenant : Nat) (s : State) : Snoop × State :=
  let (tag, s) := newTag s
  let h : PktHdr := { code := code, tag := tag, addr := ppaOfLine line, fwd := fwd, reqEid := reqEid, reqTag := reqTag }
  ({ eid := eid, code := code, tag := tag, sentAt := plmc s }, originate eid h [] tenant s)

/-- Send one snoop to each of a list of holders. -/
def sendSnoops (line code : Nat) (fwd : Bool) (reqEid reqTag tenant : Nat) :
    List Nat → State → List Snoop × State
  | [], s => ([], s)
  | e :: t, s =>
    let (x, s) := sendSnoop line e code fwd reqEid reqTag tenant s
    let (xs, s) := sendSnoops line code fwd reqEid reqTag tenant t s
    (x :: xs, s)

/-- Snoops under R216 are counted. -/
def countBroadcast (d : DirEnt) (n : Nat) (s : State) : State :=
  if d.mode = .broadcast then sat (coh1 d.tenant) 0 16 n s else s

/-- The snoop no longer holds the request back: it was answered, or its release has arrived. -/
def Snoop.settled (x : Snoop) : Bool :=
  x.released || (match x.answer with
    | some c => c != 4
    | none => false)

/-- The snoop is complete: a crossing needs both the release and RELEASE_SENT. -/
def Snoop.complete (x : Snoop) : Bool :=
  match x.answer with
  | some c => c != 4 || x.released
  | none => false

/-- The snoops of a line that are out. -/
def snoopsOut (b : BusyLine) : List Snoop :=
  b.owed ++ (match b.phase with
    | .snooping l => l
    | .recalling l => l
    | _ => [])

/-- The home holds a line poisoned. -/
def homePoisoned (s : State) (line : Nat) : Bool :=
  match coilOf s line with
  | some c => c.poison
  | none => (tget none s.mem.lines line).any (fun x => x.mark == markPoison && x.gen == (strandOf s (lineStrand line)).gen)

/-- Data that a holder returns is written to the home (R220, R224): its POISON poisons the line, and leaves the poison of one
that is already poisoned (R227). -/
def homeTake (tenant line : Nat) (data : Line) (poison link : Bool) (s : State) : State :=
  homeWrite tenant line data (poison || homePoisoned s line) link s

/-- The P1 requests queued on a line wait for a snoop answer, and leave their bounds (R223). -/
def queueOutside (line : Nat) (s : State) : State :=
  match busyOf s line with
  | some b => b.queue.foldl (fun s j => goesOutside j.tracker s) s
  | none => s

/-- A release that waits on its line when a snoop goes to the EID that sent it is that EID's answer (R224): its data is
written, unless it is the data of a recall of R217, and it is answered; the snoop waits for RELEASE_SENT alone. -/
def absorbRelease (line : Nat) (j : Job) (s : State) : State :=
  match trackerOf s j.tracker, busyOf s line, j.op with
  | some t, some b, .release data poison =>
    if !(snoopsOut b).any (fun x => x.eid == t.hdr.src && !x.released) then s
    else
      let mark := fun (x : Snoop) => if x.eid = t.hdr.src && !x.released then { x with released := true } else x
      let phase := match b.phase with
        | .snooping l => LinePhase.snooping (l.map mark)
        | .recalling l => .recalling (l.map mark)
        | p => p
      let s := putBusy { b with owed := b.owed.map mark, phase := phase, queue := b.queue.erase j } s
      let s := match data with
        | some x => if b.discard then countLate t.tenant s else homeTake t.tenant line x poison true s
        | none => s
      answerTracker t stOK (dropTracker t.id s)
  | _, _, _ => s

def absorbReleases (line : Nat) (s : State) : State :=
  match busyOf s line with
  | some b => b.queue.foldl (fun s j => absorbRelease line j s) s
  | none => s

/-- R217: the line of an entry whose CHECK fails is recalled from every EID of the extent's tenant and poisoned at once; the
data that comes back is discarded, a WRITEBACK that waits on the line with it. -/
def recallBad (line : Nat) (s : State) : State :=
  let t := ((extentAt s (ppaOfLine line)).map (·.tenant)).getD 0
  let (xs, s) := sendSnoops line 0x4B false (homeEid s) 0 t (tenantEids s t) s
  let s := poisonHome line s
  let b := (busyOf s line).getD { line := line, job := none, phase := .recalling [] }
  if xs = [] then setDir line none s
  else absorbReleases line (queueOutside line (putBusy { b with job := none, phase := .recalling xs, discard := true } s))

/-- Entries of a slice whose CHECK fails and that are not yet recalled. -/
def badEntries (s : State) (q : Nat) : List Nat :=
  (dirWhere s q (fun l d => d.bad && !(busyOf s l).any (·.discard))).map (·.1)

/-- The directory slice is no longer handled once no line of it is recalled under R217 (R490). -/
def sliceHandled (q : Nat) (s : State) : State :=
  if s.coh.busy.any (fun b => b.discard && lineQuadrant b.line = q) then s
  else if s.err.handled.any (fun h => h.2.1 == 10 && h.2.2.1 == q && h.2.2.2 ≤ 2) then endHandling 10 q s else s

/-- An entry whose CHECK fails is met (R217, R492): at rung 1 its line is recalled. While one of its slice is being handled, at
rung 2 every entry of the slice is checked and each failure handled so; while that goes on, at rung 3 the quadrant's partition
is to be reset. -/
def badEntry (line : Nat) (s : State) : State :=
  let q := lineQuadrant line
  let t := ((extentAt s (ppaOfLine line)).map (·.tenant)).getD 0
  let nested := if s.err.handled.any (fun h => h.2.1 == 10 && h.2.2.1 == q && 2 ≤ h.2.2.2) then 3 else 2
  let (rung, s) := detect { seq := 0, domain := 1, source := 2, rung := 1, tenant := some t, unitKind := 10, unit := q,
                            address := ppaOfLine line } nested q 0 s
  let s := recallBad line s
  let s := if rung = 2 then (badEntries s q).foldl (fun s l => recallBad l s) s else s
  if rung = 3 then { s with err.partitionDue := q :: s.err.partitionDue.erase q } else sliceHandled q s

/-- Recall or invalidate a line from every holder with no request behind it (R134, R146, R217, R218, R435). -/
def recallLine (line code : Nat) (s : State) : State :=
  match dirOf s line, busyOf s line with
  | some d, none =>
    if d.bad then badEntry line s else
    let (xs, s) := sendSnoops line code false (homeEid s) 0 d.tenant (holders s d) s
    let s := countBroadcast d xs.length s
    if xs = [] then setDir line none s else putBusy { line := line, job := none, phase := .recalling xs } s
  | _, _ => s

/-- RECALL one line from one EID: alone, beside the work that the line is busy with, or, where its grant to that EID is not
acknowledged, once it is (R134, R212). What is queued behind it waits for its answer (R223), and a release of that EID among it
is the answer (R224). -/
def recallFrom (line eid : Nat) (d : DirEnt) (s : State) : State :=
  match busyOf s line with
  | none =>
    let (x, s) := sendSnoop line eid 0x4B false (homeEid s) 0 d.tenant s
    putBusy { line := line, job := none, phase := .recalling [x] } (countBroadcast d 1 s)
  | some b =>
    let granting := match b.phase with
      | .granting e _ _ => e == eid
      | _ => false
    if granting then putBusy { b with recalls := (eid :: b.recalls).dedup } s
    else if (snoopsOut b).any (fun x => x.eid == eid && x.code == 0x4B && !x.complete) then s
    else
      let (x, s) := sendSnoop line eid 0x4B false (homeEid s) 0 d.tenant s
      absorbReleases line (queueOutside line (putBusy { b with owed := b.owed ++ [x] } (countBroadcast d 1 s)))

/-- A victim leaves its entry for an eviction slot (R218). -/
def evictEntry (victim : Nat) (s : State) : State :=
  match dirOf s victim with
  | none => s
  | some d =>
    let code := if d.mode = .owned then 0x4B else 0x49
    let (xs, s) := sendSnoops victim code false (homeEid s) 0 d.tenant (holders s d) s
    let s := setDir victim none (countBroadcast d xs.length s)
    if xs = [] then s
    else putBusy { line := victim, job := none, phase := .recalling xs }
           { s with coh.evicting := s.coh.evicting ++ [victim] }

/-- Former owners of a line whose release has arrived and whose RELEASE_SENT has not: they stay in its entry (R224). -/
def leaving (s : State) (line eid : Nat) : List Nat :=
  match busyOf s line with
  | some b => (b.owed.filter (fun x => x.released && x.eid != eid)).map (·.eid)
  | none => []

/-- Enter a holder of a granted state (R210, R215): NC when no entry can be had. Returns the state granted. -/
def enterHolder (line eid tenant : Nat) (owned : Bool) (s : State) : Nat × State :=
  let code := if owned then 2 else 1
  let s := { s with coh.silent := s.coh.silent.filter (· != (eid, line)) }
  match dirOf s line with
  | some d =>
    if owned then (code, setDir line (some { d with mode := .owned, ptrs := eid :: leaving s line eid }) s)
    else if d.mode = .broadcast || d.ptrs.contains eid then (code, s)
    else if d.ptrs.length < 3 then (code, setDir line (some { d with mode := .shared, ptrs := d.ptrs ++ [eid] }) s)
    else (code, setDir line (some { d with mode := .broadcast, ptrs := [] }) s)
  | none =>
    let s := fillReserves s
    let new := fun (reserve : Bool) (s : State) =>
      let d : DirEnt := { mode := if owned then .owned else .shared, ptrs := [eid], tenant := tenant, reserve := reserve,
                          age := s.coh.nextAge }
      (code, setDir line (some d) { s with coh.nextAge := s.coh.nextAge + 1 })
    match placeFor s tenant line with
    | .free r => new r s
    | .evict v r => new r (evictEntry v s)
    | .none => (0, sat (coh1 tenant) 16 16 1 s)

/-! ### Partial writes and atomics (R199, R201 to R203) -/

/-- A line whose byte `i` is ones where bit `i` of a mask is set. -/
def maskLine (m : Nat) : Line :=
  BitVec.ofNat 1024 ((List.range 128).foldl (fun a i => if m.testBit i then a + 255 * 256 ^ i else a) 0)

/-- Merge the selected bytes into a line. -/
def mergeLine (old new : Line) (m : Nat) : Line := (old &&& ~~~ maskLine m) ||| (new &&& maskLine m)

/-- Width of an atomic in bytes (R201); 0 for codes 13 to 15. -/
def atomicWidth (aop : Nat) : Nat :=
  if aop ≤ 8 then 4 else if aop ≤ 10 then 8 else if aop ≤ 12 then 16 else 0

/-- The value an atomic leaves (R201). -/
def atomicNew (aop old a cmp : Nat) : Nat :=
  let a32 := a % 2 ^ 32
  let less := fun x y => (BitVec.ofNat 32 x).slt (BitVec.ofNat 32 y)
  match aop with
  | 0 => (old + a32) % 2 ^ 32
  | 1 => if less a32 old then a32 else old
  | 2 => min old a32
  | 3 => if less old a32 then a32 else old
  | 4 => max old a32
  | 5 => old &&& a32
  | 6 => old ||| a32
  | 7 => old ^^^ a32
  | 8 => a32
  | 9 => a % 2 ^ 64
  | 10 => if old = cmp % 2 ^ 64 then a % 2 ^ 64 else old
  | 11 => a % 2 ^ 128
  | _ => if old = cmp % 2 ^ 128 then a % 2 ^ 128 else old

/-- A line with `n` bytes at an offset replaced. -/
def putBytes (l : Line) (off n v : Nat) : Line :=
  mergeLine l (BitVec.ofNat 1024 ((v % 2 ^ (8 * n)) <<< (8 * off))) ((2 ^ n - 1) <<< off)

/-! ### A line's turn (R212, R221, R224) -/

/-- A line is no longer busy with its job; what is queued waits for HOME_REQUEST_RESUME. -/
def freeLine (line : Nat) (s : State) : State :=
  match busyOf s line with
  | none => s
  | some b =>
    if b.queue = [] && b.owed = [] then dropBusy line { s with coh.evicting := s.coh.evicting.erase line }
    else putBusy { b with job := none, phase := .recalling [], discard := false, recalls := [] }
           { s with coh.evicting := s.coh.evicting.erase line }

/-- The requester of a link job. -/
def requesterOf (t : Tracker) : Option (Nat × Nat) :=
  match t.who with
  | .link _ eid tag => some (eid, tag)
  | _ => none

/-- The line stays busy until the grant is acknowledged (R212). -/
def grantLine (line eid tag : Nat) (s : State) : State :=
  match busyOf s line with
  | some b => putBusy { b with job := none, phase := .granting eid tag (plmc s) } s
  | none => putBusy { line := line, job := none, phase := .granting eid tag (plmc s) } s

/-- An entry whose holders have all been invalidated is freed. -/
def dropEmpty (line : Nat) (s : State) : State :=
  match dirOf s line with
  | some d => if d.mode != .broadcast && d.ptrs = [] then setDir line none s else s
  | none => s

/-- An EID is still bound to the tenant of its request (R134, R213). -/
def stillBound (s : State) (t : Tracker) : Bool := eidTenant s t.hdr.src == some t.tenant

/-- Serve a job from the home's contents of its line (R221, R227). A caching request of an EID that has been rebound meanwhile
is granted NC, since no entry may name it (R213; DESIGN CHOICE, log entry 161). -/
def serve (j : Job) (t : Tracker) (data : Line) (poison : Bool) (s : State) : State :=
  let line := j.line
  let bad := if poison then stPOISONED else stOK
  match j.op with
  | .read => lineDone j.tracker line (some data) bad (freeLine line s)
  | .readShared | .readOwn =>
    if poison then lineDone j.tracker line none stPOISONED (freeLine line (dropEmpty line s))
    else
      let eid := t.hdr.src
      let (st, s) := if stillBound s t then enterHolder line eid t.tenant (j.op == .readOwn) s else (0, dropEmpty line s)
      let s := modTracker j.tracker (fun t => { t with state := st }) s
      let s := if st = 0 then freeLine line s else grantLine line eid t.hdr.tag s
      lineDone j.tracker line (some data) stOK s
  | .masked d m =>
    if poison then lineDone j.tracker line none stPOISONED (freeLine line s)
    else lineDone j.tracker line none stOK
           (freeLine line (homeWrite t.tenant line (mergeLine data d m) false (allocates t) s))
  | .atomic aop off a cmp =>
    if poison then lineDone j.tracker line none stPOISONED (freeLine line s)
    else
      let w := atomicWidth aop
      let old := lineNat data off w
      let s := homeWrite t.tenant line (putBytes data off w (atomicNew aop old a cmp)) false (allocates t) s
      lineDone j.tracker line none stOK (freeLine line (modTracker j.tracker (fun t => { t with old := old }) s))
  | .write d => lineDone j.tracker line none stOK (freeLine line (homeWrite t.tenant line d false (allocates t) s))
  | .release _ _ => lineDone j.tracker line none stOK (freeLine line s)

/-- Set a line's job and phase. -/
def setPhase (j : Job) (p : LinePhase) (s : State) : State :=
  match busyOf s j.line with
  | some b => putBusy { b with job := some j, phase := p } s
  | none => putBusy { line := j.line, job := some j, phase := p } s

/-- Take the home's contents: a coil hit serves a link at once; otherwise the line is fetched from its strand, and an
on-chip requester's answer is its own event. A whole line is written at once if it is its turn at the strand and in the network,
and otherwise waits for it (R27, R36). -/
def fetchOrServe (j : Job) (t : Tracker) (s : State) : State :=
  match j.op with
  | .write d =>
    let s := setPhase j .fetching s
    if lineTurn s j.line then serve j t d false (lineTaken j.line s) else s
  | _ =>
    match t.who, coilOf s j.line with
    | .engine _ _, _ => setPhase j .fetching s
    | _, some c =>
      let s := if c.poison then goesOutside t.id s else s
      serve j t c.data c.poison (bump t.tenant 1 1 s)
    | _, none => setPhase j .fetching s

/-! ### Answers (R219, R222, R224) -/

/-- An owner answered NOT_HELD (R222). -/
def notHeldRecord (line eid : Nat) (s : State) : State :=
  recordError { seq := 0, domain := 1, source := 3, rung := 0, tenant := eidTenant s eid, unitKind := 7, unit := eid,
                address := ppaOfLine line } (lineQuadrant line) 0 s

/-- A holder that an invalidation or a release has removed leaves its entry. -/
def removeHolder (line eid : Nat) (s : State) : State :=
  match dirOf s line with
  | none => s
  | some d =>
    if d.mode = .broadcast then s
    else
      let ps := d.ptrs.filter (· != eid)
      if ps = [] then setDir line none s else setDir line (some { d with ptrs := ps }) s

/-- The owner of a line answered NOT_HELD (R222); the entry of an evicted line is gone, but only an owned line is evicted with
RECALL (R218). -/
def ownerMissing (s : State) (line : Nat) (x : Snoop) : Bool :=
  x.answer == some 3 && (match dirOf s line with
    | some d => d.mode == .owned && d.ptrs.contains x.eid
    | none => x.code == 0x4B && s.coh.evicting.contains line)

/-- What a complete snoop with no request behind it leaves of its holder (R219, R222, R224): it leaves the entry, and one that
does not hold what it owned is recorded; an owner that keeps a copy is a sharer, one that keeps the line its owner. -/
def holderAnswered (line : Nat) (x : Snoop) (s : State) : State :=
  let s := if ownerMissing s line x then notHeldRecord line x.eid s else s
  if !x.released && x.answer = some 2 then s
  else if !x.released && x.answer = some 1 then
    setDir line ((dirOf s line).map (fun d => if d.mode = .owned && d.ptrs.contains x.eid then { d with mode := .shared } else d)) s
  else removeHolder line x.eid s

/-- All the snoops of a job are settled: the request goes on (R219, R221, R222, R224). -/
def snoopsDone (j : Job) (t : Tracker) (xs : List Snoop) (s : State) : State :=
  let crossed := xs.any (fun x => x.released)
  let missing := xs.any (fun x => x.answer == some 3)
  let data := xs.findSome? (·.data)
  let bad := homePoisoned s j.line
  let (eid, tag) := (requesterOf t).getD (0, 0)
  -- the owner has answered the requester itself; one that has been rebound is not entered, and its copy is recalled (R213)
  let grant := fun (d : DirEnt) (s : State) =>
    let s := { s with coh.silent := s.coh.silent.filter (· != (eid, j.line)) }
    let here := stillBound s t
    let ptrs := if j.op == .readOwn then (if here then [eid] else []) else if here then (d.ptrs ++ [eid]).dedup else d.ptrs
    let s := setDir j.line (if ptrs = [] then none else some { d with mode := if j.op == .readOwn then .owned else .shared, ptrs := ptrs }) s
    let s := grantLine j.line eid tag (modTracker j.tracker (fun t => { t with forwarded := true }) s)
    let s := if here then s else match busyOf s j.line with
      | some b => putBusy { b with recalls := (eid :: b.recalls).dedup } s
      | none => s
    lineDone j.tracker j.line none stOK s
  match dirOf s j.line with
  | none => fetchOrServe j t s
  | some d =>
    match d.mode, j.op with
    | .owned, op =>
      if missing then
        fetchOrServe j t (setDir j.line none
          ((xs.filter (fun x => x.answer == some 3)).foldl (fun s x => notHeldRecord j.line x.eid s) s))
      else if crossed then
        let left := (xs.filter (fun x => x.eid != eid && !x.complete)).map (·.eid)
        let grants := j.op == .readShared || j.op == .readOwn
        fetchOrServe j t (setDir j.line (if left = [] && !grants then none else some { d with mode := .shared, ptrs := left }) s)
      else match op with
        | .read => match data with
          | some (l, p) =>
            serve j t l (p || bad) (bump t.tenant 1 1 (if p then homeTake t.tenant j.line l true (allocates t) s else s))
          | none =>
            lineDone j.tracker j.line none stOK (freeLine j.line (modTracker j.tracker (fun t =>
              { t with forwarded := true }) s))
        | .readShared =>
          grant d (match data with
            | some (l, p) => homeTake t.tenant j.line l p true s
            | none => s)
        | .readOwn => grant d s
        | _ =>
          let s := setDir j.line none s
          match data with
          | some (l, p) => serve j t l (p || bad) (if p then homeTake t.tenant j.line l true (allocates t) s else s)
          | none => fetchOrServe j t s
    | _, .readOwn =>
      let left := if d.mode = .broadcast then (if (requesterOf t).isSome then [eid] else [])
        else d.ptrs.filter (fun e => !xs.any (fun x => x.eid == e && x.complete))
      fetchOrServe j t (setDir j.line (some { d with mode := .shared, ptrs := left }) s)
    | _, _ => fetchOrServe j t (setDir j.line none s)

/-- A recall is complete: its holders leave the entry, and a BROADCAST entry is free once every EID of its tenant has
answered (R134, R146, R216, R217). -/
def recallDone (line : Nat) (xs : List Snoop) (discard : Bool) (s : State) : State :=
  let s := if discard then setDir line none s else xs.foldl (fun s x => holderAnswered line x s) s
  match dirOf s line with
  | some d =>
    if d.mode = .broadcast && (tenantEids s d.tenant).all (fun e => xs.any (fun x => x.eid == e)) then setDir line none s else s
  | none => s

/-- Look again at the snoops of a line after one of them changed. -/
def checkSnoops (line : Nat) (s : State) : State :=
  match busyOf s line with
  | none => s
  | some b =>
    match b.phase with
    | .snooping xs =>
      if xs.all Snoop.settled then
        let owed := b.owed ++ xs.filter (fun x => !x.complete)
        match b.job with
        | some j =>
          let grants := j.op == .readShared || j.op == .readOwn
          let mine := (trackerOf s j.tracker).bind requesterOf
          let owed := owed.map (fun x => { x with keeps := x.keeps || (grants && mine.any (fun r => r.1 == x.eid)) })
          let s := putBusy { b with phase := .fetching, owed := owed } s
          match trackerOf s j.tracker with
          | some t => snoopsDone j t xs s
          | none => freeLine line s
        | none =>
          let s := (xs.filter Snoop.complete).foldl (fun s x => holderAnswered line x s) (putBusy { b with owed := owed } s)
          freeLine line s
      else s
    | .recalling xs =>
      if xs != [] && xs.all Snoop.complete then sliceHandled (lineQuadrant line) (freeLine line (recallDone line xs b.discard s))
      else if xs = [] && b.owed = [] && b.queue = [] then dropBusy line s
      else s
    | _ => s

/-- Snoop the holders of a line for a job. -/
def snoopFor (j : Job) (d : DirEnt) (code : Nat) (fwd : Bool) (reqEid reqTag : Nat) (to' : List Nat) (s : State) :
    State :=
  let (xs, s) := sendSnoops j.line code fwd reqEid reqTag d.tenant to' s
  checkSnoops j.line (absorbReleases j.line (queueOutside j.line
    (goesOutside j.tracker (setPhase j (.snooping xs) (countBroadcast d xs.length s)))))

/-- Begin a job at the front of its line (R221). -/
def startJob (j : Job) (s : State) : State :=
  match trackerOf s j.tracker with
  | none => freeLine j.line s
  | some t =>
    let rq := requesterOf t
    let home := rq.isNone || (t.hdr.code = 0x01 && 1 < t.hdr.lines)
    let (re, rt) := if home then (homeEid s, t.hdr.tag) else rq.getD (homeEid s, 0)
    match dirOf s j.line with
    | none => match j.op with
      | .release _ _ => freeLine j.line (countLate t.tenant (dropTracker j.tracker s))
      | _ => fetchOrServe j t s
    | some d =>
      if d.bad then
        let s := badEntry j.line (putBusy { (busyOf s j.line).getD { line := j.line, job := none, phase := .recalling [] } with
          queue := j :: ((busyOf s j.line).map (·.queue)).getD [] } s)
        match busyOf s j.line with
        | some b =>
          if b.phase = .recalling [] && b.queue.head? = some j then
            let s := putBusy { b with queue := b.queue.tail } s
            match j.op with
            | .release _ _ => freeLine j.line (countLate t.tenant (dropTracker j.tracker s))
            | _ => fetchOrServe j t s
          else s
        | none => s
      else
        let others := (holders s d).filter (fun e => rq.map (·.1) != some e)
        -- a caching request of an EID that has been rebound takes the LOAD row (R213; log entry 161)
        let op := if (j.op == .readShared || j.op == .readOwn) && !stillBound s t then .read else j.op
        match d.mode, op with
        | .owned, .release data poison =>
          if d.ptrs = [t.hdr.src] then
            let s := match data with
              | some x => homeTake t.tenant j.line x poison true s
              | none => s
            lineDone j.tracker j.line none stOK (freeLine j.line (setDir j.line none s))
          else freeLine j.line (countLate t.tenant (dropTracker j.tracker s))
        | _, .release _ _ => freeLine j.line (countLate t.tenant (dropTracker j.tracker s))
        | .owned, .read => snoopFor { j with op := .read } d 0x4A false re rt d.ptrs s
        | .owned, .readShared => snoopFor j d 0x48 false re rt d.ptrs s
        | .owned, .readOwn => snoopFor j d 0x49 true re rt d.ptrs s
        | .owned, .write _ => snoopFor j d 0x49 false re rt d.ptrs s
        | .owned, _ => snoopFor j d 0x4B false (homeEid s) rt d.ptrs s
        | _, .read | _, .readShared => fetchOrServe j t s
        | _, .readOwn =>
          if others = [] then fetchOrServe j t s else snoopFor j d 0x49 false re rt others s
        | _, _ =>
          if others = [] then fetchOrServe j t (setDir j.line none s) else snoopFor j d 0x49 false re rt others s

/-- Put a job to its line: at once, or behind what the line is busy with (R200, R212). A P1 request queued behind a
snoop is outside its bound (R223). -/
def placeJob (j : Job) (s : State) : State :=
  match busyOf s j.line with
  | none => startJob j s
  | some b =>
    let snooping := match b.phase with
      | .snooping _ => true
      | .recalling l => l != []
      | _ => false
    let s := putBusy { b with queue := b.queue ++ [j] } s
    if snooping || b.owed != [] then goesOutside j.tracker s else s

/-- The line that has a snoop with a tag outstanding to an EID. -/
def snoopLine (s : State) (eid tag : Nat) : Option Nat :=
  (s.coh.busy.find? (fun b => (snoopsOut b).any (fun x => x.eid == eid && x.tag == tag && !x.complete))).map (·.line)

/-- Change the snoops of a line for which a test holds; a recall beside the line's work that is now complete removes
its holder. -/
def mapSnoops (line : Nat) (f : Snoop → Snoop) (s : State) : State :=
  match busyOf s line with
  | none => s
  | some b =>
    let owed := b.owed.map f
    let phase := match b.phase with
      | .snooping l => LinePhase.snooping (l.map f)
      | .recalling l => .recalling (l.map f)
      | p => p
    let s := putBusy { b with owed := owed.filter (fun x => !x.complete), phase := phase } s
    let gone := owed.filter (fun x => x.complete && (x.code == 0x4B || x.released))
    let s := (gone.filter (ownerMissing s line)).foldl (fun s x => notHeldRecord line x.eid s) s
    (gone.filter (fun x => !x.keeps)).foldl (fun s x => removeHolder line x.eid s) s

/-- A snoop's answer brings data that no request waits for: of a recall, or of a snoop whose request has gone. The home takes it,
except the good data of an owner that keeps its line (R219, R220). -/
def freeData (b : BusyLine) (x : Snoop) (poison : Bool) : Bool :=
  match b.phase with
  | .snooping _ => b.job.isNone && (x.code != 0x4A || poison)
  | .recalling _ => x.code != 0x4A || poison
  | _ => x.code == 0x4B

/-- A snoop answer arrives: SNP_ACK, or SNP_DATA with one line (R219). Data with no request behind it is written to the home,
or discarded under R217. -/
def snoopAnswer (h : PktHdr) (data : Option Line) (from' : Nat) (s : State) : State :=
  match snoopLine s h.src h.tag with
  | none => countLate from' s
  | some line =>
    match busyOf s line with
    | none => countLate from' s
    | some b =>
      let mine := fun (x : Snoop) => x.eid = h.src && x.tag = h.tag
      let takes := match (snoopsOut b).find? mine with
        | some x => freeData (if b.owed.any mine then { b with phase := .fetching } else b) x h.poison
        | none => false
      let tenant := ((dirOf s line).map (·.tenant)).getD (((extentAt s (ppaOfLine line)).map (·.tenant)).getD 0)
      let s := match takes, data with
        | true, some l => if b.discard then countLate tenant s else homeTake tenant line l h.poison true s
        | _, _ => s
      checkSnoops line (mapSnoops line (fun x => if mine x then
        { x with answer := some h.answer, data := data.map (fun l => (l, h.poison)) } else x) s)

/-- A release (WRITEBACK or EVICT_CLEAN) from an EID with a snoop outstanding for the line is that EID's answer
(R224). -/
def crossing (s : State) (line eid : Nat) : Bool :=
  match busyOf s line with
  | none => false
  | some b => (match b.phase with
      | .snooping l => l
      | .recalling l => l
      | _ => []).any (fun x => x.eid == eid && !x.released && (x.answer.isNone || x.answer == some 4)) ||
    b.owed.any (fun x => x.eid == eid && !x.released)

/-- The data of a release that arrives now is discarded: its line is recalled under R217. -/
def discards (s : State) (line : Nat) : Bool := (busyOf s line).any (·.discard)

/-! ### Silent holders (R226) -/

/-- LINE_POISONED_SILENT_HOLDER to the extent's tenant. -/
def silentEvent (line eid : Nat) (s : State) : State :=
  let ppa := ppaOfLine line
  match extentAt s ppa with
  | none => s
  | some e => event 5 (e.base / 0x200000) (· == e.tenant) (le 8 ppa ++ le 2 eid) s

/-- A holder stayed silent: the line is poisoned at the home, the EID leaves the entry, counts, record and event. -/
def silentHolder (line eid : Nat) (s : State) : State :=
  let e := extentAt s (ppaOfLine line)
  let t := match e with
    | some x => x.tenant
    | none => (strandTenant s (lineStrand line)).getD 0
  let s := removeHolder line eid (poisonHome line s)
  let s := { s with coh.silent := (eid, line) :: s.coh.silent.filter (· != (eid, line)) }
  let s := recordError { seq := 0, domain := 1, source := 1, rung := 0, tenant := some t, unitKind := 9,
                         unit := lineStrand line, address := ppaOfLine line, detail0 := eid } (lineQuadrant line) 0
             (sat (coh0 t) 16 16 1 s)
  silentEvent line eid s

end Sys2Proof.Machine
end

