-- ==== Sys2Proof/Machine/HomeRows.lean ====
section
/-! DEFINITION. The home's own events (R134, R144 to R148, R206, R212, R219 to R226, R372, R405): fetches that complete,
snoop answers and grants, timeouts, signals that become due, and extents that empty. -/
namespace Sys2Proof.Machine

/-! ### Signals that become due (R206) -/

/-- Apply the first signal whose earlier writes have been written; a SIGNAL without data is then answered. -/
def applyDue : Nat → State → State
  | 0, s => s
  | n + 1, s => match s.coh.signals.find? (fun g => !earlierWrite s g) with
    | none => s
    | some g =>
      let status := if knotTenant s g.knot == some g.tenant then stOK else stDENIED
      let s := applySignal g { s with coh.signals := s.coh.signals.erase g }
      match g.tracker.bind (trackerOf s) with
      | some t => applyDue n (settleIdem t status (answerTracker t status (dropTracker t.id s)))
      | none => applyDue n s

/-! ### Extents in revocation (R146, R148) -/

/-- A line lies in an extent. -/
def inExtent (e : Extent) (line : Nat) : Bool :=
  e.base ≤ ppaOfLine line && ppaOfLine line < e.base + 0x200000 * e.granules

/-- A tracker has a line of the extent. -/
def trackerIn (e : Extent) (t : Tracker) : Bool := inExtent e t.firstLine

/-- A response to an access of an extent has not left its port. -/
def responseWaits (s : State) (e : Extent) : Bool :=
  let mine := fun (k : TxPkt) => k.line.any (inExtent e)
  s.halt.held.any (fun q => mine q.2.2) ||
  s.link.ports.any (fun p => p.2.tx.queue.any (fun q => mine q.2.2) || p.2.tx.inProgress.any (fun k => mine k.1))

/-- The recalls and accesses of an extent have all ended. -/
def extentQuiet (s : State) (e : Extent) : Bool :=
  !s.coh.trackers.any (trackerIn e) && !s.coh.dir.any (fun d => d.2.isSome && inExtent e d.1) &&
  !s.coh.busy.any (fun b => inExtent e b.line) && !responseWaits s e

/-- The extent reaches FREE and every REVOKE_EXTENT that waits on it is answered OK (R144, R148). -/
def freeExtent (e : Extent) (s : State) : State :=
  let r := e.revocation.getD { graceful := false, drainAt := 0, finalAt := 0 }
  let res := le 4 r.poisoned ++ le 4 r.revoked ++ le 8 (fmt s)
  let waits := s.kcp.running.filter (fun x => x.wait == .revoke e.base)
  waits.foldl (fun s x => finish x stOK res s)
    { s with bind.extents := s.bind.extents.filter (fun x => x.base != e.base) }

/-- A response to an access of an extent has begun to leave its port: the access has not ended (R146). -/
def responseLeaves (s : State) (e : Extent) : Bool :=
  s.link.ports.any (fun p => p.2.tx.inProgress.any (fun k => k.1.line.any (inExtent e)))

/-- Extents whose revocation has nothing left to wait for become FREE: an abrupt one once its accesses have ended. -/
def settleExtents (s : State) : State :=
  (s.bind.extents.filter (fun e => e.st != .granted)).foldl (fun s e => match extentAt s e.base with
    | some e =>
      if (if e.st = .dropping then !s.coh.trackers.any (trackerIn e) && !responseLeaves s e else extentQuiet s e) then
        freeExtent e s else s
    | none => s) s

/-- Lines of a draining extent that have come to rest with an entry are recalled. -/
def drainRecalls (s : State) : State :=
  (s.bind.extents.filter (fun e => e.st == .draining)).foldl (fun s e =>
    (s.coh.dir.filter (fun d => inExtent e d.1)).foldl (fun s d => recallLine d.1 0x4B s) s) s

/-- What follows from a change at the home: signals, recalls, extents. -/
def settleHome (s : State) : State := settleExtents (drainRecalls (applyDue s.coh.signals.length s))

/-- An extent's revocation counts one more access REVOKED, if the line lies in one. -/
def countRevoked (line : Nat) (s : State) : State :=
  match extentAt s (ppaOfLine line) with
  | some e => modExtent e.base (fun e => { e with revocation := e.revocation.map (fun r => { r with revoked := r.revoked + 1 }) }) s
  | none => s

/-- A request leaves the lines it waits for: its queued jobs go, its line's snoops run out without it. -/
def abandonJobs (id : Nat) (s : State) : State :=
  (s.coh.busy.filter (fun b => b.queue.any (fun j => j.tracker == id) || b.job.any (fun j => j.tracker == id))).foldl
    (fun s b =>
      let b := { b with queue := b.queue.filter (fun j => j.tracker != id) }
      if b.job.any (fun j => j.tracker == id) then
        match b.phase with
        | .snooping _ => putBusy { b with job := none } s
        | _ => freeLine b.line (putBusy b s)
      else
        let s := putBusy b s
        match b.phase with
        | .recalling [] => if b.queue = [] && b.owed = [] then dropBusy b.line s else s
        | _ => s) s

/-- A request ends at once with a status, whatever it waited for (R146, R226, R478). -/
def abortTracker (id status : Nat) (s : State) : State :=
  match trackerOf s id with
  | none => s
  | some t =>
    let s := releaseBookings t (if t.p1 && !t.outside then bumpBoth t.tenant 5 1 s else s)
    let s := dropTracker id (abandonJobs id { s with coh.signals := s.coh.signals.filter (fun g => g.tracker != some id) })
    let t := { t with outside := true }
    match t.who with
    | .link _ _ _ => settleIdem t status (answerTracker t status s)
    | .walker => s
    | _ => deliverOnChip { t with status := status } status s

/-- A queued response as the status that takes its place. -/
def TxPkt.ended (status : Nat) (p : TxPkt) : TxPkt :=
  { p with hdr := { p.hdr with code := 0x42, status := status, granules := 0, state := 0, addr := 0 }, payload := [],
           due := 0, slots := [] }

/-- An admitted P1 response completes outside its bound: its slots on the port are released, and it is counted (R84). -/
def slotsUnused (port : Nat) (p : TxPkt) (s : State) : State :=
  if p.due = 0 then s else bumpBoth p.tenant 5 1 (releaseEgress port p.tenant p.slots s)

/-- A response of the pool that has not begun to leave is replaced by a status (R84, R146, R513), held or queued. -/
def overrideQueued (test : TxPkt → Bool) (status : Nat) (s : State) : State :=
  let test := fun (p : TxPkt) => p.line.isSome && test p && !(p.hdr.code == 0x42 && p.hdr.status != stOK)
  let hits := s.link.ports.flatMap (fun e => (e.2.tx.queue.filter (fun q => test q.2.2)).map (fun q => (e.1, q.2.2))) ++
    (s.halt.held.filter (fun q => test q.2.2)).map (fun q => (q.1, q.2.2))
  let change := fun (q : Nat × Nat × TxPkt) => if test q.2.2 then (q.1, q.2.1, q.2.2.ended status) else q
  let s := { s with link.ports := s.link.ports.map (fun e => (e.1, { e.2 with tx.queue := e.2.tx.queue.map change })),
                    halt.held := s.halt.held.map change }
  hits.foldl (fun s h =>
    let s := slotsUnused h.1 h.2 s
    if status = stREVOKED then (match h.2.line with
      | some l => countRevoked l s
      | none => s) else s) s

/-- End every access to an extent that a test picks with REVOKED, its queued responses among them. -/
def revokeAccesses (e : Extent) (p1too : Bool) (s : State) : State :=
  let hit := fun (t : Tracker) => trackerIn e t && (p1too || !t.p1)
  let s := (s.coh.trackers.filter hit).foldl (fun s t => abortTracker t.id stREVOKED (countRevoked t.firstLine s)) s
  overrideQueued (fun q => q.line.any (inExtent e) && (p1too || q.hdr.cls != 1)) stREVOKED s

/-- REVOKE_DRAIN_DEADLINE (R146): at r + 64 every access but an admitted P1 request completes REVOKED. -/
def execRevokeDrainDeadline (base : Nat) (s : State) : Host.Outcome State Fault Refusal :=
  match extentAt s base with
  | none => .next s
  | some e => match e.revocation with
    | none => .next s
    | some r =>
      if e.st != .draining || r.drained || plmc s < r.drainAt then .next s
      else
        let s := modExtent e.base (fun e => { e with revocation := some { r with drained := true } }) s
        .next (settleHome (revokeAccesses e false s))

/-- Handle the holders that never answered the recall of a line of an extent (R146, R226); the poisoned line is counted
once (R144). -/
def silentInExtent (line : Nat) (eids : List Nat) (s : State) : State :=
  if eids = [] then s else
  let s := eids.dedup.foldl (fun s eid => silentHolder line eid s) s
  match extentAt s (ppaOfLine line) with
  | some e => modExtent e.base (fun e => { e with revocation := e.revocation.map (fun r => { r with poisoned := r.poisoned + 1 }) }) s
  | none => s

/-- REVOKE_FINAL_DEADLINE (R146): at T every line whose recall is unanswered is poisoned, and the extent is FREE. -/
def execRevokeFinalDeadline (base : Nat) (s : State) : Host.Outcome State Fault Refusal :=
  match extentAt s base with
  | none => .next s
  | some e => match e.revocation with
    | none => .next s
    | some r =>
      if e.st = .granted || plmc s < r.finalAt then .next s
      else
        let open' := s.coh.busy.filter (fun b => inExtent e b.line)
        let s := revokeAccesses e true s
        let s := open'.foldl (fun s b =>
          let silent := ((snoopsOut b).filter (fun x => !x.complete)).map (·.eid)
          let xs : List Nat := match b.phase with
            | .granting eid _ _ => eid :: silent
            | _ => silent
          sliceHandled (lineQuadrant b.line) (setDir b.line none (dropBusy b.line (silentInExtent b.line xs s)))) s
        let s := (s.coh.dir.filter (fun d => inExtent e d.1)).foldl (fun s d => match d.2 with
          | some x => setDir d.1 none (silentInExtent d.1 (if x.bad then tenantEids s e.tenant else holders s x) s)
          | none => s) s
        .next (match extentAt s base with
          | some e => settleHome (freeExtent e s)
          | none => s)

/-! ### Lines (R212, R405, R417) -/

/-- The source of a read in the correctable-error log (R419): 0 a link request, 1 an engine, 3 a device block. -/
def readSource (t : Tracker) : Nat :=
  match t.who with
  | .link _ _ _ => 0
  | .engine _ _ => 1
  | _ => 3

/-- The fetch of a line meets a mismatch: in the channel, or by the flip mask of its strand (R417, R423). -/
def fetchDamaged (s : State) (line : Nat) (f : Fetches) : Bool :=
  (coilOf s line).isNone && (!f.getD 0 true || flipReady s (lineStrand line) 2)

/-- The home's contents of a line are there, or a line is to be written: the job in progress is served (R405, R417). A P1
request that meets a mismatch or a poisoned line leaves its bound (R84). -/
def fetchDone (line : Nat) (f : Fetches) (s : State) : State :=
  match busyOf s line with
  | none => s
  | some b => match b.phase, b.job with
    | .fetching, some j => match trackerOf s j.tracker with
      | none => freeLine line s
      | some t =>
        match j.op with
        | .write d => serve j t d false s
        | _ =>
          let bad := fetchDamaged s line f
          let (r, s) := homeRead t.tenant line (allocates t) (readSource t) f s
          let s := if r.2 || bad then goesOutside t.id s else s
          match trackerOf s t.id with
          | some t => serve j t r.1 r.2 s
          | none => s
    | .fetching, none => freeLine line s
    | _, _ => s

/-! ### Lines that are fetched or written in their turn (R27, R36, R506) -/

/-- A line of an access on chip, which its home serves no longer in a global stop (R506, R508). -/
def onChipHeld (s : State) (line : Nat) : Bool :=
  frozen s && ((busyOf s line).bind (jobTracker s)).any (fun t => match t.who with
    | .link _ _ _ => false
    | _ => true)

/-- A line whose turn it is comes from its strand, or is written there. -/
def takeLine (line : Nat) (f : Fetches) (s : State) : State :=
  if lineTurn s line && !onChipHeld s line then fetchDone line f (lineTaken line s) else s

/-- LINE_FETCH_COMPLETE (R27, R36, R417): the line that a request waits for has come from its strand, or is written there. An
engine's read is finished by its own response. -/
def execLineFetchComplete (line : Nat) (f : Fetches) (s : State) : Host.Outcome State Fault Refusal :=
  match (busyOf s line).bind (·.job) with
  | none => .next (settleHome (fetchDone line f s))
  | some j =>
    let engineReads := match (trackerOf s j.tracker).map (fun t => (t.who, t.hdr.code)) with
      | some (.engine _ _, 0x01) => true
      | _ => false
    if engineReads then .next s else .next (settleHome (takeLine line f s))

/-- HOME_REQUEST_RESUME (R212, R221): the line is idle again and the next request in its queue is taken; `upset` says that
the CHECK of its directory entry no longer holds (R217). -/
def execHomeRequestResume (line : Nat) (upset : Bool) (s : State) : Host.Outcome State Fault Refusal :=
  let s := if upset then setDir line ((dirOf s line).map (fun d => { d with bad := true })) s else s
  match busyOf s line with
  | none => .next s
  | some b =>
    if b.job.isSome || b.phase != .recalling [] || b.owed != [] || frozen s then .next s
    else match b.queue with
      | [] => .next (dropBusy line s)
      | j :: q => .next (settleHome (startJob j (putBusy { b with queue := q } s)))

/-- An answer that the home expects goes through its port first (R135, R507). -/
def homeAnswer (rx : RxPkt) (f : Nat → State → State) (s : State) : State :=
  match ingress rx s with
  | .stops s => s
  | .goes rx a s => if isOwnEid s rx.hdr.dst then settleHome (f a.tenant (takeArrived rx s)) else s

/-- SNP_ACK (R219). -/
def execSnpAck (rx : RxPkt) (s : State) : Host.Outcome State Fault Refusal :=
  .next (homeAnswer rx (snoopAnswer rx.hdr none) s)

/-- SNP_DATA (R219): one line of data. -/
def execSnpData (rx : RxPkt) (s : State) : Host.Outcome State Fault Refusal :=
  .next (homeAnswer rx (snoopAnswer rx.hdr (some (rx.payload.headD 0))) s)

/-- A recall that waited for the acknowledgement of a grant is sent: to a holder of the entry, or to an EID that was rebound
while its grant was on the way (R134, R213). -/
def recallHeld (line eid : Nat) (s : State) : State :=
  let t := ((extentAt s (ppaOfLine line)).map (·.tenant)).getD 0
  let alone : DirEnt := { mode := .shared, ptrs := [], tenant := t, reserve := false, age := 0 }
  match dirOf s line with
  | some d =>
    if d.ptrs.contains eid || d.mode = .broadcast then recallFrom line eid d s
    else if eidTenant s eid != some d.tenant then recallFrom line eid alone s else s
  | none => if eidTenant s eid != some t then recallFrom line eid alone s else s

/-- GRANT_ACK (R212): the grant is acknowledged and the line comes to rest; an unexpected one is discarded. -/
def grantAcked (h : PktHdr) (t : Nat) (s : State) : State :=
  match s.coh.busy.find? (fun b => match b.phase with
      | .granting eid tag _ => eid = h.src && tag = h.tag
      | _ => false) with
  | some b => b.recalls.foldl (fun s e => recallHeld b.line e s) (freeLine b.line s)
  | none => countLate t s

def execGrantAck (rx : RxPkt) (s : State) : Host.Outcome State Fault Refusal :=
  .next (homeAnswer rx (grantAcked rx.hdr) s)

/-! ### Timeouts (R225, R226) -/

/-- Marks of the snoop and grant timeouts. -/
abbrev snoopLimit : Nat := 2048

/-- A snoop of a line went unanswered: the silent EID is dropped from the line's snoops, the request in progress
completes POISONED, and answers from the others are still awaited beside the line's queue. -/
def silentSnoop (line eid : Nat) (s : State) : State :=
  match busyOf s line with
  | none => s
  | some b =>
    let late := fun (x : Snoop) => x.eid == eid && !x.complete
    let owed := b.owed.filter (fun x => !late x)
    let gone := fun (l : List Snoop) (s : State) => (l.filter Snoop.complete).foldl (fun s x => holderAnswered line x s) s
    match b.phase with
    | .snooping xs =>
      if xs.any late then
        let rest := xs.filter (fun x => !late x && !x.complete)
        let s := silentHolder line eid (gone xs s)
        let s := putBusy { b with phase := .fetching, owed := owed ++ rest } s
        match b.job with
        | some j => lineDone j.tracker line none stPOISONED (freeLine line s)
        | none => freeLine line s
      else silentHolder line eid (putBusy { b with owed := owed } s)
    | .recalling xs =>
      let rest := xs.filter (fun x => !late x)
      let s := silentHolder line eid s
      if xs.any late then
        if rest.all Snoop.complete then
          sliceHandled (lineQuadrant line)
            (freeLine line (recallDone line rest b.discard (putBusy { b with owed := owed, phase := .recalling rest } s)))
        else putBusy { b with owed := owed, phase := .recalling rest } s
      else checkSnoops line (putBusy { b with owed := owed } s)
    | _ => silentHolder line eid (putBusy { b with owed := owed } s)

/-- SNOOP_TIMEOUT (R225, R226). -/
def execSnoopTimeout (line eid : Nat) (s : State) : Host.Outcome State Fault Refusal :=
  match busyOf s line with
  | none => .next s
  | some b =>
    if (snoopsOut b).any (fun x => x.eid == eid && !x.complete && x.sentAt + snoopLimit ≤ plmc s) then
      .next (settleHome (silentSnoop line eid s))
    else .next s

/-- GRANT_ACK_TIMEOUT (R225, R226): a missing GRANT_ACK is treated as a silent holder. -/
def execGrantAckTimeout (line : Nat) (s : State) : Host.Outcome State Fault Refusal :=
  match busyOf s line with
  | none => .next s
  | some b => match b.phase with
    | .granting eid _ since =>
      if since + snoopLimit ≤ plmc s then
        .next (settleHome (b.recalls.foldl (fun s e => recallHeld line e s) (freeLine line (silentHolder line eid s))))
      else .next s
    | _ => .next s

/-! ### Idempotency records (R372) -/

/-- IDEM_RECORD_EXPIRY: a record whose hold has passed is freed. -/
def execIdemRecordExpiry (quadrant eid tag : Nat) (s : State) : Host.Outcome State Fault Refusal :=
  .next { s with coh.idem := s.coh.idem.filter (fun r =>
    !(r.quadrant == quadrant && r.eid == eid && r.tag == tag && r.tracker.isNone && r.doneAt + idemHold s ≤ lmc s)) }

end Sys2Proof.Machine
end

