-- ==== Sys2Proof/Machine/Translate.lean ====
section
/-! DEFINITION. Address translation and faults (R160 to R187, R558): the walker, the translation caches, the fault unit,
and the commands over them. -/
namespace Sys2Proof.Machine

/-! ### Tables (R163 to R168) -/

def rootOf (s : State) (t : Nat) : Option Root := tget none s.xlat.roots t

/-- A range lies in the tenant's extents and in populated memory (R29, R166). -/
def inExtents (s : State) (t ppa size : Nat) : Bool :=
  ppaOffset ppa + size ≤ 0xC0000000 &&
  (List.range (max 1 (size / 0x200000))).all (fun i =>
    (extentAt s (ppa + 0x200000 * i)).any (fun e => e.tenant == t))

/-- A device block's read of one line: a request of the walker waits for its owner's data (R168, R221), or for its P0 turn at the
strand (R74). -/
def walkerRead (t line : Nat) (s : State) : State :=
  if s.coh.trackers.any (fun x => x.who == .walker && x.firstLine == line) then s
  else
    let id := s.coh.nextTracker
    let h : PktHdr := { code := 0x01, lines := 1, addr := ppaOfLine line }
    let k : Tracker := { id := id, who := .walker, hdr := h, tenant := t, quadrant := lineQuadrant line, p1 := false,
                         remaining := 1, firstLine := line }
    placeJob { tracker := id, line := line, op := .read }
      { s with coh.trackers := s.coh.trackers ++ [k], coh.nextTracker := id + 1 }

/-- A coherent read of one line by a device block. -/
inductive LineRead where
  | data (d : Line) (poison : Bool)
  | refused
  | wait

/-- The P0 line of this mark is still free at a line's strand, or the coil serves the line (R74). -/
def p0Ready (s : State) (line : Nat) : Bool :=
  (coilOf s line).isSome || (strandOf s (lineStrand line)).p0Free ≤ lmc s

/-- A P0 access to a line that its strand serves takes the P0 line of its mark (R74). -/
def takeP0 (line : Nat) (s : State) : State :=
  if (coilOf s line).isSome then s
  else
    let now := lmc s
    modStrand (lineStrand line) (fun x => { x with p0Free := max x.p0Free now + 1 }) s

/-- Read a line for the walker or a command (R168): refused as any access is, read at once where the coil holds it, and otherwise
brought by a request of its own that takes the line's turn at its strand (R74) and its owner's data (log entry 52). DESIGN CHOICE
(log entry 128): an answer BUSY, from a stack in reset, refuses the read as REVOKED and DENIED do, so that a walk ends BAD_ENTRY. -/
def deviceRead (t ppa : Nat) (s : State) : LineRead × State :=
  let line := lineOfPpa ppa
  match refusedAt s t (ppaOfLine line) 1 false with
  | some (st, counted) =>
    if st = stPOISONED then (.data 0 true, s) else (.refused, if counted then countDenied t s else s)
  | none =>
    match s.coh.gathered.find? (fun g => g.1 == line) with
    | some g => (.data g.2.1 g.2.2, s)
    | none =>
      if (busyOf s line).isSome || (dirOf s line).any (fun d => d.mode == .owned) || (coilOf s line).isNone then
        (.wait, walkerRead t line s)
      else let (r, s) := homeRead t line true 3 [] s; (.data r.1 r.2, s)

/-- Gathered lines of a tenant are forgotten once what read them has ended. -/
def clearGathered (t : Nat) (s : State) : State :=
  { s with coh.gathered := s.coh.gathered.filter (fun g => !(extentAt s (ppaOfLine g.1)).any (fun e => e.tenant == t)) }

/-- The fields of a table entry (R164). -/
abbrev entV (e : Nat) : Bool := bit e 0
abbrev entLeaf (e : Nat) : Bool := bit e 1
abbrev entW (e : Nat) : Bool := bit e 2
abbrev entS64 (e : Nat) : Bool := bit e 3
abbrev entAddr (e : Nat) : Nat := 4096 * bits e 12 29

/-- Page size of a leaf. -/
def leafSize (level e : Nat) : Nat :=
  match level with
  | 0 => if entS64 e then 0x10000 else 0x1000
  | 1 => 0x200000
  | _ => 0x40000000

/-- The third condition of R166. -/
def badEntryBits (level e : Nat) : Bool :=
  bits e 41 20 != 0 || bits e 4 8 != 0 || (entLeaf e && 3 ≤ level) || (!entLeaf e && level = 0) ||
  (entS64 e && level != 0) || (entLeaf e && level ≤ 2 && entAddr e % leafSize level e != 0)

/-- How a walk ends. -/
inductive Walked where
  | leaf (x : CacheEnt) (path : List CacheEnt)
  | fault (cause level entry : Nat)
  | wait

/-- The range of TVA that an entry of a level covers. -/
abbrev levelSize (level : Nat) : Nat := 2 ^ (12 + 9 * level)

/-- Walk from the table of level `n - 1` down (R163, R166). `up` holds the entries met so far, `ok` whether all of
them allow writes. DESIGN CHOICE (log entry 128): where a table read is refused, the fault names the level that was being
read, and ENTRY is 0, since no entry was read. -/
def walkDown (q t tva : Nat) (write : Bool) : Nat → Nat → Bool → List CacheEnt → State → Walked × State
  | 0, _, _, _, s => (.fault 3 0 0, s)
  | l + 1, table, ok, up, s =>
    let ppa := table + 8 * bits tva (12 + 9 * l) 9
    match deviceRead t ppa s with
    | (.wait, s) => (.wait, s)
    | (.refused, s) => (.fault 3 l 0, s)
    | (.data d p, s) =>
      let e := lineNat d (ppa % 128) 8
      if p then (.fault 4 l 0, s)
      else if !entV e then (.fault 1 l e, s)
      else if badEntryBits l e then (.fault 3 l e, s)
      else if entLeaf e then
        let size := leafSize l e
        if !inExtents s t (entAddr e) size then (.fault 3 l e, s)
        else if write && !entW e then (.fault 2 l e, s)
        else
          let x : CacheEnt := { quadrant := q, tenant := t, base := tva / size * size, size := size, level := l,
                                leaf := true, ppa := entAddr e, writable := ok && entW e }
          (.leaf x up, s)
      else if !inExtents s t (entAddr e) 4096 then (.fault 3 l e, s)
      else if write && !entW e then (.fault 2 l e, s)
      else
        let size := levelSize l
        let x : CacheEnt := { quadrant := q, tenant := t, base := tva / size * size, size := size, level := l,
                              leaf := false, ppa := entAddr e, writable := ok && entW e }
        walkDown q t tva write l (entAddr e) (ok && entW e) (x :: up) s

/-! ### Translation caches (R170 to R172) -/

/-- The lowest cached non-leaf entry that a walk may start from. -/
def cachedTable (s : State) (q t tva : Nat) (write : Bool) : Option CacheEnt :=
  [1, 2, 3, 4].findSome? (fun l => s.xlat.cache.find? (fun x =>
    !x.leaf && x.level == l && covers x q t tva && (!write || x.writable)))

/-- A walk for an access (R166, R558): from the lowest cached table, or from the root. A walk that a cached entry would
end with WRITE_PROTECT starts at the root, so that it names the first such entry. -/
def walkFor (cached : Bool) (q t tva : Nat) (write : Bool) (s : State) : Walked × State :=
  match rootOf s t with
  | none => (.fault 5 7 0, s)
  | some r =>
    if !r.enable then (.fault 5 7 0, s)
    else match (if cached then cachedTable s q t tva write else none) with
      | some x => walkDown q t tva write x.level x.ppa x.writable [] s
      | none => walkDown q t tva write 5 r.ppa true [] s

/-- Slices of R170. -/
abbrev sliceSize : Nat := 16384
abbrev sliceTables : Nat := 1024
abbrev slicePins : Nat := 4096

/-- Remove one entry of a list of candidates; which one is the device's choice (log entry 9). -/
def dropOne (l : List CacheEnt) (s : State) : State :=
  let (n, s) := draw s
  match l[n % l.length]? with
  | some v => { s with xlat.cache := s.xlat.cache.erase v }
  | none => s

/-- Enter one translation in its slice, at the cost of another where the slice is full. -/
def fillOne (x : CacheEnt) (s : State) : State :=
  let same := fun (y : CacheEnt) => y.quadrant == x.quadrant && y.tenant == x.tenant
  let pinned := x.pinned || s.xlat.cache.any (fun y => same y && y.leaf == x.leaf && y.base == x.base && y.size == x.size && y.pinned)
  let s := { s with xlat.cache := s.xlat.cache.filter (fun y =>
    !(same y && y.leaf == x.leaf && y.base == x.base && y.size == x.size)) }
  let slice := s.xlat.cache.filter same
  let s :=
    if !x.leaf && sliceTables ≤ slice.countP (fun y => !y.leaf) then dropOne (slice.filter (fun y => !y.leaf)) s
    else if sliceSize ≤ slice.length then dropOne (slice.filter (fun y => !y.pinned)) s
    else s
  { s with xlat.cache := s.xlat.cache ++ [{ x with pinned := pinned }] }

/-- Enter a walk's result (R171). -/
def fillWalk (x : CacheEnt) (path : List CacheEnt) (s : State) : State :=
  fillOne x (path.foldl (fun s y => fillOne y s) s)

/-! ### The fault unit (R178 to R184, R558) -/

def queueState (s : State) (q : Nat) : FaultQ := tget {} s.xlat.queues q

/-- The ring of a queue lies within one extent of its tenant (R179), which takes writes: one that is sealed, or being sealed,
takes none (R435, R437; log entry 168). -/
def ringValid (s : State) (q : Nat) : Bool :=
  match fqTenant s q, extentAt s (fqBase s q) with
  | some t, some e =>
    e.tenant = t && fqBase s q + 128 * fqSize s q ≤ e.base + 0x200000 * e.granules && e.sealing.isNone
  | _, _ => false

/-- The queue accepts a record of a tenant now (R180). -/
def queueOpen (s : State) (q t : Nat) : Bool :=
  fqTenant s q == some t && fqEnable s q && ((queueState s q).tail + 1) % fqSize s q != fqHead s q

/-- The bytes of a fault record (R181). -/
def faultBytes (r : FaultRec) (phase : Nat) : List Byte :=
  le 4 r.id ++ le 1 r.cause ++ le 1 r.source ++ le 1 r.access ++ le 1 r.level ++ le 8 r.tva ++ le 8 r.fmt ++
  le 8 r.entry ++ le 4 r.waiters ++ le 4 r.tileOffset ++ le 2 r.core ++ le 1 r.ctx ++ le 1 r.retry ++ le 2 r.srcEid ++
  zeros 2 ++ le 8 r.originSeq ++ le 4 r.originSession ++ zeros 4 ++ padTo 32 r.restart ++ zeros 31 ++ le 1 phase

/-- A ring that does not lie in one extent of the tenant is rejected (R179). -/
def rejectRing (q : Nat) (s : State) : State :=
  setField (fqReg q 8) 31 0 0 { s with xlat.queues := tmod {} s.xlat.queues q (fun x => { x with badRing := true }) }

/-- The ring's line of the next record. -/
def ringLine (s : State) (q : Nat) : Nat := lineOfPpa (fqBase s q) + (queueState s q).tail % fqSize s q

/-- Slots of a queue that no record takes, written or waiting to be. -/
def ringRoom (s : State) (q : Nat) : Nat :=
  (fqHead s q + fqSize s q - 1 - (queueState s q).tail % fqSize s q) % fqSize s q -
    s.xlat.openRecs.countP (fun r => r.queue == q && !r.written)

/-- Write a record to its ring as one line (R180): the write is a pool write of the device, copies of the line are
invalidated. DESIGN CHOICE (log entry 129): where LOG2 has been lowered below TAIL.INDEX, the record goes to INDEX modulo
the ring's size. -/
def writeRecord (q t : Nat) (r : FaultRec) (s : State) : State :=
  if !ringValid s q then rejectRing q s
  else
    let x := queueState s q
    let line := ringLine s q
    let s := takeP0 line (recallLine line 0x49 s)
    let s := homeWrite t line (lineOf (faultBytes r x.phase)) false false s
    let n := (x.tail + 1) % fqSize s q
    let x' : FaultQ := { x with tail := n, phase := if n = 0 then 1 - x.phase else x.phase,
                                postedAt := some (x.postedAt.getD (fmt s)) }
    fire (64 + q) { s with xlat.queues := tset {} s.xlat.queues q x' }

/-- Write the records that wait for a slot of a queue, in order (R180), each in the P0 line of a mark of its strand (R74). -/
def drainQueue (q : Nat) : Nat → State → State
  | 0, s => s
  | n + 1, s => match s.xlat.openRecs.find? (fun r => r.queue == q && !r.written) with
    | none => s
    | some r =>
      if !queueOpen s q r.tenant || (ringValid s q && !p0Ready s (ringLine s q)) then s
      else
        let s := writeRecord q r.tenant { r.record with waiters := r.waiting.length } s
        if !fqEnable s q then s
        else drainQueue q n { s with xlat.openRecs := s.xlat.openRecs.map (fun x =>
          if x.tenant = r.tenant && x.record.id = r.record.id then { x with written := true } else x) }

/-- A tenant's open records (R183). -/
abbrev openLimit : Nat := 64
def openCount (s : State) (t : Nat) : Nat := s.xlat.openRecs.countP (fun r => r.tenant == t)

/-- The open record with a fault's key (R182). -/
def openFor (s : State) (t : Nat) (r : FaultRec) : Option OpenRec :=
  s.xlat.openRecs.find? (fun x => x.tenant == t && x.record.tva == r.tva && x.record.cause == r.cause)

/-- Key of the count of earlier records (R181). -/
abbrev retryKey (t tva cause : Nat) : Nat := (t * 2 ^ 45 + tva / 4096) * 8 + cause

/-- A record is created: it takes its number and its RETRY_COUNT (R181, R186). -/
def createRecord (t q : Nat) (r : FaultRec) (waiting : List (Nat × Nat)) (s : State) : State :=
  let id := tget 1 s.xlat.nextRecord t
  let k := retryKey t r.tva r.cause
  let r := { r with id := id, retry := min 255 (tget 0 s.xlat.retries k) }
  let o : OpenRec := { tenant := t, queue := q, record := r, written := false, waiting := waiting }
  drainQueue q openLimit { s with xlat.nextRecord := tset 1 s.xlat.nextRecord t ((id + 1) % 2 ^ 32),
                                  xlat.retries := tmod 0 s.xlat.retries k (· + 1),
                                  xlat.openRecs := s.xlat.openRecs ++ [o] }

/-- Set a context's phase to waiting on a record, or for one; a context with a piece of its tile still to commit goes
on with it first (R184). -/
def waitOn (core k : Nat) (id : Option Nat) (s : State) : State :=
  match ctxOf s core k with
  | some x => if x.split.isSome then s else putCtx core k (some { x with phase := .fault id }) s
  | none => s

/-- A context waits on the open record of its key, or is given a record of its own (R182). -/
def giveRecord (t core k : Nat) (r : FaultRec) (s : State) : State :=
  match openFor s t r with
  | some o => waitOn core k (some o.record.id) { s with xlat.openRecs := s.xlat.openRecs.map (fun x =>
      if x.tenant = t && x.record.id = o.record.id && !x.waiting.contains (core, k) then
        { x with waiting := x.waiting ++ [(core, k)] } else x) }
  | none =>
    let id := tget 1 s.xlat.nextRecord t
    let q := ((rootOf s t).map (·.engineQueue)).getD 0
    createRecord t q r [(core, k)] (waitOn core k (some id) s)

/-- The first engine fault of a tenant that waits on chip is given a record, if one is free (R183). -/
def allocateRecord (t : Nat) (s : State) : State :=
  match s.xlat.waitingFaults.find? (fun w => w.tenant == t) with
  | none => s
  | some w =>
    if openLimit ≤ openCount s t then s
    else giveRecord t w.core w.ctx w.record { s with xlat.waitingFaults := s.xlat.waitingFaults.erase w }

/-- The faults that wait on chip come before a new one (R183). -/
def allocateRecords (t : Nat) : Nat → State → State
  | 0, s => s
  | n + 1, s => allocateRecords t n (allocateRecord t s)

/-- A fault of an engine context that has a fault queue (R178, R182, R183): it joins a record, gets one, or waits for
one. -/
def engineFault (t core k : Nat) (r : FaultRec) (s : State) : State :=
  let s := allocateRecords t s.xlat.waitingFaults.length s
  if (openFor s t r).isNone && openLimit ≤ openCount s t then
    let w : WaitingFault := { tenant := t, core := core, ctx := k, record := r }
    waitOn core k none { s with xlat.waitingFaults := s.xlat.waitingFaults ++ [w] }
  else giveRecord t core k r s

/-- A fault of a link request, a page swap or PIN_TRANSLATION (R178, R180, R182, R183): what waits on chip for its queue
comes first; without a free record or slot it is dropped and counted. -/
def postFault (t : Nat) (r : FaultRec) (s : State) : State :=
  match rootOf s t with
  | none => s
  | some root =>
    let q := root.linkQueue
    let s := drainQueue q 2048 (allocateRecords t s.xlat.waitingFaults.length s)
    if (openFor s t r).isSome then s
    else if openLimit ≤ openCount s t || !queueOpen s q t then sat (fqReg q 0x14) 16 16 1 s
    else if !ringValid s q then sat (fqReg q 0x14) 16 16 1 (rejectRing q s)
    else if ringRoom s q = 0 then sat (fqReg q 0x14) 16 16 1 s
    else createRecord t q r [] s

/-- FAULT_RECORD_ALLOCATE (R183): the first engine fault that waits on chip is given a record. -/
def execFaultRecordAllocate (tenant : Nat) (s : State) : Host.Outcome State Fault Refusal :=
  .next (allocateRecord tenant s)

/-- FAULT_RECORD_DRAIN (R180): slots of the ring have become free. -/
def execFaultRecordDrain (queue : Nat) (s : State) : Host.Outcome State Fault Refusal :=
  .next (if frozen s then s else drainQueue queue 2048 s)

/-- FAULT_POSTED_EVENT (R180, R123). -/
def execFaultPostedEvent (queue : Nat) (s : State) : Host.Outcome State Fault Refusal :=
  match (queueState s queue).postedAt with
  | none => .next s
  | some at' =>
    let s := { s with xlat.queues := tmod {} s.xlat.queues queue (fun x => { x with postedAt := none }) }
    .next (eventAt 3 queue at' (fraction s) (fun t => fqTenant s queue == some t) [] s)

/-! ### RESUME_FAULT (R186) -/

/-- A waiter of a closed record walks again; one that still commits the piece before its split goes on with it first (R184, R186). -/
def retryCtx (core k : Nat) (s : State) : State :=
  match ctxOf s core k with
  | none => s
  | some x =>
    putCtx core k (some (match x.phase with
      | .fault _ => { x with phase := .running, wanted := [], reads := [], lines := [], tileLen := 0, aheadLen := 0, split := none,
                             trans := [], walkFaults := [] }
      | _ => { x with split := none })) s

def execResumeFault (c : Cmd) (s : State) : Host.Outcome State Fault Refusal :=
  let id := pnum c.params 0 4
  let abort := pbit c.params 4 0
  .next (kcpNow 0x305 c (le 4 id ++ le 1 (b2n abort) ++ zeros 3) (fun s =>
    match s.xlat.openRecs.find? (fun r => r.tenant == c.tenant && r.record.id == id) with
    | none => (stDENIED, [], s)
    | some o =>
      let s := { s with xlat.openRecs := s.xlat.openRecs.erase o }
      let n := o.waiting.length
      if abort then
        let k := retryKey c.tenant o.record.tva o.record.cause
        (stOK, le 4 n, stopAll o.waiting stFAULT { s with xlat.retries := tset 0 s.xlat.retries k 0 })
      else (stOK, le 4 n, o.waiting.foldl (fun s w => retryCtx w.1 w.2 s) s)) s)

/-! ### Commands over the caches (R169, R173, R174, R176) -/

/-- A context reads its tile, or is to write a MERGE's lists: it runs, waits for a walk, or waits for its children's lists. -/
def readsTile (x : Ctx) : Bool :=
  match x.phase with
  | .running | .walking => x.tileLen != 0
  | .merging r => r = 1
  | _ => false

/-- A tenant's contexts keep no translation that has been removed: tiles that they still read, and MERGE lists that they are to
write, are taken up afresh, so that nothing is issued any more through it (R174). -/
def dropTiles (t : Nat) (s : State) : State :=
  let mine := s.eng.cores.flatMap (fun e => (coreCtxs e.2).filterMap (fun c =>
    if c.2.share.tenant = t then some (e.1, c.1, c.2) else none))
  mine.foldl (fun s e =>
    if readsTile e.2.2 then
      dropEngineReads e.1 e.2.1 (putCtx e.1 e.2.1 (some { e.2.2 with
        phase := if e.2.2.phase = .merging 1 then .running else e.2.2.phase, tileLen := 0, aheadLen := 0, wanted := [], reads := [], trans := [], split := none, stop := none }) s)
    else putCtx e.1 e.2.1 (some { e.2.2 with trans := [] }) s) s

/-- SET_TABLE_ROOT (R169). -/
def execSetTableRoot (c : Cmd) (s : State) : Host.Outcome State Fault Refusal :=
  let root := pnum c.params 0 8 % 2 ^ 41 / 4096 * 4096
  let enable := pbit c.params 8 0
  let eq := min 63 (pnum c.params 9 1)
  let lq := min 63 (pnum c.params 10 1)
  .next (kcpNow 0x301 c (le 8 root ++ le 1 (b2n enable) ++ le 1 eq ++ le 1 lq ++ zeros 1) (fun s =>
    if (enable && !inExtents s c.tenant root 4096) || fqTenant s eq != some c.tenant ||
       fqTenant s lq != some c.tenant then (stDENIED, [], s)
    else
      let mine := fun (x : CacheEnt) => x.tenant == c.tenant
      let n := s.xlat.cache.countP (fun x => mine x && x.pinned)
      let r : Root := { ppa := root, enable := enable, engineQueue := eq, linkQueue := lq }
      (stOK, le 4 n, dropTiles c.tenant { s with xlat.roots := tset none s.xlat.roots c.tenant (some r),
                                                 xlat.cache := s.xlat.cache.filter (fun x => !mine x) })) s)

/-- Effective TVA and LENGTH of INVALIDATE, PIN_TRANSLATION and UNPIN_TRANSLATION (R173). -/
def rangeParams (ps : List Byte) : Nat × Nat :=
  let tva := pnum ps 0 8 % 2 ^ 57 / 4096 * 4096
  let len := (pnum ps 8 8 + 4095) / 4096 * 4096
  (tva, min (if len = 0 then 4096 else len) (2 ^ 57 - tva))

/-- A cached range overlaps a range. -/
def overlaps (x : CacheEnt) (tva len : Nat) : Bool := x.base < tva + len && tva < x.base + x.size

/-- Walk a pinned entry again (R173): counts of entries pinned again and dropped. -/
def repin (x : CacheEnt) (n : Nat × Nat) (s : State) : (Nat × Nat) × State :=
  let s := { s with xlat.cache := s.xlat.cache.erase x }
  match walkFor false x.quadrant x.tenant x.base false s with
  | (.leaf y _, s) => ((n.1 + 1, n.2), fillOne { y with pinned := true } s)
  | (_, s) => ((n.1, n.2 + 1), s)

/-- A walk from the root would have to wait for an owner's data. -/
def walkWaits (t tva : Nat) (write : Bool) (s : State) : Option State :=
  match walkFor false 0 t tva write s with
  | (.wait, s') => some { s with coh := s'.coh, eng.nextTag := s'.eng.nextTag, link := s'.link, halt := s'.halt,
                                 out := s'.out, ctr := s'.ctr, err := s'.err, intc := s'.intc }
  | _ => none

/-- Run a command that walks tables once no table line has to be fetched from an owner; until then it stays untaken. -/
def whenTables (t : Nat) (pages : List (Nat × Bool)) (f : State → State) (s : State) : State :=
  if !serving s || frozen s then f s
  else match pages.findSome? (fun p => walkWaits t p.1 p.2 s) with
    | some s => s
    | none => clearGathered t (f s)

/-- INVALIDATE (R173, R174). -/
def execInvalidate (c : Cmd) (s : State) : Host.Outcome State Fault Refusal :=
  let r := rangeParams c.params
  let all := pbit c.params 16 0
  let hit := fun (x : CacheEnt) => x.tenant == c.tenant && (all || overlaps x r.1 r.2)
  let pins := s.xlat.cache.filter (fun x => hit x && x.pinned)
  .next (whenTables c.tenant (pins.map (fun x => (x.base, false)))
    (kcpNow 0x302 c (le 8 r.1 ++ le 8 r.2 ++ le 1 (b2n all) ++ zeros 3) (fun s =>
      let gone := s.xlat.cache.countP (fun x => hit x && !x.pinned)
      let pins := s.xlat.cache.filter (fun x => hit x && x.pinned)
      let s := { s with xlat.cache := s.xlat.cache.filter (fun x => !(hit x && !x.pinned)),
                        xlat.walks := s.xlat.walks.map (fun w => if w.tenant = c.tenant then { w with noFill := true } else w) }
      let (n, s) := pins.foldl (fun a x => repin x a.1 a.2) ((0, 0), dropTiles c.tenant s)
      (stOK, le 4 gone ++ le 4 n.1 ++ le 4 n.2, s))) s)

/-- Walk every leaf page of a range (R176, R189). -/
inductive RangeWalk where
  | leaves (l : List CacheEnt)
  | fault (tva cause level entry : Nat)

def walkRange (t stop : Nat) (write : Bool) : Nat → Nat → List CacheEnt → State → RangeWalk × State
  | 0, _, acc, s => (.leaves acc.reverse, s)
  | n + 1, tva, acc, s =>
    if stop ≤ tva then (.leaves acc.reverse, s)
    else match walkFor false 0 t tva write s with
      | (.leaf x _, s) => walkRange t stop write n (x.base + x.size) (x :: acc) s
      | (.fault c l e, s) => (.fault tva c l e, s)
      | (.wait, s) => (.fault tva 3 0 0, s)

/-- The first page of a range whose walk must wait for an owner. -/
def rangeWaits (t stop : Nat) (write : Bool) : Nat → Nat → State → List (Nat × Bool)
  | 0, _, _ => []
  | n + 1, tva, s =>
    if stop ≤ tva then []
    else match walkFor false 0 t tva write s with
      | (.leaf x _, s) => rangeWaits t stop write n (x.base + x.size) s
      | (.wait, _) => [(tva, write)]
      | _ => []

/-- The quadrants that a QUADRANTS field selects. -/
def quadrantsOf (m : Nat) : List Nat := (List.range 4).filter (bit m)

/-- PIN_TRANSLATION (R176). -/
def execPinTranslation (c : Cmd) (s : State) : Host.Outcome State Fault Refusal :=
  let r := rangeParams c.params
  let m := pbits c.params 16 0 4
  let m := if m = 0 then 1 else m
  let stop := r.1 + r.2
  let fuel := r.2 / 4096 + 1
  .next (whenTables c.tenant (rangeWaits c.tenant stop false fuel r.1 s)
    (kcpNow 0x303 c (le 8 r.1 ++ le 8 r.2 ++ le 1 m ++ zeros 3) (fun s =>
      match walkRange c.tenant stop false fuel r.1 [] s with
      | (.fault tva cause level entry, s) =>
        let fr : FaultRec := { id := 0, cause := cause, source := 3, access := 0, level := level,
                                tva := tva / 4096 * 4096, fmt := fmt s, entry := entry, originSeq := c.seq,
                                originSession := c.session }
        (stFAULT, le 4 0, postFault c.tenant fr s)
      | (.leaves ls, s) =>
        let qs := quadrantsOf m
        let pinned := fun (q : Nat) => s.xlat.cache.filter (fun x => x.quadrant == q && x.tenant == c.tenant && x.pinned)
        let new := fun (q : Nat) => ls.filter (fun x => !(pinned q).any (fun y => y.base == x.base && y.size == x.size))
        if qs.any (fun q => slicePins < (pinned q).length + (new q).length) then (stDENIED, le 4 0, s)
        else
          (stOK, le 4 ls.length, qs.foldl (fun s q =>
            ls.foldl (fun s x => fillOne { x with quadrant := q, pinned := true } s) s) s))) s)

/-- UNPIN_TRANSLATION (R176). -/
def execUnpinTranslation (c : Cmd) (s : State) : Host.Outcome State Fault Refusal :=
  let r := rangeParams c.params
  let m := pbits c.params 16 0 4
  let m := if m = 0 then 1 else m
  .next (kcpNow 0x304 c (le 8 r.1 ++ le 8 r.2 ++ le 1 m ++ zeros 3) (fun s =>
    let hit := fun (x : CacheEnt) => x.tenant == c.tenant && x.pinned && bit m x.quadrant && overlaps x r.1 r.2
    (stOK, le 4 (s.xlat.cache.countP hit),
     { s with xlat.cache := s.xlat.cache.map (fun x => if hit x then { x with pinned := false } else x) })) s)

/-! ### Reading memory for a command (R559) -/

/-- The quadrant whose caches serve the active command processor. -/
def cpQuadrant (s : State) : Nat := s.pair.active

/-- What a command that reads by TVA meets. -/
inductive BytesRead where
  | bytes (b : List Byte)
  | fault (tva cause level entry : Nat)
  | refused (status tva : Nat)
  | wait

/-- Translate for the command processor: the cached leaf, or a walk that fills the caller's slice. -/
def cpTranslate (t tva : Nat) (s : State) : (Walked × State) :=
  let q := cpQuadrant s
  match cachedLeaf s q t tva false with
  | some x => (.leaf x [], s)
  | none => match walkFor true q t tva false s with
    | (.leaf x p, s) => (.leaf x p, fillWalk x p s)
    | r => r

/-- Read whole lines by TVA, line by line. -/
def readByTva (t : Nat) : Nat → Nat → List Byte → State → BytesRead × State
  | 0, _, acc, s => (.bytes acc, s)
  | n + 1, tva, acc, s =>
    match cpTranslate t tva s with
    | (.wait, s) => (.wait, s)
    | (.fault c l e, s) => (.fault (tva / 4096 * 4096) c l e, s)
    | (.leaf x _, s) =>
      let ppa := leafPpa x tva
      match refusedAt s t ppa 1 false, deviceRead t ppa s with
      | some (st, _), (.refused, s) => (.refused st (tva / 4096 * 4096), s)
      | _, (.refused, s) => (.refused stDENIED (tva / 4096 * 4096), s)
      | _, (.wait, s) => (.wait, s)
      | _, (.data d p, s) => if p then (.refused stPOISONED (tva / 4096 * 4096), s) else readByTva t n (tva + 128) (acc ++ lineBytes d) s

/-- Run a command that reads `n` lines by TVA once none of them has to be fetched from an owner; until then it stays
untaken. -/
def whenReadable (t n tva : Nat) (f : State → State) (s : State) : State :=
  if !serving s || frozen s then f s
  else match readByTva t n tva [] s with
    | (.wait, s') => { s with coh := s'.coh, eng.nextTag := s'.eng.nextTag, link := s'.link, halt := s'.halt, out := s'.out,
                              ctr := s'.ctr, err := s'.err, intc := s'.intc }
    | _ => clearGathered t (f s)

end Sys2Proof.Machine
end

