-- ==== Sys2Proof/Machine/Requests.lean ====
section
/-! DEFINITION. Requests from the links (R77 to R86, R194 to R206, R228, R321, R372): how a request is taken, translated,
admitted and put to its home. -/
namespace Sys2Proof.Machine

/-! ### Form (R196, R198, R201) -/

/-- Lines that a request covers. -/
def requestLines (rx : RxPkt) : Nat :=
  match rx.hdr.code with
  | 0x01 => rx.hdr.lines
  | 0x04 => rx.payload.length
  | _ => 1

/-- The conditions of R198 and R201. -/
def wellShaped (rx : RxPkt) : Bool :=
  let h := rx.hdr
  let n := requestLines rx
  match h.code with
  | 0x08 => h.aop ≤ 12 && h.addr % atomicWidth h.aop = 0 && rx.payload.length = 1
  | 0x05 | 0x06 => h.addr % 128 = 0 && rx.payload.length = 1
  | _ => h.addr % 128 = 0 && 1 ≤ n && n ≤ 32 && h.addr % 4096 + 128 * n ≤ 4096

/-- A fabric address names an own EID and lies within PPA (R196). -/
def fabricOk (s : State) (addr n : Nat) : Bool :=
  isOwnEid s (addr / 2 ^ 52) && bits addr 41 11 = 0 && addr % 2 ^ 41 + 128 * n ≤ 2 ^ 41

/-- A request translates as a write (R196). -/
def translatesAsWrite (code : Nat) : Bool := code = 3 || code = 4 || code = 5 || code = 8

/-- A request changes a line at the home, or may (R435). -/
def changesLine (code : Nat) : Bool := translatesAsWrite code || code = 6

/-- ACCESS of a fault record. -/
def accessOf (code : Nat) : Nat := if code = 8 then 2 else if translatesAsWrite code then 1 else 0

/-! ### Admission (R77 to R87) -/

/-- A line may be booked on its strand in a mark: fewer than 40 lines, and no claim of refresh on its bank (R75, R407). -/
def strandFree (s : State) (st line mark taken : Nat) : Bool :=
  tget 0 s.coh.strandLedger (strandKey mark st) + taken < 40 &&
  !s.coh.claims.any (fun c => c.1 == st && c.2.1 == lineBank line && c.2.2 == mark)

/-- Book lines one after another, earliest first; `acc` lists (mark, lines), latest first. -/
def bookLines (s : State) (st : Nat) : Nat → List Nat → Nat → List (Nat × Nat) → Option (List (Nat × Nat))
  | 0, _, _, _ => none
  | _ + 1, [], _, acc => some acc
  | n + 1, l :: ls, mark, acc =>
    let taken := match acc with
      | (m, k) :: _ => if m = mark then k else 0
      | [] => 0
    if strandFree s st l mark taken then
      bookLines s st n ls mark (match acc with
        | (m, k) :: t => if m = mark then (m, k + 1) :: t else (mark, 1) :: (m, k) :: t
        | [] => [(mark, 1)])
    else bookLines s st n (l :: ls) (mark + 1) acc

/-- Flits of a tenant's share still free on a port in a mark (R87, R345). -/
def egressFree (s : State) (p t mark : Nat) : Nat :=
  if s.coh.blackout.contains (p, mark) then 0 else portShare s t p - tget 0 s.coh.egressLedger (egressKey mark p t)

/-- Book flits, earliest first. -/
def bookFlits (s : State) (p t : Nat) : Nat → Nat → Nat → List (Nat × Nat) → Option (List (Nat × Nat))
  | 0, _, _, _ => none
  | n + 1, flits, mark, acc =>
    if flits = 0 then some acc
    else
      let k := min flits (egressFree s p t mark)
      bookFlits s p t n (flits - k) (mark + 1) (if k = 0 then acc else (mark, k) :: acc)

/-- Flits booked for a packet of `g` granules on a port; a sealed port's SEAL_TAG flits are booked too (R378). -/
def bookedFlits (s : State) (p g : Nat) : Nat :=
  let n := pktFlits g
  if (portOf s p).sealActive then n + (n + 15) / 16 else n

/-- Egress bookings from a first mark, within a bound (R77, R81). -/
def bookEgress (s : State) (p t flits start last : Nat) : Option (List (Nat × Nat)) :=
  match bookFlits s p t (last + 2 - start) flits start [] with
  | some b => if (b.headD (start, 0)).1 + 2 ≤ last then some b.reverse else none
  | none => none

/-- Enter bookings in the ledgers. -/
def enterBookings (st p t : Nat) (sb eb : List (Nat × Nat)) (s : State) : State :=
  let s := sb.foldl (fun s b => { s with coh.strandLedger := tmod 0 s.coh.strandLedger (strandKey b.1 st) (· + b.2) }) s
  eb.foldl (fun s b => { s with coh.egressLedger := tmod 0 s.coh.egressLedger (egressKey b.1 p t) (· + b.2) }) s

/-- Count a P1 request or packet of a tenant as admitted or refused (R85, R516). -/
def countP1 (t : Nat) (admitted : Bool) (s : State) : State :=
  if admitted then bump t 3 1 { s with time.winAdmitted := tmod 0 s.time.winAdmitted t (· + 1) }
  else bump t 4 1 { s with time.winRefused := tmod 0 s.time.winRefused t (· + 1) }

/-- Granules of the response that a request is answered with. -/
def responseGranules (rx : RxPkt) : Nat :=
  match rx.hdr.code with
  | 0x01 => rx.hdr.lines
  | 0x02 | 0x03 | 0x08 => 1
  | _ => 0

/-- The pseudo code of R77: strand and egress bookings of a request, or nothing. `r.mark` is a, the mark of the request's
last flit, and `r.bound` the bound in force in it (R86). -/
def admitP1 (s : State) (rx : RxPkt) (r : Arrival) (line n : Nat) : Option (Nat × List (Nat × Nat) × List (Nat × Nat)) :=
  let a := r.mark
  let t := r.tenant
  let st := lineStrand line
  let last := a + r.bound
  if !s.time.admitOpen || !p1Enable s t || (strandOf s st).lostUnit || stackInReset s st then none
  else match routeOf s rx.hdr.src with
    | none => none
    | some p =>
      if !portUp s p then none
      else match bookLines s st (r.bound + 64) ((List.range n).map (line + ·)) (a + 3) [] with
        | none => none
        | some sb =>
          let e := (sb.headD (a + 3, 0)).1 + 3
          match bookEgress s p t (bookedFlits s p (responseGranules rx)) e last with
          | some eb => some (p, sb.reverse, eb)
          | none => none

/-! ### Idempotency (R372) -/

/-- Records of a home quadrant. -/
abbrev idemRecords : Nat := 65536

/-- Codes that are recorded. -/
def recorded (h : PktHdr) : Bool := h.idem != 0 && (h.code = 4 || h.code = 5 || h.code = 8 || h.code = 0x0A)

def idemReg (q : Nat) : Nat := 0x00102010 + 4 * q

/-- Free the oldest record of a quadrant early; one for which repeats wait matches nothing any more and answers them. -/
def evictIdem (q : Nat) (s : State) : State :=
  match s.coh.idem.find? (fun r => r.quadrant == q && !r.evicted) with
  | none => s
  | some r =>
    let rest := if r.waiting = [] then s.coh.idem.erase r
      else s.coh.idem.map (fun x => if x = r then { r with evicted := true } else x)
    sat (idemReg q) 16 16 1 { s with coh.idem := rest }

/-- Make the record of a request; the oldest goes where there is no room. -/
def recordIdem (q : Nat) (h : PktHdr) (id : Nat) (s : State) : State :=
  if !recorded h then s
  else
    let s := if idemRecords ≤ s.coh.idem.countP (fun r => r.quadrant == q && !r.evicted) then evictIdem q s else s
    let r : Idem := { quadrant := q, eid := h.src, tag := h.idem, code := h.code, addr := h.addr, tracker := some id }
    { s with coh.idem := s.coh.idem ++ [r] }

/-- The kept record that a request of any CODE matches. -/
def idemMatch (s : State) (q : Nat) (h : PktHdr) : Option Idem :=
  if h.idem = 0 then none
  else s.coh.idem.find? (fun r => r.quadrant == q && r.eid == h.src && r.tag == h.idem && !r.evicted)

/-- Trackers in use in a quadrant: those of WRITEBACK and EVICT_CLEAN, and those of other link requests, among them the
repeats that wait for their original. -/
def trackersUsed (s : State) (q : Nat) (release : Bool) : Nat :=
  s.coh.trackers.countP (fun t => t.quadrant == q && ((t.hdr.code == 6 || t.hdr.code == 7) == release) && (match t.who with
    | .link _ _ _ => true
    | _ => false)) +
  (if release then 0 else (s.coh.idem.filter (fun r => r.quadrant == q)).foldl (fun n r => n + r.waiting.length) 0)

/-- A repeat is answered from its record, waits in a tracker for the original, or is DENIED. -/
def repeatIdem (r : Idem) (rx : RxPkt) (t : Nat) (pair : Option Nat) (s : State) : State :=
  if r.code != rx.hdr.code || r.addr != rx.hdr.addr then complete rx.hdr t pair stDENIED s
  else if r.tracker.isSome && 16384 ≤ trackersUsed s r.quadrant false then complete rx.hdr t pair stBUSY (bumpBoth t 7 1 s)
  else if r.tracker.isSome then
    { s with coh.idem := s.coh.idem.map (fun x => if x = r then { r with waiting := r.waiting ++ [(rx, pair)] } else x) }
  else
    let (h, ls) : PktHdr × List Line :=
      if r.status = stOK && r.code = 8 then ({ code := 0x43 }, [BitVec.ofNat 1024 r.old]) else ({ code := 0x42, status := r.status }, [])
    respond rx.hdr t pair none none (0, []) h ls (sat (idemReg r.quadrant) 0 16 1 s)

/-! ### The home takes a request (R133, R146, R200, R224) -/

/-- A tracker's line number for a request that names no line. -/
abbrev noLine : Nat := 2 ^ 60

/-- What a request does to its `i`-th line. -/
def lineOp (rx : RxPkt) (i : Nat) : LineOp :=
  match rx.hdr.code with
  | 0x02 => .readShared
  | 0x03 => .readOwn
  | 0x04 => .write (rx.payload.getD i 0)
  | 0x05 => .masked (rx.payload.headD 0) rx.hdr.mask
  | 0x06 => .release (some (rx.payload.headD 0)) rx.hdr.poison
  | 0x07 => .release none false
  | 0x08 => .atomic rx.hdr.aop (rx.hdr.addr % 128) (lineNat (rx.payload.headD 0) 0 16) (lineNat (rx.payload.headD 0) 16 16)
  | _ => .read

/-- Give a request its tracker and put its lines to their home. -/
def takeRequest (rx : RxPkt) (r : Arrival) (line n : Nat) (pair : Option Nat) (book : Option (Nat × List (Nat × Nat) × List (Nat × Nat)))
    (s : State) : State :=
  let id := s.coh.nextTracker
  let t := r.tenant
  let q := lineQuadrant line
  let sb := (book.map (·.2.1)).getD []
  let eb := (book.map (·.2.2)).getD []
  let p := (book.map (·.1)).getD 0
  let k : Tracker := { id := id, order := r.place, who := .link rx.port rx.hdr.src rx.hdr.tag, hdr := rx.hdr, tenant := t, quadrant := q,
                       p1 := book.isSome, bound := r.bound, arrived := r.mark, lastMark := (eb.getLastD (0, 0)).1,
                       remaining := n, strandBook := sb, egressBook := eb, egressPort := p, pair := pair,
                       firstLine := line, payload := rx.payload }
  let s := recordIdem q rx.hdr id { s with coh.trackers := s.coh.trackers ++ [k], coh.nextTracker := id + 1 }
  let s := if book.isSome then enterBookings (lineStrand line) p t sb eb s else s
  (List.range n).foldl (fun s i => placeJob { tracker := id, line := line + i, op := lineOp rx i } s) s

/-- WRITEBACK and EVICT_CLEAN at the home (R29, R217, R221, R224, R226, R475): the answer to a crossing snoop, a late release, or
a request of the owner; to a LOST strand they complete POISONED. -/
def takeRelease (rx : RxPkt) (r : Arrival) (line : Nat) (s : State) : State :=
  let t := r.tenant
  let eid := rx.hdr.src
  if 0xC0000000 < ppaOffset (ppaOfLine line) + 128 then complete rx.hdr t none stDENIED (countDenied t s)
  else match idemMatch s (lineQuadrant line) rx.hdr with
  | some i => repeatIdem i rx t none s
  | none =>
  match extentAt s (ppaOfLine line) with
  | none => countLate t s
  | some e =>
    if e.tenant != t then complete rx.hdr t none stDENIED (countDenied t s)
    else if s.coh.silent.contains (eid, line) then countLate t s
    else if (strandOf s (lineStrand line)).lostUnit then
      let s := mapSnoops line (fun x => if x.eid = eid && !x.released then { x with released := true } else x) s
      settleHome (checkSnoops line (complete rx.hdr t none stPOISONED (countStatus t stPOISONED s)))
    else if crossing s line eid then
      let s := if rx.hdr.code != 0x06 then s
        else if discards s line then countLate t s
        else homeTake t line (rx.payload.headD 0) rx.hdr.poison true s
      let s := mapSnoops line (fun x => if x.eid = eid && !x.released then { x with released := true } else x) s
      settleHome (checkSnoops line (complete rx.hdr t none stOK s))
    else settleHome (takeRequest rx r line 1 none none s)

/-- A translated request reaches its home. -/
def homeRequest (rx : RxPkt) (r : Arrival) (ppa : Nat) (pair : Option Nat) (s : State) : State :=
  let h := rx.hdr
  let t := r.tenant
  let line := lineOfPpa ppa
  let n := requestLines rx
  let q := lineQuadrant line
  let p1 := effClass h = 1
  if h.code = 6 || h.code = 7 then takeRelease rx r line s
  else
    let refused := refusedAt s t (ppaOfLine line) n (changesLine h.code)
    let hard := match refused with
      | some (st, _) => !p1 || st = stDENIED || st = stREVOKED
      | none => false
    match refused with
    | some (st, counted) =>
      if hard then
        let s := if counted then countDenied t s else s
        let s := if st = stREVOKED then countRevoked line s else s
        complete h t pair st (countStatus t st s)
      else complete h t pair stREFUSED (countP1 t false s)
    | none =>
      match idemMatch s q h with
      | some i => repeatIdem i rx t pair s
      | none =>
        if 16384 ≤ trackersUsed s q false then complete h t pair stBUSY (bumpBoth t 7 1 s)
        else if p1 then
          match admitP1 s rx r line n with
          | none => complete h t pair stREFUSED (countP1 t false s)
          | some b => settleHome (takeRequest rx r line n pair (some b) (countP1 t true s))
        else settleHome (takeRequest rx r line n pair none s)

/-! ### Ingress (R196, R198, R371, R379, R390, R391) -/

/-- A request to this device leaves its port's buffer, is counted and held against its window. -/
def acceptRequest (rx : RxPkt) (t : Nat) (s : State) (f : Option Nat → State → State) : State :=
  let s := bump t 0 1 (takeArrived rx s)
  match window rx s with
  | .busy s => complete rx.hdr t none stBUSY (bump t 8 1 s)
  | .held pair s => f pair s

/-- Join or start the walk that a request needs. -/
def waitForWalk (q t tva access : Nat) (w : Waiter) (s : State) : State :=
  let page := tva / 4096 * 4096
  let same := fun (x : Walk) => x.quadrant == q && x.tenant == t && x.tva == page && x.access == access
  if s.xlat.walks.any same then
    { s with xlat.walks := s.xlat.walks.map (fun x => if same x && !x.waiters.contains w then { x with waiters := x.waiters ++ [w] } else x) }
  else { s with xlat.walks := s.xlat.walks ++ [{ quadrant := q, tenant := t, tva := page, access := access, waiters := [w] }] }

/-- A link request that faults (R178, R558): it completes FAULT at once. -/
def linkFault (rx : RxPkt) (t : Nat) (pair : Option Nat) (cause level entry : Nat) (s : State) : State :=
  let r : FaultRec := { id := 0, cause := cause, source := 1, access := accessOf rx.hdr.code, level := level,
                        tva := rx.hdr.addr % 2 ^ 57 / 4096 * 4096, fmt := fmt s, entry := entry, srcEid := rx.hdr.src }
  complete rx.hdr t pair stFAULT (postFault t r (bump t 9 1 s))

/-- A well-shaped pool request is translated and put to its home. -/
def translateRequest (rx : RxPkt) (r : Arrival) (pair : Option Nat) (s : State) : State :=
  let h := rx.hdr
  let t := r.tenant
  let release := h.code = 6 || h.code = 7
  let p1 := effClass h = 1 && !release
  let q := portQuadrant rx.port
  if h.atype = 1 then
    if !fabricOk s h.addr (requestLines rx) then complete h t pair stDENIED s
    else if p1 then complete h t pair stREFUSED (countP1 t false s)
    else homeRequest rx r (h.addr % 2 ^ 41) pair s
  else
    let tva := h.addr % 2 ^ 57
    let write := translatesAsWrite h.code
    if p1 then
      match s.xlat.cache.find? (fun x => x.leaf && x.pinned && covers x q t tva) with
      | some x =>
        if !write || x.writable then homeRequest rx r (leafPpa x tva) pair s
        else complete h t pair stREFUSED (countP1 t false s)
      | none => complete h t pair stREFUSED (countP1 t false s)
    else
      match cachedLeaf s q t tva write with
      | some x => homeRequest rx r (leafPpa x tva) pair s
      | none =>
        match rootOf s t with
        | none => linkFault rx t pair 5 7 0 s
        | some root =>
          if !root.enable then linkFault rx t pair 5 7 0 s
          else waitForWalk q t tva (accessOf h.code) (.link rx r pair) s

/-- A request leaves the receive buffer for the home. -/
def takeIn (rx : RxPkt) (r : Arrival) (s : State) : State :=
  acceptRequest rx r.tenant s (fun pair s =>
    if !wellShaped rx then complete rx.hdr r.tenant pair stDENIED s else translateRequest rx r pair s)

/-- A WRITEBACK or EVICT_CLEAN leaves the receive buffer when its home quadrant has a reserve tracker (R200). One by a
TVA that no cache translates waits there for its walk, since its home is not known before. -/
def takeInRelease (rx : RxPkt) (r : Arrival) (s : State) : State :=
  let tva := rx.hdr.addr % 2 ^ 57
  let q := portQuadrant rx.port
  let into := fun ppa => if 4096 ≤ trackersUsed s (ppaQuadrant ppa) true then keepFresh rx r s else takeIn rx r s
  if !wellShaped rx then takeIn rx r s
  else if rx.hdr.atype = 1 then into (rx.hdr.addr % 2 ^ 41)
  else match cachedLeaf s q r.tenant tva false, rootOf s r.tenant with
    | some x, _ => into (leafPpa x tva)
    | none, some root =>
      if root.enable then waitForWalk q r.tenant tva (accessOf rx.hdr.code) (.link rx r none) (keepFresh rx r s)
      else takeIn rx r s
    | none, none => takeIn rx r s

/-- The walk of a release has ended: it leaves the receive buffer with its translation if its home has a reserve tracker,
and with its fault; otherwise it stays there for its command. -/
def releaseWalked (rx : RxPkt) (r : Arrival) (w : Walked) (s : State) : State :=
  if (waitingPkt s rx).isNone then s
  else match w with
  | .leaf y _ =>
    let ppa := leafPpa y (rx.hdr.addr % 2 ^ 57)
    if 4096 ≤ trackersUsed s (ppaQuadrant ppa) true then s
    else acceptRequest rx r.tenant s (homeRequest rx r ppa)
  | .fault c l e => acceptRequest rx r.tenant s (fun pair s => linkFault rx r.tenant pair c l e s)
  | .wait => s

/-- A pool request of one of the codes 0x01 to 0x08 arrives for this device; in its turn it goes through the network to its home
(R36, R73). -/
def poolRequest (code : Nat) (rx : RxPkt) (s : State) : State :=
  let rx := { rx with hdr := { rx.hdr with code := code } }
  match ingress rx s with
  | .stops s => s
  | .goes rx r s =>
    if !isOwnEid s rx.hdr.dst || malformed rx.hdr || rx.hdr.mcast then s
    else if code = 6 || code = 7 then takeInRelease rx r s
    else if networkTurn s rx r then takeIn rx r (crossed rx r s)
    else keepFresh rx r s

/-- LOAD (R194, R199, R221): 1 to 32 lines, not cached. -/
def execLoad (rx : RxPkt) (s : State) : Host.Outcome State Fault Refusal := .next (poolRequest 0x01 rx s)

/-- READ_SHARED (R210, R221): one line, to be cached shared. -/
def execReadShared (rx : RxPkt) (s : State) : Host.Outcome State Fault Refusal := .next (poolRequest 0x02 rx s)

/-- READ_OWN (R210, R221): one line, to be cached owned. -/
def execReadOwn (rx : RxPkt) (s : State) : Host.Outcome State Fault Refusal := .next (poolRequest 0x03 rx s)

/-- STORE (R199, R205, R221): 1 to 32 whole lines. -/
def execStore (rx : RxPkt) (s : State) : Host.Outcome State Fault Refusal := .next (poolRequest 0x04 rx s)

/-- STORE_MASKED (R199, R221): one line under a byte mask. -/
def execStoreMasked (rx : RxPkt) (s : State) : Host.Outcome State Fault Refusal := .next (poolRequest 0x05 rx s)

/-- WRITEBACK (R211, R221, R224): the owner returns a line it has written. -/
def execWriteback (rx : RxPkt) (s : State) : Host.Outcome State Fault Refusal := .next (poolRequest 0x06 rx s)

/-- EVICT_CLEAN (R211, R221, R224): the owner gives up an unmodified line. -/
def execEvictClean (rx : RxPkt) (s : State) : Host.Outcome State Fault Refusal := .next (poolRequest 0x07 rx s)

/-- ATOMIC (R201 to R203, R221). -/
def execAtomic (rx : RxPkt) (s : State) : Host.Outcome State Fault Refusal := .next (poolRequest 0x08 rx s)

/-! ### Signals (R206, R321, R372) -/

/-- A SIGNAL without data waits for its source's earlier writes and is then applied and answered. -/
def takeSignal (rx : RxPkt) (r : Arrival) (pair : Option Nat) (s : State) : State :=
  let h := rx.hdr
  let t := r.tenant
  let q := knotHome h.knot
  match idemMatch s q h with
  | some i => repeatIdem i rx t pair s
  | none =>
    if 16384 ≤ trackersUsed s q false then complete h t pair stBUSY (bumpBoth t 7 1 s)
    else
      let id := s.coh.nextTracker
      let k : Tracker := { id := id, order := r.place, who := .link rx.port h.src h.tag, hdr := h, tenant := t, quadrant := q, p1 := false,
                           remaining := 0, pair := pair, firstLine := noLine, arrived := r.mark }
      let g : PendingSig := { order := r.place, src := h.src, cls := effClass h, knot := h.knot, tenant := t, tracker := some id }
      settleHome (recordIdem q h id { s with coh.trackers := s.coh.trackers ++ [k], coh.nextTracker := id + 1,
                                             coh.signals := s.coh.signals ++ [g] })

/-- An arrival at a fabric barrier (R133, R321): it is counted at this node and answered. -/
def takeArrival (rx : RxPkt) (t : Nat) (pair : Option Nat) (s : State) : State :=
  let g := rx.hdr.group
  if groupTenant s g != some t then complete rx.hdr t pair stDENIED (countDenied t s)
  else complete rx.hdr t pair stOK (fbarCount g s)

/-- SIGNAL (R194, R206): no data; with the BARRIER flag it is an arrival (R321). -/
def execSignal (rx : RxPkt) (s : State) : Host.Outcome State Fault Refusal :=
  let rx := { rx with hdr := { rx.hdr with code := 0x0A } }
  .next (match ingress rx s with
    | .stops s => s
    | .goes rx r s =>
      let t := r.tenant
      if !isOwnEid s rx.hdr.dst || malformed rx.hdr || rx.hdr.mcast then s
      else if !networkTurn s rx r then keepFresh rx r s
      else acceptRequest rx t (crossed rx r s) (fun pair s =>
        if rx.hdr.barrier then takeArrival rx t pair s else takeSignal rx r pair s))

/-- FBAR_ARRIVAL (R321): a unicast SIGNAL with the BARRIER flag reaches this node. -/
def execFbarArrival (rx : RxPkt) (s : State) : Host.Outcome State Fault Refusal :=
  let rx := { rx with hdr := { rx.hdr with code := 0x0A, barrier := true } }
  .next (match ingress rx s with
    | .stops s => s
    | .goes rx r s =>
      let t := r.tenant
      if !isOwnEid s rx.hdr.dst || malformed rx.hdr || rx.hdr.mcast then s
      else acceptRequest rx t s (takeArrival rx t))

/-! ### Walks that end (R166, R171, R174) -/

/-- Give a walk's outcome to one that waits for it. -/
def wakeWaiter (w : Walk) (r : Walked) (x : Waiter) (s : State) : State :=
  match x, r with
  | .link rx a pair, r =>
    if rx.hdr.code = 6 || rx.hdr.code = 7 then releaseWalked rx a r s
    else match r with
      | .leaf y _ => homeRequest rx a (leafPpa y (rx.hdr.addr % 2 ^ 57)) pair s
      | .fault c l e => linkFault rx a.tenant pair c l e s
      | .wait => s
  | .engine core k, .leaf y _ => match ctxOf s core k with
    | some c => putCtx core k (some { c with phase := .running, trans := c.trans ++ [y] }) s
    | none => s
  | .engine core k, .fault cause l e => match ctxOf s core k with
    | some c => putCtx core k (some { c with phase := .running, walkFaults := c.walkFaults ++ [(w.tva, l, e, cause, w.access)] }) s
    | none => s
  | _, .wait => s

/-- TABLE_WALK_COMPLETE (R166, R171, R174): the walk ends with a translation, entered in the caches unless INVALIDATE
was taken meanwhile, or with a fault; it waits on while a table line must come from its owner. -/
def execTableWalkComplete (quadrant tenant tva : Nat) (s : State) : Host.Outcome State Fault Refusal :=
  match s.xlat.walks.find? (fun w => w.quadrant == quadrant && w.tenant == tenant && w.tva / 4096 == tva / 4096) with
  | none => .next s
  | some w =>
    if frozen s then .next s
    else
      let (r, s) := walkFor true quadrant tenant w.tva (w.access != 0) s
      match r with
      | .wait => .next s
      | r =>
        let s := clearGathered tenant { s with xlat.walks := s.xlat.walks.erase w }
        let s := match r with
          | .leaf x p => if w.noFill then s else fillWalk x p s
          | _ => s
        .next (w.waiters.foldl (fun s x => wakeWaiter w r x s) s)

end Sys2Proof.Machine
end

