-- ==== Sys2Proof/Machine/Swap.lean ====
section
/-! DEFINITION. Page swaps (R188 to R193): the commands, the swap unit's pool accesses, frames and timers. -/
namespace Sys2Proof.Machine

/-! ### Pool accesses of the swap unit (R189, R190, R192) -/

/-- Put one pool request of the swap unit to its home: `n` chunks from chunk `c`, written from `data` or read. -/
def swapAccess (id c n : Nat) (data : Option (List Line)) (s : State) : State :=
  match transferOf s id with
  | none => s
  | some t =>
    let ppa := chunkPpa t c
    match refusedAt s t.tenant ppa (8 * n) data.isSome with
    | some (st, counted) =>
      let s := if counted then countDenied t.tenant s else s
      let s := if st = stREVOKED then countRevoked (lineOfPpa ppa) s else s
      endTransfer id st (countStatus t.tenant st s)
    | none =>
      let tr := s.coh.nextTracker
      let line := lineOfPpa ppa
      let h : PktHdr := { code := if data.isSome then 0x04 else 0x01, tag := c, lines := 8 * n, addr := ppa }
      let k : Tracker := { id := tr, who := .swap id, hdr := h, tenant := t.tenant, quadrant := lineQuadrant line,
                           p1 := false, remaining := 8 * n, firstLine := line }
      let op := fun (i : Nat) => match data with
        | some ls => LineOp.write (ls.getD i 0)
        | none => .read
      (List.range (8 * n)).foldl (fun s i => placeJob { tracker := tr, line := line + i, op := op i } s)
        { s with coh.trackers := s.coh.trackers ++ [k], coh.nextTracker := tr + 1 }

/-- A pool request of the swap unit for a chunk is under way. -/
def chunkBusy (s : State) (id c : Nat) : Bool :=
  s.coh.trackers.any (fun k => k.who == .swap id && k.hdr.tag ≤ c && c < k.hdr.tag + k.hdr.lines / 8)

/-- PAGE_IN's reads for its link, while the window leaves room for their writes. -/
def pumpIn : Nat → Nat → State → State
  | 0, _, s => s
  | n + 1, id, s => match transferOf s id with
    | some t =>
      let reading := s.coh.trackers.countP (fun k => k.who == .swap id)
      if !t.isOut && !t.ethernet && t.sent < chunksOf t && !frozen s &&
          reading < requestRoom s (transferQuadrant t) (t.fabric / 2 ^ 52) then
        pumpIn n id (swapAccess id t.sent 4 none (modTransfer id (fun x => { x with sent := x.sent + 4 }) s))
      else s
    | none => s

/-- Send or resend the given chunks of a PAGE_IN over Ethernet: each is read from the pool and sent as TYPE 1. -/
def sendChunks (id : Nat) (cs : List Nat) (s : State) : State :=
  cs.foldl (fun s c => if chunkBusy s id c then s else swapAccess id c 1 none s) s

/-- Walk the page (R189) and begin to move data. -/
def startTransfer (id : Nat) (s : State) : State :=
  match transferOf s id with
  | none => s
  | some t =>
    let size := 1024 * chunksOf t
    match walkRange t.tenant (t.tva + size) t.isOut (size / 4096 + 1) t.tva [] s with
    | (.fault tva cause level entry, s) =>
      let r : FaultRec := { id := 0, cause := cause, source := 2, access := b2n t.isOut, level := level,
                            tva := tva / 4096 * 4096, fmt := fmt s, entry := entry, originSeq := t.seq,
                            originSession := t.session }
      endTransfer id stFAULT (postFault t.tenant r s)
    | (.leaves ls, s) =>
      let ppas := (List.range (size / 4096)).map (fun i =>
        let a := t.tva + 4096 * i
        ((ls.find? (fun x => x.base ≤ a && a < x.base + x.size)).map (fun x => leafPpa x a)).getD 0)
      let s := modTransfer id (fun x => { x with ppas := ppas, lastVerified := plmc s, lastNew := plmc s }) s
      if t.ethernet then (if t.isOut then s else sendChunks id (List.range (chunksOf t)) s)
      else if t.isOut then pumpOut (chunksOf t) id s else pumpIn (chunksOf t) id s

/-! ### The commands (R188) -/

/-- PAGE_OUT and PAGE_IN: acceptance, and COMMAND_DONE later. -/
def pageSwap (op : Nat) (c : Cmd) (s : State) : State :=
  let ps := c.params
  let isOut := op = 0x306
  let size := b2n (pbit ps 8 0)
  let bytes := if size = 0 then 0x10000 else 0x200000
  let tva := pnum ps 0 8 % 2 ^ 57 / bytes * bytes
  let eth := pbit ps 9 0
  let sig := pbit ps 9 1
  let knot := pnum ps 10 2
  let udp := max 1 (pnum ps 12 2)
  let fab := pnum ps 16 8 / bytes * bytes
  let cookie := pnum ps 24 8
  let echo := le 8 tva ++ le 1 size ++ le 1 (pbits ps 9 0 2) ++ le 2 knot ++ le 2 udp ++ zeros 2 ++ le 8 fab ++ le 8 cookie
  let id := s.xlat.nextTransfer
  let walkEnd := tva + bytes
  whenTables c.tenant (rangeWaits c.tenant walkEnd isOut (bytes / 4096 + 1) tva s) (fun s =>
    let s := kcpNow op c echo (fun s =>
      let path := ((sessionOf s c.session).map (·.path)).getD (.link 0 0)
      let onLink := match path with
        | .link _ _ => true
        | .eth _ _ _ _ => false
      if (!eth && eidTenant s (fab / 2 ^ 52) != some c.tenant) || (sig && knotTenant s knot != some c.tenant) ||
         (eth && onLink) then (stDENIED, zeros 8, s)
      else if 64 ≤ s.xlat.transfers.countP (fun t => t.tenant == c.tenant) then (stBUSY, zeros 8, s)
      else
        let t : Transfer := { id := id, session := c.session, seq := c.seq, tenant := c.tenant, isOut := isOut, tva := tva,
                              size := size, ethernet := eth, path := path, signal := sig, knot := knot, hostUdp := udp,
                              fabric := fab, cookie := cookie, ppas := [] }
        (stOK, le 4 (id % 2 ^ 32) ++ zeros 4,
          { s with xlat.transfers := s.xlat.transfers ++ [t], xlat.nextTransfer := id + 1 })) s
    if s.xlat.nextTransfer = id then s else startTransfer id s) s

/-- PAGE_OUT (R188 to R192): host or accelerator memory to the pool. -/
def execPageOut (c : Cmd) (s : State) : Host.Outcome State Fault Refusal := .next (pageSwap 0x306 c s)

/-- PAGE_IN (R188 to R192): the pool to host or accelerator memory. -/
def execPageIn (c : Cmd) (s : State) : Host.Outcome State Fault Refusal := .next (pageSwap 0x307 c s)

/-! ### Answers over the link (R190) -/

/-- The transfer and chunk of an outstanding request with a tag. -/
def swapRequest (s : State) (eid tag : Nat) : Option (Nat × Nat) :=
  s.xlat.transfers.findSome? (fun t => if t.fabric / 2 ^ 52 = eid then
    (t.outstanding.find? (fun o => o.1 == tag)).map (fun o => (t.id, o.2)) else none)

/-- An answer to a transfer's request: data to be written to the pool, or a write acknowledged. -/
def swapAnswer (id c tag : Nat) (h : PktHdr) (payload : List Line) (s : State) : State :=
  match transferOf s id with
  | none => s
  | some t =>
    let s := modTransfer id (fun x => { x with outstanding := x.outstanding.filter (fun o => o.1 != tag) }) s
    if h.code = 0x41 && t.isOut then swapAccess id c 4 (some payload) s
    else if h.status = stNOT_DONE || h.status = stLOST_UNKNOWN then endTransfer id (lostTransfer t) s
    else if h.status != stOK then endTransfer id h.status s
    else chunksDone id [c, c + 1, c + 2, c + 3] s

/-- Transfers that wait for a window issue again (R190, R391). -/
def pumpTransfers (s : State) : State :=
  (s.xlat.transfers.filter (fun t => !t.ethernet)).foldl (fun s t =>
    if t.ppas = [] then s else if t.isOut then pumpOut (chunksOf t) t.id s else pumpIn (chunksOf t) t.id s) s

/-! ### Frames (R191, R192) -/

/-- The bitmap of chunks held. -/
def heldBitmap (t : Transfer) : List Byte := le 256 (t.done.foldl (fun a c => a ||| 2 ^ c) 0)

/-- A verified frame of a transfer. -/
def swapFrameIn (t : Transfer) (f : SwapFrm) (s : State) : State :=
  let s := modTransfer t.id (fun x => { x with lastVerified := plmc s }) s
  match f.type with
  | 0 =>
    if t.isOut && f.chunk < chunksOf t && !t.done.contains f.chunk && !chunkBusy s t.id f.chunk && t.ppas != [] then
      swapAccess t.id f.chunk 1 (some ((List.range 8).map (fun i => lineOf ((f.data.drop (128 * i)).take 128)))) s
    else s
  | 2 =>
    if t.isOut then s
    else
      let held := ofLe (f.data.take 256)
      let all := List.range (chunksOf t)
      let s := chunksDone t.id (all.filter (bit held)) s
      let s := modTransfer t.id (fun x => { x with acked := all.filter (bit held), lastNew := plmc s }) s
      if all.all (bit held) then endTransfer t.id stOK s else sendChunks t.id (all.filter (fun c => !bit held c)) s
  | 3 => if t.isOut then swapFrameOut t 0 2 (heldBitmap t) s else s
  | _ => s

/-- The general receive queue takes a frame for page swaps (R89, R91): a sound datagram to one of the port's addresses
and to KCP_UDP_PORT + 1, with any priority. -/
def swapSorted (s : State) (i : EthInfo) : Bool :=
  ethUp s i.port && frameSound i && addressed s i && i.dstUdp = kcpUdpPort s i.port + 1

/-- SWAP_FRAME (R191, R192, R506): a frame with a failed tag is counted, a frame during a global stop is discarded. -/
def execSwapFrame (i : EthInfo) (f : SwapFrm) (s : State) : Host.Outcome State Fault Refusal :=
  if !serving s || !swapSorted s i then .next s
  else if stopped s then .next (bumpDev 6 1 s)
  else if s.err.fatal then .next s
  else match sessionOf s f.session with
    | none => .next (ethCount (.eth i.port i.mac 0 0) 0 16 s)
    | some ss =>
      if f.tag != hmacSm3 ss.tagKey (swapBytes f) then .next (ethCount (.eth i.port i.mac 0 0) 0 16 s)
      else match s.xlat.transfers.find? (fun t => t.session == f.session && t.id % 2 ^ 32 == f.transfer && t.ethernet) with
        | none => .next s
        | some t => .next (settleHome (swapFrameIn t f s))

/-- Marks between bitmaps or resends (R192). -/
abbrev swapResendMarks : Nat := 256

/-- SWAP_RESEND_TIMER (R192): PAGE_OUT answers 256 marks without a new chunk with a bitmap; PAGE_IN without a bitmap
resends the highest-numbered chunk that the last one lacked. -/
def execSwapResendTimer (transfer : Nat) (s : State) : Host.Outcome State Fault Refusal :=
  match transferOf s transfer with
  | none => .next s
  | some t =>
    if !t.ethernet || frozen s || plmc s < t.lastNew + swapResendMarks then .next s
    else
      let s := modTransfer transfer (fun x => { x with lastNew := plmc s }) s
      if t.isOut then .next (swapFrameOut t 0 2 (heldBitmap t) s)
      else .next (match (List.range (chunksOf t)).reverse.find? (fun c => !t.acked.contains c) with
        | some c => sendChunks transfer [c] s
        | none => s)

/-- SWAP_TRANSFER_TIMEOUT (R193): one watch without a verified frame. -/
def execSwapTransferTimeout (transfer : Nat) (s : State) : Host.Outcome State Fault Refusal :=
  match transferOf s transfer with
  | none => .next s
  | some t => if t.ethernet && t.lastVerified + watch ≤ plmc s then .next (endTransfer transfer (lostTransfer t) s) else .next s

end Sys2Proof.Machine
end

