-- ==== Sys2Proof/Machine/Engine.lean ====
section
/-! DEFINITION. Stages on engine cores (R230 to R301): how a stage starts, what a tile reads, what the arithmetic unit
computes, what is written, and how a stage ends. -/
namespace Sys2Proof.Machine

/-! ### The stage of a context -/

/-- The program that a SCAN stage names. -/
def stageProgram (s : State) (x : Ctx) (d : Line) : Option Program :=
  if dOp d = 5 && scanFilter d then tget none s.eng.programs (storeKey x.share.tenant (scanProgram d)) else none

def rowBytesOf (s : State) (x : Ctx) (d : Line) : Nat := ((stageProgram s x d).map (·.rowBytes)).getD 0

/-- Stages of SCAN before a MERGE: its descriptor. -/
def prevStage (x : Ctx) : Line := x.share.stages.getD (x.stage - 1) 0

/-- First item and number of items of the context's share (R270); MERGE takes one query at a time (R298), and a scalar with an
empty share one turn. -/
def myItems (x : Ctx) (d : Line) : Nat × Nat :=
  let r := shareItems d x.share.index x.share.size
  if dOp d = 6 then (0, scanBatch (prevStage x)) else if isScalar d && r.2 = 0 then (r.1, 1) else r

/-! ### Operands of a tile (R248, R268, R285) -/

/-- One operand of a tile: address kind, and its lines with the first item of the tile that each concerns. -/
structure Operand where
  kind : Nat
  write : Bool
  lines : List (Nat × Nat)

/-- Lines of a byte range; `item` tells the item of a byte position. -/
def span (a n : Nat) (item : Nat → Nat) : List (Nat × Nat) :=
  let l0 := a / 128
  if n = 0 then [] else
  (List.range ((a + n - 1) / 128 + 1 - l0)).map (fun i => (128 * (l0 + i), item (128 * (l0 + i) - a)))

def operand (kind : Nat) (write : Bool) (a n : Nat) (item : Nat → Nat) : Operand :=
  { kind := kind, write := write, lines := span a n item }

/-- An operand of elements of a format: `len` elements from element `e`. -/
def elemOperand (kind : Nat) (write : Bool) (base f e len : Nat) : Operand :=
  let w := elemBits f
  let a := e * w / 8
  operand kind write (base + a) ((e + len) * w / 8 + b2n ((e + len) * w % 8 != 0) - a) (fun p => p * 8 / w)

/-- Region of a core's lists (R285): address and bytes for `n` queries from query `j`. -/
def listRegion (d : Line) (i j n : Nat) : Nat × Nat :=
  (dW d 56 + (i * scanBatch d + j) * 8 * scanK d, n * 8 * scanK d)

/-- Queries of the context's present pass. -/
def passOf (s : State) (core : Nat) (x : Ctx) (d : Line) : Nat × Nat :=
  passQueries (scanBatch d) (scanPasses d (rowBytesOf s x d) (partitionOf s core)) x.pass

/-- Lines that stay in scratch for the whole stage or pass: FILL's pattern, a SCAN's queries and parameters. -/
def fixedOperands (s : State) (core : Nat) (x : Ctx) (d : Line) : List Operand :=
  match dOp d with
  | 1 => if bit (lineNat d 40 1) 1 then [] else [operand 0 false (dW d 32) 128 (fun _ => 0)]
  | 5 =>
    let (j, n) := passOf s core x d
    operand 0 false (dW d 40 + j * queryBytes d) (n * queryBytes d) (fun _ => 0) ::
    (if scanFilter d then [operand 0 false (dW d 48) (32 * scanBatch d) (fun _ => 0)] else [])
  | _ => []

/-- Operands of the tile of `len` items from item `e` of the stage's stream, destination first; `last` holds for the
share's last tile. A MERGE reads a query's list from the core's region of the list area where scratch holds it no more (R298), and
beside it those that its children have written in theirs, where it has merged them before (log entry 179). -/
def tileOperands (s : State) (core : Nat) (x : Ctx) (d : Line) (e len : Nat) (last : Bool) : List Operand :=
  match dOp d with
  | 1 => [operand (lineNat d 40 1 % 2) true (dW d 16 + e) len id]
  | 2 => [operand (lineNat d 40 1 % 2) true (dW d 16 + e) len id, operand (lineNat d 40 1 / 2 % 2) false (dW d 24 + e) len id]
  | 3 =>
    let k := lineNat d 49 1
    [operand 0 true (dW d 16 + e / 8) ((len + 7) / 8) (fun p => 8 * p),
     elemOperand (k % 2) false (dW d 24) (dIn d) e len, elemOperand (k / 2 % 2) false (dW d 32) (dIn d) e len]
  | 4 =>
    let k := lineNat d 49 1 / 8 % 2
    let n := (shareItems d x.share.index x.share.size).2
    (if isScalar d then (if last then [operand 0 true (dW d 16 + 4 * x.share.index) 4 (fun _ => 0)] else [])
     else [elemOperand 0 true (dW d 16) (dOut d) e len] ++
       (if isMx (dOut d) then [operand 0 true (dW d 56 + e / 32) (len / 32) (fun p => 32 * p)] else [])) ++
    (if n = 0 then [] else (List.range (lineNat d 48 1)).map (fun i =>
      elemOperand k false (sourceAddr d i) (dIn d) e len))
  | 5 =>
    let f := dIn d
    let dims := scanDims d
    let vs := List.range len
    let (j, n) := passOf s core x d
    let r := listRegion d x.share.index j n
    (if last then [operand 0 true r.1 r.2 (fun _ => 0)] else []) ++
    vs.map (fun i => operand 0 false (dW d 16 + (e + i) * scanStride d) (bytesOf f dims) (fun _ => i)) ++
    (if scanFilter d then
      let rb := rowBytesOf s x d
      vs.map (fun i => operand 0 false (dW d 24 + (e + i) * rb) rb (fun _ => i)) else []) ++
    (if isMx f then vs.map (fun i => operand 0 false (dW d 32 + (e + i) * (dims / 32)) (dims / 32) (fun _ => i)) else [])
  | 6 =>
    let p := prevStage x
    let r := listRegion p x.share.index 0 (scanBatch p)
    let from' := if (x.lists.getD e none).isSome then [] else (x.share.index :: x.arrived).map (fun i =>
      operand 0 false (listRegion p i e 1).1 (listRegion p i e 1).2 (fun _ => 0))
    (if last then operand 0 true r.1 r.2 (fun _ => 0) :: (if x.share.index = 0 then
      [operand (lineNat d 26 1 % 2) true (dW d 16) (scanBatch p * 8 * lineNat d 24 2) (fun _ => 0)] else []) else []) ++ from'
  | _ => [operand 0 false (dW d 24 + e) len id]

/-- Items that a cut leaves in front of it: a block of an MX destination is written whole or not at all. DESIGN CHOICE (log
entry 172). -/
def wholeBlocks (d : Line) (n : Nat) : Nat := if dOp d = 4 && isMx (reduceOut d) then n / 32 * 32 else n

/-- Bytes of the primary stream in front of an item of the tile (R248). -/
def itemBytes (d : Line) (n : Nat) : Nat :=
  match dOp d with
  | 3 => bytesOf (dIn d) n
  | 4 => bytesOf (reduceOut d) n
  | 5 => n * vecBytes (dIn d) (scanDims d)
  | 6 => 0
  | _ => n

/-! ### Translation of a context's lines (R171, R174, R268) -/

/-- What a line of an operand meets. -/
inductive Access where
  | pool (ppa : Nat)
  | endpoint (eid : Nat)
  | fault (level entry cause : Nat)
  | miss

/-- Where a line lies: the pool through a translation of the context or of its quadrant's cache, the pool by PPA, or an
endpoint. -/
def accessOfLine (s : State) (core : Nat) (x : Ctx) (kind addr : Nat) (write : Bool) : Access :=
  if kind = 1 then
    if isOwnEid s (addr / 2 ^ 52) then .pool (addr % 2 ^ 41) else .endpoint (addr / 2 ^ 52)
  else
    let t := x.share.tenant
    let q := coreQuadrant core
    match x.trans.find? (fun y => y.base ≤ addr && addr < y.base + y.size && (!write || y.writable)) with
    | some y => .pool (leafPpa y addr)
    | none => match cachedLeaf s q t addr write with
      | some y => .pool (leafPpa y addr)
      | none => match x.walkFaults.find? (fun w => w.1 == addr / 4096 * 4096 && ((w.2.2.2.2 != 0) == write)) with
        | some w => .fault w.2.1 w.2.2.1 w.2.2.2.1
        | none => .miss

/-- The translation of a page, kept for the tile in work. -/
def keepTrans (s : State) (core : Nat) (x : Ctx) (pages : List (Nat × Bool)) : Ctx :=
  pages.foldl (fun x p => match cachedLeaf s (coreQuadrant core) x.share.tenant p.1 p.2 with
    | some y => if x.trans.contains y then x else { x with trans := x.trans ++ [y] }
    | none => x) x

/-- Kind-0 pages of some operands. -/
def pagesOf (l : List Operand) : List (Nat × Bool) :=
  (l.flatMap (fun o => if o.kind = 0 then o.lines.map (fun p => (p.1 / 4096 * 4096, o.write)) else [])).dedup

/-! ### Reads (R230, R245, R268, R392) -/

/-- A context's access failed on a link to an endpoint (R272). -/
def lostStage (x : Ctx) : Nat := if x.issued then stLOST_UNKNOWN else stNOT_DONE

/-- One pool access of a context: its tracker and job. -/
def engineAccess (core k : Nat) (t ppa key code : Nat) (op : LineOp) (s : State) : State :=
  let id := s.coh.nextTracker
  let line := lineOfPpa ppa
  let h : PktHdr := { code := code, tag := key, lines := 1, addr := ppa }
  let tr : Tracker := { id := id, who := .engine core k, hdr := h, tenant := t, quadrant := lineQuadrant line, p1 := false,
                        remaining := 1, firstLine := line }
  placeJob { tracker := id, line := line, op := op }
    { s with coh.trackers := s.coh.trackers ++ [tr], coh.nextTracker := id + 1 }

/-- A refused access of a context: counts, and the status its command ends with. -/
def refuseAccess (t ppa st : Nat) (counted : Bool) (s : State) : State :=
  let s := if counted then countDenied t s else s
  if st = stREVOKED then countRevoked (lineOfPpa ppa) s else s

/-- Reads a core has outstanding, and the limit of R230. -/
abbrev readLimit : Nat := 96
def coreReads (s : State) (core : Nat) : Nat :=
  (coreCtxs (tget {} s.eng.cores core)).foldl (fun n c => n + c.2.reads.length) 0

/-- Room in the windows toward an endpoint (R391, R392). -/
def roomFor (s : State) (core eid : Nat) : Nat := requestRoom s (coreQuadrant core) eid

/-- Wanted lines that one LOAD can ask for: at most 32 in one 4 KiB of the address (R268). -/
def loadRun : Nat → List EngRead → List EngRead
  | _, [] => []
  | n, r :: t =>
    match t with
    | u :: _ => if n = 0 then [] else if u.kind = 1 && u.addr = r.addr + 128 && u.addr / 4096 = r.addr / 4096 then
        r :: loadRun (n - 1) t else [r]
    | [] => if n = 0 then [] else [r]

/-- Issue a context's next wanted read; false where it has to wait. -/
def issueRead (core k : Nat) (s : State) : Bool × State :=
  match ctxOf s core k with
  | none => (false, s)
  | some x => match x.wanted with
    | [] => (false, s)
    | r :: rest =>
      if x.phase != .running || frozen s || readLimit ≤ coreReads s core then (false, s)
      else
        let t := x.share.tenant
        match accessOfLine s core x r.kind r.addr false with
        | .pool ppa =>
          match refusedAt s t ppa 1 false with
          | some (st, counted) =>
            if st = stPOISONED then
              (true, bump t 11 1 (putCtx core k (some (loadLine s core k r.kind r.addr 0 true { x with wanted := rest })) s))
            else (false, stopCtx core k st (refuseAccess t ppa st counted s))
          | none =>
            let s := putCtx core k (some { x with wanted := rest, reads := x.reads ++ [r] }) s
            (true, engineAccess core k t ppa (readKey r) 0x01 .read s)
        | .endpoint eid =>
          if roomFor s core eid = 0 then (false, s)
          else match routeOf s eid with
            | some p =>
              if portUp s p then
                let run := loadRun (min 32 (readLimit - coreReads s core)) x.wanted
                let (tag, s) := newTag s
                let s := putCtx core k (some { x with
                  wanted := x.wanted.drop run.length, reads := x.reads ++ run.map (fun r => { r with tag := some tag }) }) s
                (true, request (coreQuadrant core) eid { code := 0x01, atype := 1, tag := tag, addr := r.addr, lines := run.length } [] t s)
              else (false, engineFail core k (lostStage x) (putCtx core k (some { x with failEid := eid, failed := [eid] }) s))
            | none => (false, engineFail core k (lostStage x) (putCtx core k (some { x with failEid := eid, failed := [eid] }) s))
        | _ => (false, s)

/-- Issue reads of a core's contexts while any can be issued. -/
def pumpReads (core : Nat) : Nat → State → State
  | 0, s => s
  | n + 1, s =>
    let go := (coreCtxs (tget {} s.eng.cores core)).foldl (fun (a : Bool × State) c =>
      if a.1 then a else issueRead core c.1 a.2) (false, s)
    if go.1 then pumpReads core n go.2 else go.2

/-! ### Writes (R245, R268, R299, R300) -/

/-- Whether a write of a line is whole. -/
abbrev wholeMask : Nat := 2 ^ 128 - 1

/-- Issue a write of one line to the pool. -/
def poolWrite (core k addr : Nat) (kind : Nat) (data : Line) (mask bytes : Nat) (s : State) : State :=
  match ctxOf s core k with
  | none => s
  | some x =>
    match x.phase with
    | .stopping _ => s
    | _ =>
      match accessOfLine s core x kind addr true with
      | .pool ppa =>
        match refusedAt s x.share.tenant ppa 1 true with
        | some (st, counted) => stopCtx core k st (refuseAccess x.share.tenant ppa st counted s)
        | none =>
          let w : EngWrite := { kind := kind, addr := addr, data := data, mask := mask, bytes := bytes }
          let s := putCtx core k (some { x with writes := x.writes ++ [w], issued := true }) s
          if mask = wholeMask then engineAccess core k x.share.tenant ppa addr 0x04 (.write data) s
          else engineAccess core k x.share.tenant ppa addr 0x05 (.masked data mask) s
      | _ => engineFail core k stFAULT s

/-- Send one STORE of a context to an endpoint: whole lines of one 4 KiB, or one line under a mask. -/
def endpointWrite (core k eid addr : Nat) (lines : List Line) (mask : Nat) (s : State) : State :=
  match ctxOf s core k with
  | none => s
  | some x =>
    match x.phase, routeOf s eid with
    | .stopping _, _ => s
    | _, some p =>
      if portUp s p then
        let (tag, s) := newTag s
        let ws := lines.zipIdx.map (fun e => ({ kind := 1, addr := addr + 128 * e.2, data := e.1, mask := mask, bytes := 128,
                                                tag := some tag } : EngWrite))
        let s := putCtx core k (some { x with writes := x.writes ++ ws, issued := true }) s
        let h : PktHdr := { code := if mask = wholeMask then 0x04 else 0x05, atype := 1, tag := tag, addr := addr,
                            mask := if mask = wholeMask then 0 else mask }
        request (coreQuadrant core) eid h lines x.share.tenant s
      else engineFail core k (lostStage x) (putCtx core k (some { x with failEid := eid, failed := [eid] }) s)
    | _, none => engineFail core k (lostStage x) (putCtx core k (some { x with failEid := eid, failed := [eid] }) s)

/-- Whole lines from an address, cut at 4 KiB boundaries. -/
def runs4k : Nat → Nat → List Line → List (Nat × List Line)
  | 0, _, _ => []
  | n + 1, a, ls =>
    if ls = [] then [] else
    let k := (4096 - a % 4096) / 128
    (a, ls.take k) :: runs4k n (a + 128 * k) (ls.drop k)

/-- PROGRESS counts `n` destination bytes that a context has issued; a context that stopped at them issued none
(R245). -/
def progressed (core k n : Nat) (s : State) : State :=
  match ctxOf s core k with
  | none => s
  | some x =>
    match x.phase with
    | .stopping _ => s
    | _ => putCtx core k (some { x with progress := x.progress + n }) s

/-- Issue whole destination lines from an address, in ascending order; PROGRESS follows them (R245). -/
def issueLines (core k kind addr : Nat) (ls : List Line) (s : State) : State :=
  if kind = 1 && !isOwnEid s (addr / 2 ^ 52) then
    (runs4k (ls.length + 1) addr ls).foldl (fun s r =>
      progressed core k (128 * r.2.length) (endpointWrite core k (addr / 2 ^ 52) r.1 r.2 wholeMask s)) s
  else ls.zipIdx.foldl (fun s e =>
    progressed core k 128 (poolWrite core k (addr + 128 * e.2) kind e.1 wholeMask 128 s)) s

/-- Issue bytes at any address, whole lines whole and the rest under masks. -/
def issueBytes (core k kind addr : Nat) (bs : List Byte) (s : State) : State :=
  let l0 := addr / 128
  let pre := addr % 128
  if bs = [] then s else
  (List.range ((pre + bs.length + 127) / 128)).foldl (fun s i =>
    let lo := if i = 0 then pre else 0
    let hi := min 128 (pre + bs.length - 128 * i)
    let data := lineOf (zeros lo ++ (bs.drop (128 * i + lo - pre)).take (hi - lo))
    let mask := 2 ^ hi - 2 ^ lo
    let a := 128 * (l0 + i)
    if kind = 1 && !isOwnEid s (addr / 2 ^ 52) then endpointWrite core k (addr / 2 ^ 52) a [data] mask s
    else poolWrite core k a kind data mask (hi - lo) s) s

/-- Bytes of whole packets of at most 4 KiB that `room` packets from an address hold. -/
def roomBytes (room a : Nat) : Nat := if room = 0 then 0 else 4096 - a % 4096 + (room - 1) * 4096

/-- Send a multicast STORE of a STREAM and await its members' answers (R300, R388). -/
def streamPacket (core k g off : Nat) (ls : List Line) (s : State) : State :=
  match ctxOf s core k with
  | none => s
  | some x =>
    let (tag, s) := newTag s
    let n := (tget {} s.sw.groups g).members
    let w : EngWrite := { kind := 2, addr := off, data := 0, mask := wholeMask, bytes := 128 * ls.length, tag := some tag,
                          answers := n, ready := n = 0 }
    let s := putCtx core k (some { x with writes := x.writes ++ [w], issued := true }) s
    let m : McastPkt := { tag := tag, group := g, core := core, ctx := k, answers := n, lastCopyAt := plmc s }
    replicate g { code := 0x04, mcast := true, atype := 1, epoch := s.sw.active, group := g, tag := tag,
                       addr := off, granules := ls.length } ls x.share.tenant { s with sw.mcast := if n = 0 then s.sw.mcast else s.sw.mcast ++ [m] }

/-! ### Stage start (R268, R269, R277, R519) -/

/-- Kind-1 operands of a stage with their lengths, in descriptor order. -/
def fabricOperands (x : Ctx) (d : Line) : List (Nat × Nat) :=
  let pick := fun (k a n : Nat) => if k % 2 = 1 then [(a, n)] else []
  match dOp d with
  | 1 => pick (lineNat d 40 1) (dW d 16) (dW d 24)
  | 2 => pick (lineNat d 40 1) (dW d 16) (dW d 32) ++ pick (lineNat d 40 1 / 2) (dW d 24) (dW d 32)
  | 3 =>
    let n := bytesOf (dIn d) (dW d 40)
    pick (lineNat d 49 1) (dW d 24) n ++ pick (lineNat d 49 1 / 2) (dW d 32) n
  | 4 =>
    let n := bytesOf (dIn d) (dW d 40)
    if lineNat d 49 1 / 8 % 2 = 1 then (List.range (lineNat d 48 1)).map (fun i => (sourceAddr d i, n)) else []
  | 6 => pick (lineNat d 26 1) (dW d 16) (scanBatch (prevStage x) * 8 * lineNat d 24 2)
  | _ => []

/-- A COPY whose destination lies above its source but within it (R277). -/
def copyOverlaps (d : Line) : Bool :=
  let dk := lineNat d 40 1 % 2
  let sk := lineNat d 40 1 / 2 % 2
  dOp d = 2 && dk = sk && (dk = 0 || dW d 16 / 2 ^ 52 = dW d 24 / 2 ^ 52) && dW d 24 < dW d 16 &&
  dW d 16 < dW d 24 + dW d 32

/-- The checks at the start of a stage, its gate's included (R269, R313). -/
def stageOk (s : State) (core : Nat) (x : Ctx) (d : Line) : Bool :=
  let t := x.share.tenant
  (fabricOperands x d).all (fun o =>
    if isOwnEid s (o.1 / 2 ^ 52) then o.1 % 2 ^ 52 + o.2 ≤ 2 ^ 41 else eidTenant s (o.1 / 2 ^ 52) == some t) &&
  (!dSignal d || knotTenant s (dKnot d) == some t) &&
  (!(dOp d = 5 && scanFilter d) || (stageProgram s x d).isSome) &&
  (dOp d != 7 || groupTenant s (lineNat d 40 2) == some t) &&
  gateOwned s x && !copyOverlaps d &&
  (dOp d = 5 || dOp d = 6 || tileBytes d (partitionOf s core) != 0)

/-- The port of R519 for a stage. -/
def stagePort (s : State) (x : Ctx) (d : Line) : Nat :=
  if dOp d = 7 then
    ((List.range 96).find? (fun p => bit (tget {} s.sw.groups (lineNat d 40 2)).mask p)).getD 0x7F
  else match (fabricOperands x d).find? (fun o => !isOwnEid s (o.1 / 2 ^ 52)) with
    | some o => (routeOf s (o.1 / 2 ^ 52)).getD 0x7F
    | none => 0x7F

/-- Where a restarted stage resumes: first item and output bytes to drop (R187, R245). -/
def resumeAt (d : Line) (p : Nat) : Nat × Nat :=
  match dOp d with
  | 3 => (8 * p, 0)
  | 4 =>
    let e := p * 8 / elemBits (dOut d) / 32 * 32
    (e, p - bytesOf (dOut d) e)
  | _ => (p, 0)

/-- A stage's work from its first tile, or from the point where a restart left the share: what it has done with tiles is
forgotten, what it has issued and which members failed is not (R263, R272, R301). -/
def firstTile (x : Ctx) (d : Line) : Ctx :=
  let n := (myItems x d).2
  let p := if x.stage = x.share.startStage && !keepsPartial d then startPoint x.share else 0
  let (e, skip) := resumeAt d p
  { x with held := [], progress := p, tileOff := min e n, skip := skip, tilesDone := decide (n ≤ e), res0 := 0,
           res1 := if dOp d = 3 then 0xFFFFFFFF else 0,
           lists := if dOp d = 5 then List.replicate (scanBatch d) (some []) else x.lists, pass := 0, passMark := (0, 0),
           tileLen := 0, aheadLen := 0, spent := 0, wanted := [], reads := [], lines := [], carry := [], accum := none }

/-- A stage starts: it is checked, and takes up its share, or the point where a restart left it. DESIGN CHOICE (log entry 170): a
stage that is DENIED at its start reports PROGRESS 0, as R250 and R269 say, also where a RESTART had issued bytes before. -/
def stageStart (core k : Nat) (s : State) : State :=
  match ctxOf s core k with
  | none => s
  | some x =>
    if x.started || x.phase != .running then s
    else
      let d := stageLine x
      if !stageOk s core x d then stopCtx core k stDENIED (putCtx core k (some { x with progress := 0 }) s)
      else
        let port := if x.port = 0x7F then stagePort s x d else x.port
        let flits := if x.port = 0x7F && port != x.portHint then portFlits s port x.share.tenant else x.flits0
        putCtx core k (some { firstTile x d with started := true, ran := some x.stage, issued := false, port := port,
                                                 flits0 := flits, arrived := [], failed := [], failEid := 0xFFFF, missing := 0,
                                                 failStatus := 0 }) s

/-! ### Tiles (R184, R248, R268) -/

/-- Where a tile is cut short: item, and the fault or the refusal there. -/
structure Cut where
  item : Nat
  status : Nat
  counted : Bool
  ppa : Nat
  fault : Option FaultRec

/-- The first cut of one operand. -/
def operandCut (s : State) (core : Nat) (x : Ctx) (o : Operand) : Option Cut :=
  o.lines.findSome? (fun l => match accessOfLine s core x o.kind l.1 o.write with
    | .fault level entry cause =>
      let r : FaultRec := { id := 0, cause := cause, source := 0, access := b2n o.write, level := level,
                            tva := l.1 / 4096 * 4096, fmt := fmt s, entry := entry, core := core, ctx := 0 }
      some { item := l.2, status := stFAULT, counted := false, ppa := 0, fault := some r }
    | .pool ppa => match refusedAt s x.share.tenant ppa 1 o.write with
      | some (st, counted) =>
        if st = stPOISONED && !o.write then none
        else some { item := l.2, status := st, counted := counted, ppa := ppa, fault := none }
      | none => none
    | _ => none)

/-- The lowest cut; among equals a fault comes first, then the earlier operand (R184). -/
def lowestCut : List Cut → Option Cut
  | [] => none
  | c :: t => match lowestCut t with
    | none => some c
    | some b => if b.item < c.item || (b.item = c.item && b.fault.isSome && c.fault.isNone) then some b else some c

/-- PROGRESS once the items before a cut have been committed. -/
def progressAfter (x : Ctx) (d : Line) (n : Nat) : Nat :=
  match dOp d with
  | 3 => x.progress + (x.carry.length + n / 8) / 128 * 128
  | 4 => x.progress + (x.carry.length + bytesOf (dOut d) n - x.skip) / 128 * 128
  | _ => x.progress + n

/-- Lines that the sources of a tile of `len` items want up to item `n`, and that are neither in scratch nor on their way. -/
def unread (x : Ctx) (srcs : List Operand) (n len : Nat) : List EngRead :=
  let known := fun (kind a : Nat) => x.lines.any (fun l => l.kind == kind && l.addr == a) ||
    (x.wanted ++ x.reads).any (fun l => l.kind == kind && l.addr == a)
  ((srcs.flatMap (fun o => (o.lines.filter (fun l => l.2 < n || n = len)).map (fun l => (o.kind, l.1)))).dedup.filter
    (fun l => !known l.1 l.2)).map (fun l => ({ kind := l.1, addr := l.2 } : EngRead))

/-- The kind under which scratch holds the lines of a filter program's image (R249, R263). -/
abbrev programKind : Nat := 2

/-- A SCAN's filter program is in scratch with its checks: loaded from the program store where it is not (R262, R263). -/
def loadProgram (s : State) (core k : Nat) (x : Ctx) (d : Line) : Ctx :=
  match stageProgram s x d with
  | none => x
  | some p =>
    if x.lines.any (fun l => l.kind == programKind) then x
    else (linesOf (p.words.flatMap (le 4))).zipIdx.foldl (fun x l => loadLine s core k programKind (128 * l.2) l.1 false x) x

/-- Take up a tile whose pages are all resolved: reads are wanted up to the cut; a fault is posted, a refusal noted. -/
def takeTile (core k : Nat) (x : Ctx) (d : Line) (len : Nat) (srcs : List Operand) (cut : Option Cut) (s : State) :
    State :=
  let n := (cut.map (fun c => wholeBlocks d c.item)).getD len
  let x := loadProgram s core k x d
  let x := { x with tileLen := n, wanted := unread x srcs n len, split := none, stop := none }
  match cut with
  | none => pumpReads core 4096 (putCtx core k (some x) s)
  | some c => match c.fault with
    | none =>
      let s := refuseAccess x.share.tenant c.ppa c.status c.counted s
      if n = 0 then stopCtx core k c.status (putCtx core k (some { x with wanted := [] }) s)
      else pumpReads core 4096 (putCtx core k (some { x with stop := some c.status }) s)
    | some r =>
      if (rootOf s x.share.tenant).isNone then
        if n = 0 then stopCtx core k stFAULT (putCtx core k (some { x with wanted := [] }) s)
        else pumpReads core 4096 (putCtx core k (some { x with stop := some stFAULT }) s)
      else
        let o := x.share.origin
        let r := { r with ctx := k, tileOffset := itemBytes d n, originSeq := o.seq, originSession := o.session,
                          restart := restartDesc { x with progress := progressAfter x d n } }
        if n = 0 then engineFault x.share.tenant core k r (putCtx core k (some { x with wanted := [] }) s)
        else pumpReads core 4096 (engineFault x.share.tenant core k r (putCtx core k (some { x with split := some r }) s))

/-- The tile from item `off` of a context's share: its length and its operands. -/
def tileFrom (s : State) (core : Nat) (x : Ctx) (d : Line) (off : Nat) : Nat × List Operand :=
  let (e0, n) := myItems x d
  let len := min (max 1 (tileItems d (rowBytesOf s x d) (partitionOf s core) x.pass)) (n - off)
  (len, tileOperands s core x d (e0 + off) len (off + len = n) ++ fixedOperands s core x d)

/-- Pages of some operands that have no translation yet. -/
def missingPages (s : State) (core : Nat) (x : Ctx) (pages : List (Nat × Bool)) : List (Nat × Bool) :=
  pages.filter (fun p => match accessOfLine s core x 0 p.1 p.2 with
    | .miss => true
    | _ => false)

/-- The next tile is filled while one is in work, where two are held and nothing cuts either (R248; log entry 180). -/
def tileAhead (core k : Nat) (x : Ctx) (s : State) : State :=
  let d := stageLine x
  let off := x.tileOff + x.tileLen
  if x.aheadLen != 0 || x.stop.isSome || x.split.isSome || !holdsTwo d (partitionOf s core) || (myItems x d).2 ≤ off then s
  else
    let (len, ops) := tileFrom s core x d off
    let x := keepTrans s core x (pagesOf ops)
    if missingPages s core x (pagesOf ops) != [] || ops.any (fun o => (operandCut s core x o).isSome) then s
    else pumpReads core 4096 (putCtx core k (some { x with
      aheadLen := len, wanted := x.wanted ++ unread x (ops.filter (fun o => !o.write)) len len }) s)

/-- TILE_TRANSLATE (R171, R184, R248, R268): the sequencer sizes a context's next tile, translates its operands, splits it
where an operand faults, and issues its reads. -/
def tileTranslate (core k : Nat) (s : State) : State :=
  if frozen s then s else
  let s := stageStart core k s
  match ctxOf s core k with
  | none => s
  | some x =>
    if x.phase != .running || !x.started || x.tilesDone then s
    else if x.tileLen != 0 then tileAhead core k x s
    else
      let d := stageLine x
      let (len, ops) := tileFrom s core x d x.tileOff
      let x := keepTrans s core x (pagesOf ops)
      let missing := missingPages s core x (pagesOf ops)
      if missing != [] then
        missing.foldl (fun s p => waitForWalk (coreQuadrant core) x.share.tenant p.1 (b2n p.2) (.engine core k) s)
          (putCtx core k (some { x with phase := .walking }) s)
      else takeTile core k x d len (ops.filter (fun o => !o.write)) (lowestCut (ops.filterMap (operandCut s core x))) s

def execTileTranslate (core ctx : Nat) (s : State) : Host.Outcome State Fault Refusal :=
  .next (settleHome (tileTranslate core ctx s))

/-! ### Data in scratch -/

def lineAt (x : Ctx) (kind a : Nat) : Line := ((x.lines.find? (fun l => l.kind == kind && l.addr == a)).map (·.data)).getD 0

/-- `n` bytes at an address as a number. -/
def bytesAt (x : Ctx) (kind a n : Nat) : Nat :=
  let l0 := a / 128
  if n = 0 then 0 else
  let k := (a + n - 1) / 128 + 1 - l0
  (((List.range k).foldl (fun v i => v + (lineAt x kind (128 * (l0 + i))).toNat * 2 ^ (1024 * i)) 0) >>> (8 * (a % 128))) %
    2 ^ (8 * n)

/-- Arrival number of a line; sums are made in the order in which their lines arrived (R252, R282). -/
def arrival (x : Ctx) (kind a : Nat) : Nat := x.lines.findIdx (fun l => l.kind == kind && l.addr == a / 128 * 128)

/-- The first item with a poisoned line, among some operands. -/
def poisonItem (x : Ctx) (srcs : List Operand) : Option Nat :=
  (srcs.flatMap (fun o => o.lines.filterMap (fun l =>
    if x.lines.any (fun y => y.kind == o.kind && y.addr == l.1 && y.poison) then some l.2 else none))).min?

/-- Element `i` of packed elements, counted from element 0 of the stream. -/
def elemOf (x : Ctx) (kind base f i : Nat) : Nat :=
  let w := elemBits f
  let b := i * w / 8
  (bytesAt x kind (base + b) ((w + 7 + 8 * b2n (w = 6)) / 8) >>> (i * w - 8 * b)) % 2 ^ w

/-! ### COMPARE (R280) -/

def compareHolds (f mode a b : Nat) : Bool :=
  let x := elemVal f a
  let y := elemVal f b
  match mode with
  | 0 => a = b
  | 1 => a != b
  | 2 => x.lt y
  | 3 => !x.isNan && !y.isNan && !y.lt x
  | 4 => y.lt x
  | 5 => !x.isNan && !y.isNan && !x.lt y
  | _ => x.eq y

/-- Bits as bytes. -/
def packBits (l : List Bool) : List Byte :=
  le ((l.length + 7) / 8) (l.zipIdx.foldl (fun a e => if e.1 then a + 2 ^ e.2 else a) 0)

/-! ### REDUCE (R282, R283) -/

/-- Take a value into an accumulator: OP 0 SUM, 1 MIN, 2 MAX; counts saturations. -/
def reduceVal (int : Bool) (op : Nat) (a : Val × Nat) (v : Val) : Val × Nat :=
  match op with
  | 0 =>
    if int then
      let (r, o) := addInt32 a.1.toInt v.toInt
      (Val.ofInt r, a.2 + b2n o)
    else (round32 (Val.sum [a.1, v]), a.2)
  | 1 => if a.1.isNan || v.isNan then (.nan, a.2) else (if v.below a.1 then v else a.1, a.2)
  | _ => if a.1.isNan || v.isNan then (.nan, a.2) else (if a.1.below v then v else a.1, a.2)

/-- Reduce some values; the first enters as it is. -/
def reduceVals (int : Bool) (op : Nat) : List Val → Val × Nat
  | [] => (.fin false 0 0, 0)
  | v :: t => t.foldl (reduceVal int op) (v, 0)

/-- The value of element `j` over all sources, in the order in which the sources' lines arrived. -/
def reduceElem (x : Ctx) (d : Line) (j : Nat) : Val × Nat :=
  let kind := lineNat d 49 1 / 8 % 2
  let f := dIn d
  let srcs := (List.range (lineNat d 48 1)).map (sourceAddr d)
  let keyed := srcs.map (fun b => (arrival x kind (b + j * elemBits f / 8), elemVal f (elemOf x kind b f j)))
  reduceVals (isIntFmt f) (lineNat d 49 1 % 4) ((keyed.mergeSort (fun a b => a.1 ≤ b.1)).map (·.2))

/-- Draw one random value per element where STOCH is set. -/
def drawFor (stoch : Bool) : List Val → State → List (Val × Option Nat) × State
  | [], s => ([], s)
  | v :: t, s =>
    if stoch then
      let (r, s) := draw s
      let (l, s) := drawFor stoch t s
      ((v, some r) :: l, s)
    else
      let (l, s) := drawFor stoch t s
      ((v, none) :: l, s)

/-- Store reduced elements: destination bytes, scale bytes, NaN stored to an integer format. -/
def storeReduced (d : Line) (vs : List (Val × Option Nat)) : List Byte × List Byte × Nat :=
  let f := dOut d
  if isMx f then
    let bs := (groups32 vs).map (storeBlock f (dInf d))
    (bs.flatMap (fun b => packElems f b.2), bs.map (fun b => BitVec.ofNat 8 b.1), 0)
  else
    let es := vs.map (fun v => storeElem f (dInf d) v.2 v.1)
    (packElems f (es.map (·.1)), [], if isIntFmt f then es.countP (·.2) else 0)

/-- The identity of a scalar reduction (R283). -/
def reduceIdentity (int : Bool) (op : Nat) : Nat :=
  match op with
  | 0 => 0
  | 1 => if int then 0x7FFFFFFF else 0x7F800000
  | _ => if int then 0x80000000 else 0xFF800000

/-- An accumulator as a 32-bit pattern, and back. -/
def accBits (int : Bool) (v : Val) : Nat := if int then twos 32 v.toInt else bits32 v
def accVal (int : Bool) (b : Nat) : Val := if int then Val.ofInt (ofTwos 32 b) else fp32.decode b

/-! ### SCAN (R284 to R288) -/

/-- One item of a stream of vectors or queries: its groups of elements with their scales, in the order in which the
groups' lines arrived. -/
def vectorGroups (x : Ctx) (d : Line) (addr scales : Nat) : List (Nat × List Val × Option Int) :=
  let f := dIn d
  let dims := scanDims d
  let n := bytesAt x 0 addr (bytesOf f dims)
  let es := (List.range dims).map (fun i => elemVal f (elemAt f n i))
  (groups32 es).zipIdx.map (fun g =>
    let sc := if isMx f then scaleOf (bytesAt x 0 (scales + g.2) 1) else some 0
    (arrival x 0 (addr + 32 * g.2 * elemBits f / 8), g.1, sc))

/-- An accumulated sum of products as a 32-bit pattern, and how often it saturated. -/
def dotBits (int : Bool) (a b : List (Nat × List Val × Option Int)) : Nat × Nat :=
  let gs := ((List.zipWith (fun p q => (p.1, groupSum p.2.1 q.2.1 p.2.2 q.2.2)) a b).mergeSort (fun p q => p.1 ≤ q.1)).map (·.2)
  if int then
    let r := accumulateInt (gs.map Val.toInt)
    (twos 32 r.1, r.2)
  else (bits32 (accumulate gs), 0)

/-- The FP32 pattern of an accumulator of either kind. -/
def asFp32 (int : Bool) (b : Nat) : Nat := if int then bits32 (Val.ofInt (ofTwos 32 b)) else b

/-- The score of a query against a vector from the three sums (R286), and saturations. -/
def scoreOf (d : Line) (xx yy xy : Nat) : Nat × Nat :=
  let int := isIntFmt (dIn d)
  match scanMetric d with
  | 0 => (xy, 0)
  | 1 =>
    if int then
      let (a, o) := addInt32 (ofTwos 32 xx) (ofTwos 32 yy)
      let (b, p) := addInt32 a (-2 * ofTwos 32 xy)
      (twos 32 b, b2n o + b2n p)
    else
      let a := round32 (Val.sum [fp32.decode xx, fp32.decode yy])
      (bits32 (round32 (Val.sum [a, ((fp32.decode xy).scale 1).neg])), 0)
  | _ => (cosineOf (asFp32 int xx) (asFp32 int yy) (asFp32 int xy), 0)

/-- Scores are INT32 for integer formats, but COSINE's are FP32. -/
def scoreInt (d : Line) : Bool := isIntFmt (dIn d) && scanMetric d != 2
def scoreVal (d : Line) (b : Nat) : Val := accVal (scoreInt d) b

/-- The order of R287: best first, equal scores by ascending index. -/
def ranks (d : Line) (a b : Nat × Nat) : Bool :=
  let x := scoreVal d a.1
  let y := scoreVal d b.1
  if scanMetric d = 1 then x.lt y || (!y.lt x && a.2 < b.2) else y.lt x || (!x.lt y && a.2 < b.2)

/-- Enter an entry in a list of at most k. -/
def insertEntry (d : Line) (k : Nat) (e : Nat × Nat) (l : List (Nat × Nat)) : List (Nat × Nat) :=
  if (scoreVal d e.1).isNan || l.any (fun a => a.2 == e.2) then l
  else (l.takeWhile (fun a => ranks d a e) ++ e :: l.dropWhile (fun a => ranks d a e)).take k

/-- The sentinel of R287. -/
def sentinel (d : Line) : Nat × Nat :=
  (if scoreInt d then (if scanMetric d = 1 then 0x7FFFFFFF else 0x80000000)
   else if scanMetric d = 1 then 0x7F800000 else 0xFF800000, 0xFFFFFFFF)

/-- A list as bytes, completed with sentinels. -/
def listBytes (d : Line) (k : Nat) (l : List (Nat × Nat)) : List Byte :=
  (l.take k ++ List.replicate (k - l.length) (sentinel d)).flatMap (fun e => le 4 e.1 ++ le 4 e.2)

/-- A list from bytes, its sentinels left out. -/
def listOf (k : Nat) (n : Nat) : List (Nat × Nat) :=
  ((List.range k).map (fun i => (bits n (64 * i) 32, bits n (64 * i + 32) 32))).filter (fun e => e.2 != 0xFFFFFFFF)

/-- Parameter words of a query (R285). -/
def queryParams (x : Ctx) (d : Line) (j a : Nat) : Nat := bytesAt x 0 (dW d 48 + 32 * j + 4 * a) 4

/-- A program uses QPARAM. -/
def usesParams (p : Program) : Bool := p.words.any (fun w => opOf w = 0x05)

/-- Whether the vector of a row is accepted for a query. -/
def acceptsFor (s : State) (x : Ctx) (d : Line) (row : List Byte) (j : Nat) : Bool :=
  match stageProgram s x d with
  | some p => accepts p row (queryParams x d j)
  | none => !scanFilter d

/-- Score one vector against the queries of the pass; it is skipped where no query of the whole batch accepts it (R288), and counted
in the first pass. -/
def scanVector (s : State) (x : Ctx) (d : Line) (queries : List (Nat × Nat × List (Nat × List Val × Option Int)))
    (v : Nat) (x' : Ctx) : Ctx :=
  let dims := scanDims d
  let rb := rowBytesOf s x d
  let row := le rb (bytesAt x 0 (dW d 24 + v * rb) rb)
  let ok := fun (j : Nat) => acceptsFor s x d row j
  if !(List.range (scanBatch d)).any ok then x'
  else
    let int := isIntFmt (dIn d)
    let g := vectorGroups x d (dW d 16 + v * scanStride d) (dW d 32 + v * (dims / 32))
    let yy := if scanMetric d = 0 then (0, 0) else dotBits int g g
    let x' := { x' with macs := x'.macs + dims * (queries.length + b2n (scanMetric d != 0)),
                        saturations := x'.saturations + yy.2, res0 := if x.pass = 0 then min 0xFFFFFFFF (x'.res0 + 1) else x'.res0 }
    queries.foldl (fun x' q =>
      let xy := dotBits int g q.2.2
      let sc := scoreOf d q.2.1 yy.1 xy.1
      let x' := { x' with saturations := x'.saturations + xy.2 + sc.2 }
      if ok q.1 then
        { x' with lists := x'.lists.set q.1 (some (insertEntry d (scanK d) (sc.1, v) ((x'.lists.getD q.1 none).getD []))) }
      else x') x'

/-! ### One tile through the arithmetic unit -/

/-- The partial results that a context keeps in scratch between tiles (R263): lists, of a MERGE the list of the query that it works
on first (R298; log entry 133), an accumulator, bytes of a line not yet whole. -/
def partialBytes (x : Ctx) (d : Line) : List Byte :=
  let p := if dOp d = 6 then prevStage x else d
  ((if dOp d = 6 then x.lists.take 1 else x.lists).flatMap (fun l => match l with
    | some l => listBytes p (scanK p) l
    | none => [])) ++
  (match x.accum with
    | some b => le 4 b
    | none => []) ++ x.carry

/-- They are written with their checks. -/
def keepPartials (s : State) (core k : Nat) (x : Ctx) (d : Line) : Ctx :=
  { x with held := heldLines (ctxLog s core) k (partialBytes x d) }

/-- What a tile leaves behind: lines that stay for the whole stage or pass, and the tile that is being filled, which is now in
work. -/
def keepFixed (s : State) (core : Nat) (x : Ctx) (d : Line) : Ctx :=
  let ahead := if x.aheadLen = 0 then [] else tileOperands s core x d ((myItems x d).1 + x.tileOff) x.aheadLen false
  let keep := (fixedOperands s core x d ++ ahead).flatMap (fun o => o.lines.map (fun l => (o.kind, l.1)))
  { x with lines := x.lines.filter (fun l => l.kind = programKind || keep.contains (l.kind, l.addr)), tileLen := x.aheadLen,
           aheadLen := 0, trans := if x.aheadLen = 0 then [] else x.trans, walkFaults := [] }

/-- Issue what whole lines the carried bytes hold; the rest stays. -/
def flushLines (core k kind base : Nat) (s : State) : State :=
  match ctxOf s core k with
  | none => s
  | some x =>
    let n := x.carry.length / 128
    let ls := (List.range n).map (fun i => lineOf ((x.carry.drop (128 * i)).take 128))
    let a := base + x.progress
    issueLines core k kind a ls (putCtx core k (some { x with carry := x.carry.drop (128 * n) }) s)

/-- Append output bytes, dropping what a restart has already written. -/
def appendOut (x : Ctx) (bs : List Byte) : Ctx :=
  { x with carry := x.carry ++ bs.drop x.skip, skip := x.skip - bs.length }

/-- Compute `p` items from item `e` of the stage's stream and issue what they complete. DESIGN CHOICE (log entry 171): under
SKIP_POISON a poisoned scale line makes its vector poisoned, as a vector or an attribute line does. -/
def computeItems (core k : Nat) (x : Ctx) (d : Line) (e p : Nat) (last : Bool) (s : State) : State :=
  let r := shareItems d x.share.index x.share.size
  match dOp d with
  | 1 =>
    let period := 2 ^ lineNat d 41 1
    let pat := if bit (lineNat d 40 1) 1 then lineNat d 48 16 else (lineAt x 0 (dW d 32)).toNat
    let line := lineOf ((List.range 128).map (fun i => BitVec.ofNat 8 (bits pat (8 * (i % period)) 8)))
    issueLines core k (lineNat d 40 1 % 2) (dW d 16 + e) (List.replicate (p / 128) line) (putCtx core k (some x) s)
  | 2 =>
    let sk := lineNat d 40 1 / 2 % 2
    let ls := (List.range (p / 128)).map (fun i => lineAt x sk (dW d 24 + e + 128 * i))
    issueLines core k (lineNat d 40 1 % 2) (dW d 16 + e) ls (putCtx core k (some x) s)
  | 3 =>
    let kk := lineNat d 49 1
    let f := dIn d
    let hits := (List.range p).map (fun i => compareHolds f (lineNat d 48 1)
      (elemOf x (kk % 2) (dW d 24) f (e + i)) (elemOf x (kk / 2 % 2) (dW d 32) f (e + i)))
    let x := appendOut x (packBits hits)
    let x := { x with res0 := min 0xFFFFFFFF (x.res0 + hits.countP id),
                      res1 := if x.res1 = 0xFFFFFFFF then (match hits.findIdx? id with
                        | some i => min 0xFFFFFFFE (e + i)
                        | none => x.res1) else x.res1 }
    let x := if last then { x with carry := padTo ((x.carry.length + 127) / 128 * 128) x.carry } else x
    flushLines core k 0 (dW d 16 + r.1 / 8) (putCtx core k (some x) s)
  | 4 =>
    let int := isIntFmt (dIn d)
    let vs := if r.2 = 0 then [] else (List.range p).map (fun i => reduceElem x d (e + i))
    let sats := vs.foldl (fun n v => n + v.2) 0
    let op := lineNat d 49 1 % 4
    if isScalar d then
      let start := match x.accum with
        | some b => [accVal int b]
        | none => []
      let t := reduceVals int op (start ++ vs.map (·.1))
      let acc := if vs = [] then x.accum else some (accBits int t.1)
      let x := { x with accum := acc, saturations := x.saturations + sats + t.2 }
      let s := putCtx core k (some x) s
      if last then
        issueBytes core k 0 (dW d 16 + 4 * x.share.index) (le 4 (acc.getD (reduceIdentity int op))) s
      else s
    else
      let (vr, s) := drawFor (dStoch d) (vs.map (·.1)) s
      let (bs, scales, nans) := storeReduced d vr
      let x := appendOut { x with saturations := x.saturations + sats, nanToInt := x.nanToInt + nans } bs
      let base := dW d 16 + bytesOf (dOut d) r.1
      let s := flushLines core k 0 base (putCtx core k (some x) s)
      let s := issueBytes core k 0 (dW d 56 + e / 32) scales s
      if last then
        match ctxOf s core k with
        | some x => progressed core k x.carry.length (issueBytes core k 0 (base + x.progress) x.carry
            (putCtx core k (some { x with carry := [] }) s))
        | none => s
      else s
  | 5 =>
    let (j0, n) := passOf s core x d
    let int := isIntFmt (dIn d)
    let queries := (List.range n).map (fun i =>
      let a := dW d 40 + (j0 + i) * queryBytes d
      let g := vectorGroups x d a (a + bytesOf (dIn d) (scanDims d))
      (j0 + i, (if scanMetric d = 0 then 0 else (dotBits int g g).1), g))
    let ops := tileOperands s core x d e p false
    let bad := fun (i : Nat) => ops.any (fun o => o.lines.any (fun l => l.2 == i &&
      x.lines.any (fun y => y.kind == o.kind && y.addr == l.1 && y.poison)))
    let x' := (List.range p).foldl (fun y i =>
      if bad i then { y with res1 := if x.pass = 0 then min 0xFFFFFFFF (y.res1 + 1) else y.res1 }
      else scanVector s x d queries (e + i) y) x
    let s := bump x.share.tenant 13 (x'.macs - x.macs) (putCtx core k (some x') s)
    if last then
      let reg := listRegion d x.share.index j0 n
      issueBytes core k 0 reg.1 ((List.range n).flatMap (fun i => listBytes d (scanK d) ((x'.lists.getD (j0 + i) none).getD []))) s
    else s
  | 7 =>
    let ls := (List.range (p / 128)).map (fun i => lineAt x 0 (dW d 24 + e + 128 * i))
    let s := putCtx core k (some { x with progress := x.progress + p }) s
    (runs4k (ls.length + 1) (dW d 24 + e) ls).foldl (fun s q =>
      streamPacket core k (lineNat d 40 2) (dW d 16 + (q.1 - dW d 24)) q.2 s) s
  | _ => s

/-- Items of the tile that may be issued now: the windows of R392 may leave room for fewer. -/
def itemsAllowed (s : State) (core : Nat) (d : Line) (e n : Nat) : Nat :=
  let toEndpoint := fun (a : Nat) =>
    if isOwnEid s (a / 2 ^ 52) then n else min n (roomBytes (roomFor s core (a / 2 ^ 52)) (a + e))
  match dOp d with
  | 1 | 2 => if lineNat d 40 1 % 2 = 1 then toEndpoint (dW d 16) else n
  | 7 =>
    let used := s.sw.mcast.countP (fun m => m.group == lineNat d 40 2)
    min n (roomBytes (localWindow s - used) (dW d 24 + e))
  | _ => n

/-- The gang index of the cores of a MERGE: a core's lowest set bit names its round (R295). -/
def mergeRound : Nat → Nat → Nat
  | 0, _ => 0
  | n + 1, i => if i % 2 = 1 then 1 else 2 * mergeRound n (i / 2)

/-- The list of one query of a MERGE, from the regions that its tile has read (R298). -/
def queryList (x : Ctx) (j : Nat) : List (Nat × Nat) :=
  let p := prevStage x
  let read := fun (i : Nat) => listOf (scanK p) (bytesAt x 0 (listRegion p i j 1).1 (8 * scanK p))
  x.arrived.foldl (fun l i => (read i).foldl (fun l v => insertEntry p (scanK p) v l) l) (read x.share.index)

/-- A MERGE takes a query's own list, from scratch or from the list area; with the last one it waits for its children's lists
(R295, R298). -/
def enterMerge (core k : Nat) (x : Ctx) (s : State) : State :=
  let n := scanBatch (prevStage x)
  let j := x.tileOff
  let x := { x with lists := (List.range n).map (fun i => match x.lists.getD i none with
      | some l => some l
      | none => if i = j then some (queryList x j) else none) }
  let next := ((List.range n).find? (fun i => j < i && (x.lists.getD i none).isNone)).getD (n - 1)
  if j + 1 < n then
    putCtx core k (some { x with tileOff := next, tileLen := 0, lines := [], trans := [], walkFaults := [] }) s
  else
    let x := { x with phase := .merging 1, wanted := [], reads := [], lines := [] }
    putCtx core k (some (keepPartials s core k x (stageLine x))) s

/-- The tile in work has been through the arithmetic unit as far as its windows allow: what follows. -/
def afterTile (core k : Nat) (d : Line) (p : Nat) (bad : Bool) (s : State) : State :=
  match ctxOf s core k with
  | none => s
  | some x =>
    match x.phase with
    | .stopping _ => s
    | _ =>
      let n := (myItems x d).2
      let rest := x.tileLen - p
      let x := keepPartials s core k { x with tileOff := x.tileOff + p } d
      if bad then stopCtx core k stPOISONED (putCtx core k (some x) s)
      else if rest != 0 then putCtx core k (some { x with tileLen := rest }) s
      else
        let x := keepFixed s core x d
        match x.stop with
        | some st => stopCtx core k st (putCtx core k (some x) s)
        | none =>
          let x := { x with split := none }
          match s.xlat.openRecs.find? (fun o => o.waiting.contains (core, k)) with
          | some o => putCtx core k (some { x with phase := .fault (some o.record.id) }) s
          | none =>
            if s.xlat.waitingFaults.any (fun w => w.core == core && w.ctx == k) then
              putCtx core k (some { x with phase := .fault none }) s
            else if x.tileOff < n then putCtx core k (some x) s
            else if dOp d = 5 && x.pass + 1 < scanPasses d (rowBytesOf s x d) (partitionOf s core) then
              let (j, m) := passOf s core { x with pass := x.pass + 1 } d
              let lists := x.lists.zipIdx.map (fun e => if j ≤ e.2 && e.2 < j + m then some [] else none)
              putCtx core k (some { x with pass := x.pass + 1, tileOff := 0, lines := [], lists := lists,
                                           passMark := (x.res0, x.res1) }) s
            else putCtx core k (some { x with tilesDone := true }) s

/-- What the arithmetic unit can do in the 256 cycles of a slice, and what one item takes of it (R230, R236): in items, at 256
bytes of each operand a cycle, or in SCAN in MACs, 256 a cycle at 8-bit operands, 128 at 16-bit and 512 at 4-bit. -/
def sliceWork (s : State) (core : Nat) (x : Ctx) (d : Line) : Nat × Nat :=
  match dOp d with
  | 3 => (65536 * 8 / elemBits (dIn d), 1)
  | 4 => (65536 * 8 / max (elemBits (dIn d)) (elemBits (reduceOut d)) / 32 * 32, 1)
  | 5 =>
    let rate := match elemBits (dIn d) with
      | 4 => 512
      | 16 => 128
      | _ => 256
    (256 * rate, max 1 (scanDims d * ((passOf s core x d).2 + b2n (scanMetric d != 0))))
  | _ => (65536, 1)

/-- The lines of the tile in work are in scratch, whatever the next tile still waits for. -/
def tileHere (s : State) (core : Nat) (x : Ctx) : Bool :=
  let d := stageLine x
  (x.wanted = [] && x.reads = []) || (x.aheadLen != 0 &&
    ((tileOperands s core x d ((myItems x d).1 + x.tileOff) x.tileLen false ++ fixedOperands s core x d).filter
      (fun o => !o.write)).all (fun o => o.lines.all (fun l => x.lines.any (fun y => y.kind == o.kind && y.addr == l.1))))

/-- A context runs and the tile in work lies in scratch. -/
def tileReady (s : State) (core : Nat) (x : Ctx) : Bool :=
  x.phase == .running && x.started && x.tileLen != 0 && tileHere s core x

/-- The arithmetic unit works on a context's tile with what is left of a slice: what it leaves of that, and the state. A slice
that ends within a vector goes on there in the context's next one (R236, R271). -/
def serveTile (core k left : Nat) (x : Ctx) (s : State) : Nat × State :=
  let d := stageLine x
  let (e0, n) := myItems x d
  let e := e0 + x.tileOff
  let fixedBad := (poisonItem x (fixedOperands s core x d)).isSome
  let srcs := (tileOperands s core x d e x.tileLen false).filter (fun o => !o.write)
  let cut := if dOp d = 5 && scanSkip d then none else (poisonItem x srcs).map (wholeBlocks d)
  let good := if fixedBad then 0 else min x.tileLen (cut.getD x.tileLen)
  let cost := (sliceWork s core x d).2
  let able := (x.spent + left) / cost
  let p := min (itemsAllowed s core d e good) able
  if p = 0 && good != 0 then
    (0, if able = 0 then putCtx core k (some { x with spent := x.spent + left }) s else s)
  else
    let bad := p = good && good < x.tileLen
    let rest := x.spent + left - p * cost
    let within := p = able && p < good
    let x := { x with spent := if within then rest else 0 }
    let s := computeItems core k x d e p (x.tileOff + p = n && !bad) s
    (if within then 0 else rest, afterTile core k d p bad s)

/-- One slice of a context (R236): at most 256 cycles, through the tiles that are ready, up to the end of its descriptor. -/
def serveSlice (core k : Nat) : Nat → Nat → State → State
  | 0, _, s => s
  | n + 1, left, s => match ctxOf s core k with
    | none => s
    | some x =>
      if left = 0 || !tileReady s core x then s
      else let (left, s) := serveTile core k left x s; serveSlice core k n left s

/-- The arithmetic unit serves a context whose tile lies in scratch, for one slice. -/
def serveCtx (core k : Nat) (x : Ctx) (s : State) : State :=
  let d := stageLine x
  if dOp d = 6 then
    if x.lines.any (·.poison) then stopCtx core k stPOISONED s else enterMerge core k x s
  else serveSlice core k 3 (sliceWork s core x d).1 s

end Sys2Proof.Machine
end

