-- ==== Sys2Proof/Machine/Answers.lean ====
section
/-! DEFINITION. Answers to the requests that the device itself issues (R190, R271, R272, R301, R362, R388): DATA and
COMPLETION packets for engine contexts, page swaps and multicast packets. -/
namespace Sys2Proof.Machine

/-! ### Engine reads and writes over the links -/

/-- The context that a test picks. -/
def findCtx (s : State) (f : Ctx → Bool) : Option (Nat × Nat × Ctx) :=
  s.eng.cores.findSome? (fun e => ((coreCtxs e.2).find? (fun c => f c.2)).map (fun c => (e.1, c.1, c.2)))

/-- A context's access to an endpoint failed: the endpoint is named, and its command ends (R272, R301). -/
def failEndpoint (core k eid status : Nat) (s : State) : State :=
  match ctxOf s core k with
  | none => s
  | some x =>
    let st := if status = stNOT_DONE || status = stLOST_UNKNOWN then lostStage x else status
    engineFail core k st (putCtx core k (some { x with failEid := eid, failed := [eid] }) s)

/-- Lines that an endpoint sent for one LOAD of a context, in ascending order of their addresses. -/
def takeReadData (core k tag : Nat) (payload : List Line) (poison : Bool) (s : State) : State :=
  match ctxOf s core k with
  | none => s
  | some x =>
    let mine := (x.reads.filter (fun r => r.tag == some tag)).mergeSort (fun a b => a.addr ≤ b.addr)
    let x := { x with reads := x.reads.filter (fun r => r.tag != some tag), linesRead := x.linesRead + mine.length }
    let x := mine.zipIdx.foldl (fun x e => loadLine s core k e.1.kind e.1.addr (payload.getD e.2 0) poison x) x
    pumpReads core 4096 (putCtx core k (some x) s)

/-- A STORE of a context is acknowledged at its endpoint. -/
def writeAnswered (core k tag : Nat) (s : State) : State :=
  match ctxOf s core k with
  | none => s
  | some x => putCtx core k (some { x with writes := x.writes.map (fun w =>
      if w.tag = some tag then { w with ready := true } else w) }) s

/-- A STORE of a context failed at its endpoint: the write is settled and the command ends. -/
def writeFailed (core k tag eid status : Nat) (s : State) : State :=
  match ctxOf s core k with
  | none => s
  | some x => failEndpoint core k eid status (putCtx core k (some { x with
      writes := x.writes.filter (fun w => w.tag != some tag) }) s)

/-! ### Multicast (R301, R388) -/

/-- A multicast packet of a context has its last answer, or is given up: its write may be acknowledged. -/
def mcastSettled (m : McastPkt) (s : State) : State :=
  writeAnswered m.core m.ctx m.tag { s with sw.mcast := s.sw.mcast.filter (fun y => y.tag != m.tag) }

/-- One member's answer to a multicast packet; a failed one is remembered, and the stream goes on. -/
def mcastAnswer (m : McastPkt) (eid status : Nat) (s : State) : State :=
  let s := match ctxOf s m.core m.ctx with
    | some x =>
      if status = stOK then s
      else putCtx m.core m.ctx (some { x with
        failed := if x.failed.contains eid then x.failed else x.failed ++ [eid],
        failEid := if x.failEid = 0xFFFF then eid else x.failEid,
        failStatus := if x.failStatus = 0 then status else x.failStatus }) s
    | none => s
  if m.answers ≤ 1 then mcastSettled m s
  else { s with sw.mcast := s.sw.mcast.map (fun y => if y.tag = m.tag then { y with answers := y.answers - 1 } else y) }

/-! ### Whatever answers a request of the device -/

/-- An answer to a request that the device issued (R362): one that nothing awaits is discarded, as the answers to
releases and remote signals are (R278, R300, R389). -/
def takeAnswer (h : PktHdr) (payload : List Line) (s : State) : State :=
  match swapRequest s h.src h.tag with
  | some (id, c) => swapAnswer id c h.tag h payload s
  | none =>
    match s.sw.mcast.find? (fun m => m.tag == h.tag) with
    | some m => mcastAnswer m h.src (if h.code = 0x42 then h.status else stOK) s
    | none =>
      match findCtx s (fun x => x.reads.any (fun r => r.tag == some h.tag && r.addr / 2 ^ 52 == h.src)) with
      | some (core, k, x) =>
        if h.code = 0x41 then takeReadData core k h.tag payload false s
        else if h.status = stPOISONED then takeReadData core k h.tag [] true (bump x.share.tenant 11 1 s)
        else if h.status = stOK then s
        else failEndpoint core k h.src h.status (putCtx core k (some { x with
          reads := x.reads.filter (fun r => r.tag != some h.tag) }) s)
      | none =>
        match findCtx s (fun x => x.writes.any (fun w => w.tag == some h.tag && w.addr / 2 ^ 52 == h.src)) with
        | some (core, k, _) =>
          if h.code != 0x42 then s
          else if h.status = stOK then writeAnswered core k h.tag s
          else writeFailed core k h.tag h.src h.status s
        | none => s

/-- Units whose requests waited for a window issue again (R391). -/
def issueWaiting (s : State) : State :=
  pumpTransfers ((s.eng.cores.map (·.1)).foldl (fun s c => pumpReads c 4096 s) (pumpOutbox s))

/-- An answer packet goes through its port first (R135, R507); it frees the window of its request. -/
def answerArrives (rx : RxPkt) (s : State) : State :=
  match ingress rx s with
  | .stops s => s
  | .goes rx _ s =>
    if !isOwnEid s rx.hdr.dst then s
    else match passBack rx.port rx.hdr (takeArrived rx s) with
      | .late s => s
      | .goes pair s => settleHome (issueWaiting (takeAnswer rx.hdr rx.payload (freePair pair s)))

/-- DATA (R194, R362): the lines that a LOAD of the device asked an endpoint for. -/
def execData (rx : RxPkt) (s : State) : Host.Outcome State Fault Refusal :=
  .next (answerArrives { rx with hdr := { rx.hdr with code := 0x41 } } s)

/-- COMPLETION (R362): the answer to a write, a signal or a multicast STORE of the device, or a failed LOAD. -/
def execCompletion (rx : RxPkt) (s : State) : Host.Outcome State Fault Refusal :=
  .next (answerArrives { rx with hdr := { rx.hdr with code := 0x42 } } s)

/-- A copy of a multicast packet of the device has not left yet. -/
def copyWaits (s : State) (tag : Nat) : Bool :=
  let mine := fun (k : TxPkt) => k.hdr.mcast && k.hdr.tag == tag && k.hdr.code == 0x04 && k.buffer.isNone && isOwnEid s k.hdr.src
  s.halt.held.any (fun x => mine x.2.2) ||
  s.link.ports.any (fun e => e.2.tx.queue.any (fun q => mine q.2.2) || e.2.tx.inProgress.any (fun k => mine k.1))

/-- MCAST_ACK_TIMEOUT (R388): 2,048 marks after its last copy left, the answers still missing count as failures. -/
def execMcastAckTimeout (tag : Nat) (s : State) : Host.Outcome State Fault Refusal :=
  match s.sw.mcast.find? (fun m => m.tag == tag) with
  | none => .next s
  | some m =>
    if copyWaits s tag || plmc s < m.lastCopyAt + 2048 then .next s
    else
      let s := match ctxOf s m.core m.ctx with
        | some x => putCtx m.core m.ctx (some { x with
            missing := max x.missing m.answers,
            failStatus := if x.failStatus = 0 then stLOST_UNKNOWN else x.failStatus }) s
        | none => s
      .next (mcastSettled m s)

end Sys2Proof.Machine
end

