-- ==== Sys2Proof/Machine/Ports.lean ====
section
/-! DEFINITION. Ports that are lost (R124, R272, R349, R368, R369, R371): their phases, and what is in flight through
them. -/
namespace Sys2Proof.Machine

/-! ### The phase of a port (R120, R349, R528) -/

/-- A port enters a phase; a change of STATE is dated and fires the port's interrupt source. -/
def enterPhase (p : Nat) (ph : Phase) (s : State) : State :=
  let x := portOf s p
  let y := { x with phase := ph }
  if portState x = portState y then modPort p (fun x => { x with phase := ph, phaseSince := lmc s }) s
  else fire (256 * portQuadrant p + p % 24)
    (modPort p (fun x => { x with phase := ph, phaseSince := lmc s, changedAt := fmt s }) s)

/-! ### Packets cut short (R368) -/

/-- Copies of a packet that wait at egress ports, changed. -/
def mapCopies (b : Nat × Nat) (f : TxPkt → TxPkt) (s : State) : State :=
  let g := fun (k : TxPkt) => if k.buffer = some b then f k else k
  { s with halt.held := s.halt.held.map (fun x => (x.1, x.2.1, g x.2.2)),
           link.ports := s.link.ports.map (fun e => (e.1, { e.2 with
             tx.queue := e.2.tx.queue.map (fun q => (q.1, q.2.1, g q.2.2)),
             tx.inProgress := e.2.tx.inProgress.map (fun k => (g k.1, k.2)) })) }

/-- The packet that a port is receiving will never be whole. Where it is already being sent on, a copy that has begun to
leave ends in ABORT flits; one that has not is discarded. -/
def abortCopies (p : Nat) (s : State) : State :=
  match (portOf s p).rx.head with
  | none => s
  | some (_, a) =>
    let b := (p, a.place)
    let mine := fun (k : TxPkt) => k.buffer == some b && k.arriving
    let all := s.halt.held.map (·.2.2) ++ s.link.ports.flatMap (fun e => e.2.tx.queue.map (·.2.2))
    let s := { s with
      halt.held := s.halt.held.filter (fun x => !mine x.2.2),
      link.ports := s.link.ports.map (fun e => (e.1, { e.2 with tx.queue := e.2.tx.queue.filter (fun q => !mine q.2.2) })) }
    let s := (all.filter mine).foldl (fun s k => freePair k.pair s) s
    mapCopies b (fun k => { k with aborted := true, freed := a.freed }) s

/-- Packets from a port that is lost owe it no credits. -/
def forgetPlaces (p : Nat) (s : State) : State :=
  let g := fun (k : TxPkt) => if k.buffer.any (fun b => b.1 == p) then { k with buffer := none } else k
  { s with halt.held := s.halt.held.map (fun x => (x.1, x.2.1, g x.2.2)),
           link.ports := s.link.ports.map (fun e => (e.1, { e.2 with
             tx.queue := e.2.tx.queue.map (fun q => (q.1, q.2.1, g q.2.2)),
             tx.inProgress := e.2.tx.inProgress.map (fun k => (g k.1, k.2)) })) }

/-- What a port keeps of its receive side when it is lost: the packets received whole, which go on without credits. -/
def lostRx (r : RxSt) : RxSt :=
  { arrived := r.arrived.map (fun a => { a with info := { a.info with credited := false } }) }

/-! ### What was in flight (R369) -/

/-- Requests completed LINK_LOST_NOT_DONE and LINK_LOST_UNKNOWN. -/
abbrev Lost := Nat × Nat

def countLost (st : Nat) (n : Lost) : Lost := if st = stNOT_DONE then (n.1 + 1, n.2) else (n.1, n.2 + 1)

/-- A packet queued for a lost port, or of which flits were sent: requests complete synthetically, responses are
discarded and counted, multicast copies are not delivered. -/
def settleQueued (p : Nat) (begun : Bool) (k : TxPkt) (a : Lost × State) : Lost × State :=
  let (n, s) := a
  let s := leaveBuffer k s
  let h := k.hdr
  if codeVc h.code != 1 then (n, if h.code = 0x80 then s else freePair k.pair (countLostPkt p s))
  else if h.mcast then (n, s)
  else
    let st := if begun then lostStatus h.code else stNOT_DONE
    let s := countStatus k.tenant st s
    if isOwnEid s h.src then
      (countLost st n, takeAnswer { code := 0x42, src := h.dst, dst := h.src, tag := h.tag, status := st } [] (freePair k.pair s))
    else (countLost st n, complete h k.tenant k.pair st s)

/-- A request that the port has sent on for another requester and that is not answered (R370). -/
def settleForwarded (f : FwdRec) (a : Lost × State) : Lost × State :=
  let st := lostStatus f.code
  let h : PktHdr := { code := f.code, src := f.src, dst := f.dst, tag := f.tag }
  let t := pktTenant a.2 h
  let s := countStatus t st a.2
  if isOwnEid s f.src then
    (countLost st a.1, takeAnswer { code := 0x42, src := f.dst, dst := f.src, tag := f.tag, status := st } [] (freePair f.pair s))
  else (countLost st a.1, complete h t f.pair st s)

/-- Requests that the device's own engines and swap unit have outstanding through a port. -/
def ownOutstanding (s : State) (p : Nat) : List (Nat × Nat × Nat) :=
  let via := fun (a : Nat) => routeOf s (a / 2 ^ 52) == some p
  (s.eng.cores.flatMap (fun e => (coreCtxs e.2).flatMap (fun c =>
    (c.2.reads.filterMap (fun r => if via r.addr then r.tag.map (fun t => (0x01, r.addr / 2 ^ 52, t)) else none)).dedup ++
    (c.2.writes.filterMap (fun w => if w.kind = 1 && via w.addr && !w.ready then
      w.tag.map (fun t => (0x04, w.addr / 2 ^ 52, t)) else none)).dedup))) ++
  s.xlat.transfers.flatMap (fun t => if via t.fabric then t.outstanding.map (fun o =>
    (if t.isOut then 0x01 else 0x04, t.fabric / 2 ^ 52, o.1)) else [])

/-- Contexts whose running stage names an endpoint that is reached through a port. -/
def ctxsNaming (s : State) (p : Nat) : List (Nat × Nat × Nat) :=
  s.eng.cores.flatMap (fun e => (coreCtxs e.2).filterMap (fun c =>
    if c.2.started then
      ((fabricOperands c.2 (stageLine c.2)).find? (fun o =>
        !isOwnEid s (o.1 / 2 ^ 52) && routeOf s (o.1 / 2 ^ 52) == some p)).map (fun o => (e.1, c.1, o.1 / 2 ^ 52))
    else none))

/-- Engine stages and page swaps that name an EID behind the lost port end (R190, R272). -/
def settleOwn (p : Nat) (a : Lost × State) : Lost × State :=
  let (n, s) := (ownOutstanding a.2 p).foldl (fun (a : Lost × State) o =>
    let st := lostStatus o.1
    (countLost st a.1, takeAnswer { code := 0x42, src := o.2.1, tag := o.2.2, status := st } [] a.2)) a
  let s := (ctxsNaming s p).foldl (fun s c => failEndpoint c.1 c.2.1 c.2.2 stNOT_DONE s) s
  let s := (s.xlat.transfers.filter (fun t => !t.ethernet && routeOf s (t.fabric / 2 ^ 52) == some p)).foldl (fun s t =>
    endTransfer t.id (lostTransfer t) s) s
  (n, settleStops allContexts s)

/-- Bookings on a lost port are released unused (R84, R369). -/
def releasePort (p : Nat) (s : State) : State :=
  let s := (s.coh.trackers.filter (fun t => t.p1 && t.egressPort = p && t.egressBook != [])).foldl (fun s t =>
    goesOutside t.id s) s
  { s with coh.egressLedger := s.coh.egressLedger.filter (fun e => e.1 / 32 % 96 != p),
           coh.blackout := s.coh.blackout.filter (fun b => b.1 != p) }

/-- A port enters LOST (R369): it drops its buffers and credits, what was in flight is settled, and PARTNER_DEPARTED
and the record follow (R124, R492). `record` is false where another record covers the loss. At rung 4 every port stays in its
state (R491). -/
def loseLink (p : Nat) (record : Bool) (s : State) : Lost × State :=
  if !portUp s p || s.err.fatal then ((0, 0), s)
  else
    let x := portOf s p
    let held := s.halt.held.filter (fun h => h.1 = p)
    let fwd := s.sw.fwd.filter (fun f => f.port = p)
    let now := lmc s
    let s := forgetPlaces p (abortCopies p s)
    let s := enterPhase p .lost (modPort p (fun x => { x with tx := {}, rx := lostRx x.rx, sealActive := false, change := none,
                                                              backoffUntil := none, widthChange := none, aux := none,
                                                              train := none, lostAt := now, rate := 0 }) s)
    let orphans := s.coh.trackers.filterMap (fun t => match t.who with
      | .link q _ _ => if q = p then some t.id else none
      | _ => none)
    let s := { s with halt.held := s.halt.held.filter (fun h => h.1 != p), sw.fwd := s.sw.fwd.filter (fun f => f.port != p),
                      coh.orphans := s.coh.orphans ++ orphans }
    let s := releasePort p s
    let a : Lost × State := ((0, 0), s)
    let a := match x.tx.inProgress with
      | some (k, sent) =>
        if fwd.any (fun f => f.src == k.hdr.src && f.tag == k.hdr.tag) then (a.1, leaveBuffer k a.2)
        else settleQueued p (sent != 0) k a
      | none => a
    let a := x.tx.queue.foldl (fun a q => settleQueued p false q.2.2 a) a
    let a := held.foldl (fun a q => settleQueued p false q.2.2 a) a
    let a := fwd.foldl (fun a f => settleForwarded f a) a
    let (n, s) := settleOwn p a
    let s := issueWaiting s
    let s := (s.kcp.running.filter (fun r => r.wait == .retrain p || r.wait == .width p)).foldl (fun s r =>
      finish r stNOT_DONE [] s) s
    let s := event 2 p (fun t => portTenant s p == some t) (le 4 n.1 ++ le 4 n.2) s
    if record then
      (n, (detect { seq := 0, domain := 3, source := 1, rung := 2, tenant := portTenant s p, shared := portShared s p,
                    unitKind := 3, unit := p } 0 (portQuadrant p) 0 s).2)
    else (n, s)

/-- A port enters LOST. -/
def linkLost (p : Nat) (record : Bool) (s : State) : State := (loseLink p record s).2

/-- A port goes down to OFF (R339): its lanes power down. -/
def portOff (p reason : Nat) (s : State) : State :=
  let x := portOf s p
  let s := modPort p (fun x => { x with tx := {}, rx := lostRx x.rx, failReason := reason, rate := 0, lanesOk := 0, sealActive := false }) s
  let s := modPort p (fun x => { x with train := none, aux := none, change := none, backoffUntil := none, widthChange := none }) s
  let s := (portLanes p x.width).foldl (fun s l => { s with link.lanes := tmod {} s.link.lanes l (fun y =>
    { y with powered := false, cwLock := false, blockLock := false, deskewed := false, rate := 0 }) }) s
  endHandling 3 p (enterPhase p .off s)

/-! ### Replies of the bring-up commands (R343, R344) -/

/-- Results of BRING_UP_LINK and RETRAIN_PORT. -/
def bringUpResults (s : State) (p : Nat) : List Byte :=
  let x := portOf s p
  let up := portUp s p
  le 1 (if up then x.rate else 0) ++ le 1 (if up then x.width else 0) ++ le 1 (if up then x.lanesOk else 0) ++
  le 1 (if up then 0 else x.failReason) ++ le 2 ((if up then x.partnerEid else 0) + 4096 * (x.partnerClass % 16)) ++ zeros 2 ++
  le 8 (if up then x.fmtUp else 0)

/-- Their status: OK at the configured width and the lower of the two MAX_RATEs. -/
def bringUpStatus (s : State) (p : Nat) : Nat :=
  let x := portOf s p
  if !portUp s p then stNOT_DONE
  else if x.width = portWidthCfg s p && x.rate = min (portMaxRate s p) x.partnerMax then stOK else stDEGRADED

/-- Answer the commands that wait for a port to be up or off. -/
def answerPort (p : Nat) (s : State) : State :=
  (s.kcp.running.filter (fun r => r.wait == .port p)).foldl (fun s r =>
    finish r (bringUpStatus s p) (bringUpResults s p) s) s

end Sys2Proof.Machine
end

