-- ==== Sys2Proof/Machine/Firmware.lean ====
section
/-! DEFINITION. Distribution of engine firmware (R468 to R471): LOAD_IMAGE, the frames on the control mesh and what each
core keeps of an image. -/
namespace Sys2Proof.Machine

/-! ### The image (R468) -/

/-- A payload length that the header may give. -/
def lengthOk (len : Nat) : Bool := len % 1024 = 0 && 1024 ≤ len && len ≤ 131072

/-- Chunks of a load. -/
def chunkCount (f : FwLoad) : Nat := f.length / 1024

/-- LENGTH of the firmware image at a TVA, and the lines to read: header, payload and signature. -/
def firmwareLength (tva : Nat) (s : State) : Nat × Nat :=
  match (readByTva 0 1 tva [] s).1 with
  | .bytes b => let n := pnum b 0 4; if lengthOk n then (n, n / 128 + 2) else (n, 1)
  | _ => (0, 1)

/-! ### The load (R470) -/

def modLoad (f : FwLoad → FwLoad) (s : State) : State := { s with boot.fw := s.boot.fw.map f }

/-- The part of one core, while the load runs. -/
def partOf (s : State) (core : Nat) : Option (FwLoad × CoreLoad) :=
  match s.boot.fw with
  | some f => if !f.running then none else (tget none f.cores core).map (fun p => (f, p))
  | none => none

def putPart (core : Nat) (p : CoreLoad) (s : State) : State :=
  modLoad (fun f => { f with cores := tset none f.cores core (some p) }) s

/-- The parts of a load. -/
def partsOf (f : FwLoad) : List (Nat × CoreLoad) := f.cores.filterMap (fun e => e.2.map (fun p => (e.1, p)))

/-- The results of LOAD_IMAGE (R469). -/
def loadResults (f : FwLoad) : List Byte :=
  let ps := partsOf f
  let excluded := ps.filter (fun e => e.2.excluded)
  le 2 ps.length ++ le 2 (ps.countP (fun e => e.2.confirmed)) ++ le 2 excluded.length ++
  le 1 (ps.foldl (fun m e => max m e.2.rounds) 0) ++ zeros 1 ++ digestBytes f.digest ++
  le 256 (excluded.foldl (fun m e => m ||| 2 ^ e.1) 0)

/-- Every targeted core is confirmed or excluded: LOAD_IMAGE replies. -/
def loadEnds (s : State) : State :=
  match s.boot.fw with
  | none => s
  | some f =>
    if !f.running || (partsOf f).any (fun e => !e.2.confirmed && !e.2.excluded) then s
    else
      let st := if (partsOf f).any (fun e => e.2.excluded) then stDEGRADED else stOK
      (s.kcp.running.filter (fun r => r.wait == .image)).foldl (fun s r => finish r st (loadResults f) s)
        (modLoad (fun f => { f with running := false }) s)

/-- Change a core's part unless it is confirmed or excluded, or no frame is sent (R470, R471). -/
def onPart (core : Nat) (g : FwLoad → CoreLoad → State → State) (s : State) : State :=
  match partOf s core with
  | some (f, p) => if frozen s || p.confirmed || p.excluded then s else g f p s
  | none => s

/-- A core reset restarts the core's part from RECEIVING with an empty bitmap (R471). -/
def restartPart (core : Nat) (s : State) : State :=
  match partOf s core with
  | some (f, p) => if p.excluded then s else
      putPart core { p with missing := onesMask (chunkCount f), staging := [], verified := false, confirmed := false,
                            since := plmc s, asked := false } s
  | none => s

/-- A core that becomes LOST during the load is excluded (R471). -/
def excludePart (core : Nat) (s : State) : State :=
  match partOf s core with
  | some (_, p) => loadEnds (putPart core { p with excluded := true, confirmed := false } s)
  | none => s

/-- A core whose bitmap is complete checks the whole image: it confirms, or reports every chunk missing (R470). -/
def verifyPart (core : Nat) (f : FwLoad) (p : CoreLoad) (s : State) : State :=
  let n := chunkCount f
  let whole := (List.range n).flatMap (fun i => tget [] p.staging i)
  if sm3 whole = f.digest then emit (.mesh (.confirm core)) (putPart core { p with verified := true } s)
  else emit (.mesh (.bitmap core (onesMask n))) (putPart core { p with missing := onesMask n, verified := false } s)

/-- The command processor sends chunks to one core: a round of repair (R470). -/
def repairPart (core missing : Nat) (f : FwLoad) (p : CoreLoad) (s : State) : State :=
  let s := ((List.range (chunkCount f)).filter (bit missing)).foldl (fun s i => emit (.mesh (.chunk (some core) i)) s) s
  putPart core { p with rounds := min 255 (p.rounds + 1), since := plmc s, asked := false } s

/-! ### LOAD_IMAGE (R469) -/

/-- A core that a load targets: neither LOST nor ABSENT. -/
def loadTargets (s : State) (first count : Nat) : List Nat :=
  ((List.range count).map (first + ·)).filter (fun c => (tget {} s.eng.cores c).map != .lost)

/-- The broadcast: START, every chunk in order, three END frames. -/
def broadcast (f : FwLoad) (s : State) : State :=
  let s := emit (.mesh (.start f.length f.digest)) s
  let s := (List.range (chunkCount f)).foldl (fun s i => emit (.mesh (.chunk none i)) s) s
  emit (.mesh .fin) (emit (.mesh .fin) (emit (.mesh .fin) s))

/-- The image has been read: it is verified, and the load replaces a staged image that is not committed. -/
def startLoad (first count len : Nat) (bs : List Byte) (s : State) : Answer × State :=
  let signed := bs.take (128 + len)
  if !lengthOk len || !verifies Config.firmwareKey (sm3 signed) (pnum bs (128 + len) 64) then
    (.done stDENIED [], s)
  else
    let payload := signed.drop 128
    let part : CoreLoad := { missing := onesMask (len / 1024), since := plmc s }
    let cores := (loadTargets s first count).map (fun c => (c, some part))
    let f : FwLoad := { length := len, digest := sm3 payload, payload := linesOf payload, taken := plmc s,
                        cores := cores, running := true }
    if cores = [] then
      (.done stOK (loadResults f), { s with boot.fw := some { f with running := false } })
    else (.later .image, broadcast f { s with boot.fw := some f })

/-- LOAD_IMAGE (R469): BUSY while another runs; otherwise the image is read by TVA, verified and broadcast. -/
def execLoadImage (c : Cmd) (s : State) : Host.Outcome State Fault Refusal :=
  let tva := pnum c.params 0 8 % 2 ^ 57 / 128 * 128
  let first := min 2047 (pnum c.params 8 2)
  let count := min (max 1 (pnum c.params 10 2)) (2048 - first)
  let (len, lines) := firmwareLength tva s
  .next (whenReadable 0 lines tva (kcpTake 0x106 c (le 8 tva ++ le 2 first ++ le 2 count) (fun s =>
    if s.boot.fw.any (·.running) then (.done stBUSY [], s)
    else match readByTva 0 lines tva [] s with
      | (.fault _ _ _ _, s) => (.done stFAULT [], s)
      | (.refused st _, s) => (.done st [], s)
      | (.wait, s) => (.done stBUSY [], s)
      | (.bytes bs, s) => startLoad first count len bs
          (writeJournal { session := c.session, seq := c.seq, step := .broadcast, once := true } s))) s)

/-! ### Frames on the control mesh (R470) -/

/-- IMAGE_START_FRAME: the core clears its staging bank and its bitmap. -/
def execImageStartFrame (core : Nat) (s : State) : Host.Outcome State Fault Refusal :=
  .next (onPart core (fun f p => putPart core { p with missing := onesMask (chunkCount f), staging := [], verified := false }) s)

/-- IMAGE_CHUNK_FRAME: a chunk whose digest holds is stored; with the last one the core verifies the image. -/
def execImageChunkFrame (c : ImgChunk) (s : State) : Host.Outcome State Fault Refusal :=
  .next (onPart c.core (fun f p s =>
    if p.verified || chunkCount f ≤ c.chunk || c.digest != sm3 c.data then s
    else
      let left := if bit p.missing c.chunk then p.missing - 2 ^ c.chunk else p.missing
      let p := { p with staging := tset [] p.staging c.chunk c.data, missing := left }
      if left = 0 then verifyPart c.core f p s else putPart c.core p s) s)

/-- IMAGE_END_FRAME: the core sends its bitmap of missing chunks, or verifies a complete image. -/
def execImageEndFrame (core : Nat) (s : State) : Host.Outcome State Fault Refusal :=
  .next (onPart core (fun f p s =>
    if p.missing = 0 then verifyPart core f p s else emit (.mesh (.bitmap core p.missing)) s) s)

/-- IMAGE_BITMAP_RECEIVED: the command processor sends the missing chunks by unicast. -/
def execImageBitmapReceived (core missing : Nat) (s : State) : Host.Outcome State Fault Refusal :=
  .next (onPart core (fun f p s =>
    let m := missing % 2 ^ chunkCount f
    if m = 0 then s else repairPart core m f p s) s)

/-- IMAGE_CONFIRM: the core's CONFIRM reaches the command processor. -/
def execImageConfirm (core : Nat) (s : State) : Host.Outcome State Fault Refusal :=
  .next (onPart core (fun _ p s => if p.verified then loadEnds (putPart core { p with confirmed := true } s) else s) s)

/-- IMAGE_BITMAP_TIMEOUT: 256 marks after the last END or repair the core is asked for its bitmap; 64 marks later it is
sent every chunk. -/
def execImageBitmapTimeout (core : Nat) (s : State) : Host.Outcome State Fault Refusal :=
  .next (onPart core (fun f p s =>
    if !p.asked && p.since + 256 ≤ plmc s then
      emit (.mesh (.askBitmap core)) (putPart core { p with asked := true, since := plmc s } s)
    else if p.asked && p.since + 64 ≤ plmc s then repairPart core (onesMask (chunkCount f)) f p s
    else s) s)

/-- IMAGE_LOAD_DEADLINE: a watch after the command was taken every core not yet confirmed is excluded. -/
def execImageLoadDeadline (s : State) : Host.Outcome State Fault Refusal :=
  match s.boot.fw with
  | some f =>
    if !f.running || frozen s || plmc s < f.taken + watch then .next s
    else .next (loadEnds (modLoad (fun f => { f with cores := f.cores.map (fun e =>
      (e.1, e.2.map (fun p => if p.confirmed then p else { p with excluded := true }))) }) s))
  | none => .next s

end Sys2Proof.Machine
end

