-- ==== Sys2Proof/Machine/Ladder.lean ====
section
/-! DEFINITION. Resets of a scope and units that fail while running (R473 to R480, R489 to R491). -/
namespace Sys2Proof.Machine

/-! ### Scopes (R477, R478): 0 core, 1 cluster, 2 partition, 3 device -/

/-- Engine cores of a scope. -/
def coresOf (scope target : Nat) : List Nat :=
  match scope with
  | 0 => [target]
  | 1 => (List.range 128).map (128 * target + ·)
  | 2 => (List.range 512).map (512 * target + ·)
  | _ => List.range 2048

/-- Stacks whose strand slices a scope covers. -/
def stacksOf (scope target : Nat) : List Nat :=
  match scope with
  | 0 => []
  | 1 => [target]
  | 2 => (List.range 4).map (4 * target + ·)
  | _ => List.range 16

/-- The quadrant in which a scope lies. -/
def scopeQuadrant (scope target : Nat) : Nat :=
  match scope with
  | 0 => target / 512
  | 1 => target / 4
  | _ => target

/-- A scope contains another. -/
def scopeContains (scope target scope' target' : Nat) : Bool :=
  scope = 3 || (scope' ≤ scope && (match scope with
    | 0 => target = target'
    | 1 => if scope' = 0 then target' / 128 = target else target' = target
    | _ => scopeQuadrant scope' target' = target))

def scopesOverlap (scope target scope' target' : Nat) : Bool :=
  scopeContains scope target scope' target' || scopeContains scope' target' scope target

/-- A reset's phase changes; RESET_STATUS shows the reset that began last (R480, R528). -/
def resetPhase (scope target phase : Nat) (s : State) : State :=
  if s.boot.lastScope = scope && s.boot.lastTarget = target then
    fire (256 * scopeQuadrant scope target + 41) { s with boot.lastPhase := phase }
  else s

/-! ### Units that fail (R473 to R475) -/

/-- A failure while running, to be listed at the next start-up test. -/
def recordFailure (kind cause physical : Nat) (s : State) : State :=
  let d : Defect := { kind := kind, cause := cause, physical := physical, start := 0 }
  { s with boot.newFailures := s.boot.newFailures ++ [d] }

/-- A physical core is listed, or has failed since the last test. -/
def coreListed (s : State) (cluster k : Nat) : Bool :=
  defective s 0 (cluster * 136 + k)

/-- The lowest-numbered spare of a cluster that is unlisted and not in use. -/
def freeSpare (s : State) (cluster : Nat) : Option Nat :=
  ((List.range 8).map (128 + ·)).find? (fun k => !coreListed s cluster k && !s.boot.spares.contains (cluster, k))

/-- A position becomes LOST (R474). -/
def coreLost (core : Nat) (s : State) : State :=
  let s := { modCore core (fun y => { y with map := .lost }) s with
    boot.coresLost := s.boot.coresLost + 1,
    bind.engine := tmod {} s.bind.engine core (fun e => { e with isLost := true }) }
  excludePart core (event 10 core (fun t => engineTenant s core == some t) [] s)

/-- The next spare is tried for a position, or the position is LOST (R474). -/
def trySpare (core : Nat) (s : State) : State :=
  match freeSpare s (core / 128) with
  | some k => modCore core (fun y => { y with map := .rehoming, spare := some k, switchWait := false, inReset := false })
      { s with boot.spares := s.boot.spares ++ [(core / 128, k)] }
  | none => coreLost core (modCore core (fun y => { y with spare := none }) s)

/-- A failed engine core moves to a spare, or becomes LOST (R473, R474). -/
def coreFails (core cause : Nat) (s : State) : State :=
  trySpare core (recordFailure 0 cause (core / 128 * 136 + (tget {} s.eng.cores core).physical) s)

/-- A strand that fails while running is LOST (R475). -/
def strandFails (st cause : Nat) (s : State) : State :=
  let s := recordFailure 1 cause st (modStrand st (fun x => { x with lostUnit := true, power := .failed }) s)
  let s := { s with bind.strand := tmod {} s.bind.strand st (fun e => { e with isLost := true }) }
  event 10 st (fun t => strandTenant s st == some t) [] s

/-- A lane that fails while running counts as failing VERIFY from its port's next bring-up on (R475). -/
def laneFails (l cause : Nat) (s : State) : State :=
  event 10 (lanePort s l) (fun t => portTenant s (lanePort s l) == some t) [] (recordFailure 2 cause l s)

/-- REHOME_COMPLETE (R474): the spare was tested, loaded, verified and zeroed. It takes the position, in service where
firmware is committed, or the next spare is tried. -/
def execRehomeComplete (core : Nat) (passed : Bool) (s : State) : Host.Outcome State Fault Refusal :=
  let y := tget {} s.eng.cores core
  match y.map, y.spare with
  | .rehoming, some k =>
    if passed then
      .next (restartPart core (modCore core (fun y =>
        { y with map := if s.boot.committed.isSome then .inService else .heldInBoot, rehomed := true, physical := k,
                 spare := none, flags := 0 }) s))
    else .next (trySpare core (recordFailure 0 4 (core / 128 * 136 + k) s))
  | _, _ => .next s

/-! ### Settling (R478, R479) -/

/-- Reads that contexts of a core have outstanding and that a reset absorbs. -/
def readsOf (s : State) (cores : List Nat) : Nat := cores.foldl (fun n c => n + coreReads s c) 0

/-- Every command of the cores ends, queued or running (R478). -/
def settleCores (cores : List Nat) (status : Nat) (s : State) : State :=
  cores.foldl (fun s c =>
    let y := tget {} s.eng.cores c
    let s := y.queue.foldl (fun s sh => endQueued c sh status s) s
    let s := (coreCtxs y).foldl (fun s x => stopCtx c x.1 status s) s
    restartPart c (modCore c (fun y => { y with inReset := true }) s)) s

/-- Lines of a quadrant with a directory entry and at rest are recalled. -/
def recallQuadrant (q : Nat) (s : State) : State :=
  (dirWhere s q (fun _ _ => true)).foldl (fun s d => recallLine d.1 0x4B s) s

/-- Packets are discarded with the partition whose port received them, and the requesters among them are answered. -/
def discardPackets (l : List Arrived) (s : State) : Nat × State :=
  let reqs := l.filter (fun x => codeVc x.pkt.hdr.code = 1 && !x.pkt.hdr.mcast && x.info.carried)
  (reqs.length, reqs.foldl (fun s x => complete x.pkt.hdr x.info.tenant none (lostStatus x.pkt.hdr.code) s) s)

/-- A port goes down with its partition (R478): one in STATE 2 is lost as any port is (R369); one in training enters LOST
too. The packets of its receive buffer are discarded. Counts the requests completed synthetically. -/
def portWithPartition (p : Nat) (s : State) : Nat × State :=
  let here := (portOf s p).rx.arrived
  let (l, s) := loseLink p false s
  let s := if portState (portOf s p) = 1 then
      let now := lmc s
      answerPort p (enterPhase p .lost (modPort p (fun x => { x with
        tx := {}, train := none, aux := none, lostAt := now, rate := 0 }) s))
    else s
  let (n, s) := discardPackets here (modPort p (fun x => { x with rx := {} }) s)
  let s := { s with halt.parked := s.halt.parked.filter (fun r => r.port != p) }
  (l.1 + l.2 + n, s)

/-- What a partition reset ends beside the engines (R478): ports, directory, knots and their waits, page swaps through
the quadrant's Ethernet port. Counts the requests completed synthetically. -/
def settlePartition (q : Nat) (s : State) : Nat × State :=
  let (n, s) := (List.range 24).foldl (fun (a : Nat × State) i =>
    let (l, s) := portWithPartition (24 * q + i) a.2
    (a.1 + l, s)) (0, s)
  let s := recallQuadrant q s
  let waiting := s.eng.cores.flatMap (fun e => (coreCtxs e.2).filterMap (fun c =>
    if atGate c.2 && (gateOf c.2).kind = 1 && knotHome (gateOf c.2).select = q then some (e.1, c.1) else none))
  let s := stopAll waiting stREVOKED { s with belay.knots := s.belay.knots.filter (fun e => knotHome e.1 != q) }
  let s := (s.xlat.transfers.filter (fun t => t.ethernet && (match t.path with
    | .eth port _ _ _ => 2 * port = q
    | .link _ _ => false))).foldl (fun s t => endTransfer t.id (lostTransfer t) s) s
  (n, s)

/-- A reset of a scope begins (R477 to R479): a reset inside it is taken over; one inside another is absorbed. -/
def startReset (scope target : Nat) (byLadder : Bool) (s : State) : State :=
  if s.boot.resets.any (fun r => scopeContains r.scope r.target scope target) then s
  else
    let cores := coresOf scope target
    let n := readsOf s cores
    let r : Reset := { scope := scope, target := target, phase := 1, byLadder := byLadder, started := lmc s }
    let s := { s with boot.resets := s.boot.resets.filter (fun x => !scopeContains scope target x.scope x.target) ++ [r],
                      boot.resetCount := s.boot.resetCount + 1, boot.lastScope := scope, boot.lastTarget := target }
    let s := resetPhase scope target 1 s
    let s := settleCores cores (if byLadder then stPOISONED else stREVOKED) s
    let (m, s) := if scope = 2 then settlePartition target s else (0, s)
    settleHome { s with boot.resets := s.boot.resets.map (fun x =>
      if x.scope = scope && x.target = target then { x with absorbed := n + m } else x) }

/-- A device-scope reset is due at a mark (R477). -/
def deviceResetDue (at' : Nat) (s : State) : State := { s with boot.deviceResetAt := some at' }

/-- Rung 3 at a scope (R489, R491): the device scope's reset follows at once, and whatever nests in it takes rung 4; a
device-scope reset by command absorbs it (R479). -/
def rung3 (scope target : Nat) (s : State) : State :=
  if s.boot.deviceLadder then rung4 s
  else if s.boot.deviceResetAt.isSome then { s with boot.deviceLadder := true }
  else if scope < 3 then startReset scope target true s
  else { deviceResetDue (lmc s) s with boot.deviceLadder := true }

/-- Whether nothing of the scope is in flight any more. -/
def scopeQuiet (s : State) (scope target : Nat) : Bool :=
  let inStacks := fun (l : Nat) => (stacksOf scope target).contains (strandStack (lineStrand l))
  (coresOf scope target).all (fun c => (coreCtxs (tget {} s.eng.cores c)) = [] && (tget {} s.eng.cores c).queue = []) &&
  (scope = 0 || (!s.coh.trackers.any (fun t => t.firstLine < noLine && inStacks t.firstLine) &&
    !s.coh.busy.any (fun b => inStacks b.line))) && (scope != 2 || dirWhere s target (fun _ _ => true) = [])

/-- Contexts of the scope that still wait for acknowledgements end LINK_LOST_UNKNOWN (R478). -/
def forceCores (cores : List Nat) (s : State) : State :=
  settleStops allContexts (cores.foldl (fun s c =>
    (coreCtxs (tget {} s.eng.cores c)).foldl (fun s x =>
      putCtx c x.1 (some { x.2 with phase := .stopping stLOST_UNKNOWN, writes := [] }) s) s) s)

/-! ### Registers of a scope (R14) -/

/-- A register indexed by a unit that a scope covers: it takes its reset value (R14). The spec does not say which block
holds P1_PORT_SHARE of a tenant and a port, and THERMAL_STATUS of a quadrant; the model takes both as the control
complex's, so that a partition reset keeps them (DESIGN CHOICE, log entry 41). ENGINE_ERR outlives its core's own reset,
which CORE_RESETS counts (R266). -/
def scopeOwns (scope target : Nat) (f : RegFam) (i : Nat) : Bool :=
  match f with
  | .ctxCfg => (coresOf scope target).contains i
  | .engErr => scope != 0 && (coresOf scope target).contains i
  | .strandCfg | .flipCtl | .flipMask | .strandErr0 | .strandErr1 | .rowGuard =>
    (stacksOf scope target).contains (strandStack i)
  | .ceStatus => scope = 2 && i / 4 = target
  | .portCtl | .portEid | .vcCfg | .retryCfg | .linkStats0 | .linkStats1 | .linkSeal | .weight0 | .weight1 =>
    scope = 2 && portQuadrant i = target
  | .laneEq | .laneFec | .laneErr => scope = 2 && i / 48 = target
  | .idemStatus => scope = 2 && i = target
  | _ => false

/-- The register at an offset is one of a scope's. -/
def ownsOffset (scope target off : Nat) : Bool :=
  match locate off with
  | some (f, i) => scopeOwns scope target f i
  | none => false

/-- Registers of the scope take their reset values, and writes that wait for them are dropped (R14); with a partition,
so do its lanes, its stacks' temperatures, its error logs and its idempotency records. -/
def resetRegisters (scope target : Nat) (s : State) : State :=
  let s := { s with fields := s.fields.filter (fun e => !ownsOffset scope target (e.1 / 32)),
                    waiting := s.waiting.filter (fun w => !ownsOffset scope target w.offset) }
  if scope != 2 then s
  else
    let lane := fun (e : Nat × Lane) =>
      let y : Lane := if e.1 / 48 = target then { failed := e.2.failed } else e.2
      if y = {} then none else some (e.1, y)
    let port := fun (s : State) (i : Nat) =>
      modPort (24 * target + i) (fun x => { x with keyTx := 0, keyRx := 0, partnerClass := 0 }) s
    let s := (List.range 24).foldl port s
    { s with link.lanes := s.link.lanes.filterMap lane,
             mem.temp := s.mem.temp.filter (fun e => e.1 / 4 != target),
             mem.ceLog := s.mem.ceLog.filter (fun e => e.1 / 256 != target),
             mem.ceNext := s.mem.ceNext.filter (fun e => e.1 / 4 != target),
             coh.idem := s.coh.idem.filter (fun e => e.quadrant != target) }

/-! ### RESET_SETTLED -/

/-- Blocks of the scope as the reset holds them: their registers at their reset values; slices in self-refresh; for a partition
the coil written back and the translation caches empty but for the pins that are walked again. -/
def holdScope (scope target : Nat) (s : State) : State :=
  let strands := (stacksOf scope target).flatMap (fun k => (List.range 32).map (32 * k + ·))
  let s := resetRegisters scope target s
  let s := if scope = 2 then (s.mem.coil.filter (fun e => lineQuadrant e.1 = target)).foldl (fun s e => coilEvict e.1 s) s else s
  let s := strands.foldl (fun s st => if (strandOf s st).power = .active then
    modStrand st (fun x => { x with power := .selfRefresh }) s else s) s
  if scope = 2 then { s with xlat.cache := s.xlat.cache.filter (fun x => x.quadrant != target || x.pinned) } else s

/-- RESET_SETTLED (R477 to R480): the scope's traffic is settled and it is held in reset; RESET_SCOPE is answered, and
restoration begins. -/
def execResetSettled (scope target : Nat) (s : State) : Host.Outcome State Fault Refusal :=
  match s.boot.resets.find? (fun r => r.scope == scope && r.target == target && r.phase == 1) with
  | none => .next s
  | some r =>
    let s := if stopped s || r.started + 2048 ≤ lmc s then forceCores (coresOf scope target) s else s
    let s := if scope = 2 && !stopped s then settleHome (recallQuadrant target s) else s
    if !stopped s && !scopeQuiet s scope target then .next s
    else
      let s := resetPhase scope target 2 (holdScope scope target s)
      let now := fmt s
      let waits := s.kcp.running.filter (fun x => match x.wait with
        | .reset sc tg _ => scopeContains scope target sc tg
        | _ => false)
      let s := waits.foldl (fun s x => finish x stOK (le 4 r.absorbed ++ le 8 now) s) s
      .next (resetPhase scope target 3 { s with boot.resets := s.boot.resets.map (fun x =>
        if x.scope = scope && x.target = target then { x with phase := 3, settledAt := now } else x) })

/-! ### RESET_RESTORED -/

/-- A core returns to service, or fails its test, in service or held in boot (R473). -/
def restoreCore (core : Nat) (failed : Bool) (s : State) : State :=
  let y := tget {} s.eng.cores core
  let s := modCore core (fun y => { y with flags := 0, inReset := false, switchWait := false, turn := 0 }) s
  if failed && (y.map = .inService || y.map = .heldInBoot) then coreFails core 4 s else s

/-- A strand slice leaves self-refresh where it serves, or fails its test. -/
def restoreStrand (st : Nat) (failed : Bool) (s : State) : State :=
  let x := strandOf s st
  if x.lostUnit then s
  else if failed then strandFails st 4 s
  else if x.trained && (tget {} s.bind.strand st).st != .unbound then modStrand st (fun x => { x with power := .active }) s
  else s

/-- Translations pinned in a quadrant are walked and pinned again; one that faults is dropped (R478). -/
def restorePins (q : Nat) (s : State) : State :=
  (s.xlat.cache.filter (fun x => x.quadrant = q && x.pinned)).foldl (fun s x => (repin x (0, 0) s).2) s

/-- Every rail that feeds a quadrant is in range (R538). -/
def quadrantPower (s : State) (q : Nat) : Bool :=
  [q, 5 + q, 9 + q, 13 + q, 17 + q, 21 + q].all (bit s.pwr.railsOk)

/-- Lanes of a scope. -/
def lanesOf (scope target : Nat) : List Nat := if scope = 2 then (List.range 48).map (48 * target + ·) else []

/-- RESET_RESTORED (R473, R478, R480): the blocks of the scope are tested and restored. `failed` names the units that failed:
engine cores by number, strands as 4,096 + number, lanes as 8,192 + number. -/
def execResetRestored (scope target : Nat) (failed : List Nat) (s : State) : Host.Outcome State Fault Refusal :=
  match s.boot.resets.find? (fun r => r.scope == scope && r.target == target && r.phase == 3) with
  | none => .next s
  | some _ =>
    if scope = 2 && !quadrantPower s target then
      .next (resetPhase scope target 2 { s with boot.resets := s.boot.resets.map (fun r =>
        if r.scope = scope && r.target = target then { r with phase := 2 } else r) })
    else
    let lost := fun (s : State) => s.boot.coresLost + s.mem.strands.countP (fun e => e.2.lostUnit)
    let n := lost s
    let s := { s with boot.resets := s.boot.resets.filter (fun r => !(r.scope == scope && r.target == target)) }
    let s := (coresOf scope target).foldl (fun s c => restoreCore c (failed.contains c) s) s
    let strands := (stacksOf scope target).flatMap (fun k => (List.range 32).map (32 * k + ·))
    let s := resetRegisters scope target (strands.foldl (fun s st => restoreStrand st (failed.contains (4096 + st)) s) s)
    let s := ((lanesOf scope target).filter (fun l => failed.contains (8192 + l))).foldl (fun s l => laneFails l 4 s) s
    let s := if scope = 2 then restorePins target { s with time.following := (target, lmc s) :: s.time.following.filter (fun f => f.1 != target) } else s
    let s := { s with err.handled := s.err.handled.filter (fun h =>
      !(h.2.2.2 = 3 && (h.2.1 = 2 && (coresOf scope target).contains h.2.2.1 ||
        h.2.1 = 1 && (stacksOf scope target).contains (strandStack h.2.2.1) ||
        h.2.1 = 5 && scope = 2 && h.2.2.1 = target ||
        h.2.1 = 10 && scope = 2 && h.2.2.1 = target || h.2.1 = 3 && scope = 2 && portQuadrant h.2.2.1 = target))) }
    .next (resetPhase scope target (if lost s = n then 4 else 5) s)

end Sys2Proof.Machine
end

