-- ==== Sys2Proof/Machine/EngineRows.lean ====
section
/-! DEFINITION. The engine cores' own events (R236, R237, R241, R245, R262 to R265, R295 to R297, R311 to R323, R472). -/
namespace Sys2Proof.Machine

/-! ### SHARE_TAKES_CONTEXT (R235, R237, R311, R472, R517) -/

/-- The endpoint EID named first by the stages of a share, and the port that the routes give it. -/
def shareHint (s : State) (x : Ctx) : Nat :=
  ((x.share.stages.zipIdx.filterMap (fun d =>
    let y := { x with stage := d.2 }
    if dOp d.1 = 7 || (fabricOperands y d.1).any (fun o => !isOwnEid s (o.1 / 2 ^ 52)) then some (stagePort s y d.1)
    else none)).head?).getD 0x7F

/-- A core takes commands from its queue. -/
def takesCommands (s : State) (core : Nat) : Bool :=
  let y := tget {} s.eng.cores core
  y.map = .inService && !y.switchWait && !y.inReset && !pendingAt s (0x00040000 + 4 * core) && !frozen s

/-- The share at the head of a core's queue takes the lowest free context: its counters start, the BEGIN entry is
written, and it arrives at the gate of its first stage. -/
def takeContext (core : Nat) (s : State) : State :=
  let y := tget {} s.eng.cores core
  match y.queue, (List.range (2 ^ ctxLog s core)).find? (fun k => (ctxOf s core k).isNone) with
  | sh :: rest, some k =>
    let x : Ctx := { share := sh, stage := sh.startStage, phase := .running, beginPos := s.time.pos, progress := startPoint sh }
    let hint := shareHint s x
    let x := { x with portHint := hint, flits0 := portFlits s hint sh.tenant }
    let s := putCtx core k (some x) (modCore core (fun y => { y with queue := rest }) s)
    stageStart core k (gateArrive core k x (traceEntry 1 0 core k sh.startStage x s))
  | _, _ => s

def execShareTakesContext (core : Nat) (s : State) : Host.Outcome State Fault Refusal :=
  .next (if takesCommands s core then settleHome (settleStops allContexts (takeContext core s)) else s)

/-! ### ENGINE_READ_RESPONSE (R230, R417) -/

/-- The tracker of a context's `k`-th outstanding pool read, and its line. -/
def readTracker (s : State) (core ctx k : Nat) : Option Tracker :=
  ((ctxOf s core ctx).bind (fun x => (x.reads.filter (fun r => r.tag.isNone))[k]?)).bind (fun r =>
    s.coh.trackers.find? (fun t => t.who == .engine core ctx && t.hdr.code == 0x01 && t.hdr.tag == readKey r))

/-- ENGINE_READ_RESPONSE (R27, R231, R417): a line that a context reads from the pool arrives in its turn: the home serves it,
and further reads are issued. -/
def execEngineReadResponse (core ctx k : Nat) (f : Fetches) (s : State) : Host.Outcome State Fault Refusal :=
  match readTracker s core ctx k with
  | none => .next s
  | some t =>
    let mine : Bool := match busyOf s t.firstLine with
      | some b => b.phase == .fetching && b.job.any (fun j => j.tracker == t.id)
      | none => false
    .next (if mine then settleHome (pumpReads core 4096 (takeLine t.firstLine f s)) else s)

/-! ### Stage end, share end (R241, R278, R300, R301, R308 to R311, R315) -/

/-- Signals of a stage that ended OK: the remote ones, the knot of its header, its post flag. DESIGN CHOICE (log entry 174): in a
gang of several cores each core sends the remote signal of its own stage, one with an empty share too. -/
def stageSignals (core : Nat) (x : Ctx) (s : State) : State :=
  let d := stageLine x
  let t := x.share.tenant
  let s := match dOp d with
    | 2 => if bit (lineNat d 40 1) 2 then signalTo (coreQuadrant core) (dW d 16 / 2 ^ 52) (lineNat d 42 2) t s else s
    | 7 =>
      if lineNat d 42 1 % 2 = 1 && x.failStatus = 0 then
        let (tag, s) := newTag s
        replicate (lineNat d 40 2) { code := 0x0A, mcast := true, epoch := s.sw.active,
                                          group := lineNat d 40 2, knot := lineNat d 44 2, tag := tag } [] t s
      else s
    | _ => s
  let s := if dSignal d then
    (if knotTenant s (dKnot d) == some t then knotIncrement (dKnot d) 1 s else knotDiscard (dKnot d) s) else s
  match (gateOf x).post with
  | some f => setFlag core f s
  | none => s

/-- Whether a stage has done all its work: every tile, every write acknowledged; a MERGE's lists taken. -/
def stageDone (x : Ctx) : Bool :=
  x.writes = [] && x.started && (match x.phase with
    | .running => x.tilesDone && x.tileLen = 0
    | .merging r => r = 3
    | _ => false)

/-- A stage ends: with a failed member its status, otherwise its signals; then the next stage's gate, or the share's
end. -/
def stageEnd (core k : Nat) (s : State) : State :=
  match ctxOf s core k with
  | none => s
  | some x =>
    if !stageDone x then s
    else if x.failStatus != 0 then stopCtx core k x.failStatus s
    else
      let s := stageSignals core x s
      match ctxOf s core k with
      | none => s
      | some x =>
        if x.stage + 1 < x.share.stages.length then
          let y := { x with stage := x.stage + 1, phase := .running, started := false, passed := false,
                             tilesDone := false, progress := 0 }
          stageStart core k (gateArrive core k y (putCtx core k (some y) s))
        else endShare core k stOK s

/-- ENGINE_WRITE_ACK (R245): the oldest write that its destination has written is acknowledged; the stage may end. -/
def execEngineWriteAck (core ctx : Nat) (s : State) : Host.Outcome State Fault Refusal :=
  match ctxOf s core ctx with
  | none => .next s
  | some x =>
    if frozen s then .next s
    else
      let s := match x.writes.find? (fun w => w.ready) with
        | some w =>
          let n := x.linesWritten + (if w.kind = 2 then w.bytes / 128 else 1)
          putCtx core ctx (some { x with writes := x.writes.erase w, linesWritten := n }) s
        | none => s
      .next (settleHome (settleStops allContexts (stageEnd core ctx s)))

/-! ### MERGE (R295 to R297) -/

/-- The context of a gang on a core. -/
def gangCtx (s : State) (gang core : Nat) : Option (Nat × Ctx) :=
  (coreCtxs (tget {} s.eng.cores core)).find? (fun c => c.2.share.gang == gang)

/-- Every core whose lists come to this one in the MERGE of a stage has handed them over or takes no part. -/
def subtreeIn (g : Gang) (stage i : Nat) : Bool :=
  (g.members.map (· - g.first)).all (fun j =>
    !gangAlive g j || effParent g 12 j != some i || g.merged.contains (stage, j))

/-- Where a MERGE's result goes where it lies at an endpoint (R296). -/
def mergeTarget (s : State) (x : Ctx) : Option Nat :=
  let d := stageLine x
  let a := dW d 16
  if x.share.index = 0 && lineNat d 26 1 % 2 = 1 && !isOwnEid s (a / 2 ^ 52) then some (a / 2 ^ 52) else none

/-- Send what the windows toward its endpoint allow of a MERGE's result, which waits in `carry` (R391, R392). -/
def mergeSend (core k : Nat) (x : Ctx) (s : State) : State :=
  let d := stageLine x
  let a := dW d 16 + scanBatch (prevStage x) * 8 * lineNat d 24 2 - x.carry.length
  let room := ((mergeTarget s x).map (roomFor s core)).getD 0
  let n := if room = 0 then 0 else 128 * room - a % 128
  let rest := x.carry.drop n
  issueBytes core k 1 a (x.carry.take n)
    (putCtx core k (some { x with carry := rest, phase := if rest = [] then .merging 3 else .merging 4 }) s)

/-- The lists are complete: they are written, offered to the parent, or are the gang's result (R296), which goes to an endpoint as
its windows allow. -/
def mergeOut (core k : Nat) (x : Ctx) (s : State) : State :=
  let d := stageLine x
  let p := prevStage x
  let n := scanBatch p
  let i := x.share.index
  let r := listRegion p i 0 n
  let lists := fun (kk : Nat) => (List.range n).flatMap (fun j => listBytes p kk ((x.lists.getD j none).getD []))
  let alone := match gangOf s x.share.gang with
    | some g => (effParent g 12 i).isNone
    | none => true
  let x := { x with phase := .merging (if alone then 3 else 2), tilesDone := true, tileLen := 0,
                    res0 := if i = 0 then x.share.size - 1 - x.arrived.length else 0 }
  let s := issueBytes core k 0 r.1 (lists (scanK p)) (putCtx core k (some x) s)
  if i != 0 then s
  else match mergeTarget s x, ctxOf s core k with
    | some _, some x => if x.phase = .merging 3 then mergeSend core k { x with carry := lists (lineNat d 24 2) } s else s
    | some _, none => s
    | none, _ => issueBytes core k (lineNat d 26 1 % 2) (dW d 16) (lists (lineNat d 24 2)) s

/-! ### Scratch checks (R262 to R265) -/

/-- The stage's current pass starts again from its first tile; a MERGE takes its lists again, its own and those that it has
merged, from the list area (R263, R298; log entry 179). -/
def restartPass (s : State) (core : Nat) (x : Ctx) : Ctx :=
  let d := stageLine x
  let y := firstTile x d
  if dOp d = 5 then
    let (j, m) := passOf s core x d
    { y with tileOff := 0, tilesDone := false, pass := x.pass, passMark := x.passMark, res0 := x.passMark.1, res1 := x.passMark.2,
             trans := [], walkFaults := [], stop := none,
             lists := x.lists.zipIdx.map (fun e => if j ≤ e.2 && e.2 < j + m then some [] else e.1) }
  else
    { y with lists := if dOp d = 6 then x.lists.map (fun _ => none) else x.lists, trans := [], walkFaults := [], stop := none }

/-- Set bits of some bytes. -/
def bitCount (bs : List Byte) : Nat := bs.foldl (fun n b => n + (List.range 8).countP (fun i => b.getLsbD i)) 0

/-- Destination bytes that are not yet issued are computed again from their source tiles (R263): the stage goes back to the item at
which PROGRESS stands. COMPARE counts the matches among them again. -/
def redoTile (x : Ctx) : Ctx :=
  let d := stageLine x
  let (e, skip) := resumeAt d x.progress
  let x := { x with tileOff := e, skip := skip, carry := [], held := [], lines := [], wanted := [], reads := [], tileLen := 0, aheadLen := 0,
                    trans := [], walkFaults := [], stop := none, tilesDone := false,
                    res0 := if dOp d = 3 then x.res0 - bitCount x.carry else x.res0 }
  if dOp d = 3 && (shareItems d x.share.index x.share.size).1 + e ≤ x.res1 then { x with res1 := 0xFFFFFFFF } else x

/-- What rung 1 makes of a context (R263): partial results held across tiles restart the pass, unissued destination bytes their
tile, and operands are read again. -/
def recomputeCtx (s : State) (core : Nat) (x : Ctx) : Ctx :=
  let d := stageLine x
  if !heldSound x then
    if dOp d = 3 || (dOp d = 4 && !isScalar d) then redoTile x else restartPass s core x
  else { x with lines := [], wanted := [], reads := [], tileLen := 0, aheadLen := 0, trans := [], walkFaults := [], stop := none }

/-- The error record of a mismatch, and its count. -/
def mismatchRecord (core rung : Nat) (s : State) : State :=
  errWrite { seq := 0, domain := 2, source := 1, rung := rung, escalated := rung != 1 || beingHandled s 2 core, tenant := engineTenant s core, unitKind := 2,
             unit := core } (coreQuadrant core) (core / 128) s

/-- A scratch line of a context fails its check: rung 1 recomputes its content, rung 2 zeroes the partition and restarts
the pass, rung 3 resets the core. -/
def scratchMismatch (core k : Nat) (x : Ctx) (s : State) : State :=
  match x.phase with
  | .recompute 1 =>
    let s := sat (0x00044000 + 4 * core) 8 8 1 (mismatchRecord core 2 s)
    putCtx core k (some { restartPass s core x with phase := .recompute 2 }) s
  | .recompute _ =>
    let s := sat (0x00044000 + 4 * core) 0 8 1 (mismatchRecord core 3 s)
    rung3 0 core s
  | _ =>
    let s := mismatchRecord core 1 s
    dropEngineReads core k (putCtx core k (some { recomputeCtx s core x with phase := .recompute 1 }) s)

/-- MERGE_LISTS_RECEIVED (R295, R296): a child's lists reach this core and are merged into its own, once the lines that hold both
have passed their checks (R262). -/
def execMergeListsReceived (core ctx child : Nat) (s : State) : Host.Outcome State Fault Refusal :=
  match ctxOf s core ctx with
  | none => .next s
  | some x => match gangOf s x.share.gang with
    | none => .next s
    | some g => match gangCtx s g.id (g.first + child) with
      | none => .next s
      | some (k', y) =>
        if frozen s || x.stage != y.stage || x.phase != .merging 1 || y.phase != .merging 2 || effParent g 12 child != some x.share.index then .next s
        else if !heldSound x then .next (settleHome (scratchMismatch core ctx x s))
        else if !heldSound y then .next (settleHome (scratchMismatch (g.first + child) k' y s))
        else
          let p := prevStage x
          let lists := x.lists.zipIdx.map (fun e =>
            some (((y.lists.getD e.2 none).getD []).foldl (fun l v => insertEntry p (scanK p) v l) (e.1.getD [])))
          let x := { x with lists := lists, arrived := (x.arrived ++ child :: y.arrived).dedup }
          let s := putCtx core ctx (some (keepPartials s core ctx x (stageLine x)))
            (modGang g.id (fun g => { g with merged := g.merged ++ [(x.stage, child)] }) s)
          let s := putCtx (g.first + child) k' (some { y with phase := .merging 3 }) s
          .next (settleHome (settleStops allContexts (stageEnd (g.first + child) k' s)))

/-- SCRATCH_RECOMPUTE_COMPLETE (R263 to R266): the context goes on with its content recomputed. -/
def execScratchRecomputeComplete (core ctx : Nat) (s : State) : Host.Outcome State Fault Refusal :=
  match ctxOf s core ctx with
  | none => .next s
  | some x => match x.phase with
    | .recompute rung =>
      let back : CtxPhase := if dOp (stageLine x) = 6 && x.lists.length = scanBatch (prevStage x) && x.lists.all Option.isSome then
        .merging 1 else .running
      let s := putCtx core ctx (some { x with phase := back, recomputes := x.recomputes + b2n (rung = 1) }) s
      let s := if rung = 1 then sat (0x00044000 + 4 * core) 16 16 1 s else s
      .next (settleHome (stageStart core ctx s))
    | _ => .next s

/-! ### ARITH_SLICE_END (R236) -/

/-- A context is ready: its tile's operands are in scratch, or a MERGE's lists are complete, or a window has room for more of its
result. -/
def ctxReady (s : State) (core : Nat) (x : Ctx) : Bool :=
  match x.phase with
  | .running => tileReady s core x
  | .merging 1 => (match gangOf s x.share.gang with
    | some g => subtreeIn g x.stage x.share.index
    | none => true)
  | .merging 4 => (mergeTarget s x).any (fun eid => roomFor s core eid != 0)
  | _ => false

/-- The next ready context after the one served last, round-robin. -/
def nextReady (s : State) (core : Nat) : Option (Nat × Ctx) :=
  let y := tget {} s.eng.cores core
  ((List.range 8).map (fun i => (y.turn + i) % 8)).findSome? (fun k => match ctxOf s core k with
    | some x => if ctxReady s core x then some (k, x) else none
    | none => none)

/-- A scratch line of a core is upset: where it holds content, one bit of it turns over, which one is free. While a context
recomputes its content, the line fails its check again (R265). -/
def scratchUpset (core l : Nat) (s : State) : State :=
  let k := partitionWith (ctxLog s core) l
  match ctxOf s core k with
  | none => s
  | some x => match x.phase with
    | .recompute _ => scratchMismatch core k x s
    | _ =>
      let (n, s) := draw s
      putCtx core k (some (upsetLine l n x)) s

/-- The arithmetic unit serves the next ready context, once the lines that it reads have passed their checks (R236, R262). -/
def serveNext (core : Nat) (s : State) : State :=
  match nextReady s core with
  | none => s
  | some (k, x) =>
    let s := modCore core (fun y => { y with turn := (k + 1) % 8 }) s
    if !linesSound x || !heldSound x then scratchMismatch core k x s
    else match x.phase with
      | .merging 1 => mergeOut core k x s
      | .merging _ => mergeSend core k x s
      | _ => serveCtx core k x s

/-- ARITH_SLICE_END: `badLine` is a scratch line, 0 to 4,095, that is upset; then the arithmetic unit serves the next ready
context for one slice. -/
def execArithSliceEnd (core : Nat) (badLine : Option Nat) (s : State) : Host.Outcome State Fault Refusal :=
  if frozen s then .next s
  else
    let s := match badLine with
      | some l => scratchUpset core l s
      | none => s
    .next (settleHome (settleStops allContexts (serveNext core s)))

/-! ### Banks and gates (R323, R472) -/

/-- ENGINE_BANK_SWITCH (R472): a core that has no running context makes its staging bank active. -/
def execEngineBankSwitch (core : Nat) (s : State) : Host.Outcome State Fault Refusal :=
  let y := tget {} s.eng.cores core
  .next (if y.switchWait && runningCtxs s core = 0 then modCore core (fun y => { y with switchWait := false }) s else s)

/-- GATE_TIMEOUT (R323): a context that has waited TIMEOUT × 16 marks at its gate ends REVOKED. DESIGN CHOICE (log entry 95):
DETAIL0 of the record, for which the spec names no detail, is the context's number. -/
def execGateTimeout (core ctx : Nat) (s : State) : Host.Outcome State Fault Refusal :=
  match ctxOf s core ctx with
  | none => .next s
  | some x => match x.phase with
    | .gate since =>
      if plmc s < since + 16 * (gateOf x).timeout then .next s
      else
        let s := recordError { seq := 0, domain := 5, source := 1, rung := 0, tenant := some x.share.tenant, unitKind := 2, unit := core,
                               detail0 := ctx } (coreQuadrant core) 0 s
        let s := sat (0x000E0100 + 4 * x.share.tenant) 16 16 1 s
        .next (settleHome (stopCtx core ctx stREVOKED s))
    | _ => .next s

end Sys2Proof.Machine
end

