-- ==== Sys2Proof/Machine/EngineCmds.lean ====
section
/-! DEFINITION. The commands of the engines (R187, R208, R240 to R247, R292 to R294, R319, R476). -/
namespace Sys2Proof.Machine

/-! ### Stores (R240, R293) -/

/-- A program ID is in use by a queued or running command. -/
def programInUse (s : State) (t id : Nat) : Bool :=
  let names := fun (sh : Share) => sh.tenant == t && sh.stages.any (fun d => dOp d = 5 && scanFilter d && scanProgram d = id)
  s.eng.cores.any (fun e => e.2.queue.any names || (coreCtxs e.2).any (fun y => names y.2.share))

/-- Consecutive groups of `n` bytes as numbers. -/
def wordsOf (n k : Nat) (bs : List Byte) : List Nat := (List.range k).map (fun i => ofLe ((bs.drop (n * i)).take n))

/-- Rows of bytes as lines. -/
def imageLines (k : Nat) (bs : List Byte) : List Line := (List.range k).map (fun i => lineOf ((bs.drop (128 * i)).take 128))

/-- LOAD_PROGRAM (R292, R293): the image is read by TVA, clamped, checked, measured and stored. -/
def execLoadProgram (c : Cmd) (s : State) : Host.Outcome State Fault Refusal :=
  let tva := pnum c.params 0 8 % 2 ^ 57 / 128 * 128
  let id := min 63 (pnum c.params 8 1)
  let n := clampTo 1 768 (pnum c.params 10 2)
  let r := clampTo 4 256 (pnum c.params 12 2 / 4 * 4)
  let echo := le 8 tva ++ le 1 id ++ zeros 1 ++ le 2 n ++ le 2 r ++ zeros 2
  let lines := (n + 31) / 32
  let res := fun (digest : List Byte) (fault word code : Nat) => digest ++ le 8 fault ++ le 2 word ++ le 1 code ++ zeros 1
  .next (whenReadable c.tenant lines tva (kcpNow 0x401 c echo (fun s =>
    if programInUse s c.tenant id then (stBUSY, res (zeros 32) 0 0 0, s)
    else match readByTva c.tenant lines tva [] s with
      | (.fault a _ _ _, s) => (stFAULT, res (zeros 32) a 0 0, s)
      | (.refused st a, s) => (st, res (zeros 32) a 0 0, s)
      | (.wait, s) => (stBUSY, res (zeros 32) 0 0 0, s)
      | (.bytes bs, s) => match checkProgram (wordsOf 4 n bs) r with
        | .error (w, code) => (stDENIED, res (zeros 32) 0 w code, s)
        | .ok ws =>
          let d := sm3 (ws.flatMap (le 4) ++ le 2 r)
          let p : Program := { words := ws, rowBytes := r, digest := d, loadedAt := fmt s }
          (stOK, res (digestBytes d) 0 0 0,
            { s with eng.programs := tset none s.eng.programs (storeKey c.tenant id) (some p) }))) s)

/-- LOAD_CHAIN (R239, R240, R294, R313): the image is read by TVA, clamped, measured and stored; the ID's gates and post
flags go. -/
def execLoadChain (c : Cmd) (s : State) : Host.Outcome State Fault Refusal :=
  let tva := pnum c.params 0 8 % 2 ^ 57 / 128 * 128
  let id := min 63 (pnum c.params 8 1)
  let n := clampTo 1 16 (pnum c.params 9 1)
  let res := fun (digest : List Byte) (fault : Nat) => digest ++ le 8 fault
  .next (whenReadable c.tenant n tva (kcpNow 0x402 c (le 8 tva ++ le 1 id ++ le 1 n ++ zeros 2) (fun s =>
    if chainInUse s c.tenant id then (stBUSY, res (zeros 32) 0, s)
    else match readByTva c.tenant n tva [] s with
      | (.fault a _ _ _, s) => (stFAULT, res (zeros 32) a, s)
      | (.refused st a, s) => (st, res (zeros 32) a, s)
      | (.wait, s) => (stBUSY, res (zeros 32) 0, s)
      | (.bytes bs, s) =>
        let stages := clampStages 1 (imageLines n bs)
        if !mergesFollow stages then (stDENIED, res (zeros 32) 0, s)
        else
          let d := sm3 (stages.flatMap lineBytes)
          let ch : Chain := { stages := stages, digest := d, loadedAt := fmt s }
          (stOK, res (digestBytes d) 0, { s with eng.chains := tset none s.eng.chains (storeKey c.tenant id) (some ch) }))) s)

/-! ### SUBMIT and RESTART (R187, R242, R243, R246) -/

/-- The effective parameters of SUBMIT. -/
structure Submit where
  first : Nat
  count : Nat
  chain : Nat
  inl : Bool
  restartCore : Nat
  desc : Line

/-- SUBMIT's parameter map, clamped. -/
def submitOf (ps : List Byte) : Submit :=
  let first := min 2047 (pnum ps 0 2)
  let inl := pbit ps 5 0
  { first := first, count := min (clampTo 1 2048 (pnum ps 2 2)) (2048 - first), chain := min 63 (pnum ps 4 1), inl := inl,
    restartCore := pnum ps 6 2, desc := if inl then clampDesc 1 (lineOf ((ps.drop 16).take 128)) else 0 }

/-- The 144-byte map, with a value for RESTART_CORE. -/
def submitBytes (p : Submit) (restart : Nat) : List Byte :=
  le 2 p.first ++ le 2 p.count ++ le 1 p.chain ++ le 1 (b2n p.inl) ++ le 2 restart ++ zeros 8 ++ lineBytes p.desc

/-- CHECK of a restart descriptor (R185, R187). -/
def submitCheck (p : Submit) : Nat := ofLe ((digestBytes (sm3 (submitBytes p 0))).drop 24)

/-- The stages that a SUBMIT runs and their gates: the chain stored under its ID, or its inline descriptor. -/
def submitStages (s : State) (t : Nat) (p : Submit) : Option (List Line × Tbl Gate) :=
  if p.inl then (if dOp p.desc = 6 then none else some ([p.desc], []))
  else (tget none s.eng.chains (storeKey t p.chain)).map (fun ch => (ch.stages, ch.gates))

/-- Bight lines of the gates of some stages. -/
def bightLines (gates : Tbl Gate) (n : Nat) : List Nat :=
  (gates.filterMap (fun e => if e.2.kind = 4 && e.1 < n then some e.2.select else none)).dedup

/-- A core stands behind no unit (R476). -/
def coreGone (s : State) (c : Nat) : Bool := let y := tget {} s.eng.cores c; y.map = .lost || y.absent

/-- A core's queue holds 32 commands (R237). -/
def queueFull (s : State) (c : Nat) : Bool := 32 ≤ (tget {} s.eng.cores c).queue.length

/-- Queue shares of one command on its cores as one gang, which holds its bight lines (R243, R318). -/
def queueGang (first size : Nat) (cores : List Nat) (base : Share) (s : State) : State :=
  let id := s.eng.nextGang
  let lines := bightLines base.gates base.stages.length
  let g : Gang := { id := id, tenant := base.tenant, first := first, count := size, members := cores, lines := lines }
  let ahead := fun (l : Nat) => base.gates.any (fun e => e.2.kind == 4 && e.2.select == l && base.startStage ≤ e.1 &&
    e.1 < base.stages.length)
  let low := (lines.filter ahead).flatMap (fun l => cores.map (fun c => (l, c)))
  let s := { s with eng.nextGang := id + 1, eng.gangs := s.eng.gangs ++ [g],
                    belay.holders := lines.foldl (fun t l => tset 0 t l id) s.belay.holders,
                    belay.low := s.belay.low ++ low }
  cores.foldl (fun s c => modCore c (fun y => { y with queue := y.queue ++ [{ base with gang := id, index := c - first, size := size }] }) s) s

/-- One core's queueing is a once step, journalled for each core of the gang (R499). -/
def journalQueue (c : Cmd) (cores : List Nat) (s : State) : State :=
  cores.foldl (fun s k => writeJournal { session := c.session, seq := c.seq, step := .queue k, once := true } s) s

/-- A stage signals a knot that is not the caller's (R242). -/
def badSignal (s : State) (t : Nat) (stages : List Line) : Bool :=
  stages.any (fun d => dSignal d && knotTenant s (dKnot d) != some t)

/-- SUBMIT (R242, R243, R319, R476). -/
def execSubmit (c : Cmd) (s : State) : Host.Outcome State Fault Refusal :=
  let p := submitOf c.params
  let cores := (List.range p.count).map (p.first + ·)
  let t := c.tenant
  .next (kcpNow 0x403 c (submitBytes p p.restartCore) (fun s =>
    match submitStages s t p with
    | none => (stDENIED, [], s)
    | some (stages, gates) =>
      if cores.any (fun k => engineTenant s k != some t && !coreGone s k) || badSignal s t stages then (stDENIED, [], s)
      else if cores.any (coreGone s) then (stDEGRADED, zeros 4, s)
      else if cores.any (queueFull s) || (bightLines gates stages.length).any (fun l => tget 0 s.belay.holders l != 0) then
        (stBUSY, zeros 4, s)
      else
        let sh : Share := { gang := 0, origin := { kind := 0, session := c.session, seq := c.seq }, tenant := t, index := 0,
                            size := p.count, first := p.first, chainId := if p.inl then none else some p.chain,
                            stages := stages, gates := gates, check := submitCheck p, origSeq := c.seq }
        (stOK, le 2 p.count ++ zeros 2, queueGang p.first p.count cores sh (journalQueue c cores s))) s)

/-- RESTART (R187, R246): one core's share goes on from a restart descriptor. -/
def execRestart (c : Cmd) (s : State) : Host.Outcome State Fault Refusal :=
  let stage := pnum c.params 8 1
  let progress := pnum c.params 16 8
  let check := pnum c.params 24 8
  let orig := pnum c.params 0 8
  let p := submitOf (c.params.drop 32)
  let core := clampTo p.first (p.first + p.count - 1) p.restartCore
  let t := c.tenant
  let echo := le 8 orig ++ le 1 stage ++ zeros 7 ++ le 8 progress ++ le 8 check ++ submitBytes p core
  .next (kcpNow 0x405 c echo (fun s =>
    match submitStages s t p with
    | none => (stDENIED, [], s)
    | some (stages, gates) =>
      if check != submitCheck p || stages.length ≤ stage then (stDENIED, [], s)
      else if (engineTenant s core != some t && !coreGone s core) || badSignal s t stages then (stDENIED, [], s)
      else if (List.range p.count).any (fun i => coreGone s (p.first + i)) then (stDEGRADED, [], s)
      else if queueFull s core || (bightLines gates stages.length).any (fun l => tget 0 s.belay.holders l != 0) then (stBUSY, [], s)
      else
        let sh : Share := { gang := 0, origin := { kind := 1, session := c.session, seq := c.seq }, tenant := t, index := 0,
                            size := p.count, first := p.first, chainId := if p.inl then none else some p.chain,
                            stages := stages, gates := gates, startStage := stage, startProgress := progress,
                            check := check, origSeq := orig }
        (stOK, [], queueGang p.first p.count [core] sh (journalQueue c [core] s))) s)

/-! ### CANCEL (R247) -/

/-- A share belongs to a command of a session. -/
def ofCommand (session seq : Nat) (o : Origin) : Bool := o.kind != 2 && o.session == session && o.seq == seq

/-- A running context that a CANCEL stops. -/
def cancels (session seq : Nat) (x : Ctx) : Bool :=
  ofCommand session seq x.share.origin && (match x.phase with
    | .stopping _ => false
    | _ => true)

/-- Stop the shares of a command on one core; how many there were. -/
def cancelOn (session seq core : Nat) (a : Nat × State) : Nat × State :=
  let y := tget {} a.2.eng.cores core
  let queued := y.queue.filter (fun sh => ofCommand session seq sh.origin)
  let running := (coreCtxs y).filter (fun x => cancels session seq x.2)
  let s := queued.foldl (fun s sh => endQueued core sh stREVOKED s) a.2
  let s := running.foldl (fun s x => stopCtx core x.1 stREVOKED s) s
  (a.1 + queued.length + running.length, s)

/-- CANCEL: the reply waits for writes already issued. -/
def execCancel (c : Cmd) (s : State) : Host.Outcome State Fault Refusal :=
  let seq := pnum c.params 0 8
  let core := pnum c.params 8 2
  let core := if core = 0xFFFF then core else min 2047 core
  .next (kcpTake 0x404 c (le 8 seq ++ le 2 core ++ zeros 2) (fun s =>
    if core != 0xFFFF && coreGone s core then (.done stDEGRADED (zeros 4), s)
    else if core != 0xFFFF && engineTenant s core != some c.tenant then (.done stDENIED [], s)
    else
      let cores := if core = 0xFFFF then s.eng.cores.map (·.1) else [core]
      let (n, s) := cores.foldl (fun a k => cancelOn c.session seq k a) (0, s)
      let s := settleHome s
      let left := cores.filter (fun k => (coreCtxs (tget {} s.eng.cores k)).any (fun x => ofCommand c.session seq x.2.share.origin))
      if n = 0 || left = [] then (.done stOK (le 2 n ++ zeros 2), s) else (.later (.cancel seq left n), s)) s)

/-! ### BULK_COPY (R208) -/

/-- Shares queued and running on a core. -/
def coreLoad (s : State) (c : Nat) : Nat :=
  let y := tget {} s.eng.cores c
  y.queue.length + (coreCtxs y).length

/-- A core is bound to a tenant, in service or not. -/
def boundCore (s : State) (c t : Nat) : Bool :=
  let e := tget {} s.bind.engine c
  e.st = .bound && e.tenant = t

/-- The core that ANY takes: bound to the tenant, in the ingress port's quadrant, the least loaded, lowest number first. DESIGN
CHOICE (log entry 163): it passes over cores that are LOST or ABSENT, so that with no other the request completes DENIED. -/
def anyCore (s : State) (q t : Nat) : Option Nat :=
  ((List.range 512).map (512 * q + ·)).foldl (fun b c =>
    if engineTenant s c != some t || coreGone s c then b
    else match b with
      | none => some c
      | some d => if coreLoad s c < coreLoad s d then some c else some d) none

/-- A BULK_COPY that has been accepted at its port. -/
def takeBulkCopy (rx : RxPkt) (t : Nat) (pair : Option Nat) (s : State) : State :=
  let h := rx.hdr
  let d := rx.payload.headD 0
  let named := if h.any then anyCore s (portQuadrant rx.port) t
    else if boundCore s h.core t then some h.core else none
  if dOp d != 2 then complete h t pair stDENIED s
  else match named with
    | none => complete h t pair stDENIED s
    | some core =>
      if coreGone s core then complete h t pair stDEGRADED s
      else if queueFull s core then complete h t pair stBUSY s
      else
        let o : Origin := { kind := 2, session := h.src, seq := h.dst, tag := h.tag, port := (pair.map (· + 1)).getD 0 }
        let sh : Share := { gang := 0, origin := o, tenant := t, index := 0, size := 1, first := core, chainId := none,
                            stages := [clampDesc 1 d] }
        queueGang core 1 [core] sh s

/-- BULK_COPY: one COPY on an engine core for an endpoint. -/
def execBulkCopy (rx : RxPkt) (s : State) : Host.Outcome State Fault Refusal :=
  let rx := { rx with hdr := { rx.hdr with code := 0x09 } }
  .next (match ingress rx s with
    | .stops s => s
    | .goes rx r s =>
      let t := r.tenant
      if !isOwnEid s rx.hdr.dst || malformed rx.hdr || rx.hdr.mcast then s
      else acceptRequest rx t s (takeBulkCopy rx t))

end Sys2Proof.Machine
end

