-- ==== Sys2Proof/Machine/SwitchRows.lean ====
section
/-! DEFINITION. The switch at work (R380 to R389, R393, R399 to R401): packets sent on, multicast copies, fabric barrier
releases, forward records that time out, and the commands that load its tables. -/
namespace Sys2Proof.Machine

/-! ### Packets sent on (R81, R133, R228, R371, R380 to R382) -/

/-- The tenant whose weighted queue a packet takes: of the source EID for a request and for what a requester or holder
sends in answer, otherwise of the EID that receives the response or snoop (R394). -/
def queueTenant (s : State) (h : PktHdr) (t : Nat) : Nat :=
  if codeVc h.code != 2 || h.code = 0x45 || h.code = 0x4C || h.code = 0x4D then t
  else (eidTenant s h.dst).getD t

/-- Admission of a P1 packet between endpoints: egress slots alone, in the share of its source's tenant, from the third
mark after that of its last flit on, within the bound in force in that mark (R81, R86). -/
def admitForward (s : State) (p : Nat) (a : Arrival) (h : PktHdr) : Option (List (Nat × Nat)) :=
  if s.time.admitOpen && p1Enable s a.tenant then
    bookEgress s p a.tenant (bookedFlits s p h.granules) (a.mark + 3) (a.mark + a.bound) else none

/-- Queue a packet at its egress port; a P1 packet is admitted first, and where it is refused a request is answered
PROMISE_REFUSED and a response goes on as F. -/
def forward (rx : RxPkt) (a : Arrival) (p : Nat) (pair : Option Nat) (s : State) : State :=
  let h := rx.hdr
  let t := a.tenant
  let queue := fun (h : PktHdr) (promised : Bool) (due : Nat) (s : State) =>
    let (b, s) := takeForward rx s
    let u := queueTenant s h t
    enqueue p (queueOf s h promised u)
      { hdr := h, payload := rx.payload, tenant := u, pair := pair, due := due, buffer := b } s
  if effClass h != 1 then queue h false 0 s
  else match admitForward s p a h with
  | some eb => queue h true (a.mark + a.bound) (countP1 t true (enterBookings 0 p t [] eb s))
  | none =>
    if codeVc h.code = 1 then complete h t pair stREFUSED (countP1 t false (takeArrived rx s))
    else queue { h with cls := 2 } false 0 (countP1 t false s)

/-- A request for another EID. -/
def switchRequest (rx : RxPkt) (a : Arrival) (s : State) : State :=
  let h := rx.hdr
  let t := a.tenant
  match window rx (bump t 0 1 s) with
  | .busy s => complete h t none stBUSY (bump t 8 1 (takeArrived rx s))
  | .held pair s =>
    let lost := complete h t pair stNOT_DONE (countStatus t stNOT_DONE (takeArrived rx s))
    match a.route with
    | none => lost
    | some p =>
      let other := match eidTenant s h.dst with
        | some u => u != t
        | none => false
      if !portUp s p then lost
      else if other then complete h t pair stDENIED (countDenied t (takeArrived rx s))
      else forward rx a p pair s

/-- The window entry of a pool request that its owner answers itself: the entry goes with the FWD_DATA (R219, R390). -/
def forwardedPair (h : PktHdr) (s : State) : Option Nat × State :=
  match s.coh.trackers.find? (fun k => k.forwarded && (match k.who with
      | .link _ eid tag => eid == h.dst && tag == h.tag
      | _ => false)) with
  | some k => (k.pair, modTracker k.id (fun x => { x with pair := none }) s)
  | none => (none, s)

/-- FWD_DATA that a holder of a line of this home passes on poisoned: the home stores the line poisoned too (R220). The
home knows the line as its own by an entry or a snoop that names one of the two EIDs. -/
def poisonPassed (rx : RxPkt) (s : State) : State :=
  let h := rx.hdr
  let line := lineOfPpa (h.addr % 2 ^ 41)
  let named := match dirOf s line with
    | some d => d.ptrs.contains h.src || d.ptrs.contains h.dst
    | none => crossing s line h.src
  match extentAt s (h.addr % 2 ^ 41) with
  | some e => if h.code = 0x44 && h.poison && named then homeWrite e.tenant line (rx.payload.headD 0) true true s else s
  | none => s

/-- A response or snoop for another EID: it passes its forward record, and is discarded and counted where it cannot go
on. FWD_DATA from a holder that stayed silent is discarded (R226). -/
def switchResponse (rx : RxPkt) (a : Arrival) (s : State) : State :=
  let h := rx.hdr
  if h.code = 0x44 && s.coh.silent.contains (h.src, lineOfPpa h.addr) then countLate a.tenant (takeArrived rx s)
  else match passBack rx.port h (poisonPassed rx s) with
  | .late s => takeArrived rx s
  | .goes pair s =>
    let (own, s) := if h.code = 0x44 then forwardedPair h s else (none, s)
    let pair := pair.or own
    match a.route with
    | none => freePair pair (countDrop rx.port (takeArrived rx s))
    | some p =>
      if !portUp s p then freePair pair (countDrop rx.port (takeArrived rx s)) else forward rx a p pair s

/-- A packet for another EID has been accepted at its port. -/
def switchPacket (rx : RxPkt) (a : Arrival) (s : State) : State :=
  match codeVc rx.hdr.code with
  | 1 => switchRequest rx a s
  | 2 => switchResponse rx a s
  | _ =>
    match a.route with
    | some p => if portUp s p then forward rx a p none s else countDrop rx.port (takeArrived rx s)
    | none => countDrop rx.port (takeArrived rx s)

/-- A packet goes through its port (R135, R398): CTL packets are switched in a global stop too. -/
def ingressCtl (rx : RxPkt) (s : State) : Ingress :=
  if rx.hdr.code = 0x80 && stopped s && !s.err.fatal && serving s && receivable s rx then
    let (rx, s) := stamped rx s
    let (a, s') := arrive rx s
    if a.carried then .goes rx a s' else .stops (bumpDev 0 1 (takeArrived rx s))
  else ingress rx s

/-! ### Cut-through (R381) -/

/-- The packet that is being received on a port, and not yet sent on, is the one that a command names. -/
def receiving (s : State) (rx : RxPkt) : Option Arrival :=
  match (portOf s rx.port).rx.head with
  | some (h, a) => if h = rx.hdr && !a.started && a.carried && (waitingPkt s rx).isNone then some a else none
  | none => none

/-- A packet whose header has been accepted is sent on before its last flit is there. One that does not go on waits
until it is whole; so does a P1 packet, whose admission is measured from its last flit. -/
def sendEarly (rx : RxPkt) (a : Arrival) (go : RxPkt → State → State) (s : State) : State :=
  let b := (rx.port, a.place)
  let t := go rx (keepPacket rx a s)
  if placeHeld t b then
    modPort rx.port (fun x => { x with rx.head := some (rx.hdr, { a with started := true }) })
      (mapCopies b (fun k => { k with arriving := true }) t)
  else s

/-- PACKET_SWITCHED (R36, R207, R380, R381): a packet for an EID that is not the device's own. -/
def execPacketSwitched (rx : RxPkt) (s : State) : Host.Outcome State Fault Refusal :=
  .next (if rx.hdr.code = 0 || malformed rx.hdr || rx.hdr.mcast || isOwnEid s rx.hdr.dst then s
    else match receiving s rx with
    | some a =>
      if (stopped s && rx.hdr.code != 0x80) || s.err.fatal || !serving s || effClass rx.hdr = 1 || overtakes s rx a ||
         !networkTurn s rx a then s
      else sendEarly rx a (fun rx s => crossed rx a (switchPacket rx a s)) s
    | none => match ingressCtl rx s with
      | .stops s => s
      | .goes rx a s =>
        if !overtakes s rx a && networkTurn s rx a then crossed rx a (switchPacket rx a s) else keepFresh rx a s)

/-! ### Multicast (R386 to R389) -/

/-- A multicast packet that the switch accepts. -/
def mcastAccepted (s : State) (rx : RxPkt) : Bool :=
  (portOf s rx.port).partnerClass = 2 && (groupTenant s rx.hdr.group).isSome && (rx.hdr.code = 0x04 || rx.hdr.code = 0x0A)

/-- One copy of a multicast packet at every other port of the mask read at its header that is in STATE 2; the copies share
the packet's place in the receive buffer. -/
def copyOut (rx : RxPkt) (a : Arrival) (s : State) : State :=
  let ports := (List.range 96).filter (fun p => bit a.mask p && p != rx.port && portUp s p)
  if ports = [] then takeArrived rx s
  else
    let (b, s) := takeForward rx s
    ports.foldl (fun s p => enqueue p (2 + tenantQueue s a.tenant)
      { hdr := { rx.hdr with cls := 2 }, payload := rx.payload, tenant := a.tenant, buffer := b } s) s

/-- A multicast packet arrives: a barrier release passes here first (R321), then the switch replicates it. -/
def multicastIn (rx : RxPkt) (s : State) : State :=
  if !rx.hdr.mcast || malformed rx.hdr then s
  else match receiving s rx with
  | some a => if frozen s || !serving s || rx.hdr.code = 0x0A || !mcastAccepted s rx || !networkTurn s rx a then s else
      sendEarly rx a (fun rx s => crossed rx a (copyOut rx a s)) s
  | none => match ingress rx s with
    | .stops s => s
    | .goes rx a s =>
      if !mcastAccepted s rx then bumpDev 5 1 (countDrop rx.port (takeArrived rx s))
      else if !networkTurn s rx a then keepFresh rx a s
      else
        let s := crossed rx a s
        let s := if rx.hdr.code = 0x0A && rx.hdr.barrier then fbarReleaseHere rx.hdr.group s else s
        copyOut rx a s

/-- MCAST_REPLICATE (R387). -/
def execMcastReplicate (rx : RxPkt) (s : State) : Host.Outcome State Fault Refusal := .next (multicastIn rx s)

/-- FBAR_RELEASE (R321): the multicast SIGNAL with the BARRIER flag that comes down from the parent. -/
def execFbarRelease (rx : RxPkt) (s : State) : Host.Outcome State Fault Refusal :=
  .next (if rx.hdr.code = 0x0A && rx.hdr.barrier then multicastIn rx s else s)

/-! ### Forward records (R393) -/

/-- FWD_RECORD_TIMEOUT: the record is freed and its requester answered; BULK_COPY is exempt. -/
def execFwdRecordTimeout (port src tag : Nat) (s : State) : Host.Outcome State Fault Refusal :=
  match s.sw.fwd.find? (fun f => f.port == port && f.src == src && f.tag == tag) with
  | none => .next s
  | some f =>
    if f.code = 0x09 || plmc s < f.since + fwdTimeout s then .next s
    else
      let s := { s with sw.fwd := s.sw.fwd.erase f, sw.ended := (f.src, f.tag) :: s.sw.ended.erase (f.src, f.tag) }
      let s := bumpDev 4 1 (modCong port (fun x => { x with fwdTimeouts := min 0xFFFF (x.fwdTimeouts + 1) }) s)
      .next (settleHome (issueWaiting (settleForwarded f ((0, 0), s)).2))

/-! ### Routing tables (R383 to R385) -/

/-- Write entries of a routing version from a first EID on: port + 1 where VALID. -/
def loadRoutes (ver first : Nat) (es : List Nat) (s : State) : State :=
  let put := fun (t : Tbl Nat) => es.zipIdx.foldl (fun t e => tset 0 t (first + e.2) e.1) t
  if ver = 0 then { s with sw.routes0 := put s.sw.routes0 } else { s with sw.routes1 := put s.sw.routes1 }

/-- A LOAD_ROUTES to a version is running (R384). -/
def loadRuns (s : State) (ver : Nat) : Bool := s.kcp.running.any (fun r => r.wait == .load ver)

/-- LOAD_ROUTES (R384): the entries are written, and the command runs to the next mark boundary, at which it replies (log
entry 78). -/
def execLoadRoutes (c : Cmd) (s : State) : Host.Outcome State Fault Refusal :=
  let ver := pbits c.params 0 0 1
  let first := min 4095 (pnum c.params 2 2)
  let count := min (clampTo 1 480 (pnum c.params 4 2)) (4096 - first)
  let entry := fun (i : Nat) =>
    let w := pnum c.params (8 + 2 * i) 2
    (bit w 15, min 95 (w % 128))
  let es := (List.range count).map entry
  let echo := le 1 ver ++ zeros 1 ++ le 2 first ++ le 2 count ++ zeros 2 ++ es.flatMap (fun e => le 2 (e.2 + 32768 * b2n e.1))
  .next (kcpTake 0x606 c echo (fun s =>
    if ver = s.sw.active then (.done stDENIED [], s)
    else if !s.sw.drained then (.done stBUSY [], s)
    else (.later (.load ver), loadRoutes ver first (es.map (fun e => if e.1 then e.2 + 1 else 0)) s)) s)

/-- The loads that were running end at a mark boundary. -/
def endLoads (s : State) : State :=
  (s.kcp.running.filter (fun r => r.wait == .load 0 || r.wait == .load 1)).foldl (fun s r => finish r stOK [] s) s

/-- FLIP_ROUTE_EPOCH (R383): the reply follows the flip. -/
def execFlipRouteEpoch (c : Cmd) (s : State) : Host.Outcome State Fault Refusal :=
  let ver := pbits c.params 0 0 1
  .next (kcpTake 0x607 c (le 1 ver ++ zeros 3) (fun s =>
    if ver = s.sw.active then (.done stOK (le 8 s.sw.lastFlip), s)
    else if loadRuns s ver then (.done stBUSY [], s)
    else (.later (.flip ver), { s with sw.flipTo := some ver, sw.flipAsked := fmt s })) s)

/-- ROUTE_EPOCH_FLIP_APPLY (R383): at the FMT mark boundary ACTIVE becomes VERSION, and the commands that wait reply. -/
def execRouteEpochFlipApply (s : State) : Host.Outcome State Fault Refusal :=
  match s.sw.flipTo with
  | none => .next s
  | some v =>
    if fmt s = s.sw.flipAsked then .next s else
    let s := { s with sw.active := v, sw.flipTo := none, sw.lastFlip := fmt s, sw.lastFlipLmc := lmc s,
                      sw.everFlipped := true, sw.drained := false }
    .next (boundary ((s.kcp.running.filter (fun r => r.wait == .flip v)).foldl (fun s r =>
      finish r stOK (le 8 s.sw.lastFlip) s) s))

/-- The three conditions of R385 hold together. -/
def quietOver (s : State) : Bool :=
  (!s.sw.everFlipped || s.sw.lastFlipLmc + routeQuiet s ≤ lmc s) && s.sw.lastOld + routeQuiet s ≤ lmc s && oldHeld s = 0

/-- ROUTE_DRAINED (R385). -/
def execRouteDrained (s : State) : Host.Outcome State Fault Refusal :=
  .next (if quietOver s then { s with sw.drained := true } else s)

/-! ### Groups (R386) -/

/-- A running STREAM uses a group (R300). -/
def streamUses (s : State) (g : Nat) : Bool :=
  s.sw.mcast.any (fun m => m.group == g) ||
  s.eng.cores.any (fun e => (coreCtxs e.2).any (fun x => descOp (stageLine x.2) == 7 && lineNat (stageLine x.2) 40 2 == g))

/-- SET_MCAST_GROUP. -/
def execSetMcastGroup (c : Cmd) (s : State) : Host.Outcome State Fault Refusal :=
  let g := min 4095 (pnum c.params 0 2)
  let t := pbits c.params 2 0 5
  let release := pbit c.params 2 5
  let members := clampTo 1 4095 (pnum c.params 4 2)
  let mask := pnum c.params 8 12
  let echo := le 2 g ++ le 1 (t + 32 * b2n release) ++ zeros 1 ++ le 2 members ++ zeros 2 ++ le 12 mask
  .next (kcpNow 0x608 c echo (fun s =>
    let x := tget {} s.sw.groups g
    let foreign := (List.range 96).any (fun p => bit mask p && (match portTenant s p with
      | some u => u != t
      | none => false))
    if !release && (x.assigned && x.tenant != t || foreign) then (stDENIED, [], s)
    else if streamUses s g || fbarArrived s g != 0 then (stBUSY, [], s)
    else if release then
      (stOK, [], fbarDisable g (setField (fbarReg g 0) 31 0 0
        { s with sw.groups := tset {} s.sw.groups g { x with mask := 0, assigned := false } }))
    else
      let y : Group := { mask := mask, assigned := true, tenant := t, members := members }
      (stOK, [], { s with sw.groups := tset {} s.sw.groups g y })) s)

/-! ### Congestion maps (R399, R400) -/

/-- Every port's counts are latched and start again (R399). -/
def latchMap (s : State) : State :=
  boundary { s with sw.latched := s.sw.cong, sw.cong := [], sw.intervalEnd := fmt s,
                    sw.latchedState := s.link.ports.foldl (fun t e => tset 0 t e.1 (portState e.2)) [] }

/-- CONGESTION_MAP_LATCH (R399): once at each FMT that is a multiple of MAP_INTERVAL. -/
def execCongestionMapLatch (s : State) : Host.Outcome State Fault Refusal :=
  .next (if fmt s % mapInterval s != 0 || s.sw.intervalEnd = fmt s then s else latchMap s)

/-- A port's congestion record. -/
def congestionRecord (s : State) (p : Nat) : List Byte :=
  let x := tget {} s.sw.latched p
  le 1 p ++ le 1 (tget 0 s.sw.latchedState p) ++ le 2 x.queuePeak ++ le 4 (min 0xFFFFFFFF x.flitsSent) ++ le 2 x.stalls ++
  le 2 x.windowBusy ++ le 2 x.fwdTimeouts ++ le 1 x.bookedPeak ++ le 1 x.drops

/-- READ_CONGESTION_MAP. -/
def execReadCongestionMap (c : Cmd) (s : State) : Host.Outcome State Fault Refusal :=
  let first := min 95 (pnum c.params 0 1)
  let count := min (clampTo 1 48 (pnum c.params 1 1)) (96 - first)
  .next (kcpNow 0x609 c (le 1 first ++ le 1 count ++ zeros 2) (fun s =>
    (stOK, le 8 s.sw.intervalEnd ++ (List.range count).flatMap (fun i => congestionRecord s (first + i)), s)) s)

end Sys2Proof.Machine
end

