-- ==== Sys2Proof/Machine/Link.lean ====
section
/-! DEFINITION. The link layer (R350 to R378): flits and their CRC, acceptance in order, sealed groups, replay,
acknowledgement, credits, and the egress scheduler. -/
namespace Sys2Proof.Machine

/-! ### Flits (R350, R351, R360, R361) -/

/-- The kinds of flit. -/
inductive FlitKind where
  | packet | abort | linkCtl | sealTag
deriving DecidableEq, Repr

/-- Final XOR of each kind. -/
def FlitKind.xor : FlitKind → Nat
  | .packet => 0xFFFFFFFF
  | .abort => 0xA5A5A5A5
  | .linkCtl => 0
  | .sealTag => 0x5A5A5A5A

/-- One bit of the reflected CRC-32. -/
def crc32Step (c : Nat) : Nat := if c % 2 = 1 then (c / 2) ^^^ 0xEDB88320 else c / 2

/-- One byte. -/
def crc32Byte (c : Nat) (b : Byte) : Nat :=
  crc32Step (crc32Step (crc32Step (crc32Step (crc32Step (crc32Step (crc32Step (crc32Step (c ^^^ b.toNat))))))))

/-- The CRC over bytes 0 to 259 before the final XOR. -/
def flitCrc (f : Flit) : Nat := (le 256 f.body.toNat ++ le 4 (trailer f)).foldl crc32Byte 0xFFFFFFFF

/-- A flit of a kind with its CRC. -/
def mkFlit (k : FlitKind) (seq credVc credN : Nat) (body : FlitBody) : Flit :=
  let f : Flit := { seq := seq, credVc := credVc, credN := credN, crc := 0, body := body }
  { f with crc := flitCrc f ^^^ k.xor }

/-- The kind whose constant a flit's CRC matches; none for a bad flit. -/
def kindOf (f : Flit) : Option FlitKind :=
  let c := flitCrc f
  [FlitKind.packet, .abort, .linkCtl, .sealTag].find? (fun k => c ^^^ k.xor == f.crc)

/-- Body `i` of a packet's flits. -/
def pktBody (h : PktHdr) (payload : List Line) (i : Nat) : FlitBody :=
  BitVec.ofNat 2048 (ofLe (((hdrEncode h ++ payload.flatMap lineBytes).drop (256 * i)).take 256))

/-- Header and payload of the packet whose bodies these are. -/
def pktOf (bodies : List FlitBody) : PktHdr × List Line :=
  let bs := bodies.flatMap (fun b => le 256 b.toNat)
  let h := hdrDecode (bs.take 64)
  (h, (List.range h.granules).map (fun i => lineOf (bs.drop (64 + 128 * i))))

/-- The KCP packet that a CTL packet's payload spells (R94, R125), reserved bits as sent (R448). -/
def kcpDecode (payload : List Line) : KcpPkt :=
  let bs := payload.flatMap lineBytes
  let n := pnum bs 18 2
  { version := pbits bs 0 0 4, type := pbits bs 0 4 4, unordered := pbit bs 1 0, retry := pbit bs 1 1,
    opcode := pnum bs 2 2, session := pnum bs 4 4, seq := pnum bs 8 8, tenant := pbits bs 16 0 5, paramLen := n,
    params := (bs.drop 20).take n, got := bs.length - 20, tag := pnum bs (20 + n) 32,
    spare1 := pbits bs 1 2 6, spare16 := pnum bs 16 2 / 32 }

/-! ### Ports -/

def modTx (p : Nat) (f : TxSt → TxSt) (s : State) : State := modPort p (fun x => { x with tx := f x.tx }) s
def modRx (p : Nat) (f : RxSt → RxSt) (s : State) : State := modPort p (fun x => { x with rx := f x.rx }) s

/-- The link layer of a port runs. -/
def linkRuns (s : State) (p : Nat) : Bool := serving s && portUp s p

/-- Distance of a number ahead of another. -/
def ahead (e n : Nat) : Nat := (n + seqMod - e % seqMod) % seqMod

/-- Numbers that are neither held nor already asked for count as missing: a link control flit is due at once (R358). -/
def markMissing (p : Nat) (ns : List Nat) (s : State) : State :=
  let x := (portOf s p).rx
  let new := ns.filter (fun n => !x.asked.any (fun a => a.1 == n) && !x.splice.any (fun f => f.seq == n))
  if new = [] then s
  else modTx p (fun t => { t with ctlDue := true })
    (modRx p (fun r => { r with asked := r.asked ++ new.map (fun n => (n, lmc s)), nakDue := r.nakDue ++ new }) s)

/-! ### Packets received (R125, R135, R194, R363, R365, R367, R368, R507) -/

/-- FLITS_RECEIVED of a tenant on a port. -/
def countReceived (p : Nat) (h : PktHdr) (s : State) : State :=
  match eidTenant s h.src with
  | some t => { s with ctr.received := tmod 0 s.ctr.received (32 * p + t) (fun n => (n + pktFlits h.granules) % 2 ^ 64) }
  | none => s

/-- A packet has arrived whole: it is discarded, parked, answered at once, or kept for its own command. -/
def packetWhole (p : Nat) (h : PktHdr) (payload : List Line) (a : Arrival) (s : State) : State :=
  let rx : RxPkt := { port := p, hdr := h, payload := payload }
  if h.code != 0x80 && stopped s then park' rx (keepPacket rx a s)
  else if !a.carried then bumpDev 0 1 (oweCredits p h s)
  else if h.mcast || !isOwnEid s h.dst then keepPacket rx a s
  else if h.code = 0x80 then receiveKcp (.link p h.src) none (kcpDecode payload) (oweCredits p h s)
  else if h.code < 0x40 && (h.code = 0 || 0x0A < h.code) then
    let t := a.tenant
    acceptRequest rx t (keepPacket rx a s) (fun pair s => complete h t pair stUNKNOWN s)
  else keepPacket rx a s

/-- A packet that is being sent on is there whole: its copies have all of it, and where none is left its place is free. -/
def startedWhole (p : Nat) (h : PktHdr) (payload : List Line) (a : Arrival) (s : State) : State :=
  let b := (p, a.place)
  if placeHeld s b then mapCopies b (fun k => { k with payload := payload, arriving := false, freed := a.freed }) s
  else oweRest p h a.freed s

/-- The last flit of a packet has been accepted: the packet arrives in this mark (R77, R86). -/
def lastFlit (p : Nat) (h : PktHdr) (payload : List Line) (a : Arrival) (s : State) : State :=
  if malformed h then sat (portReg p 0x18) 0 8 1 (oweCredits p h s)
  else
    let s := countReceived p h s
    if a.started then startedWhole p h payload a s
    else packetWhole p h payload { a with mark := lmc s, bound := p1Bound s a.tenant } s

/-- The header flit of a packet has been accepted: it is stamped and looked up (R380, R382, R387). -/
def headerFlit (p : Nat) (h : PktHdr) (s : State) : State :=
  let a := arrivalNow s p h
  let (h', s) := if malformed h then (h, s) else stampEpoch p h s
  modRx p (fun r => { r with head := some (h', a), occupied := vcAdd (codeVc h.code) (pktFlits h.granules) r.occupied })
    { s with link.nextPlace := s.link.nextPlace + 1 }

/-- One flit of a packet has been accepted. -/
def packetFlit (p : Nat) (body : FlitBody) (s : State) : State :=
  let had := (portOf s p).rx.partialPkt
  let bodies := had ++ [body]
  let (h, payload) := pktOf bodies
  if had = [] && h.code = 0 && h.granules = 0 then modRx p (fun r => { r with grants := min 3 (r.grants + 1) }) s
  else
    let s := if had = [] then headerFlit p h s else s
    if bodies.length < pktFlits h.granules then modRx p (fun r => { r with partialPkt := bodies }) s
    else
      let (h, a) := ((portOf s p).rx.head).getD (h, arrivalNow s p h)
      lastFlit p h payload a (modRx p (fun r => { r with partialPkt := [], head := none }) s)

/-- An ABORT flit ends the packet it belongs to: all of it is discarded, counted, and its credits are returned; what of it
was being sent on ends in ABORT flits (R368). -/
def abortPacket (p : Nat) (s : State) : State :=
  match (portOf s p).rx.partialPkt with
  | [] => s
  | bodies =>
    let s := sat (portReg p 0x18) 8 8 1 (abortCopies p s)
    let started := ((portOf s p).rx.head).any (fun x => x.2.started && placeHeld s (p, x.2.place))
    let freed := ((portOf s p).rx.head.map (·.2.freed)).getD 0
    let s := modRx p (fun r => { r with partialPkt := [], head := none }) s
    if started then s else oweRest p (pktOf bodies).1 freed s

/-! ### Acceptance in order (R357) -/

/-- A flit leaves the splice buffer in order: its credit is applied and its body goes to the packet layer. -/
def acceptFlit (p : Nat) (k : FlitKind) (f : Flit) (s : State) : State :=
  let granting := (portOf s p).rx.grants < 3
  let s := if f.credVc = 0 then s else modTx p (fun t =>
    { t with credits := vcAdd (f.credVc - 1) f.credN t.credits,
             granted := if granting then vcAdd (f.credVc - 1) f.credN t.granted else t.granted }) s
  let s := modPort p (fun x =>
    let e := (x.rx.expect + 1) % seqMod
    let r : RxSt := { x.rx with expect := e, splice := x.rx.splice.filter (fun g => g.seq != f.seq),
                                asked := x.rx.asked.filter (fun a => a.1 != f.seq), nakDue := x.rx.nakDue.filter (· != f.seq),
                                ackedAt := if x.rx.unacked = 0 then lmc s else x.rx.ackedAt, unacked := x.rx.unacked + 1 }
    { x with rx := r, wrapsRx := if e = 0 then x.wrapsRx + 1 else x.wrapsRx,
             tx := { x.tx with ctlDue := x.tx.ctlDue || 32 ≤ r.unacked } }) s
  match k with
  | .packet => packetFlit p f.body s
  | .abort => abortPacket p s
  | _ => s

/-- Accept what the splice buffer holds in order. -/
def drainSplice (p : Nat) : Nat → State → State
  | 0, s => s
  | n + 1, s =>
    let x := (portOf s p).rx
    match x.splice.find? (fun f => f.seq == x.expect) with
    | some f => drainSplice p n (acceptFlit p ((kindOf f).getD .packet) f s)
    | none => s

/-! ### Sealed groups (R375, R376) -/

/-- The IV of a group. -/
def sealIv (first wraps ups : Nat) (lower : Bool) : Nat :=
  first % seqMod + wraps % 2 ^ 32 * 2 ^ 20 + ups % 65536 * 2 ^ 52 + b2n lower * 2 ^ 68

/-- Bytes 16 to 21 of a SEAL_TAG flit as a number. -/
def tagFields (first count sel : Nat) : Nat := first % seqMod + count % 32 * 2 ^ 32 + sel % 2 * 2 ^ 40

/-- A body under the key stream of its group: encrypted or decrypted (R374). -/
def sealBody (key iv i : Nat) (b : FlitBody) : FlitBody := b ^^^ gcmStream key iv i

/-- The tag of a group of flits as they stand on the wire, with trailers and SEAL_TAG bytes 16 to 21 as additional data (R375). -/
def groupTag (key iv : Nat) (fs : List Flit) (fields : Nat) : Nat :=
  gcmTag key iv (fs.map (·.body)) (fs.flatMap (fun f => le 4 (trailer f)) ++ le 6 fields)

/-- The flits held from a number on without a gap, up to and with the first SEAL_TAG. -/
def heldGroup (splice : List Flit) : Nat → Nat → List Flit → Option (List Flit × Flit)
  | 0, _, _ => none
  | n + 1, e, acc => match splice.find? (fun f => f.seq == e) with
    | none => none
    | some f => if kindOf f = some .sealTag then some (acc.reverse, f) else heldGroup splice n ((e + 1) % seqMod) (f :: acc)

/-- A group that fails is discarded with its tag and treated as missing; the second failure of one FIRST_SEQ loses the
link. -/
def groupFails (p : Nat) (fs : List Flit) (tag : Flit) (s : State) : State :=
  let x := (portOf s p).rx
  let first := x.expect
  let gone := (fs ++ [tag]).map (·.seq)
  let s := sat (portReg p 0x1C) 0 16 1 (modRx p (fun r => { r with
    splice := r.splice.filter (fun f => !gone.contains f.seq), lastFail := some first }) s)
  if x.lastFail = some first then linkLost p true s else markMissing p gone s

/-- Entries to UP by receive slot (R375), as the first group after entry to UP settles them: the entry counts for the slot
that the sender uses. DEDUCED (log entry 141). -/
def entriesRx (x : Port) (sel : Nat) : Tbl Nat :=
  if x.rx.expect = 0 && x.wrapsRx = 0 && sel != x.keyRx then
    tmod 0 (tmod 0 x.upsRx x.keyRx (· - 1)) sel (· + 1) else x.upsRx

/-- Verify and accept the groups that the splice buffer holds whole. -/
def drainGroups (p : Nat) : Nat → State → State
  | 0, s => s
  | n + 1, s =>
    let y := portOf s p
    match heldGroup y.rx.splice 513 y.rx.expect [] with
    | none => s
    | some (fs, tag) =>
      let b := le 256 tag.body.toNat
      let first := pnum b 16 4 % seqMod
      let count := pbits b 20 0 5
      let sel := pbits b 21 0 1
      let key := tget 0 y.keysRx sel
      let ups := entriesRx y sel
      let iv := sealIv first y.wrapsRx (tget 0 ups sel) (y.partnerEid < localEid s p)
      let ok := first = y.rx.expect && count = fs.length && 1 ≤ count && count ≤ 16 && key != 0 &&
        pnum b 0 16 = groupTag (key - 1) iv fs (tagFields first count sel) % 2 ^ 128
      if ok then
        let s := modPort p (fun x => { x with keyRx := sel, upsRx := ups }) s
        let s := fs.zipIdx.foldl (fun s f => acceptFlit p ((kindOf f.1).getD .packet)
          { f.1 with body := sealBody (key - 1) iv f.2 f.1.body } s) s
        drainGroups p n (acceptFlit p .sealTag tag s)
      else groupFails p fs tag s

/-! ### Flits received -/

/-- A sequenced flit that is not bad arrives (R357). -/
def sequenced (p : Nat) (f : Flit) (s : State) : State :=
  let x := portOf s p
  let d := ahead x.rx.expect f.seq
  if 511 < d || x.rx.splice.any (fun g => g.seq == f.seq) then sat (portReg p 0x18) 16 16 1 s
  else
    let s := modRx p (fun r => { r with splice := r.splice ++ [f], asked := r.asked.filter (fun a => a.1 != f.seq),
                                        nakDue := r.nakDue.filter (· != f.seq) }) s
    let s := markMissing p ((List.range d).map (fun i => (x.rx.expect + i) % seqMod)) s
    if x.sealActive then drainGroups p 512 s else drainSplice p 512 s

/-- BAD_FLIT (R357): discarded and counted. -/
def execBadFlit (port : Nat) (s : State) : Host.Outcome State Fault Refusal :=
  .next (if linkRuns s port then sat (portReg port 0x14) 16 16 1 s else s)

/-- ABORT_FLIT (R368): an ABORT flit of a number, without credit. -/
def execAbortFlit (port seq : Nat) (s : State) : Host.Outcome State Fault Refusal :=
  .next (if linkRuns s port && !s.err.fatal then sequenced port (mkFlit .abort (seq % seqMod) 0 0 0) s else s)

/-! ### Link control flits (R355, R358) -/

/-- Put a number in its place among those to be retransmitted, ascending from the oldest unacknowledged. -/
def insertSeq (base n : Nat) : List Nat → List Nat
  | [] => [n]
  | m :: t => if n = m then m :: t else if ahead base n < ahead base m then n :: m :: t else m :: insertSeq base n t

/-- Numbers are asked for again: those that the replay buffer still holds. -/
def askAgain (p : Nat) (ns : List Nat) (s : State) : State :=
  modTx p (fun t =>
    let base := ((t.replay.head?).map (fun r => r.flit.seq)).getD 0
    let held := ns.filter (fun n => t.replay.any (fun r => r.flit.seq == n))
    { t with resend := held.foldl (fun l n => insertSeq base n l) t.resend }) s

/-- ACK: every number before it has been accepted. -/
def applyAck (p ack : Nat) (s : State) : State :=
  modTx p (fun t => match t.replay with
    | [] => t
    | r :: _ =>
      let n := ahead r.flit.seq ack
      if n = 0 || t.replay.length < n then t
      else
        let kept := t.replay.drop n
        { t with replay := kept, resend := t.resend.filter (fun m => kept.any (fun r => r.flit.seq == m)),
                 ackProgressAt := lmc s }) s

/-- A good link control flit (R355, R357). -/
def linkControl (port : Nat) (m : LinkCtl) (s : State) : State :=
  let s := applyAck port (m.ack % seqMod) (modRx port (fun r => { r with lastCtl := lmc s }) s)
  let s := askAgain port (m.naks.flatMap (fun e => (List.range e.2).map (fun i => (e.1 + i) % seqMod))) s
  let e := (portOf s port).rx.expect
  let d := ahead e m.nextSeq
  if d ≤ 512 then markMissing port ((List.range d).map (fun i => (e + i) % seqMod)) s else s

/-- LINK_CTL_FLIT: its body as R355 lays it out. -/
def execLinkCtlFlit (port : Nat) (m : LinkCtl) (s : State) : Host.Outcome State Fault Refusal :=
  .next (if linkRuns s port then linkControl port m s else s)

/-- SEQUENCED_FLIT (R351, R352, R357): the flit that 33 data blocks bring. One whose CRC matches no constant is bad, and one
of kind LINK_CTL is no sequenced flit and takes its own effect. -/
def execSequencedFlit (port : Nat) (blocks : List Blk) (s : State) : Host.Outcome State Fault Refusal :=
  .next (match flitIn blocks with
    | none => s
    | some f =>
      if !linkRuns s port then s
      else match kindOf f with
      | none => sat (portReg port 0x14) 16 16 1 s
      | some .linkCtl => linkControl port (ctlOf f.body) s
      | some _ => if s.err.fatal then s else sequenced port f s)

/-- NAK_WAIT_EXPIRY (R358): what is still missing NAK_WAIT marks after it was last asked for is asked for again. -/
def execNakWaitExpiry (port : Nat) (s : State) : Host.Outcome State Fault Refusal :=
  let x := (portOf s port).rx
  let due := (x.asked.filter (fun a => a.2 + nakWait s port ≤ lmc s && !x.nakDue.contains a.1)).map (·.1)
  .next (if !linkRuns s port || due = [] then s
    else modTx port (fun t => { t with ctlDue := true }) (modRx port (fun r => { r with nakDue := r.nakDue ++ due }) s))

/-- ACK_INTERVAL (R358): one mark with accepted flits unacknowledged, or 32 of them. -/
def execAckInterval (port : Nat) (s : State) : Host.Outcome State Fault Refusal :=
  let x := (portOf s port).rx
  .next (if linkRuns s port && x.unacked != 0 && (x.ackedAt + 1 ≤ lmc s || 32 ≤ x.unacked) then
    modTx port (fun t => { t with ctlDue := true }) s else s)

/-- ACK_KEEPALIVE (R358): at least every 16 marks. -/
def execAckKeepalive (port : Nat) (s : State) : Host.Outcome State Fault Refusal :=
  .next (if linkRuns s port && (portOf s port).tx.keepaliveAt + 16 ≤ lmc s then
    modTx port (fun t => { t with ctlDue := true }) s else s)

/-- ACK_TIMEOUT (R358): without ACK progress the oldest unacknowledged flit is retransmitted. -/
def execAckTimeout (port : Nat) (s : State) : Host.Outcome State Fault Refusal :=
  let x := (portOf s port).tx
  .next (match x.replay with
    | [] => s
    | r :: _ =>
      if linkRuns s port && x.ackProgressAt + ackTimeoutMarks s port ≤ lmc s then
        askAgain port [r.flit.seq] (modTx port (fun t => { t with ackProgressAt := lmc s }) s)
      else s)

/-- LINK_SILENCE (R358): without a good link control flit for SILENCE marks the link is lost. -/
def execLinkSilence (port : Nat) (s : State) : Host.Outcome State Fault Refusal :=
  .next (if linkRuns s port && (portOf s port).rx.lastCtl + silenceMarks s port ≤ lmc s then
    settleHome (linkLost port true s) else s)

/-! ### What a port sends (R356, R358, R359, R364, R365, R375) -/

/-- Runs of consecutive numbers, at most 255 long. -/
def runsOf : List Nat → List (Nat × Nat)
  | [] => []
  | n :: t => match runsOf t with
    | (m, k) :: r => if (n + 1) % seqMod = m && k < 255 then (n, k + 1) :: r else (n, 1) :: (m, k) :: r
    | [] => [(n, 1)]

/-- A link control flit goes out: up to 60 runs of the numbers that are due. -/
def sendCtl (p : Nat) (s : State) : State :=
  let x := portOf s p
  let runs := runsOf x.rx.nakDue
  let sent := runs.take 60
  let rest := (runs.drop 60).flatMap (fun r => (List.range r.2).map (fun i => (r.1 + i) % seqMod))
  let now := lmc s
  let again := x.rx.asked.map (fun a => if x.rx.nakDue.contains a.1 && !rest.contains a.1 then (a.1, now) else a)
  let s := modRx p (fun r => { r with unacked := 0, nakDue := rest, asked := again }) s
  let s := modTx p (fun t => { t with ctlDue := rest != [], keepaliveAt := now }) s
  sendOnPort p (mkFlit .linkCtl 0 0 0 (ctlBody { ack := x.rx.expect, nextSeq := x.tx.nextSeq, naks := sent })) s

/-- The credit that the next sequenced flit carries: channel code and flits. -/
def creditDue (x : Port) : Nat × Nat :=
  match ([0, 1, 2] : List Nat).find? (fun v => vcGet v x.rx.owed != 0) with
  | some v => (v + 1, min 1023 (vcGet v x.rx.owed))
  | none => (0, 0)

/-- Open a group at its first flit: a new key takes effect here (R450). -/
def openGroup (p : Nat) (s : State) : State :=
  let x := portOf s p
  if !x.sealActive || x.tx.group != [] then s
  else
    let sel := if x.keyNewTx then 1 - x.keyTx else x.keyTx
    modPort p (fun y => { y with keyTx := sel, keyNewTx := false, tx := { y.tx with
      groupKey := tget 0 y.keysTx sel - 1,
      groupIv := sealIv y.tx.nextSeq y.wrapsTx (tget 0 y.upsTx sel) (localEid s p < y.partnerEid) } }) s

/-- A new sequenced flit with the credit it carries: it takes its number, is sealed where the port is, and is kept for
replay. -/
def sendFlit (p : Nat) (k : FlitKind) (credit : Nat × Nat) (body : FlitBody) (s : State) : State :=
  let s := openGroup p s
  let x := portOf s p
  let plain : Bool := k == .sealTag || !x.sealActive
  let body := if plain then body else sealBody x.tx.groupKey x.tx.groupIv x.tx.group.length body
  let f := mkFlit k x.tx.nextSeq credit.1 credit.2 body
  let next := (x.tx.nextSeq + 1) % seqMod
  let now := lmc s
  let s := modPort p (fun y => { y with
    wrapsTx := if next = 0 then y.wrapsTx + 1 else y.wrapsTx,
    tx := { y.tx with
      nextSeq := next, replay := y.tx.replay ++ [{ flit := f, sent := 1 }],
      ackProgressAt := if y.tx.replay = [] then now else y.tx.ackProgressAt,
      group := if k = .sealTag || !y.sealActive then [] else y.tx.group ++ [f] } }) s
  sendOnPort p f (modCong p (fun c => { c with flitsSent := c.flitsSent + 1 }) s)

/-- A new sequenced flit that carries what is owed. -/
def sendOwed (p : Nat) (k : FlitKind) (body : FlitBody) (s : State) : State :=
  let c := creditDue (portOf s p)
  let s := if c.1 = 0 then s else modRx p (fun r =>
    { r with owed := vcSub (c.1 - 1) c.2 r.owed, totalReturned := vcAdd (c.1 - 1) c.2 r.totalReturned }) s
  sendFlit p k c body s

/-- The SEAL_TAG flit that closes the group. -/
def sendTag (p : Nat) (s : State) : State :=
  let x := portOf s p
  let fs := x.tx.group
  let first := ((fs.head?).map (·.seq)).getD 0
  let fields := tagFields first fs.length x.keyTx
  let tag := groupTag x.tx.groupKey x.tx.groupIv fs fields % 2 ^ 128
  sendOwed p .sealTag (BitVec.ofNat 2048 (tag + fields * 2 ^ 128)) s

/-- One of the three NULL packets that grant this end's pools (R365). -/
def sendGrant (p : Nat) (s : State) : State :=
  let n := (portOf s p).tx.grantsSent
  let pool := match n with
    | 0 => vcCtl s p
    | 1 => vcReq s p
    | _ => vcRsp s p
  sendFlit p .packet (n + 1, pool) 0 (modTx p (fun t => { t with grantsSent := n + 1 }) s)

/-- A retransmission; a flit that has already been sent RETRY_LIMIT + 1 times loses the link. -/
def retransmit (p n : Nat) (s : State) : State :=
  let x := (portOf s p).tx
  let s := modTx p (fun t => { t with resend := t.resend.filter (· != n) }) s
  match x.replay.find? (fun r => r.flit.seq == n) with
  | none => s
  | some r =>
    if retryLimit s p + 1 ≤ r.sent then settleHome (linkLost p true s)
    else
      sendOnPort p r.flit (sat (portReg p 0x14) 0 16 1 (modTx p (fun t => { t with
        replay := t.replay.map (fun y => if y.flit.seq = n then { y with sent := y.sent + 1 } else y) }) s))

/-! ### The egress scheduler (R370, R394 to R397) -/

/-- Forward records of a port. -/
abbrev fwdRecords : Nat := 8192

/-- A request that takes a forward record. -/
def takesRecord (h : PktHdr) : Bool := codeVc h.code = 1 && !h.mcast

/-- Data rate of a port: lanes times lane rate. -/
def portSpeed (s : State) (p : Nat) : Nat := widthLanes (portOf s p).width * rateGbps (portOf s p).rate

/-- A packet that is still arriving may start where its ingress port is at least as fast as its egress port (R381). -/
def keepsPace (s : State) (p : Nat) (k : TxPkt) : Bool :=
  !k.arriving || k.buffer.any (fun b => portSpeed s p ≤ portSpeed s b.1)

/-- A packet may start: the partner has granted credits for all its flits, a record is free for it, in a global stop it is
of CTL class, and it is there or keeps pace (R364, R370, R381). -/
def eligible (s : State) (p : Nat) (k : TxPkt) : Bool :=
  keepsPace s p k && pktFlits k.hdr.granules ≤ vcGet (codeVc k.hdr.code) (portOf s p).tx.credits &&
  (!stopped s || k.hdr.code = 0x80) &&
  (!takesRecord k.hdr || s.sw.fwd.countP (fun f => f.port == p) < fwdRecords)

/-- What a queue offers: the head of its CTL lane, its RSP lane, its REQ lane, passing over those that are not eligible. -/
def queueHead (s : State) (p q : Nat) : Option (Nat × Nat × TxPkt) :=
  let x := (portOf s p).tx
  ([0, 1, 2] : List Nat).findSome? (fun l => match x.queue.find? (fun e => e.1 == q && e.2.1 == l) with
    | some e => if eligible s p e.2.2 then some e else none
    | none => none)

/-- Bytes charged for a packet. -/
def charge (s : State) (p : Nat) (k : TxPkt) : Nat := 264 * bookedFlits s p k.hdr.granules + overhead s p

/-- The longest charge, which caps what a queue can save up. -/
abbrev deficitCap : Nat := 6040

/-- Deficit round robin over W0 to W5, from the queue being visited. -/
def drr (p : Nat) : Nat → State → Option (Nat × Nat × TxPkt) × State
  | 0, s => (none, s)
  | n + 1, s =>
    let x := (portOf s p).tx
    let w := x.drrNext % 6
    let pass := fun (d : Nat) (t : TxSt) => { t with deficits := tset 0 t.deficits w d, drrNext := (w + 1) % 6, drrOpen := false }
    if !x.queue.any (fun e => e.1 == 2 + w) then drr p n (modTx p (pass 0) s)
    else
      let quantum := 256 * weight s p w
      let d := tget 0 x.deficits w
      let d := if x.drrOpen then d else min (d + quantum) (quantum + deficitCap)
      match queueHead s p (2 + w) with
      | some e =>
        let c := charge s p e.2.2
        if c ≤ d then (some e, modTx p (fun t => { t with deficits := tset 0 t.deficits w (d - c), drrOpen := true }) s)
        else drr p n (modTx p (pass d) s)
      | none => drr p n (modTx p (pass d) s)

/-- Visits after which every queue has saved up enough for any packet. -/
abbrev drrVisits : Nat := 200

/-- The next packet: from CONTROL, from PROMISED, or from the weighted group. -/
def schedule (p : Nat) (s : State) : Option (Nat × Nat × TxPkt) × State :=
  match queueHead s p 0 with
  | some e => (some e, s)
  | none => match queueHead s p 1 with
    | some e => (some e, s)
    | none =>
      if (List.range 6).any (fun w => (queueHead s p (2 + w)).isSome) then drr p drrVisits s else (none, s)

/-- A packet's last flit has been sent: its place and its window entry are free; one that was promised and is late
counts as outside its bound (R84, R390). -/
def packetSent (k : TxPkt) (s : State) : State :=
  let s := leaveBuffer k s
  let s := if k.line.isSome then settleExtents s else s
  let s := if codeVc k.hdr.code = 2 then freePair k.pair s else s
  let s := if k.due != 0 && k.due < lmc s + 2 then bumpBoth k.tenant 5 1 s else s
  if k.hdr.mcast && k.hdr.code = 0x04 then
    { s with sw.mcast := s.sw.mcast.map (fun m => if m.tag = k.hdr.tag && k.buffer.isNone then { m with lastCopyAt := plmc s } else m) }
  else s

/-- The granules of a packet that are there: of one that is still arriving, those of the flits accepted so far. -/
def payloadSoFar (s : State) (k : TxPkt) : List Line :=
  match k.arriving, k.buffer with
  | true, some b => (pktOf (portOf s b.1).rx.partialPkt).2
  | _, _ => k.payload

/-- Flit `i` of a packet can go out: it has arrived, or goes out as an ABORT flit. -/
def flitThere (s : State) (k : TxPkt) (i : Nat) : Bool :=
  !k.arriving || k.aborted || k.buffer.any (fun b => i < (portOf s b.1).rx.partialPkt.length)

/-- Flit `i` of the packet in progress; of a packet cut short it is an ABORT flit with a zero body (R368). -/
def sendPacketFlit (p : Nat) (k : TxPkt) (i : Nat) (s : State) : State :=
  let s := if k.aborted then sendOwed p .abort 0 s else sendOwed p .packet (pktBody k.hdr (payloadSoFar s k) i) s
  let s := modTx p (fun t => { t with totalSent := vcAdd (codeVc k.hdr.code) 1 t.totalSent }) s
  let s := { s with ctr.sent := tmod 0 s.ctr.sent (32 * p + k.tenant % 32) (fun n => (n + 1) % 2 ^ 64) }
  let (k, s) := flitLeaves k s
  if i + 1 < pktFlits k.hdr.granules then modTx p (fun t => { t with inProgress := some (k, i + 1) }) s
  else packetSent k (modTx p (fun t => { t with inProgress := none }) s)

/-- A packet starts: it consumes its credits, and a unicast request takes a forward record (R364, R370). -/
def startPacket (p : Nat) (e : Nat × Nat × TxPkt) (s : State) : State :=
  let k := e.2.2
  let h := k.hdr
  let s := modTx p (fun t => { t with
    queue := t.queue.erase e, credits := vcSub (codeVc h.code) (pktFlits h.granules) t.credits }) s
  let s := if takesRecord h then
    let f : FwdRec := { port := p, src := h.src, dst := h.dst, tag := h.tag, code := h.code, since := plmc s, pair := k.pair }
    { s with sw.fwd := s.sw.fwd ++ [f], sw.ended := s.sw.ended.erase (h.src, h.tag) } else s
  sendPacketFlit p k 0 s

/-- The transmitter's choice at a flit boundary (R359): with no flit ready, an IDLE block (R352). At rung 4 it sends link
control flits only (R491). -/
def transmit (p : Nat) (s : State) : State :=
  let x := portOf s p
  let close := if x.sealActive && x.tx.group != [] then sendTag p s else deal p [idleWord] s
  if x.tx.ctlDue then sendCtl p s
  else if s.err.fatal then deal p [idleWord] s
  else match x.tx.resend with
  | n :: _ => retransmit p n s
  | [] =>
    if 512 ≤ x.tx.replay.length then deal p [idleWord] s
    else if x.sealActive && x.tx.group.length = 16 then sendTag p s
    else if x.tx.grantsSent < 3 then sendGrant p s
    else match x.tx.inProgress with
    | some (k, i) => if flitThere s k i then sendPacketFlit p k i s else close
    | none =>
      if x.rx.grants < 3 then close
      else match schedule p s with
        | (some e, s) => startPacket p e s
        | (none, _) => close

/-- TRANSMIT_FLIT (R359). -/
def execTransmitFlit (port : Nat) (s : State) : Host.Outcome State Fault Refusal :=
  .next (if linkRuns s port then transmit port s else s)

/-- A sequenced flit is ready at a port (R359, R364): a retransmission, a SEAL_TAG flit that closes a full group, the next
flit of the packet in progress, or the first of a packet that may start. -/
def flitReady (s : State) (p : Nat) : Bool :=
  let x := portOf s p
  x.tx.resend != [] || (x.sealActive && x.tx.group.length = 16) || x.tx.grantsSent < 3 || x.tx.inProgress.isSome ||
  (3 ≤ x.rx.grants && x.tx.queue.any (fun e => (queueHead s p e.1).isSome))

/-- CREDIT_NULL_PACKET (R359, R364): credits that have been owed while no sequenced flit was ready go out with a NULL
packet, after a link control flit that is due. -/
def execCreditNullPacket (port : Nat) (s : State) : Host.Outcome State Fault Refusal :=
  let x := portOf s port
  .next (if linkRuns s port && !s.err.fatal && !x.tx.ctlDue && !flitReady s port && x.tx.replay.length < 512 &&
      x.rx.owed != (0, 0, 0) then sendOwed port .packet 0 s else s)

end Sys2Proof.Machine
end

