-- ==== Sys2Proof/Machine/Lanes.lean ====
section
/-! DEFINITION. Serial lanes and the bring-up of ports (R329 to R349, R375, R430, R450): locks, markers, training,
retraining, width changes, loops and pattern tests. -/
namespace Sys2Proof.Machine

/-! ### Lanes (R329, R337, R338, R347) -/

def laneState (s : State) (l : Nat) : Lane := tget {} s.link.lanes l
def modLane (l : Nat) (f : Lane → Lane) (s : State) : State := { s with link.lanes := tmod {} s.link.lanes l f }

abbrev laneEqReg (l : Nat) : Nat := 0x00101000 + 0x10 * l
abbrev laneErrReg (l : Nat) : Nat := 0x0010100C + 0x10 * l

/-- LANE_TX_EQ.OVERRIDE, and the taps written with it. -/
def tapsOverride (s : State) (l : Nat) : Bool := getField (laneEqReg l) 31 0 s = 1
def tapsWritten (s : State) (l : Nat) : Nat × Nat := (getField (laneEqReg l) 0 0 s, getField (laneEqReg l) 8 0 s)

/-- The preset taps, PRE and POST. -/
abbrev presetTaps : Nat × Nat := (2, 6)

/-- A lane is listed as defective, or has failed since the last test: it counts as failing VERIFY (R475). -/
def laneListed (s : State) (l : Nat) : Bool :=
  defective s 2 l

/-- A lane enters a rate: its locks are to be found again, its stream begins anew, and its taps start from the preset or from
those saved. -/
def laneRate (l r : Nat) (saved : Bool) (s : State) : State :=
  let x := laneState s l
  let taps := if tapsOverride s l then tapsWritten s l else if saved then tget presetTaps x.savedTaps r else presetTaps
  modLane l (fun x => { x with powered := true, rate := r, cwLock := false, blockLock := false, deskewed := false,
                               marker := none, failed := false, badRun := 0, asks := (0, 0, 0), asked := (0, 0, 0),
                               answers := (0, 0, 0), pre := taps.1, post := taps.2 }) (restartStream l s)

/-- A lane powers down. -/
def laneOff (l : Nat) (s : State) : State :=
  modLane l (fun x => { x with powered := false, rate := 0, cwLock := false, blockLock := false, deskewed := false,
                               marker := none }) s

/-- One request to a tap: its new value and the answer in STAT. `room` is what the main cursor leaves it. -/
def moveTap (v limit preset room rq : Nat) : Nat × Nat :=
  match rq with
  | 0 => (v, 0)
  | 1 => if v < limit && 0 < room then (v + 1, 1) else (v, 2)
  | 2 => if 0 < v then (v - 1, 1) else (v, 2)
  | _ => if preset ≤ v + room then (preset, 1) else (v, 2)

/-- A request as it stands in TRAIN blocks moves its tap once: while it stands there unchanged its answer stays. DESIGN
CHOICE (log entry 142): two requests of one kind are told apart by a hold between them. -/
def takeRequest1 (rq last answer : Nat) (moved : Nat × Nat) (v : Nat) : Nat × Nat :=
  if rq = 0 then (v, 0) else if rq = last then (v, answer) else moved

/-- The partner's requests to a lane's taps (R337, R338), answered in STAT for pre, main and post. MAIN follows from the other
two and does not move by itself. -/
def applyTaps (l : Nat) (b : TrainBlk) (s : State) : State :=
  let x := laneState s l
  let fixed := tapsOverride s l
  let no := fun (v : Nat) => (v, 2)
  let (pre, a) := takeRequest1 b.reqPre x.asked.1 x.answers.1
    (if fixed then no x.pre else moveTap x.pre 12 2 (24 - (x.pre + x.post)) b.reqPre) x.pre
  let (_, m) := takeRequest1 b.reqMain x.asked.2.1 x.answers.2.1 (no 0) 0
  let (post, c) := takeRequest1 b.reqPost x.asked.2.2 x.answers.2.2
    (if fixed then no x.post else moveTap x.post 20 6 (24 - (pre + x.post)) b.reqPost) x.post
  modLane l (fun x => { x with pre := pre, post := post, asked := (b.reqPre, b.reqMain, b.reqPost), answers := (a, m, c) }) s

/-- What a receiver asks for next: a request stays until it is answered, then a hold until that is seen, then what the
receiver wants (R338; log entry 142). -/
def nextAsk (ask stat want : Nat) : Nat :=
  if ask != 0 then (if stat = 0 then ask else 0) else if stat = 0 then want % 4 else 0

/-- This endings requests to the partner's taps move on with the answers in a TRAIN block. -/
def askTaps (l : Nat) (b : TrainBlk) (wants : Nat × Nat × Nat) (s : State) : State :=
  modLane l (fun x => { x with asks := (nextAsk x.asks.1 b.statPre wants.1, nextAsk x.asks.2.1 b.statMain wants.2.1,
                                        nextAsk x.asks.2.2 b.statPost wants.2.2) }) s

/-! ### Blocks sent (R336) -/

/-- A TRAIN block of a port lane, with its requests and answers. -/
def trainBlk (s : State) (p i rate lanesOk phase : Nat) (ready : Bool) : TrainBlk :=
  let x := laneState s (laneId p i)
  { type := typeTRAIN, rate := rate, maxRate := portMaxRate s p, lane := i, lanesOk := lanesOk, width := portWidthCfg s p,
    eid := localEid s p, cls := 2, reqPre := x.asks.1, reqMain := x.asks.2.1, reqPost := x.asks.2.2,
    statPre := x.answers.1, statMain := x.answers.2.1, statPost := x.answers.2.2, ready := ready, phase := phase }

/-- Send TRAIN on every lane of a training. Beside lanes that a width change adds, the port's own send as many IDLE blocks
(R334). -/
def sendTrain (p : Nat) (t : Train) (phase : Nat) (s : State) : State :=
  let s := if portUp s p then fillRow p s else s
  let s := t.lanes.foldl (fun s i =>
    sendTrainBlock (laneId p i) (trainWord (trainBlk s p i t.rate t.lanesOk phase (t.readyOwn.contains i))) s) s
  if portUp s p then
    deal p (List.replicate (behind s (laneId p t.lead) (laneId p 0) * widthLanes (portOf s p).width) idleWord) s
  else s

/-- The fields of a CHANGE block on a lane of a port. -/
def changeBlk (s : State) (p i kind width lanes : Nat) (ready : Bool) : TrainBlk :=
  { type := typeCHANGE, rate := (portOf s p).rate, maxRate := portMaxRate s p, lane := i, lanesOk := lanes, width := width,
    eid := localEid s p, cls := 2, ready := ready, kind := kind }

/-- A CHANGE block on the first lane of a port. -/
def sendChange (p kind width lanes : Nat) (ready : Bool) (s : State) : State :=
  sendControl p 0 (trainWord (changeBlk s p 0 kind width lanes ready)) s

/-- The fields of a LOOP block on a lane. -/
def loopBlk (s : State) (l rate : Nat) (ready : Bool) : TrainBlk :=
  let p := lanePort s l
  { type := typeLOOP, rate := rate, maxRate := portMaxRate s p, lane := l - portLane0 p, lanesOk := 0,
    width := portWidthCfg s p, eid := localEid s p, cls := 2, ready := ready }

/-- A LOOP block on a lane. -/
def sendLoop (l rate : Nat) (ready : Bool) (s : State) : State := sendBlock l (trainWord (loopBlk s l rate ready)) s

/-! ### Replies of the change commands (R344, R345) -/

/-- End the commands that wait on a change of a port with a status. -/
def endChange (p st : Nat) (res : List Byte) (s : State) : State :=
  (s.kcp.running.filter (fun r => r.wait == .retrain p || r.wait == .width p)).foldl (fun s r =>
    finish r st (if r.wait = .width p then res else []) s) s

/-- Results of SET_PORT_WIDTH. -/
def widthResults (s : State) (p : Nat) : List Byte :=
  let x := portOf s p
  le 1 x.rate ++ le 1 x.width ++ le 1 x.lanesOk ++ zeros 1

/-! ### Entry to UP (R342, R343, R365, R374, R375, R450) -/

/-- Offset of a tenant's share on a port (R85). -/
abbrev shareReg (t p : Nat) : Nat := 0x00011000 + 4 * (96 * t + p)

/-- Scale every tenant's share on a port (R88), and the share last accepted where it is not yet in force. -/
def scaleShares (p new old : Nat) (s : State) : State :=
  let s := (List.range 32).foldl (fun s t => setField (shareReg t p) 0 0 (getField (shareReg t p) 0 0 s * new / old) s) s
  { s with waiting := s.waiting.map (fun w =>
      if (List.range 32).any (fun t => shareReg t p == w.offset) then { w with value := w.value * new / old } else w) }

/-- Shares follow a bookable figure: they are scaled when it is below the old one. -/
def rebook (p new : Nat) (s : State) : State :=
  let old := (portOf s p).shareBase.getD (bookable (portWidthCfg s p) 4)
  let s := if new < old then scaleShares p new old s else s
  modPort p (fun x => { x with shareBase := some new }) s

/-- Shares at entry to UP (R342): a port at its configured width and at 400 Gbit/s keeps each as written. -/
def rebookUp (p w rate : Nat) (s : State) : State :=
  if portWidthCfg s p ≤ w && 4 ≤ rate then modPort p (fun x => { x with shareBase := some (bookable w rate) }) s
  else rebook p (bookable w rate) s

/-- The keys that a sealed port would use at its next entry to UP. -/
def sealReady (s : State) (p : Nat) : Bool :=
  let x := portOf s p
  let sel := if x.keyNewTx then 1 - x.keyTx else x.keyTx
  tget 0 x.keysTx sel != 0 && x.keysRx != [] && tget 0 x.upsTx sel < 65535 && tget 0 x.upsRx x.keyRx < 65535

/-- A port that is to be sealed and cannot be stays in OFF. -/
def sealBars (s : State) (p : Nat) : Bool :=
  sealEnable s p && (!sealReady s p || (portOf s p).partnerEid = localEid s p)

/-- Lanes that a port's configured width covers and its width in force does not power down. -/
def trimLanes (p w : Nat) (s : State) : State :=
  ((List.range 4).filter (fun i => widthLanes w ≤ i && lanePort s (laneId p i) = p && laneId p i / 4 = p / 2)).foldl
    (fun s i => laneOff (laneId p i) s) s

/-- Service begins. -/
def enterUp (p w rate : Nat) (s : State) : State :=
  let s := trimLanes p w s
  let x := portOf s p
  let sealed := sealEnable s p
  let now := lmc s
  let up := fmt s
  let tx : TxSt := { keepaliveAt := now, ackProgressAt := now }
  let rx : RxSt := { lastCtl := now }
  let key := if sealed && x.keyNewTx then 1 - x.keyTx else x.keyTx
  let s := enterPhase p .up (modPort p (fun x => { x with
    rate := rate, width := w, lanesOk := onesMask (widthLanes w), train := none, aux := none, failReason := 0,
                fmtUp := up, tx := tx, rx := rx, sealActive := sealed, keyTx := key, keyNewTx := x.keyNewTx && !sealed,
                upsTx := tmod 0 x.upsTx key (· + b2n sealed), upsRx := tmod 0 x.upsRx x.keyRx (· + b2n sealed),
                wrapsTx := 0, wrapsRx := 0, figure := none, change := none, backoffUntil := none, widthChange := none }) s)
  let s := endHandling 3 p (rebookUp p w rate s)
  let s := if x.partnerEid = localEid s p then
    recordError { seq := 0, domain := 3, source := 2, rung := 0, tenant := portTenant s p, shared := portShared s p,
                  unitKind := 3, unit := p } (portQuadrant p) 0 s else s
  answerPort p (event 1 p (fun t => portTenant s p == some t) [] s)

/-! ### Training (R339 to R341) -/

/-- A training belongs to the port itself, or to the lanes that a width change adds. -/
def putTrain (p : Nat) (main : Bool) (t : Option Train) (s : State) : State :=
  modPort p (fun x => if main then { x with train := t } else { x with aux := t }) s

/-- The codewords of VERIFY are counted from its entry (R340). -/
def startVerify (p : Nat) (t : Train) (s : State) : State :=
  t.lanes.foldl (fun s i => modLane (laneId p i) (fun x => { x with corrected := 0, uncorrectable := 0 }) s) s

/-- A training moves to a phase. -/
def trainPhase (p : Nat) (main : Bool) (t : Train) (ph : Phase) (s : State) : State :=
  let s := if ph = .verify then startVerify p t s else s
  let s := putTrain p main (some { t with phase := ph, since := lmc s }) s
  if main then enterPhase p ph s else s

/-- Lanes that were dropped take part again (R340, R344). -/
def forgetDropped (p : Nat) (s : State) : State := modPort p (fun x => { x with dropped := [] }) s

/-- The width that a port trains with: its configured one. DESIGN CHOICE (log entry 156): x4 leaves slot 1 unused (R34), so
beside a port of slot 1 that is not OFF an even port trains as x2. -/
def trainWidth (s : State) (p : Nat) : Nat :=
  let w := portWidthCfg s p
  if w = 2 && (portOf s (p + 1)).phase != .off then 1 else w

/-- Start to train a port from OFF or LOST with that width, but for the lanes it has dropped. -/
def startTraining (p : Nat) (bringUp : Bool) (s : State) : State :=
  let w := trainWidth s p
  let lanes := (List.range (widthLanes w)).filter (fun i => !(portOf s p).dropped.contains i)
  let s := modPort p (fun x => { x with width := w, failReason := 0, rate := 0, lanesOk := 0 }) s
  if sealEnable s p && !sealReady s p then answerPort p (portOff p 0 s)
  else
    let s := lanes.foldl (fun s i => laneRate (laneId p i) 1 false (modLane (laneId p i) (fun x => { x with savedTaps := [] }) s)) s
    let t : Train := { lead := 0, lanes := lanes, bringUp := bringUp, since := lmc s, began := lmc s }
    sendTrain p t 0 (trainPhase p true t .lock s)

/-- A training ends without success: the port goes to OFF; added lanes power down. -/
def trainFails (p : Nat) (main : Bool) (t : Train) (reason : Nat) (s : State) : State :=
  if main then answerPort p (portOff p reason s)
  else putTrain p false none (t.lanes.foldl (fun s i => laneOff (laneId p i) s) s)

/-- Fall back to the previous rate after 16 marks of silence, or fail at rate 1. -/
def fallBack (p : Nat) (main : Bool) (t : Train) (reason : Nat) (s : State) : State :=
  if t.rate ≤ 1 then trainFails p main t reason s
  else putTrain p main (some { t with fallback := true, stepTo := some (t.rate - 1, lmc s) }) s

/-- The widest legal width, up to a limit, whose lanes are all set in a mask. -/
def widestWidth (limit mask : Nat) : Nat :=
  ((([2, 1, 0] : List Nat).filter (· ≤ limit)).find? (fun w => mask % 2 ^ widthLanes w = onesMask (widthLanes w))).getD 0

/-- The egress side of an agreed width change (R345): its switch point, and the marks that admission leaves free. -/
def beginSwitch (p w : Nat) (s : State) : State :=
  let a := lmc s
  let x := portOf s p
  let lower := min (bookable w x.rate) (bookable x.width x.rate)
  let s := if w < x.width then rebook p (bookable w x.rate) s else s
  let s := { s with coh.blackout := s.coh.blackout ++ [(p, a + 1025), (p, a + 1026), (p, a + 1027)] }
  modPort p (fun x => { x with widthChange := some (.switching w a x.width false []), figure := some (lower, a + 1027),
                               aux := none }) s

/-- Port lanes of a wider width beyond those in force. -/
def newLanes (s : State) (p w : Nat) : List Nat :=
  (List.range (widthLanes w)).filter (fun i => widthLanes (portOf s p).width ≤ i)

/-- Of them a width change adds those that were not dropped (R340). -/
def addedLanes (s : State) (p w : Nat) : List Nat := (newLanes s p w).filter (fun i => !(portOf s p).dropped.contains i)

/-- LANES_OK of a CHANGE: the lanes to be added. -/
def addedMask (s : State) (p w : Nat) : Nat := (addedLanes s p w).foldl (fun m i => m + 2 ^ i) 0

/-- AGREE ends with no higher rate: service begins, or the added lanes are ready for their switch. -/
def trainDone (p : Nat) (main : Bool) (t : Train) (common : Nat) (s : State) : State :=
  if main then
    if sealBars s p then answerPort p (portOff p 0 s) else enterUp p (widestWidth (portOf s p).width common) t.rate s
  else match (portOf s p).widthChange with
    | some (.adding w _) =>
      if t.rate = (portOf s p).rate && t.lanes = newLanes s p w && t.lanes.all (bit common) then beginSwitch p w s
      else trainFails p false t 0 s
    | _ => trainFails p false t 0 s

/-- The highest rate of a training: the lower of the two MAX_RATEs, or for added lanes the port's rate. -/
def topRate (s : State) (p : Nat) (main : Bool) (t : Train) : Nat :=
  if main then min (portMaxRate s p) t.partnerMax else (portOf s p).rate

/-- PHASE 2 or 3 of the partner is received in AGREE: lanes that are not set at both ends leave, and the training steps
up, falls back, or ends. -/
def agree (p : Nat) (main : Bool) (t : Train) (b : TrainBlk) (s : State) : State :=
  let common := t.lanesOk &&& b.lanesOk
  if t.stepTo.isSome then s
  else if !bit common t.lead then fallBack p main t 2 s
  else
    let keep := t.lanes.filter (fun i =>
      if main then i < widthLanes (widestWidth (portOf s p).width common) else bit common i)
    let s := (t.lanes.filter (fun i => !keep.contains i)).foldl (fun s i => laneOff (laneId p i) s) s
    let t := { t with lanes := keep }
    if !t.fallback && t.rate < topRate s p main t then
      putTrain p main (some { t with stepTo := some (t.rate + 1, lmc s) })
        ((List.range 16).foldl (fun s _ => sendTrain p t 2 s) s)
    else
      let s := sendTrain p t 3 (putTrain p main (some t) s)
      if b.phase = 3 then trainDone p main t common s else s

/-- A lane has found both its locks. -/
def laneLocked (s : State) (l : Nat) : Bool := (laneState s l).cwLock && (laneState s l).blockLock

/-- Enough TRAIN blocks have come on the lead lane in LOCK. -/
def lockDone (p : Nat) (main : Bool) (t : Train) (b : TrainBlk) (s : State) : State :=
  let t := { t with lanes := t.lanes.filter (fun i => laneLocked s (laneId p i)), partnerMax := b.maxRate, run := 0, last := none }
  let s := if main then modPort p (fun x => { x with partnerEid := b.eid, partnerClass := b.cls, partnerMax := b.maxRate }) s else s
  if t.rate = 1 || t.fallback then trainPhase p main t .verify s
  else sendTrain p t 1 (trainPhase p main t .equalise s)

/-- The fields of a TRAIN block that must stay equal in LOCK. -/
def blkKey (b : TrainBlk) : TrainBlk :=
  { b with reqPre := 0, reqMain := 0, reqPost := 0, statPre := 0, statMain := 0, statPost := 0 }

/-- A TRAIN block on a port lane of a training: taps are moved, answered and asked for, and the phase advances. A lane in its
16 marks of silence takes no part. -/
def trainOn (p : Nat) (main : Bool) (t : Train) (i : Nat) (b : TrainBlk) (eye : Bool) (wants : Nat × Nat × Nat) (s : State) :
    State :=
  if t.stepTo.isSome then s else
  let l := laneId p i
  let s := askTaps l b wants (applyTaps l b s)
  let put := fun (on : Bool) (l : List Nat) => if on then (if l.contains i then l else l ++ [i]) else l.filter (· != i)
  let t := { t with readyOwn := put eye t.readyOwn, readyPartner := put b.ready t.readyPartner }
  let ph : Nat := match t.phase with
    | .lock => 0
    | .agree => 2
    | _ => 1
  let s := putTrain p main (some t) (sendTrain p t ph s)
  match t.phase with
  | .lock =>
    if i != t.lead then s
    else
      let run := if t.last = some (blkKey b) then t.run + 1 else 1
      let t := { t with run := run, last := some (blkKey b) }
      if 8 ≤ run && laneLocked s l then lockDone p main t b s else putTrain p main (some t) s
  | .equalise =>
    if t.lanes.all (fun k => t.readyOwn.contains k && t.readyPartner.contains k) then trainPhase p main t .verify s else s
  | .agree => if i = t.lead && 2 ≤ b.phase then agree p main t b s else s
  | _ => s

/-- The training that a lane takes part in. -/
def trainingOf (s : State) (l : Nat) : Option (Nat × Bool × Train) :=
  let p := lanePort s l
  let i := l - portLane0 p
  let x := portOf s p
  match x.train, x.aux with
  | some t, _ => if t.lanes.contains i then some (p, true, t) else none
  | none, some t => if t.lanes.contains i then some (p, false, t) else none
  | none, none => none

/-- The lane layer runs: the device is out of its ROM and not at rung 4, where ports are held (R491). -/
def lanesRun (s : State) : Bool := serving s && !s.err.fatal

/-- TRAIN_BLOCK_RECEIVED (R336 to R339), with what the lane's receiver judges of its eye and wants of the partner's taps. -/
def execTrainBlockReceived (lane : Nat) (w : Blk) (eyeOpen : Bool) (wants : Nat × Nat × Nat) (s : State) :
    Host.Outcome State Fault Refusal :=
  .next (if !lanesRun s || !(laneState s lane).powered then s
    else match readBlk typeTRAIN w, trainingOf s lane with
    | some b, some (p, main, t) => trainOn p main t (lane - portLane0 p) b eyeOpen wants s
    | _, _ => s)

/-- The training of a port's own lanes, or of those being added. -/
def portTraining (s : State) (p : Nat) : Option (Bool × Train) :=
  match (portOf s p).train, (portOf s p).aux with
  | some t, _ => some (true, t)
  | none, some t => some (false, t)
  | none, none => none

/-- Symbols that a lane carries in 1,024 marks at a rate: 65,536 ns of its line rate in 10-bit symbols (R330). -/
def symbolsIn1024 : Nat → Nat
  | 1 => 174080
  | 2 => 696320
  | 3 => 1392640
  | _ => 2785280

/-- A lane passes VERIFY (R340). -/
def lanePasses (s : State) (p i rate : Nat) (alone : Bool) : Bool :=
  let x := laneState s (laneId p i)
  x.cwLock && x.blockLock && (x.deskewed || alone) && x.uncorrectable = 0 && !x.failed && !laneListed s (laneId p i) &&
    x.corrected * 16777216 ≤ verifyLimit s p * symbolsIn1024 rate

/-- VERIFY_END (R340): each lane is judged by the codewords of the 1,024 marks; lanes that fail are dropped and power down,
but for the lead lane at a rate from which the port falls back. -/
def execVerifyEnd (port : Nat) (s : State) : Host.Outcome State Fault Refusal :=
  match portTraining s port with
  | none => .next s
  | some (main, t) =>
    if !lanesRun s || t.phase != .verify || lmc s < t.since + 1024 then .next s
    else
      let alone : Bool := t.lanes.length = 1 && main
      let good := t.lanes.filter (fun i => lanePasses s port i t.rate alone)
      let bad := t.lanes.filter (fun i => !good.contains i)
      let s := bad.foldl (fun s i =>
        let s := sat (laneErrReg (laneId port i)) 0 8 1 s
        if i = t.lead then s else laneOff (laneId port i) s) s
      let s := modPort port (fun x => { x with dropped := x.dropped ++ bad.filter (· != t.lead) }) s
      let mask := good.foldl (fun m i => m + 2 ^ i) 0
      let t := { t with lanes := t.lanes.filter (fun i => i == t.lead || good.contains i), lanesOk := mask }
      if !good.contains t.lead && t.rate = 1 then .next (trainFails port main t 2 s)
      else .next (sendTrain port t 2 (trainPhase port main t .agree s))

/-- The mark at which a phase reaches its limit (R341): LOCK at rate 1 under BRING_UP_LINK by the command's own reply limit,
however the port comes back to it. VERIFY ends by itself. -/
def phaseLimit (t : Train) : Option Nat :=
  match t.phase with
  | .lock => some (if t.rate = 1 && t.bringUp then t.began + (watch - 16384) else t.since + 512)
  | .equalise => some (t.since + 2048)
  | .agree => some (t.since + 512)
  | _ => none

/-- TRAIN_PHASE_TIMEOUT (R339, R341). -/
def execTrainPhaseTimeout (port : Nat) (s : State) : Host.Outcome State Fault Refusal :=
  match portTraining s port with
  | none => .next s
  | some (main, t) =>
    match phaseLimit t with
    | none => .next s
    | some n =>
      if !lanesRun s || t.stepTo.isSome || lmc s < n then .next s
      else match t.phase with
      | .equalise => .next (trainPhase port main t .verify s)
      | _ => .next (fallBack port main t 1 s)

/-- A lane that joins a port's stripe counts its markers as the port's first lane does (R334). -/
def joinStream (first l : Nat) (s : State) : State :=
  let n := (tget {} s.link.streams first).sent
  { s with link.streams := tmod {} s.link.streams l (fun x => { x with sent := n }) }

/-- RATE_STEP (R337, R339): after 16 marks of silence the lanes run at the next or the previous rate. -/
def execRateStep (port : Nat) (s : State) : Host.Outcome State Fault Refusal :=
  match portTraining s port with
  | none => .next s
  | some (main, t) =>
    match t.stepTo with
    | none => .next s
    | some (r, since) =>
      if !lanesRun s || lmc s < since + 16 then .next s
      else
        let s := t.lanes.foldl (fun s i =>
          let l := laneId port i
          let s := laneRate l r t.fallback (modLane l (fun x =>
            { x with savedTaps := tset presetTaps x.savedTaps t.rate (x.pre, x.post) }) s)
          if main then s else joinStream (laneId port 0) l s) s
        let t := { t with rate := r, stepTo := none, run := 0, last := none, readyOwn := [], readyPartner := [] }
        .next (sendTrain port t 0 (trainPhase port main t .lock s))

/-- AUTO_RETRAIN (R339): 16 marks after entry to LOST; in a global stop it waits for RESUME (R493). -/
def execAutoRetrain (port : Nat) (s : State) : Host.Outcome State Fault Refusal :=
  let x := portOf s port
  .next (if lanesRun s && !stopped s && portFree s port && x.phase == .lost && getField (portReg port 0) 26 0 s = 1 && x.lostAt + 16 ≤ lmc s then
    startTraining port false s else s)

/-! ### Locks and markers (R332 to R334) -/

/-- A lane of a port in STATE 2 that carries its traffic. -/
def laneInService (s : State) (l : Nat) : Bool :=
  let p := lanePort s l
  portUp s p && l < portLane0 p + widthLanes (portOf s p).width

/-- A lane sends raw pattern bits for a test; through the near-end parallel loop FEC and block lock run (R347, R348). -/
def rawTest (x : Lane) : Bool := x.held && x.loop != some 1

/-- A lane loses a lock: the port in service is lost, a training lane fails its VERIFY, a far-end loop ends. -/
def lockLost (l : Nat) (f : Lane → Lane) (s : State) : State :=
  let s := sat (laneErrReg l) 8 8 1 (modLane l (fun x => { f x with deskewed := false, farLoop := false, marker := none }) s)
  let verifying : Bool := match trainingOf s l with
    | some (_, _, t) => t.phase == .verify
    | none => false
  let s := if verifying then modLane l (fun x => { x with failed := true }) s else s
  if laneInService s l then settleHome (linkLost (lanePort s l) true s) else s

/-- CODEWORD_LOCK_ACQUIRED. -/
def execCodewordLockAcquired (lane : Nat) (s : State) : Host.Outcome State Fault Refusal :=
  let x := laneState s lane
  .next (if lanesRun s && x.powered && !rawTest x then modLane lane (fun x => { x with cwLock := true, badRun := 0 }) s else s)

/-- CODEWORD_LOCK_LOST: of the eight uncorrectable codewords in a row those not yet counted are counted. -/
def execCodewordLockLost (lane : Nat) (s : State) : Host.Outcome State Fault Refusal :=
  let x := laneState s lane
  .next (if lanesRun s && x.cwLock then
    lockLost lane (fun x => { x with cwLock := false, blockLock := false, badRun := 0 })
      (sat (laneErrReg lane) 16 16 (8 - min 8 x.badRun) s) else s)

/-- BLOCK_LOCK_ACQUIRED: while the port is in LOCK the receiver also settles the lane's polarity. -/
def execBlockLockAcquired (lane : Nat) (s : State) : Host.Outcome State Fault Refusal :=
  if !lanesRun s || !(laneState s lane).cwLock then .next s
  else
    let locking : Bool := match trainingOf s lane with
      | some (_, _, t) => t.phase == .lock
      | none => false
    let s := modLane lane (fun x => { x with blockLock := true }) s
    if locking then
      let (d, s) := draw s
      .next (modLane lane (fun x => { x with polarityInv := d % 2 = 1 }) s)
    else .next s

/-- BLOCK_LOCK_LOST. -/
def execBlockLockLost (lane : Nat) (s : State) : Host.Outcome State Fault Refusal :=
  .next (if lanesRun s && (laneState s lane).blockLock then lockLost lane (fun x => { x with blockLock := false }) s else s)

/-- Codewords decoded on a lane (R332, R349), oldest first: symbols corrected in each, or none where it could not be
repaired. -/
def countCodewords (l : Nat) (ds : List (Option Nat)) (s : State) : State :=
  let good := (ds.map (·.getD 0)).sum
  let bad := ds.countP (·.isNone)
  let run := fun (n : Nat) => ds.foldl (fun n d => if d.isNone then n + 1 else 0) n
  let s := sat (laneErrReg l) 16 16 bad (sat (laneErrReg l - 4) 0 32 good s)
  modLane l (fun x => { x with corrected := x.corrected + good, uncorrectable := x.uncorrectable + bad, badRun := run x.badRun }) s

/-- Lanes of a port that have received the marker of a count. -/
def markedLanes (s : State) (p count : Nat) : List (Nat × Nat) :=
  (List.range 4).filterMap (fun i =>
    let x := laneState s (laneId p i)
    match x.marker with
    | some (c, at') => if c = count && x.blockLock && lanePort s (laneId p i) = p then some (laneId p i, at') else none
    | none => none)

/-- The lanes of a port are aligned by the markers of one count: each lies behind the earliest by its skew, which may be 128
blocks (R334). -/
def alignLanes (p count : Nat) (s : State) : State :=
  let ms := markedLanes s p count
  let first := (ms.map (·.2)).foldl min ((ms.map (·.2)).headD 0)
  ms.foldl (fun s m => modLane m.1 (fun x => { x with skew := min 255 (m.2 - first), deskewed := m.2 - first ≤ 128 }) s) s

/-- MARKER_BLOCK (R332, R334): a marker in the stream of the lane it names aligns it with its port. `place` is the block time of
its arrival and `decoded` are the lane's codewords since the last. Deleting or repeating the marker for rate compensation
touches neither data nor counts. -/
def execMarkerBlock (lane : Nat) (w : Blk) (place : Nat) (decoded : List (Option Nat)) (s : State) :
    Host.Outcome State Fault Refusal :=
  .next (if !lanesRun s || !(laneState s lane).cwLock then s
    else
      let s := countCodewords lane decoded s
      match readMarker w with
      | some (count, i) =>
        let p := lanePort s lane
        if (laneState s lane).blockLock && lane = laneId p i then
          alignLanes p count (modLane lane (fun x => { x with marker := some (count, place) }) s)
        else s
      | none => s)

/-! ### Bring-up and retrain commands (R343, R344) -/

/-- A port of slot 0 takes all four lanes of its quad, or is about to (R345); one in STATE 3 takes those that it retrains
with. -/
def takesQuad (s : State) (p : Nat) : Bool :=
  let x := portOf s p
  if portState x = 3 then portWidthCfg s p = 2
  else x.width = 2 || x.widthChange == some (.asked 2) || widensToQuad x

/-- Lanes that a port would take at a width belong to the other slot's port, which is configured. -/
def overlapsOther (s : State) (p w : Nat) : Bool :=
  let other := if p % 2 = 0 then p + 1 else p - 1
  let x := portOf s other
  x.phase != .off && (if p % 2 = 0 then w = 2 else takesQuad s other)

/-- A test or loop holds one of a port's lanes. -/
def lanesHeld (s : State) (p w : Nat) : Bool :=
  (portLanes p w).any (fun l => (laneState s l).held || (laneState s l).farLoop)

/-- BRING_UP_LINK. -/
def execBringUpLink (c : Cmd) (s : State) : Host.Outcome State Fault Refusal :=
  let p := min 95 (pnum c.params 0 1)
  let w := slotWidth p (pbits c.params 1 0 2)
  let r := clampTo 1 4 (pbits c.params 1 2 3)
  .next (kcpTake 0x601 c (le 1 p ++ le 1 (w + 4 * r) ++ zeros 2) (fun s =>
    if portAbsent s p then (.done stDEGRADED [], s)
    else if !portFree s p then (.done stBUSY [], s)
    else if overlapsOther s p w || lanesHeld s p w then (.done stDENIED [], s)
    else match portState (portOf s p) with
    | 1 => (.done stBUSY [], s)
    | 2 => (.done stOK (bringUpResults s p), s)
    | _ =>
      let s := setField (portReg p 0) 30 2 w (setField (portReg p 0) 27 4 r s)
      let s := modPort p (fun x => { x with shareBase := none, dropped := [] }) s
      if sealEnable s p && !sealReady s p then
        let s := portOff p 0 s
        (.done stNOT_DONE (bringUpResults s p), s)
      else (.later (.port p), startTraining p true s)) s)

/-- RETRAIN_PORT. -/
def execRetrainPort (c : Cmd) (s : State) : Host.Outcome State Fault Refusal :=
  let p := min 95 (pnum c.params 0 1)
  .next (kcpTake 0x602 c (le 1 p ++ zeros 3) (fun s =>
    let x := portOf s p
    if portAbsent s p then (.done stDEGRADED [], s)
    else if !portFree s p then (.done stBUSY [], s)
    else match portState x with
    | 2 =>
      if x.change.isSome || x.backoffUntil.isSome || x.widthChange.isSome then (.done stBUSY [], s)
      else
        let now := lmc s
        let s := modPort p (fun x => { x with change := some (0, x.width, now, 0) }) s
        (.later (.retrain p), sendChange p 0 x.width 0 true (enterPhase p .change s))
    | 3 =>
      if sealEnable s p && !sealReady s p then
        let s := portOff p 0 s
        (.done stNOT_DONE (bringUpResults s p), s)
      else (.later (.port p), startTraining p false (forgetDropped p s))
    | _ => (.done stDENIED [], s)) s)

/-! ### CHANGE (R344 to R346) -/

/-- An agreed change is followed: a retrain goes through LOST to LOCK at rate 1; a width change adds its lanes or has its
switch point now. -/
def followChange (p kind w : Nat) (s : State) : State :=
  let s := modPort p (fun x => { x with change := none, backoffUntil := none }) s
  let s := if portUp s p then enterPhase p .up s else s
  if kind = 0 then
    let s := { s with kcp.running := s.kcp.running.map (fun r => if r.wait = .retrain p then { r with wait := .port p } else r) }
    startTraining p false (forgetDropped p (settleHome (linkLost p false s)))
  else if w < (portOf s p).width then beginSwitch p w s
  else
    let lanes := addedLanes s p w
    let now := lmc s
    let s := lanes.foldl (fun s i => joinStream (laneId p 0) (laneId p i) (laneRate (laneId p i) 1 false s)) s
    let t : Train := { lead := lanes.headD 0, lanes := lanes, bringUp := false, since := now, began := now }
    sendTrain p t 0 (modPort p (fun x => { x with widthChange := some (.adding w now), aux := some t }) s)

/-- Answer a partner's CHANGE: READY 1 when this end can comply. -/
def answerChange (p : Nat) (b : TrainBlk) (s : State) : State :=
  let x := portOf s p
  let w := b.width
  let ok := b.kind = 0 || (x.widthChange.isNone && w ≤ (if p % 2 = 1 then 1 else 2) && w != x.width &&
    !(x.width < w && (overlapsOther s p w || (addedLanes s p w).any (fun i => (laneState s (laneId p i)).held))))
  let s := sendChange p b.kind w b.lanesOk ok s
  if ok then followChange p b.kind w s else s

/-- A change ends with nothing changed, its command answered. -/
def abandonChange (p st : Nat) (s : State) : State :=
  let s := modPort p (fun x => { x with change := none, backoffUntil := none, widthChange := (match x.widthChange with
    | some (.asked _) => none
    | y => y) }) s
  endChange p st [] (if portUp s p then enterPhase p .up s else s)

/-- A collision of two CHANGEs with equal EIDs: both ends back off (R346, R430); the eighth ends the command. -/
def collide (p : Nat) (ch : Nat × Nat × Nat × Nat) (s : State) : State :=
  let n := ch.2.2.2 + 1
  let s := recordError { seq := 0, domain := 3, source := 2, rung := 0, tenant := portTenant s p, shared := portShared s p,
                         unitKind := 3, unit := p } (portQuadrant p) 0 s
  if 8 ≤ n then abandonChange p stBUSY s
  else
    let (wait, s) : Nat × State := if s.sec.rngOk then
        let (d, s) := draw s
        (1 + d % 64, s)
      else (1 + (serial % 65536 + 37 * n) % 64, s)
    let now := lmc s
    modPort p (fun x => { x with change := some (ch.1, ch.2.1, ch.2.2.1, n), backoffUntil := some (now + wait) }) s

/-- This end has switched and the partner's switch has come on every old lane: the width change is over. -/
def settleWidth (p : Nat) (s : State) : State :=
  match (portOf s p).widthChange with
  | some (.switching w _ old true got) =>
    if !(List.range (widthLanes old)).all got.contains then s else
    let s := modPort p (fun x => { x with widthChange := none }) s
    let s := if (portOf s p).shareBase != some (bookable w (portOf s p).rate) then
      modPort p (fun x => { x with shareBase := some (bookable w x.rate) }) s else s
    endChange p stOK (widthResults s p) s
  | _ => s

/-- The partner's CHANGE meets this endings own, which waits for its answer (R346): the end with the lower EID leads. -/
def meetChange (p : Nat) (ch : Nat × Nat × Nat × Nat) (b : TrainBlk) (s : State) : State :=
  if localEid s p < b.eid then s
  else if b.eid < localEid s p then answerChange p b (abandonChange p stBUSY s)
  else collide p ch s

/-- The answer to this endings CHANGE. -/
def changeAnswered (p : Nat) (ch : Nat × Nat × Nat × Nat) (b : TrainBlk) (s : State) : State :=
  if b.kind != ch.1 || (b.kind = 1 && b.width != ch.2.1) then s
  else if b.ready then followChange p ch.1 ch.2.1 s
  else abandonChange p stDENIED s

/-- The partner's switch has come on one of the old lanes (R345). -/
def switchSeen (p : Nat) (b : TrainBlk) (s : State) : State :=
  match (portOf s p).widthChange with
  | some (.switching w a old sent got) =>
    if b.kind = 1 && b.width = w && !b.ready then
      settleWidth p (modPort p (fun x => { x with widthChange := some (.switching w a old sent (b.lane :: got)) }) s)
    else s
  | _ => s

/-- CHANGE_BLOCK (R345, R346): an answer to this endings CHANGE, the partner's switch, or the partner's `own` CHANGE. What `own`
tells does not stand in the block: DESIGN CHOICE (log entry 87). -/
def execChangeBlock (port : Nat) (w : Blk) (own : Bool) (s : State) : Host.Outcome State Fault Refusal :=
  .next (match readBlk typeCHANGE w with
    | none => s
    | some b =>
      let x := portOf s port
      if !lanesRun s || !portUp s port then s
      else match x.change with
      | some ch =>
        if x.backoffUntil.isSome then (if b.ready then answerChange port b (abandonChange port stBUSY s) else s)
        else if own && b.ready then meetChange port ch b s
        else changeAnswered port ch b s
      | none => if b.ready then answerChange port b s else switchSeen port b s)

/-- CHANGE_ANSWER_TIMEOUT (R344, R345): 64 marks without an answer. -/
def execChangeAnswerTimeout (port : Nat) (s : State) : Host.Outcome State Fault Refusal :=
  let x := portOf s port
  .next (match x.change with
    | some ch =>
      if lanesRun s && x.backoffUntil.isNone && ch.2.2.1 + 64 ≤ lmc s then abandonChange port stBUSY s else s
    | none => s)

/-- CHANGE_BACKOFF (R346): the CHANGE is sent again. -/
def execChangeBackoff (port : Nat) (s : State) : Host.Outcome State Fault Refusal :=
  let x := portOf s port
  .next (match x.change, x.backoffUntil with
    | some ch, some u =>
      if lanesRun s && u ≤ lmc s then
        let now := lmc s
        sendChange port ch.1 ch.2.1 (if ch.1 = 1 then addedMask s port ch.2.1 else 0) true
          (modPort port (fun x => { x with backoffUntil := none, change := some (ch.1, ch.2.1, now, ch.2.2.2) }) s)
      else s
    | _, _ => s)

/-- SET_PORT_WIDTH. -/
def execSetPortWidth (c : Cmd) (s : State) : Host.Outcome State Fault Refusal :=
  let p := min 95 (pnum c.params 0 1)
  let w := slotWidth p (pbits c.params 1 0 2)
  .next (kcpTake 0x603 c (le 1 p ++ le 1 w ++ zeros 2) (fun s =>
    let x := portOf s p
    if portAbsent s p then (.done stDEGRADED [], s)
    else if !portUp s p || (x.width < w && overlapsOther s p w) then (.done stDENIED [], s)
    else if x.change.isSome || x.backoffUntil.isSome || x.widthChange.isSome then (.done stBUSY [], s)
    else if w = x.width then (.done stOK (widthResults s p), s)
    else
      let now := lmc s
      let s := modPort p (fun x => { x with change := some (1, w, now, 0), widthChange := some (.asked w) }) s
      (.later (.width p), sendChange p 1 w (addedMask s p w) true (enterPhase p .change s))) s)

/-- NEW_LANES_TIMEOUT (R345): lanes that are not all verified within 12,288 marks leave the width as it is. -/
def execNewLanesTimeout (port : Nat) (s : State) : Host.Outcome State Fault Refusal :=
  let x := portOf s port
  .next (match x.widthChange with
    | some (.adding w since) =>
      if lanesRun s && since + 12288 ≤ lmc s then
        let s := (addedLanes s port w).foldl (fun s i => laneOff (laneId port i) s) s
        let s := modPort port (fun x => { x with widthChange := none, aux := none }) s
        endChange port stDEGRADED (widthResults s port) s
      else s
    | _ => s)

/-- WIDTH_SWITCH (R345): from mark a + 1,025 the transmitter says so on every old lane and stripes over the new width. -/
def execWidthSwitch (port : Nat) (s : State) : Host.Outcome State Fault Refusal :=
  let x := portOf s port
  .next (match x.widthChange with
    | some (.switching w a old false got) =>
      if lanesRun s && a + 1025 ≤ lmc s then
        let s := (List.range (widthLanes x.width)).foldl (fun s i =>
          sendBlock (laneId port i) (trainWord (changeBlk s port i 1 w 0 false)) s) (fillRow port s)
        let s := (newLanes s port w).foldl (fun s i => joinStream (laneId port 0) (laneId port i) s) s
        let s := ((List.range (widthLanes x.width)).filter (fun i => widthLanes w ≤ i)).foldl
          (fun s i => laneOff (laneId port i) s) s
        settleWidth port (modPort port (fun x => { x with width := w, lanesOk := onesMask (widthLanes w),
                                                          tx := { x.tx with dealt := 0 },
                                                          widthChange := some (.switching w a old true got) }) s)
      else s
    | _ => s)

/-! ### Loops and pattern tests (R347, R348) -/

/-- A lane belongs to a port in STATE 1 or 2. -/
def laneServes (s : State) (l : Nat) : Bool :=
  let st := portState (portOf s (lanePort s l))
  st = 1 || st = 2

/-- RUN_LOOPBACK and RUN_PRBS: the lanes are held until the test ends. A far-end loop is first asked for at rate 1; every other
test begins at once, and a near-end loop puts nothing on the line. -/
def laneTest (op : Nat) (c : Cmd) (s : State) : State :=
  let first := min 191 (pnum c.params 0 1)
  let count := min (clampTo 1 4 (pnum c.params 1 1)) (4 - first % 4)
  let loop : Option Nat := if op = 0x604 then some (min 2 (pbits c.params 2 0 2)) else none
  let rate := clampTo 1 4 (pbits c.params 2 2 3)
  let pattern := pbits c.params 2 5 1
  let dur := clampTo 1 (if op = 0x604 then 1040000 else 16777216) (pnum c.params 4 4)
  let echo := le 1 first ++ le 1 count ++ le 1 (loop.getD 0 + 4 * rate + 32 * pattern) ++ zeros 1 ++ le 4 dur
  let lanes := (List.range count).map (first + ·)
  kcpTake op c echo (fun s =>
    if lanes.any (fun l => portAbsent s (lanePort s l)) then (.done stDEGRADED [], s)
    else if lanes.any (laneServes s) then (.done stDENIED [], s)
    else if !lanes.all (fun l => portFree s (lanePort s l)) || lanes.any (fun l => (laneState s l).held || (laneState s l).farLoop) then (.done stBUSY [], s)
    else
      let far := loop = some 2
      let s := lanes.foldl (fun s l => modLane l (fun x => { x with
        held := true, loop := loop, powered := true, rate := if far then 1 else rate }) s) s
      let s := if far then lanes.foldl (fun s l => sendLoop l rate true s) s
        else if loop = none then lanes.foldl (fun s l => sendPattern l rate (pattern = 1) dur s) s else s
      let ending := if far then lmc s + (watch - 1) else lmc s + dur
      (.later (.test first count rate ending loop (pattern = 1) dur []), s)) s

/-- RUN_LOOPBACK. -/
def execRunLoopback (c : Cmd) (s : State) : Host.Outcome State Fault Refusal := .next (laneTest 0x604 c s)

/-- RUN_PRBS. -/
def execRunPrbs (c : Cmd) (s : State) : Host.Outcome State Fault Refusal := .next (laneTest 0x605 c s)

/-- The running test that a lane belongs to. -/
def testOn (s : State) (loop : Bool) (l : Nat) : Option Running :=
  s.kcp.running.find? (fun r => match r.wait with
    | .test first count _ _ lp _ _ _ => first ≤ l && l < first + count && lp.isSome == loop
    | _ => false)

/-- The lanes of a test are free again; far-end loops are ended. -/
def freeLanes (first count rate : Nat) (loop : Option Nat) (s : State) : State :=
  ((List.range count).map (first + ·)).foldl (fun s l =>
    let s := if loop = some 2 then sendLoop l rate false s else s
    modLane l (fun x => { x with held := false, loop := none, powered := false, rate := 0 }) s) s

/-- A test has begun: every far-end loop that it needs is granted. -/
def testBegun (count : Nat) (loop : Option Nat) (granted : List Nat) : Bool := loop != some 2 || granted.length = count

/-- The 16-byte record of a lane, from the bits that its checker received in the test. -/
def testRecord (p13 : Bool) (received : List Bool) : List Byte :=
  let c := checkPattern p13 received
  le 8 c.compared ++ le 4 (min 0xFFFFFFFF c.errors) ++ le 1 (b2n c.locked.isSome + 4 * b2n (c.locked == some true)) ++ zeros 3

/-- A test's duration has passed: one record per lane. DESIGN CHOICE (log entry 143): a far-end loop that the partner has not
answered within the command's reply limit ends it with checkers that saw nothing. -/
def testEnd (loop : Bool) (lane : Nat) (received : List (List Bool)) (s : State) : State :=
  match testOn s loop lane with
  | none => s
  | some r => match r.wait with
    | .test first count rate deadline lp p13 _ granted =>
      if lmc s < deadline then s
      else
        let got := fun (i : Nat) => if testBegun count lp granted then received.getD i [] else []
        finish r stOK ((List.range count).flatMap (fun i => testRecord p13 (got i))) (freeLanes first count rate lp s)
    | _ => s

/-- PRBS_TEST_END, with the bits that each lane's checker received. -/
def execPrbsTestEnd (lane : Nat) (received : List (List Bool)) (s : State) : Host.Outcome State Fault Refusal :=
  .next (testEnd false lane received s)

/-- LOOPBACK_TEST_END, with the bits that came back through each lane's loop. -/
def execLoopbackTestEnd (lane : Nat) (received : List (List Bool)) (s : State) : Host.Outcome State Fault Refusal :=
  .next (testEnd true lane received s)

/-- Every loop is granted: the lanes change to the test's rate and send the pattern. -/
def beginLoops (r : Running) (first count rate : Nat) (loop : Option Nat) (p13 : Bool) (dur : Nat) (granted : List Nat)
    (s : State) : State :=
  let s := ((List.range count).map (first + ·)).foldl (fun s l =>
    sendPattern l rate p13 dur (modLane l (fun x => { x with rate := rate }) s)) s
  rewait r (.test first count rate (lmc s + dur) loop p13 dur granted) s

/-- The record of a lane in a test that ends without being run: FLAGS bit 1 on the lane whose loop was refused. -/
def refusedRecord (refused : Bool) : List Byte := zeros 12 ++ le 1 (2 * b2n refused) ++ zeros 3

/-- A partner's answer to the loop that a test asked for: the last grant begins the test, and a refusal ends RUN_LOOPBACK
DENIED. -/
def loopAnswer (r : Running) (lane : Nat) (ready : Bool) (s : State) : State :=
  match r.wait with
  | .test first count rate deadline lp p13 dur granted =>
    if granted.contains lane && ready then s
    else if ready then
      let all := lane :: granted
      if testBegun count lp all then beginLoops r first count rate lp p13 dur all s
      else rewait r (.test first count rate deadline lp p13 dur all) s
    else if testBegun count lp granted then s
    else finish r stDENIED ((List.range count).flatMap (fun i => refusedRecord (first + i == lane))) (freeLanes first count rate lp s)
  | _ => s

/-- LOOP_BLOCK (R347): the answer to a loop that this end asked for, or the partner's own request or end. -/
def execLoopBlock (lane : Nat) (w : Blk) (s : State) : Host.Outcome State Fault Refusal :=
  .next (match readBlk typeLOOP w with
    | none => s
    | some b =>
      if !lanesRun s then s
      else
        let mine := match testOn s true lane with
          | some r => (match r.wait with
            | .test _ _ _ _ (some 2) _ _ _ => some r
            | _ => none)
          | none => none
        match mine with
        | some r => loopAnswer r lane b.ready s
        | none =>
          if !b.ready then modLane lane (fun x => { x with farLoop := false }) s
          else
            let p := lanePort s lane
            let ok := getField (portReg p 0) 25 0 s = 1 && portFree s p && !laneServes s lane && !(laneState s lane).held
            let s := sendLoop lane b.rate ok s
            if ok then modLane lane (fun x => { x with farLoop := true, powered := true, rate := b.rate }) s else s)

end Sys2Proof.Machine
end

