-- ==== Sys2Proof/Machine/Binding.lean ====
section
/-! DEFINITION. Binding (R127 to R139, R156, R325, R409, R430): the seven binding commands and the steps of the units
that they name. -/
namespace Sys2Proof.Machine

/-! ### Tables by kind of unit (R130, R139) -/

def bindTable (s : State) : UnitKind → Tbl BindEnt
  | .strand => s.bind.strand
  | .engine => s.bind.engine
  | .coilWay => s.bind.coilWay
  | .port => s.bind.port
  | .eid => s.bind.eid
  | .knots => s.bind.knots
  | .faultQueue => s.bind.faultQueue

def bindEnt (s : State) (k : UnitKind) (u : Nat) : BindEnt := tget {} (bindTable s k) u

def modBind (k : UnitKind) (u : Nat) (f : BindEnt → BindEnt) (s : State) : State :=
  let t := tmod {} (bindTable s k) u f
  match k with
  | .strand => { s with bind.strand := t }
  | .engine => { s with bind.engine := t }
  | .coilWay => { s with bind.coilWay := t }
  | .port => { s with bind.port := t }
  | .eid => { s with bind.eid := t }
  | .knots => { s with bind.knots := t }
  | .faultQueue => { s with bind.faultQueue := t }

/-- Units that exist, the most one command names, and the group its range stays within (R130). -/
def unitLimits : UnitKind → Nat × Nat × Nat
  | .strand => (512, 32, 32)
  | .engine => (2048, 128, 128)
  | .coilWay => (32, 32, 32)
  | .port => (96, 24, 24)
  | .eid => (4096, 256, 4096)
  | .knots => (256, 256, 256)
  | .faultQueue => (64, 64, 64)

/-! ### Sealed tenants and shared ports (R156) -/

/-- A tenant is sealed, or its sealing has been accepted. -/
def sealing? (s : State) (t : Nat) : Bool := sealedTenant s t || (tget (0, 0) s.bind.sealPending t).1 != 0

/-- A port carries packets from an EID: it is the port's link partner, or the active routes lead there (R156). -/
def carriesEid (s : State) (p eid : Nat) : Bool :=
  (portUp s p && (portOf s p).partnerEid == eid) || routeOf s eid == some p

/-- The EIDs of a tenant that are behind a port. -/
def carriesTenant (s : State) (p t : Nat) : Bool := (tenantEids s t).any (carriesEid s p)

/-- A port belongs to a sealed tenant, or carries its EIDs. -/
def sealedPort (s : State) (p : Nat) : Bool :=
  (List.range 32).any (fun t => sealing? s t && (portTenant s p == some t || carriesTenant s p t))

/-! ### Preconditions (R132, R134) -/

/-- A knot of a block is armed, or a gate waits on it. -/
def blockBusy (s : State) (b : Nat) : Bool :=
  s.belay.knots.any (fun e => e.1 / 256 == b && e.2.armed) ||
  s.eng.cores.any (fun e => (coreCtxs e.2).any (fun c =>
    atGate c.2 && (gateOf c.2).kind == 1 && (gateOf c.2).select / 256 == b))

/-- A fault queue holds records, on its ring or waiting for a slot of it. -/
def queueBusy (s : State) (q : Nat) : Bool :=
  fqHead s q != (queueState s q).tail || s.xlat.openRecs.any (fun r => r.queue == q && !r.written)

/-- The status that a unit's precondition gives, if it fails. -/
def bindRefusal (s : State) (k : UnitKind) (u tenant : Nat) (unbind shared force : Bool) : Option Nat :=
  if (bindEnt s k u).st = .stepping then some stBUSY
  else match k with
    | .strand => if s.bind.extents.any (fun e => ppaStrand e.base == u) then some stDENIED else none
    | .engine =>
      let c := tget {} s.eng.cores u
      if !force && (coreCtxs c != [] || c.queue != []) then some stBUSY else none
    | .coilWay => none
    | .port => if shared && sealedPort s u then some stDENIED else none
    | .eid =>
      if !unbind && sealing? s tenant && (List.range 96).any (fun p => portShared s p && carriesEid s p u) then
        some stDENIED else none
    | .knots => if !force && blockBusy s u then some stBUSY else none
    | .faultQueue => if !force && queueBusy s u then some stBUSY else none

/-! ### A step begins (R134) -/

/-- Set a register field at once, in place of any write that waits for it. -/
def forceField (off lo reset v : Nat) (s : State) : State :=
  setField off lo reset v { s with waiting := s.waiting.filter (fun w => !(w.offset == off && w.lo == lo)) }

/-- The shares on a port of every tenant that it no longer serves become 0. -/
def dropShares (p : Nat) (keep : Nat → Bool) (s : State) : State :=
  ((List.range 32).filter (fun t => !keep t)).foldl (fun s t => forceField (0x00011000 + 4 * (96 * t + p)) 0 0 0 s) s

/-- RECALL every line that lists an EID, and every line of its old tenant in a BROADCAST entry; a line whose entry fails its
CHECK by the tenant of its extent (R217). -/
def recallEid (eid : Nat) (s : State) : State :=
  let old := eidTenant s eid
  s.coh.dir.foldl (fun s e => match e.2 with
    | some d =>
      if d.bad then
        if old.isSome && old == (extentAt s (ppaOfLine e.1)).map (·.tenant) then
          (if (busyOf s e.1).isNone then badEntry e.1 s else recallFrom e.1 eid d s) else s
      else if d.ptrs.contains eid || (d.mode == .broadcast && old == some d.tenant) then
        absorbReleases e.1 (recallFrom e.1 eid d s)
      else s
    | none => s) s

/-- FORCE on an engine core: its contexts and its queue end REVOKED. -/
def emptyCore (c : Nat) (s : State) : State :=
  let y := tget {} s.eng.cores c
  let s := y.queue.foldl (fun s sh => endQueued c sh stREVOKED s) s
  stopAll ((coreCtxs y).map (fun x => (c, x.1))) stREVOKED s

/-- FORCE on a knot block: each wait ends REVOKED. -/
def endWaits (b : Nat) (s : State) : State :=
  stopAll (s.eng.cores.flatMap (fun e => (coreCtxs e.2).filterMap (fun c =>
    if atGate c.2 && (gateOf c.2).kind = 1 && (gateOf c.2).select / 256 = b then some (e.1, c.1) else none))) stREVOKED s

/-- FORCE on a fault queue: its records are discarded, and what waits on them ends FAULT. -/
def discardRecords (q : Nat) (s : State) : State :=
  let rs := s.xlat.openRecs.filter (fun r => r.queue = q)
  stopAll (rs.flatMap (·.waiting)) stFAULT { s with xlat.openRecs := s.xlat.openRecs.filter (fun r => r.queue != q) }

/-- Lines of a coil way go back to their strands where they are dirty, and are dropped (R32, R134). -/
def emptyWay (w : Nat) (s : State) : State :=
  ((List.range 4).flatMap (fun q => coilIn s q [w])).foldl (fun s l => coilEvict l s) s

/-- A unit begins its step. A coil way serves nothing from then on, so its lines leave it at once (R139). -/
def beginStep (k : UnitKind) (tenant : Nat) (unbind shared : Bool) (u : Nat) (s : State) : State :=
  let s := match k with
    | .engine => emptyCore u s
    | .eid => recallEid u s
    | .knots => endWaits u s
    | .faultQueue => if queueBusy s u then discardRecords u s else s
    | .port => dropShares u (fun t => !unbind && (shared || t == tenant)) s
    | .coilWay => emptyWay u s
    | _ => s
  modBind k u (fun e => { e with st := .stepping, newTenant := tenant, unbind := unbind, newShared := shared }) s

/-- A binding command (R131, R132, R156, R430). -/
def bindCmd (op : Nat) (k : UnitKind) (c : Cmd) (s : State) : State :=
  let (total, limit, group) := unitLimits k
  let first := min (total - 1) (pnum c.params 0 2)
  let count := min (clampTo 1 limit (pnum c.params 2 2)) (group * (first / group + 1) - first)
  let unbind := pbit c.params 4 5
  let force := pbit c.params 4 6
  let shared := k == .port && !unbind && pbit c.params 4 7
  let tenant := if unbind || shared then 0 else pbits c.params 4 0 5
  let echo := le 2 first ++ le 2 count ++ le 1 (tenant + 32 * b2n unbind + 64 * b2n force + 128 * b2n shared) ++ zeros 3
  let units := (List.range count).map (first + ·)
  kcpTake op c echo (fun s =>
    if k == .strand && !s.sec.rngOk then (.done stBUSY [], s)
    else match units.findSome? (fun u => bindRefusal s k u tenant unbind shared force) with
      | some st => (.done st [], s)
      | none => (.later (.bind k units 0 false), units.foldl (fun s u => beginStep k tenant unbind shared u s) s)) s

def execBindStrand (c : Cmd) (s : State) : Host.Outcome State Fault Refusal := .next (bindCmd 0x201 .strand c s)
def execBindEngine (c : Cmd) (s : State) : Host.Outcome State Fault Refusal := .next (bindCmd 0x202 .engine c s)
def execBindCoilWay (c : Cmd) (s : State) : Host.Outcome State Fault Refusal := .next (bindCmd 0x203 .coilWay c s)
def execBindPort (c : Cmd) (s : State) : Host.Outcome State Fault Refusal := .next (bindCmd 0x204 .port c s)
def execBindEid (c : Cmd) (s : State) : Host.Outcome State Fault Refusal := .next (bindCmd 0x205 .eid c s)
def execBindKnots (c : Cmd) (s : State) : Host.Outcome State Fault Refusal := .next (bindCmd 0x206 .knots c s)
def execBindFaultQueue (c : Cmd) (s : State) : Host.Outcome State Fault Refusal :=
  .next (bindCmd 0x207 .faultQueue c s)

/-! ### A step ends (R134, R409) -/

/-- What a unit's step still waits for: an engine's contexts, an EID's recalls. -/
def stepReady (s : State) (k : UnitKind) (u : Nat) : Bool :=
  match k with
  | .engine => let c := tget {} s.eng.cores u; coreCtxs c = [] && c.queue = []
  | .eid => !s.coh.busy.any (fun b => b.recalls.contains u || (b.owed ++ (match b.phase with
      | .snooping l => l
      | .recalling l => l
      | _ => [])).any (fun x => x.eid == u && x.code == 0x4B && !x.complete))
  | _ => true

/-- A strand's step (R134, R409, R442): its coil lines are dropped, it has a new pair of keys, and it enters or leaves
self-refresh. -/
def rekeyStrand (st : Nat) (unbind : Bool) (s : State) : State :=
  let s := { s with mem.coil := s.mem.coil.filter (fun e => lineStrand e.1 != st) }
  let x := strandOf s st
  let power : Power := if x.lostUnit then x.power else if unbind then .selfRefresh else .active
  let s := if unbind then slicePaid st s else if x.power = .selfRefresh then sliceRestarts st s else s
  let (k, s) := draw s
  let (k', s) := draw s
  modBind .strand st (fun e => { e with epoch := (e.epoch + 1) % 65536 }) (modStrand st (fun x =>
    { x with gen := x.gen + 1, keyed := true, power := power, dataKey := BitVec.ofNat 128 k, tweakKey := BitVec.ofNat 128 k' }) s)

/-- The unit's own part of its step. -/
def stepEffect (k : UnitKind) (u : Nat) (unbind : Bool) (s : State) : State :=
  match k with
  | .strand => rekeyStrand u unbind s
  | .engine => modCore u (fun y => { y with flags := 0, records := [], ctxs := [], turn := 0 }) s
  | .coilWay => emptyWay u s
  | .knots => { s with belay.knots := s.belay.knots.filter (fun e => e.1 / 256 != u) }
  | .faultQueue =>
    forceField (fqReg u 0xC) 0 0 0 { s with xlat.queues := tmod {} s.xlat.queues u (fun x => { badRing := x.badRing }) }
  | _ => s

/-- The binding command that named a unit learns that its step has finished; with the last unit it replies (R131,
R132). -/
def stepDone (k : UnitKind) (u : Nat) (lost : Bool) (s : State) : State :=
  s.kcp.running.foldl (fun s r => match r.wait with
    | .bind k' units n degraded =>
      if k' = k && units.contains u then
        let left := units.erase u
        let deg := degraded || lost
        if left = [] then finish r (if deg then stDEGRADED else stOK) (le 2 (n + 1) ++ zeros 2) s
        else rewait r (.bind k left (n + 1) deg) s
      else s
    | _ => s) s

/-- The bind step of a unit is journalled with the command that named it; a strand's is a once step (R499). -/
def journalBind (k : UnitKind) (u : Nat) (s : State) : State :=
  s.kcp.running.foldl (fun s r => match r.wait with
    | .bind k' units _ _ =>
      if k' = k && units.contains u then
        writeJournal { session := r.session, seq := r.seq, step := .bind k u, once := k == .strand } s else s
    | _ => s) s

/-- BIND_STEP_COMPLETE (R130 to R134, R139): the unit serves its new tenant, or none. -/
def execBindStepComplete (kind : UnitKind) (unit : Nat) (s : State) : Host.Outcome State Fault Refusal :=
  let e := bindEnt s kind unit
  if e.st != .stepping || !stepReady s kind unit then .next s
  else
    let s := stepEffect kind unit e.unbind (journalBind kind unit s)
    let s := modBind kind unit (fun e =>
      { e with st := if e.unbind then .unbound else .bound, tenant := if e.unbind then 0 else e.newTenant,
               shared := !e.unbind && e.newShared, newTenant := 0, unbind := false, newShared := false }) s
    .next (stepDone kind unit e.isLost s)

end Sys2Proof.Machine
end

