-- ==== Sys2Proof/Machine/Extents.lean ====
section
/-! DEFINITION. Extents, sealed mode and credentials (R140 to R148, R154 to R158, R445): the commands of a tenant's
memory and rights. -/
namespace Sys2Proof.Machine

/-! ### Granting (R140) -/

/-- Granules of a strand's populated window, and the extents a device holds. -/
abbrev strandGranules : Nat := 1536
abbrev extentLimit : Nat := 16384

/-- Insert an extent in ascending BASE. -/
def insertExtent (e : Extent) : List Extent → List Extent
  | [] => [e]
  | x :: t => if e.base < x.base then e :: x :: t else x :: insertExtent e t

/-- GRANT_EXTENT (R140); on a LOST strand it is DEGRADED and has no effect (R476). -/
def execGrantExtent (c : Cmd) (s : State) : Host.Outcome State Fault Refusal :=
  let raw := pnum c.params 0 8 % 2 ^ 41
  let st := ppaStrand raw
  let g := min (strandGranules - 1) (ppaOffset raw / 0x200000)
  let n := min (clampTo 1 strandGranules (pnum c.params 8 4)) (strandGranules - g)
  let t := pbits c.params 12 0 5
  let base := st * 0x100000000 + 0x200000 * g
  .next (kcpNow 0x208 c (le 8 base ++ le 4 n ++ le 1 t ++ zeros 3) (fun s =>
    let clash := s.bind.extents.any (fun e => e.base < base + 0x200000 * n && base < e.base + 0x200000 * e.granules)
    if strandTenant s st != some t then (stDENIED, [], s)
    else if (strandOf s st).lostUnit then (stDEGRADED, [], s)
    else if clash || extentLimit ≤ s.bind.extents.length then (stDENIED, [], s)
    else (stOK, [], { s with bind.extents := insertExtent { base := base, granules := n, tenant := t } s.bind.extents })) s)

/-! ### Listing (R143) -/

/-- An extent's record of 16 bytes. -/
def extentRecord (e : Extent) : List Byte :=
  let st := match e.st with
    | .granted => 0
    | .draining => 1
    | .dropping => 2
  let isSealed := match e.sealing with
    | some x => x.sealedAt.isSome
    | none => false
  le 8 e.base ++ le 4 e.granules ++ le 1 (st + 4 * b2n isSealed) ++ le 1 e.tenant ++ zeros 2

/-- READ_EXTENTS (R143): the extents of one strand, for the operator or its tenant; of a LOST strand the list comes with DEGRADED
(R476). -/
def execReadExtents (c : Cmd) (s : State) : Host.Outcome State Fault Refusal :=
  let st := min 511 (pnum c.params 0 2)
  let mine := c.tenant = 0 || strandTenant s st = some c.tenant
  let l := if mine then s.bind.extents.filter (fun e => ppaStrand e.base = st) else []
  let first := min (l.length - 1) (pnum c.params 2 2)
  let count := min (clampTo 1 56 (pnum c.params 4 1)) (l.length - first)
  .next (kcpNow 0x20C c (le 2 st ++ le 2 first ++ le 1 count ++ zeros 3) (fun s =>
    if !mine then (stDENIED, [], s)
    else (if (strandOf s st).lostUnit then stDEGRADED else stOK, le 2 l.length ++ le 1 count ++ zeros 1 ++ ((l.drop first).take count).flatMap extentRecord, s)) s)

/-! ### Revoking (R144 to R148, R435, R437) -/

/-- The largest BOUND among admitted P1 requests to an extent that have not completed (R145). -/
def slowestBound (s : State) (e : Extent) : Nat :=
  let m := s.coh.trackers.foldl (fun m t => if t.p1 && trackerIn e t then max m t.bound else m) 0
  let mine := fun (m : Nat) (k : TxPkt) => if k.line.any (inExtent e) then max m k.bound else m
  s.link.ports.foldl (fun m p =>
    let m := p.2.tx.queue.foldl (fun m q => mine m q.2.2) m
    match p.2.tx.inProgress with
    | some (k, _) => mine m k
    | none => m) (s.halt.held.foldl (fun m q => mine m q.2.2) m)

/-- A fault record's page lies in an extent. -/
def recordIn (e : Extent) (r : FaultRec) : Bool :=
  entV r.entry && entLeaf r.entry && entAddr r.entry < e.base + 0x200000 * e.granules &&
  e.base < entAddr r.entry + leafSize r.level r.entry

/-- Fault records that wait on a page of the extent are discarded, and what waits on them ends REVOKED (R146). -/
def dropRecords (e : Extent) (s : State) : State :=
  let rs := s.xlat.openRecs.filter (fun r => r.tenant = e.tenant && recordIn e r.record)
  let ws := s.xlat.waitingFaults.filter (fun w => w.tenant = e.tenant && recordIn e w.record)
  stopAll (rs.flatMap (·.waiting) ++ ws.map (fun w => (w.core, w.ctx))) stREVOKED
    { s with xlat.openRecs := s.xlat.openRecs.filter (fun r => !(r.tenant = e.tenant && recordIn e r.record)),
             xlat.waitingFaults := s.xlat.waitingFaults.filter (fun w => !(w.tenant = e.tenant && recordIn e w.record)) }

/-- A seal ends with the revocation; one in progress reports REVOKED (R435, R437). -/
def endSeal (e : Extent) (status : Nat) (s : State) : State :=
  match e.sealing with
  | none => s
  | some x =>
    let s := modExtent e.base (fun e => { e with sealing := none }) s
    if x.sealedAt.isSome then s else commandDone x.session x.seq 0x702 status [] s

/-- Poison a line of a dropping extent and send its invalidations without waiting (R146, R147). -/
def dropLine (e : Extent) (line : Nat) (s : State) : State :=
  let s := poisonHome line s
  let s := match dirOf s line with
    | some d =>
      let to' := if d.bad then tenantEids s e.tenant else holders s d
      (sendSnoops line 0x49 false (homeEid s) 0 e.tenant to' (countBroadcast d to'.length s)).2
    | none => s
  modExtent e.base (fun e => { e with revocation := e.revocation.map (fun r => { r with poisoned := r.poisoned + 1 }) })
    (setDir line none s)

/-- Every line of an extent that has a directory entry, or whose entry waits in an eviction slot, is poisoned; nothing
of the extent stays busy. -/
def dropExtentLines (e : Extent) (s : State) : State :=
  let listed := (s.coh.dir.filter (fun d => d.2.isSome && inExtent e d.1)).map (·.1)
  let evicted := s.coh.evicting.filter (fun l => inExtent e l && !listed.contains l)
  let s := (listed ++ evicted).foldl (fun s l => dropLine e l s) s
  { s with coh.busy := s.coh.busy.filter (fun b => !inExtent e b.line),
           coh.evicting := s.coh.evicting.filter (fun l => !inExtent e l) }

/-- An abrupt revocation is taken (R146, R148). -/
def revokeAbrupt (e : Extent) (s : State) : State :=
  let r := e.revocation.getD { graceful := false, drainAt := 0, finalAt := 0 }
  let r := { r with finalAt := plmc s + 64 }
  let s := modExtent e.base (fun e => { e with st := .dropping, revocation := some r }) s
  dropExtentLines e (revokeAccesses e true s)

/-- A graceful revocation is taken (R145, R146). -/
def revokeGraceful (e : Extent) (s : State) : State :=
  let now := plmc s
  let r : Revocation := { graceful := true, drainAt := now + 64, finalAt := now + 64 + slowestBound s e }
  modExtent e.base (fun e => { e with st := .draining, revocation := some r }) s

/-- REVOKE_EXTENT (R144 to R148). -/
def execRevokeExtent (c : Cmd) (s : State) : Host.Outcome State Fault Refusal :=
  let a := pnum c.params 0 8
  let abrupt := pbit c.params 8 0
  let s' := kcpTake 0x209 c (le 8 a ++ le 1 (b2n abrupt) ++ zeros 3) (fun s =>
    match extentAt s a with
    | none => (.done stDENIED [], s)
    | some e =>
      if e.st = .dropping || (e.st = .draining && !abrupt) then (.done stBUSY [], s)
      else
        let s := dropRecords e (endSeal e stREVOKED s)
        (.later (.revoke e.base), if abrupt then revokeAbrupt e s else revokeGraceful e s)) s
  .next (if s'.bind.extents = s.bind.extents then s' else settleHome s')

/-! ### Sealed mode (R154 to R158) -/

/-- Slots that a tenant holds, or is to hold. -/
def slotsOf (s : State) (t : Nat) : Nat := max (tget 0 s.bind.sealSlots t) (tget (0, 0) s.bind.sealPending t).1

/-- Slots of the tenants other than one. -/
def otherSlots (s : State) (t : Nat) : Nat :=
  ((List.range 32).filter (· != t)).foldl (fun n u => n + slotsOf s u) 0

/-- The last mark that a tenant's P1 bookings reach (R157). -/
def lastBooking (s : State) (t : Nat) : Nat :=
  let m := s.coh.egressLedger.foldl (fun m e => if e.1 % 32 = t then max m (e.1 / 32 / 96) else m) 0
  s.coh.trackers.foldl (fun m x => if x.tenant = t && x.p1 then
    x.strandBook.foldl (fun m b => max m b.1) m else m) m

/-- The tenant's shares in a quadrant are scaled to the limit of its slots (R158). -/
def scaleQuadrant (t limit q : Nat) (s : State) : State :=
  let share := fun (p : Nat) => acceptedAt s (0x00011000 + 4 * (96 * t + p)) 0
  let ports := (List.range 24).map (24 * q + ·)
  let sum := ports.foldl (fun n p => n + share p) 0
  if sum ≤ limit then s
  else ports.foldl (fun s p => forceField (0x00011000 + 4 * (96 * t + p)) 0 0 (share p * limit / sum) s) s

/-- SET_SEALED (R155 to R158). -/
def execSetSealed (c : Cmd) (s : State) : Host.Outcome State Fault Refusal :=
  let t := max 1 (pbits c.params 0 0 5)
  let enable := pbit c.params 1 0
  let slots := min (clampTo 1 4 (pnum c.params 2 1)) (4 - otherSlots s t)
  .next (kcpNow 0x20A c (le 1 t ++ le 1 (b2n enable) ++ le 1 slots ++ zeros 1) (fun s =>
    if slots = 0 then (stDENIED, [], s)
    else if !enable then
      (stOK, [], { s with bind.sealPending := tset (0, 0) s.bind.sealPending t (0, 0),
                          bind.unsealPending := if sealedTenant s t then tset 0 s.bind.unsealPending t (lmc s + 1)
                            else s.bind.unsealPending })
    else if (List.range 96).any (fun p => portShared s p && carriesTenant s p t) then (stDENIED, [], s)
    else
      let at' := max (lmc s) (lastBooking s t) + 1
      let s := (List.range 4).foldl (fun s q => scaleQuadrant t (44 * slots) q s) s
      (stOK, [], { s with bind.sealPending := tset (0, 0) s.bind.sealPending t (slots, at'),
                          bind.unsealPending := tset 0 s.bind.unsealPending t 0 })) s)

/-- SEALING_EFFECTIVE (R157). -/
def execSealingEffective (tenant : Nat) (s : State) : Host.Outcome State Fault Refusal :=
  let x := tget (0, 0) s.bind.sealPending tenant
  if x.1 = 0 || lmc s < x.2 then .next s
  else .next { s with bind.sealSlots := tset 0 s.bind.sealSlots tenant x.1,
                      bind.sealPending := tset (0, 0) s.bind.sealPending tenant (0, 0) }

/-- UNSEALING_EFFECTIVE (R157). -/
def execUnsealingEffective (tenant : Nat) (s : State) : Host.Outcome State Fault Refusal :=
  let x := tget 0 s.bind.unsealPending tenant
  if x = 0 || lmc s < x then .next s
  else .next { s with bind.sealSlots := tset 0 s.bind.sealSlots tenant 0,
                      bind.unsealPending := tset 0 s.bind.unsealPending tenant 0 }

/-! ### Credentials (R444, R445) -/

/-- ENROLL_TENANT (R445): sessions opened with the credential close before the reply. -/
def execEnrollTenant (c : Cmd) (s : State) : Host.Outcome State Fault Refusal :=
  let t := pbits c.params 0 0 5
  let i := clampTo (if t = 0 then 1 else 0) 3 (pnum c.params 1 1)
  let remove := pbit c.params 2 0
  let key := pnum c.params 4 64
  .next (kcpNow 0x20B c (le 1 t ++ le 1 i ++ le 1 (b2n remove) ++ zeros 1 ++ le 64 key) (fun s =>
    if !remove && !onCurve key then (stDENIED, [], s)
    else
      let s := { s with sec.creds := tset none s.sec.creds (4 * t + i) (if remove then none else some key) }
      let ss := s.kcp.sessions.filter (fun x => x.tenant = t && x.cred = i)
      (stOK, [], ss.foldl (fun s x => closeSession x.id 3 s) s)) s)

end Sys2Proof.Machine
end

