-- ==== Sys2Proof/Machine/Regs.lean ====
section
/-! DEFINITION. Register access (R11 to R18, R101, R108, R111 to R116): how a written value is accepted, when it takes
effect and what follows from it, and the commands that read and write the control space. -/
namespace Sys2Proof.Machine

/-! ### Taking effect (R15, R153, R179, R320, R349, R423) -/

/-- A lowered directory reserve: the tenant's entries above it join the common pool (R153). DESIGN CHOICE (log entry 176): those
are its youngest. -/
def lowerReserve (t q n : Nat) (s : State) : State :=
  let own := (dirWhere s q (fun _ d => d.tenant == t && d.reserve)).mergeSort (fun a b => a.2.age ≤ b.2.age)
  (own.drop n).foldl (fun s e => setDir e.1 (some { e.2 with reserve := false }) s) s

/-- ENABLE of a fault queue takes effect: with a valid ring BAD_RING clears, otherwise the queue stays off (R179). -/
def enableQueue (q : Nat) (s : State) : State :=
  let ok := ringValid s q
  setField (fqReg q 8) 31 0 (b2n ok)
    { s with xlat.queues := tmod {} s.xlat.queues q (fun x => { x with badRing := !ok }) }

/-- A lane takes its written taps while OVERRIDE is set (R349). -/
def writtenTaps (l off : Nat) (s : State) : State :=
  if getField off 31 0 s = 1 then
    { s with link.lanes := tmod {} s.link.lanes l (fun y => { y with pre := getField off 0 0 s, post := getField off 8 0 s }) }
  else s

/-- A field takes a value (R15), with what its meaning adds. -/
def applyField (f : RegFam) (i off : Nat) (x : Fld) (v : Nat) (s : State) : State :=
  let put := setField off x.lo x.reset v s
  match f, x.lo with
  | .dirReserve, lo => fillReserve (lo / 8) i (lowerReserve i (lo / 8) (8192 * v) put)
  | .routeEpoch, _ => { put with sw.drained := put.sw.drained && quietOver put }
  | .fqSize, 31 => if v = 1 then enableQueue i s else put
  | .fbar0, 31 => if v = 0 then fbarDisable i s else put
  | .flipCtl, 30 => flipArm i v s
  | .laneEq, _ => writtenTaps i off put
  | _, _ => put

/-- Writes that wait, but for those of one field. -/
def otherWrites (s : State) (off lo : Nat) : List WaitingWrite :=
  s.waiting.filter (fun w => !(w.offset == off && w.lo == lo))

/-- ENABLE of BELAY_FBAR: the entry has no command or packet in progress, so its boundary is always there (R15). -/
def alwaysIdle (f : RegFam) (lo : Nat) : Bool := f == .fbar0 && lo == 31

/-- Accept a value for a field (R15, R17, R18, R113, R114): a later write replaces one that waits. -/
def acceptField (f : RegFam) (i off : Nat) (x : Fld) (v : Nat) (s : State) : State :=
  let ws := otherWrites s off x.lo
  let w : WaitingWrite := { offset := off, lo := x.lo, value := v, cls := x.cls, at_ := lmc s + 1 }
  match x.cls with
  | .live => if v = getField off x.lo x.reset s then { s with waiting := ws } else { s with waiting := ws ++ [w] }
  | _ =>
    if alwaysIdle f x.lo || blockIdle s f i then applyField f i off x v { s with waiting := ws }
    else if v = getField off x.lo x.reset s then { s with waiting := ws }
    else { s with waiting := ws ++ [w] }

/-- The three pools of LINK_VC_CFG fit 1,024 flits together: REQ is lowered, then RSP (R366). -/
def fitPools (i off : Nat) (s : State) : State :=
  let ctl := lastWritten s off 20 0x20
  let req := lastWritten s off 10 0x1E0
  let rsp := lastWritten s off 0 0x200
  if ctl + req + rsp ≤ 1024 then s
  else
    let req' := max 17 (1024 - ctl - rsp)
    let rsp' := if ctl + req' + rsp ≤ 1024 then rsp else max 17 (1024 - ctl - req')
    let s := acceptField .vcCfg i off { lo := 10, w := 10, reset := 0x1E0, cls := .held } req' s
    acceptField .vcCfg i off { lo := 0, w := 10, reset := 0x200, cls := .held } rsp' s

/-- MAIN stays at least 24: TX_POST is lowered to what TX_PRE leaves (R337, R349). -/
def fitTaps (i off : Nat) (s : State) : State :=
  let pre := lastWritten s off 0 0
  if pre + lastWritten s off 8 0 ≤ 24 then s
  else acceptField .laneEq i off { lo := 8, w := 5, cls := .held } (24 - pre) s

/-- Whether a mask covers a whole field (R112). -/
def covered (mask : Nat) (x : Fld) : Bool := bits mask x.lo x.w = onesMask x.w

/-- A write of BELAY_KNOT_CFG under a mask (R304, R112). -/
def writeKnot (k value mask : Nat) (s : State) : State :=
  let on := fun b => if bit mask b then some (bit value b) else none
  let clear := bit mask 29 && bit value 29
  let target := if bits mask 0 24 = onesMask 24 then some (bits value 0 24) else none
  if !clear && on 31 = none && on 30 = none && target = none then s
  else knotWrite k clear (on 31) (on 30) target s

/-- One entry of WRITE_REGS (R112): each writable field that the mask covers is clamped and accepted. -/
def writeReg (off value mask : Nat) (s : State) : State :=
  match locate off with
  | none => s
  | some (.knotCfg, i) => writeKnot i value mask s
  | some (f, i) =>
    let fs := (fieldsOf f i).reverse.filter (fun x => x.acc == .rw && covered mask x)
    let s := fs.foldl (fun s x => acceptField f i off x (clampField s f i off x.lo (bits value x.lo x.w)) s) s
    if f = .vcCfg then fitPools i off s else if f = .laneEq then fitTaps i off s else s

/-! ### Commands (R111 to R113) -/

/-- Whether a register in a range is not readable by the caller. -/
def unreadable (s : State) (t off : Nat) : Bool :=
  match locate off with
  | none => false
  | some (f, i) => readRight s t f i == .denied

/-- Whether a caller's read of a register clears a field (R12, R111). -/
def clearing (s : State) (t off : Nat) : Bool :=
  match locate off with
  | none => false
  | some (f, i) => readRight s t f i == .value && (fieldsOf f i).any (fun x => x.acc == .rc)

/-- The registers of a range, read in order: values, PENDING bits, and the state after. A read that clears is claimed,
and its value journalled, before it is made (R499). -/
def readRange (c : Cmd) : List Nat → State → List (Nat × Bool) × State
  | [], s => ([], s)
  | off :: r, s =>
    let j : JournalRec := { session := c.session, seq := c.seq, step := .clearing off, once := true,
                            value := ((readReg c.tenant off s).1.getD (0, false)).1 }
    let (v, s) := readReg c.tenant off (if clearing s c.tenant off then writeJournal j s else s)
    let (vs, s) := readRange c r s
    (v.getD (0, false) :: vs, s)

/-- A mask with one bit for each element. -/
def maskOf : List Bool → Nat
  | [] => 0
  | b :: t => b2n b + 2 * maskOf t

/-- READ_REGS (R111). -/
def execReadRegs (c : Cmd) (s : State) : Host.Outcome State Fault Refusal :=
  let off := pnum c.params 0 4 / 4 * 4
  let count := clampTo 1 64 (pnum c.params 4 1)
  let offs := (List.range count).map (fun i => off + 4 * i)
  .next (kcpNow 4 c (le 4 off ++ le 1 count ++ zeros 3) (fun s =>
    if offs.any (unreadable s c.tenant) then (stDENIED, [], s)
    else
      let (vs, s) := readRange c offs s
      (stOK, vs.flatMap (fun v => le 4 v.1) ++ le 8 (maskOf (vs.map (·.2))), s)) s)

/-- The value of a register as accepted, with PENDING, as the writer sees it (R112, R115). -/
def writtenValue (s : State) (t off : Nat) : Nat × Bool :=
  match locate off with
  | none => (0, false)
  | some (f, i) => (regWord s t f i off, pendingAt s off)

/-- Apply the entries of WRITE_REGS in order, each journalled first (R499): their echo, the PENDING bits, and the state
after. `i` is the index of the first. -/
def writeAll (c : Cmd) : Nat → List (Nat × Nat × Nat) → State → (List Byte × List Bool) × State
  | _, [], s => (([], []), s)
  | i, e :: r, s =>
    let s := writeReg e.1 e.2.1 e.2.2 (writeJournal { session := c.session, seq := c.seq, step := .entry i } s)
    let v := writtenValue s c.tenant e.1
    let (x, s) := writeAll c (i + 1) r s
    ((le 4 e.1 ++ le 4 v.1 ++ le 4 e.2.2 ++ x.1, v.2 :: x.2), s)

/-- WRITE_REGS (R112, R113). -/
def execWriteRegs (c : Cmd) (s : State) : Host.Outcome State Fault Refusal :=
  let n := clampTo 1 64 (pnum c.params 0 4)
  let es := (List.range n).map (fun i => (pnum c.params (4 + 12 * i) 4 / 4 * 4, pnum c.params (8 + 12 * i) 4,
    pnum c.params (12 + 12 * i) 4))
  let echo := le 4 n ++ es.flatMap (fun e => le 4 e.1 ++ le 4 e.2.1 ++ le 4 e.2.2)
  .next (kcpTake 5 c echo (fun s =>
    if es.any (fun e => !mayWrite s c.tenant e.1) then (.done stDENIED [], s)
    else
      let (x, s) := writeAll c 0 es s
      (.whole stOK (le 4 n ++ x.1 ++ le 8 (maskOf x.2)), s)) s)

/-- REGISTER_WRITE (R15 to R18, R108, R112): one entry of WRITE_REGS. -/
def execRegisterWrite (offset value mask : Nat) (s : State) : Host.Outcome State Fault Refusal :=
  .next (writeReg (offset / 4 * 4) value mask s)

/-! ### Boundaries (R15, R16, R113) -/

/-- A waiting write of a field in a class takes effect. -/
def applyWaiting (off lo : Nat) (cls : FClass) (ready : RegFam → Nat → WaitingWrite → Bool) (s : State) : State :=
  match s.waiting.find? (fun w => w.offset == off && w.lo == lo && w.cls == cls), locate off with
  | some w, some (f, i) => match fieldAt f i lo with
    | some x => if ready f i w then applyField f i off x w.value { s with waiting := otherWrites s off lo } else s
    | none => s
  | _, _ => s

/-- LIVE_WRITE_APPLY: at the mark boundary after acceptance (R15). -/
def execLiveWriteApply (offset lo : Nat) (s : State) : Host.Outcome State Fault Refusal :=
  .next (applyWaiting offset lo .live (fun _ _ w => w.at_ ≤ lmc s) s)

/-- EDGE_WRITE_APPLY: at the block's command or packet boundary, which this command is (R15, R113). -/
def execEdgeWriteApply (offset lo : Nat) (s : State) : Host.Outcome State Fault Refusal :=
  .next (applyWaiting offset lo .edge (fun _ _ _ => true) s)

/-- HELD_WRITE_APPLY: once the block is idle (R15, R16). -/
def execHeldWriteApply (offset lo : Nat) (s : State) : Host.Outcome State Fault Refusal :=
  .next (applyWaiting offset lo .held (fun f i _ => blockIdle s f i) s)

end Sys2Proof.Machine
end

