-- ==== Sys2Proof/Machine/Security.lean ====
section
/-! DEFINITION. Identity, attestation, sealed extents, port keys and extension modules (R427 to R454), and the faults of
the random source and of the measurement store (R430, R492). -/
namespace Sys2Proof.Machine

/-- Take the rung that an error asks for, where its handling is a reset or rung 4 (R489, R491). -/
def takeRung (rung scope target : Nat) (s : State) : State :=
  match rung with
  | 3 => rung3 scope target s
  | 4 => rung4 s
  | _ => s

/-! ### The attestation report (R432, R438 to R441) -/

/-- A bitmap of the units below `n` for which a test holds. -/
def unitBits (n : Nat) (f : Nat → Bool) : Nat := (List.range n).foldl (fun m i => if f i then m + 2 ^ i else m) 0

/-- Programs, chains and sealed extents of a tenant, in ascending ID or BASE. -/
def programEntries (s : State) (t : Nat) : List (List Byte) :=
  (List.range 64).filterMap (fun i => (tget none s.eng.programs (64 * t + i)).map (fun p =>
    le 1 i ++ zeros 1 ++ le 2 p.words.length ++ le 2 p.rowBytes ++ zeros 2 ++ le 8 p.loadedAt ++ digestBytes p.digest))

def chainEntries (s : State) (t : Nat) : List (List Byte) :=
  (List.range 64).filterMap (fun i => (tget none s.eng.chains (64 * t + i)).map (fun c =>
    le 1 i ++ le 1 c.stages.length ++ zeros 6 ++ le 8 c.loadedAt ++ digestBytes c.digest))

def sealedEntries (s : State) (t : Nat) : List (List Byte) :=
  s.bind.extents.filterMap (fun e => if e.tenant != t then none else e.sealing.bind (fun x => x.sealedAt.map (fun at' =>
    le 8 e.base ++ le 4 e.granules ++ zeros 4 ++ le 8 x.length ++ le 8 at' ++ digestBytes x.digest)))

/-- Digest and version of an extension module; zeros where none. -/
def extDigest (s : State) (core : Nat) : Nat × Nat := (tget none s.sec.ext core).getD (0, 0)

/-- The first 1,408 bytes of a body whose lists have these lengths. -/
def reportHead (s : State) (nonce scope programs chains sealedN : Nat) : List Byte :=
  let len := 1408 + 48 * programs + 48 * chains + 64 * sealedN
  le 4 1 ++ le 1 scope ++ zeros 3 ++ le 8 (fmt s) ++ le 32 nonce ++ le 4 len ++ le 2 programs ++ le 2 chains ++
  le 2 sealedN ++ zeros 2 ++ le 4 (roWord s 0 .devId 0) ++ le 8 serial ++ le 1 (timeCode s.time.st) ++ zeros 55 ++
  digestBytes s.sec.bootDigest ++ digestBytes s.sec.controlDigest ++ digestBytes s.sec.engineDigest ++
  digestBytes (extDigest s 6).1 ++ digestBytes (extDigest s 7).1 ++ digestBytes s.sec.defectDigest ++
  le 4 s.sec.controlVersion ++ le 4 (extDigest s 6).2 ++ le 4 (extDigest s 7).2 ++ zeros 52 ++
  le 64 (unitBits 512 (fun i => strandTenant s i == some scope)) ++
  le 256 (unitBits 2048 (fun i => engineTenant s i == some scope)) ++
  le 512 (unitBits 4096 (fun i => eidTenant s i == some scope)) ++
  le 32 (unitBits 256 (fun i => knotTenant s (256 * i) == some scope)) ++
  le 8 (unitBits 64 (fun i => fqTenant s i == some scope)) ++
  le 12 (unitBits 96 (fun i => portTenant s i == some scope)) ++
  le 4 (unitBits 32 (fun i => wayTenant s i == some scope)) ++
  le 4 (regWord s 0 .p1Bind scope (0x00010100 + 4 * scope)) ++
  le 4 (roWord s 0 .sealCfg scope) ++ zeros 128

/-- The body of a report (R440). -/
def reportBody (s : State) (nonce scope : Nat) : List Byte :=
  let ps := programEntries s scope
  let cs := chainEntries s scope
  let es := sealedEntries s scope
  reportHead s nonce scope ps.length cs.length es.length ++ ps.flatten ++ cs.flatten ++ es.flatten

/-- Build a report, or the certificate chain (R439, R441). -/
def buildReport (nonce scope select : Nat) (s : State) : Report × State :=
  if select = 1 then ({ nonce := nonce, scope := scope, select := 1, bytes := certChain }, s)
  else
    let body := reportBody s nonce scope
    let (k, s) := draw s
    ({ nonce := nonce, scope := scope, select := 0,
       bytes := body ++ identitySign (sm3 body) k }, s)

/-- The frozen report of a session, or a new one in its place (R439). -/
def frozenReport (session nonce scope select : Nat) (s : State) : Report × State :=
  match (sessionOf s session).bind (·.report) with
  | some r =>
    if r.nonce = nonce && r.scope = scope && r.select = select then (r, s)
    else let (r, s) := buildReport nonce scope select s
      (r, modSession session (fun x => { x with report := some r }) s)
  | none =>
    let (r, s) := buildReport nonce scope select s
    (r, modSession session (fun x => { x with report := some r }) s)

/-- GET_ATTESTATION (R430, R438 to R441). -/
def execGetAttestation (c : Cmd) (s : State) : Host.Outcome State Fault Refusal :=
  let nonce := pnum c.params 0 32
  let off := pnum c.params 32 4 / 128 * 128
  let scope := pbits c.params 36 0 5
  let select := min 1 (pbits c.params 36 5 2)
  let echo := fun (o : Nat) => le 32 nonce ++ le 4 o ++ le 1 (scope + 32 * select) ++ zeros 3
  .next (kcpTake 0x701 c (echo off) (fun s =>
    if c.tenant != 0 && scope != c.tenant then (.done stDENIED [], s)
    else if !s.sec.rngOk then (.done stBUSY [], s)
    else
      let (r, s) := frozenReport c.session nonce scope select s
      let total := r.bytes.length
      let off := min off ((total - 1) / 128 * 128)
      let piece := (r.bytes.drop off).take 896
      (.whole stOK (echo off ++ le 4 total ++ le 2 piece.length ++ zeros 2 ++ piece), s)) s)

/-! ### Sealed extents (R434 to R437) -/

/-- Extents of a tenant that are sealed or being sealed. -/
def sealsOf (s : State) (t : Nat) : Nat := s.bind.extents.countP (fun e => e.tenant == t && e.sealing.isSome)

/-- The lines of an extent that an endpoint owns. -/
def ownedLines (s : State) (e : Extent) : List Nat :=
  s.coh.dir.filterMap (fun d => match d.2 with
    | some x => if x.mode = .owned && inExtent e d.1 then some d.1 else none
    | none => none)

/-- Recall every owned line of an extent that is not busy. -/
def recallOwned (e : Extent) (s : State) : State := (ownedLines s e).foldl (fun s l => recallLine l 0x4B s) s

/-- SEAL_EXTENT (R434, R435): from here on the extent is not written; its owned lines are recalled. -/
def execSealExtent (c : Cmd) (s : State) : Host.Outcome State Fault Refusal :=
  let a := pnum c.params 0 8
  let len := max 1 (pnum c.params 8 8)
  let len := match extentAt s a with
    | some e => if e.tenant = c.tenant then min len (0x200000 * e.granules) else len
    | none => len
  .next (kcpNow 0x702 c (le 8 a ++ le 8 len) (fun s =>
    match extentAt s a with
    | none => (stDENIED, [], s)
    | some e =>
      if e.tenant != c.tenant || e.sealing.isSome || e.st != .granted || 1024 ≤ sealsOf s c.tenant then (stDENIED, [], s)
      else if (strandOf s (ppaStrand e.base)).lostUnit then (stDEGRADED, [], s)
      else
        let x : Seal := { session := c.session, seq := c.seq, length := len }
        (stOK, [], recallOwned e (modExtent e.base (fun e => { e with sealing := some x }) s))) s)

/-- What sealing an extent still waits for: requests in trackers that may change a line, owned lines, recalls. -/
def sealWaits (s : State) (e : Extent) : Bool :=
  s.coh.trackers.any (fun t => trackerIn e t && changesLine t.hdr.code) || ownedLines s e != [] ||
  s.coh.busy.any (fun b => inExtent e b.line && (match b.phase with
    | .recalling _ => true
    | _ => !b.owed.isEmpty))

/-- Read lines for the hash lanes, until one is POISONED, as every line of a LOST strand is (R475). What the channel does to each
fetch is free (log entry 165). -/
def hashLines (tenant : Nat) : Nat → Nat → List Line → State → Option (List Line) × State
  | 0, _, acc, s => (some acc.reverse, s)
  | n + 1, line, acc, s =>
    let (f, s) := drawFetches s
    let (r, s) := homeRead tenant line false 3 f s
    if r.2 || (strandOf s (lineStrand line)).lostUnit then (none, bump tenant 11 1 s) else hashLines tenant n (line + 1) (r.1 :: acc) s

/-- The sealed digest of LENGTH bytes (R436). -/
def sealDigest (len : Nat) (ls : List Line) : Nat :=
  let bs := (ls.flatMap lineBytes).take len
  let n := (len + 0x1FFFFF) / 0x200000
  sm3 (le 8 len ++ (List.range n).flatMap (fun i =>
    digestBytes (sm3 ((bs.drop (0x200000 * i)).take 0x200000))))

/-- SEAL_HASH_COMPLETE (R435, R436): once nothing can change the extent any more, its lines have been hashed and it is
sealed, or a POISONED line ends the command. -/
def execSealHashComplete (base : Nat) (s : State) : Host.Outcome State Fault Refusal :=
  match s.bind.extents.find? (fun e => e.base == base && e.st == .granted) with
  | none => .next s
  | some e => match e.sealing with
    | none => .next s
    | some x =>
      if x.sealedAt.isSome || frozen s then .next s
      else
        let s := recallOwned e s
        if sealWaits s e then .next s
        else match hashLines e.tenant ((x.length + 127) / 128) (lineOfPpa e.base) [] s with
          | (none, s) =>
            .next (commandDone x.session x.seq 0x702 stPOISONED [] (modExtent base (fun e => { e with sealing := none }) s))
          | (some ls, s) =>
            let d := sealDigest x.length ls
            let y : Seal := { x with sealedAt := some (fmt s), digest := d }
            .next (commandDone x.session x.seq 0x702 stOK (zeros 5 ++ digestBytes d)
              (modExtent base (fun e => { e with sealing := some y }) s))

/-! ### Keys of sealed ports (R449, R450) -/

/-- Load a key into the transmit slot not in use. -/
def loadTxKey (p key : Nat) (s : State) : State :=
  modPort p (fun x => { x with keysTx := tset 0 x.keysTx (1 - x.keyTx) (key + 1), keyNewTx := true,
                               upsTx := tset 0 x.upsTx (1 - x.keyTx) 0 }) s

/-- Load a key into the receive slot not in use. -/
def loadRxKey (p key : Nat) (s : State) : State :=
  modPort p (fun x => { x with keysRx := tset 0 x.keysRx (1 - x.keyRx) (key + 1),
                               upsRx := tset 0 x.upsRx (1 - x.keyRx) 0 }) s

/-- SET_PORT_KEY (R449). -/
def execSetPortKey (c : Cmd) (s : State) : Host.Outcome State Fault Refusal :=
  let p := min 95 (pnum c.params 0 1)
  let dir := min 2 (pbits c.params 1 0 2)
  let wrapped := pnum c.params 4 16
  .next (kcpNow 0x704 c (le 1 p ++ le 1 dir ++ zeros 2 ++ le 16 wrapped) (fun s =>
    let key := sm4Unwrap (((sessionOf s c.session).map (·.wrapKey)).getD 0) wrapped
    let s := if dir = 1 then s else loadTxKey p key s
    (stOK, [], if dir = 0 then s else loadRxKey p key s)) s)

/-! ### Extension modules (R451 to R453) -/

/-- The module on a core stops, and its session closes with cause 4. -/
def stopModule (core : Nat) (s : State) : State :=
  let s := { s with sec.ext := tset none s.sec.ext core none }
  (s.kcp.sessions.filter (fun x => x.module == some core)).foldl (fun s x => closeSession x.id 4 s) s

/-- A module starts with an operator session of its own. -/
def startModule (core digest version : Nat) (s : State) : State :=
  let (d, s) := draw s
  let (k, s) := draw s
  let (w, s) := draw s
  let id := freshId s.kcp.usedIds (s.kcp.usedIds.length + 2) (d % 2 ^ 32)
  let ss : Session := { id := id, tenant := 0, cred := 0, path := .eth 2 0 0 0, openedAt := lmc s, lastAt := lmc s,
                        isOpen := true, tagKey := k % 2 ^ 256, wrapKey := w % 2 ^ 128, module := some core }
  { s with kcp.sessions := s.kcp.sessions ++ [ss], kcp.usedIds := id :: s.kcp.usedIds,
           sec.ext := tset none s.sec.ext core (some (digest, version)) }

/-- LENGTH of the image at a TVA of the operator, and the lines to read; one line where the header cannot be read yet or
names no legal length. -/
def imageLength (tva : Nat) (s : State) : Nat × Nat :=
  match (readByTva 0 1 tva [] s).1 with
  | .bytes b =>
    let n := pnum b 0 4
    if 256 ≤ n && n ≤ 0x200000 then (n, (n + 127) / 128) else (n, 1)
  | _ => (0, 1)

/-- The image has been read: it is checked and started in place of the core's module. -/
def loadModule (core len : Nat) (bs : List Byte) (s : State) : Nat × List Byte × State :=
  let body := bs.take (len - 64)
  let d := sm3 body
  if len < 256 || 0x200000 < len || !verifies Config.operatorKey d (pnum bs (len - 64) 64) then (stDENIED, [], s)
  else if sessionSlots 0 ≤ s.kcp.sessions.countP (fun x => x.tenant == 0) then (stBUSY, [], s)
  else (stOK, digestBytes d ++ le 4 (pnum bs 4 4), startModule core d (pnum bs 4 4) (stopModule core s))

/-- LOAD_EXTENSION (R451 to R453). -/
def execLoadExtension (c : Cmd) (s : State) : Host.Outcome State Fault Refusal :=
  let tva := pnum c.params 0 8 % 2 ^ 57 / 128 * 128
  let core := clampTo 6 7 (pnum c.params 8 1)
  let unload := pbit c.params 9 0
  let echo := le 8 tva ++ le 1 core ++ le 1 (b2n unload) ++ zeros 2
  if unload then
    .next (kcpNow 0x703 c echo (fun s =>
      let (d, s) := draw (stopModule core s)
      let (v, s) := draw s
      (stOK, le 32 d ++ le 4 v, s)) s)
  else
    let (len, lines) := imageLength tva s
    .next (whenReadable 0 lines tva (kcpNow 0x703 c echo (fun s =>
      match readByTva 0 lines tva [] s with
      | (.fault _ _ _ _, s) => (stFAULT, [], s)
      | (.refused st _, s) => (st, [], s)
      | (.wait, s) => (stBUSY, [], s)
      | (.bytes bs, s) => loadModule core len bs s)) s)

/-! ### Faults (R430, R491, R492) -/

/-- RNG_HEALTH_FAIL (6.1): RNG_OK clears; a nested failure takes rung 3 at device scope. In the ROM nothing is handled
(R456). -/
def execRngHealthFail (s : State) : Host.Outcome State Fault Refusal :=
  let s := { s with sec.rngOk := false }
  if !serving s then .next s
  else
    let (rung, s) := detect { seq := 0, domain := 6, source := 1, rung := 2 } 3 0 0 s
    .next (takeRung rung 3 0 s)

/-- RNG_HEALTH_PASS (R430): RNG_OK is set. -/
def execRngHealthPass (s : State) : Host.Outcome State Fault Refusal :=
  .next (endHandling 0 (16 * 6 + 1) { s with sec.rngOk := true })

/-- MEASUREMENT_STORE_FAULT (6.2): rung 3 at device scope; nested, rung 4. In the ROM, which only the board starts again,
nothing is measured (R456). -/
def execMeasurementStoreFault (s : State) : Host.Outcome State Fault Refusal :=
  if !serving s then .next s
  else
    let (rung, s) := detect { seq := 0, domain := 6, source := 2, rung := 3 } 4 0 0 s
    .next (takeRung rung 3 0 s)

end Sys2Proof.Machine
end

