-- ==== Sys2Proof/Machine/Errors.lean ====
section
/-! DEFINITION. Error records and audits (R481 to R496): the commands that read and retire them, and the faults whose
handling is a rung of the ladder. -/
namespace Sys2Proof.Machine

/-! ### READ_ERRORS, CLEAR_FIRST_ERROR (R485, R487, R488) -/

/-- A record that a caller may receive. -/
def mayReceive (t : Nat) (r : ErrRec) : Bool := t = 0 || r.tenant == some t

/-- READ_ERRORS (R487): the operator retires records before it reads. -/
def execReadErrors (c : Cmd) (s : State) : Host.Outcome State Fault Refusal :=
  let d := min 9 (pbits c.params 0 0 4)
  let count := clampTo 1 14 (pnum c.params 1 1)
  let first := pnum c.params 4 4
  let ack := if c.tenant = 0 then pnum c.params 8 4 else 0
  .next (kcpNow 0x801 c (le 1 d ++ le 1 count ++ zeros 2 ++ le 4 first ++ le 4 ack) (fun s =>
    let s := if ack = 0 then s else
      { s with err.queues := tmod [] s.err.queues d (fun l => l.filter (fun r => ack < r.seq)) }
    let rs := ((tget [] s.err.queues d).filter (fun r => mayReceive c.tenant r && first ≤ r.seq)).take count
    (stOK, le 1 rs.length ++ zeros 3 ++ le 4 (tget 1 s.err.nextSeq d) ++ rs.flatMap recBytes, s)) s)

/-- CLEAR_FIRST_ERROR (R488). -/
def execClearFirstError (c : Cmd) (s : State) : Host.Outcome State Fault Refusal :=
  let m := pnum c.params 0 2 % 1024
  let m := if m = 0 then 0x3FF else m
  .next (kcpNow 0x802 c (le 2 m ++ zeros 2) (fun s =>
    (stOK, [], { s with err.first := s.err.first.filter (fun e => !bit m e.1),
                        err.order := s.err.order.filter (fun d => !bit m d) })) s)

/-! ### READ_AUDIT (R494 to R496) -/

/-- A channel's pool of a port, from LINK_VC_CFG. -/
def vcPool (s : State) (p vc : Nat) : Nat :=
  match vc with
  | 0 => vcCtl s p
  | 1 => vcReq s p
  | _ => vcRsp s p

/-- The invariant's terms of a port and channel: HELD, OUTSTANDING, FREE, OCCUPIED and OWED, and the two totals. -/
def auditPort (s : State) (p vc : Nat) : List Byte :=
  let x := portOf s p
  let pool := vcPool s p vc
  let held := vcGet vc x.tx.credits
  let occ := vcGet vc x.rx.occupied
  let owed := vcGet vc x.rx.owed
  le 4 held ++ le 4 (vcGet vc x.tx.granted - held) ++ le 4 (pool - occ - owed) ++ le 4 occ ++ le 4 owed ++
  le 4 (vcGet vc x.tx.totalSent) ++ le 4 (vcGet vc x.rx.totalReturned)

/-- Pair counts of an ingress quadrant. -/
def pairSum (s : State) (q : Nat) : Nat :=
  s.sw.pairs.foldl (fun n e => if e.1 / 4097 / 4096 = q then n + e.2 else n) 0

/-- The pair entries of a packet and of a walk's waiter. -/
def pktPair (k : TxPkt) : List Nat := k.pair.toList
def waiterPair : Waiter → Option Nat
  | .link _ _ pair => pair
  | .engine _ _ => none

/-- The pair entries of the requests that have not been answered, wherever each stands: queued or sent on, at a home, waiting for
a walk or for the original of a repeat, or answered by a response that has not left. -/
def heldPairs (s : State) : List Nat :=
  s.halt.held.flatMap (fun x => pktPair x.2.2) ++
  s.link.ports.flatMap (fun e => e.2.tx.queue.flatMap (fun x => pktPair x.2.2) ++ (match e.2.tx.inProgress with
    | some (k, _) => if codeVc k.hdr.code = 2 then pktPair k else []
    | none => [])) ++
  s.sw.fwd.filterMap (·.pair) ++ s.coh.trackers.filterMap (·.pair) ++
  s.coh.idem.flatMap (fun r => r.waiting.filterMap (·.2)) ++
  s.xlat.walks.flatMap (fun w => w.waiters.filterMap waiterPair)

/-- Requests of an ingress quadrant counted under R390 and not yet answered. -/
def unanswered (s : State) (q : Nat) : Nat := (heldPairs s).countP (fun k => k / 4097 / 4096 == q)

/-- An invariant of R495 does not hold of a unit. -/
def auditOff (s : State) (kind i : Nat) : Bool :=
  match kind with
  | 0 =>
    let x := portOf s (i / 3)
    let vc := i % 3
    portUp s (i / 3) && (vcGet vc x.tx.granted < vcGet vc x.tx.credits ||
      vcPool s (i / 3) vc < vcGet vc x.rx.occupied + vcGet vc x.rx.owed)
  | 1 => 8192 < s.sw.fwd.countP (fun f => f.port == i)
  | 2 => 16384 < trackersUsed s i false || 4096 < trackersUsed s i true
  | 3 => pairSum s i != unanswered s i
  | _ => (tget 0 s.belay.raised i + 2 * 2 ^ 32 - tget 0 s.belay.appliedTok i - tget 0 s.belay.discarded i) % 2 ^ 32 != 0

/-- One record of 32 bytes; `i` is FIRST plus the record's place. -/
def auditRecord (s : State) (kind i : Nat) : List Byte :=
  let off := le 1 (b2n (auditOff s kind i))
  match kind with
  | 0 => le 2 (i / 3) ++ le 1 (i % 3 + 1) ++ off ++ auditPort s (i / 3) (i % 3)
  | 1 =>
    let n := s.sw.fwd.countP (fun f => f.port == i)
    le 2 i ++ zeros 1 ++ off ++ le 4 (8192 - n) ++ le 4 n ++ zeros 20
  | 2 =>
    let n := trackersUsed s i false
    let r := trackersUsed s i true
    le 2 i ++ zeros 1 ++ off ++ le 4 (16384 - n) ++ le 4 n ++ le 4 (4096 - r) ++ le 4 r ++ zeros 12
  | 3 => le 2 i ++ zeros 1 ++ off ++ le 4 (pairSum s i) ++ le 4 (unanswered s i) ++ zeros 20
  | _ =>
    let a := tget 0 s.belay.raised i
    let b := tget 0 s.belay.appliedTok i
    let c := tget 0 s.belay.discarded i
    -- a signal is raised and applied, or discarded, in one step: none is in flight (log entry 7)
    le 2 i ++ zeros 1 ++ off ++ le 4 a ++ le 4 b ++ le 4 c ++ le 4 0 ++ zeros 12

/-- Units of an audit kind. -/
def auditUnits (kind : Nat) : Nat := if kind = 0 then 288 else if kind = 1 then 96 else 4

/-- READ_AUDIT (R496): what the last mark boundary shows. -/
def execReadAudit (c : Cmd) (s : State) : Host.Outcome State Fault Refusal :=
  let kind := min 4 (pnum c.params 0 1)
  let first := min (auditUnits kind - 1) (pnum c.params 2 2)
  let count := min (clampTo 1 29 (pnum c.params 4 1)) (auditUnits kind - first)
  .next (kcpNow 0x805 c (le 1 kind ++ zeros 1 ++ le 2 first ++ le 1 count ++ zeros 3) (fun s =>
    (stOK, le 8 (sampledAt s) ++ (List.range count).flatMap (fun i => auditRecord (atBoundary s) kind (first + i)), s)) s)

/-! ### Faults (R490 to R493) -/

/-- A fault of a quadrant's own logic: rung 3 at partition scope, nested at device scope. -/
def quadrantFault (domain source q detail : Nat) (s : State) : State :=
  let inside := beingHandled s 5 q
  let (_, s) := detect { seq := 0, domain := domain, source := source, rung := 3, shared := true, unitKind := 5,
                         unit := q, detail0 := detail } 3 q 0 s
  if inside then rung3 3 0 s else rung3 2 q s

/-- A discrepancy (R492, R493): of a port, which enters LOST and retrains, in a global stop at RESUME, or of a
quadrant. No tenant sees its record, so it names none (log entry 159). -/
def discrepancy (kind unit : Nat) (s : State) : State :=
  if 2 ≤ kind then (if 4 ≤ unit then s else quadrantFault 9 2 unit 0 s)
  else if 96 ≤ unit then s
  else
    let inside := beingHandled s 3 unit
    let (_, s) := detect { seq := 0, domain := 9, source := 1, rung := 2, shared := portShared s unit, unitKind := 3,
                           unit := unit } 3 (portQuadrant unit) 0 s
    if inside then settleHome (rung3 2 (portQuadrant unit) s)
    else if !portUp s unit then endHandling 3 unit s
    else
      let s := linkLost unit false s
      settleHome (if stopped s then modPort unit (fun x => { x with retrainDue := true }) s
        else if s.err.fatal then s else startTraining unit false s)

/-- AUDIT_DISCREPANCY (R495): a unit has found one of its invariants wrong. -/
def execAuditDiscrepancy (kind unit _vc : Nat) (s : State) : Host.Outcome State Fault Refusal := .next (discrepancy kind unit s)

/-- Every invariant of R495 that does not hold now: kind and unit, the port for kinds 0 and 1. -/
def auditNow (s : State) : List (Nat × Nat) :=
  s.link.ports.filterMap (fun e => if [0, 1, 2].any (fun v => auditOff s 0 (3 * e.1 + v)) then some (0, e.1) else none) ++
  s.link.ports.filterMap (fun e => if auditOff s 1 e.1 then some (1, e.1) else none) ++
  [2, 3, 4].flatMap (fun kind => ((List.range 4).filter (auditOff s kind)).map (fun q => (kind, q)))

/-- Each unit checks its invariants at a mark boundary: a discrepancy that is present at two boundaries in a row writes its record,
once while it lasts (R495). -/
def auditMark (s : State) : State :=
  let now := auditNow s
  let due := now.filter (fun x => s.err.audited.contains x && !s.err.auditDone.contains x)
  due.foldl (fun s x => discrepancy x.1 x.2 s)
    { s with err.audited := now, err.auditDone := s.err.auditDone.filter now.contains ++ due }

/-- STRAND_SLICE_FAULT (0.2): the slice's logic is initialised again and its strand, where it serves, trained quickly; nested,
the cluster is reset. -/
def execStrandSliceFault (strand : Nat) (s : State) : Host.Outcome State Fault Refusal :=
  if 512 ≤ strand || (strandOf s strand).lostUnit then .next s
  else
    let (rung, s) := detect { seq := 0, domain := 0, source := 2, rung := 2, tenant := strandTenant s strand, unitKind := 1,
                              unit := strand } 3 (strandQuadrant strand) (strandStack strand) s
    .next (if rung = 3 then rung3 1 (strandStack strand) s
      else if (strandOf s strand).power = .active then modStrand strand (fun x => { x with power := .training }) s
      else endHandling 1 strand s)

/-- ENGINE_LOGIC_FAULT (2.2): the core is reset and its commands end POISONED; nested, its cluster. -/
def execEngineLogicFault (core : Nat) (s : State) : Host.Outcome State Fault Refusal :=
  if 2048 ≤ core then .next s
  else
    let inside := beingHandled s 2 core
    let (_, s) := detect { seq := 0, domain := 2, source := 2, rung := 3, tenant := engineTenant s core, unitKind := 2,
                           unit := core } 3 (coreQuadrant core) (core / 128) s
    .next (if inside then rung3 1 (core / 128) s else rung3 0 core s)

/-- SWITCH_LOGIC_FAULT (4.1): the quadrant is reset; nested, the device. -/
def execSwitchLogicFault (quadrant : Nat) (s : State) : Host.Outcome State Fault Refusal :=
  .next (if 4 ≤ quadrant then s else quadrantFault 4 1 quadrant 0 s)

/-- A fault that no command processor survives (8.4): rung 4. -/
def controlLost (s : State) : State := rung4 (detect { seq := 0, domain := 8, source := 4, rung := 4 } 4 0 0 s).2

/-- CONTROL_MESH_FAULT (8.4): an uncorrectable fault of the control mesh. -/
def execControlMeshFault (s : State) : Host.Outcome State Fault Refusal := .next (controlLost s)

/-- CONTROL_STALL (R500, 8.4): with no standby, 64 marks pass with commands waiting and no journal write. -/
def execControlStall (s : State) : Host.Outcome State Fault Refusal :=
  .next (if s.pair.standby = .none && s.kcp.ring != [] && s.pair.journalAt + 64 ≤ lmc s then controlLost s else s)

end Sys2Proof.Machine
end

