-- ==== Sys2Proof/Machine/Observe.lean ====
section
/-! DEFINITION. Counters, trace and interrupts (R514 to R536). -/
namespace Sys2Proof.Machine

/-! ### READ_COUNTERS (R514 to R517, R520, R521) -/

/-- The 16 counters of a tenant, and of the device. -/
def bankBytes (x : CtrSt) (t : Nat) : List Byte := (List.range 16).flatMap (fun i => le 8 (tget 0 x.bank (16 * t + i)))
def deviceBytes (x : CtrSt) : List Byte :=
  (List.range 16).flatMap (fun i => le 8 (if i < 11 then tget 0 x.device i else 0))

/-- One record of a port's counts for a tenant. -/
def portCounts (x : CtrSt) (t p : Nat) : List Byte :=
  le 1 p ++ zeros 7 ++ le 8 (tget 0 x.sent (32 * p + t)) ++ le 8 (tget 0 x.received (32 * p + t))

/-- The command records of a core that were latched there. Of those that an engine bind step has discarded since none is
shown (R517). -/
def latchedRecords (s : State) (core : Nat) : List (List Byte) :=
  let old := (tget {} s.shown.eng.cores core).records
  if old.any (tget {} s.eng.cores core).records.contains then old else []

/-- CLEAR (R521): a tenant's bank is zeroed at SAMPLED_AT, so that what has been counted since stays. -/
def clearBank (t : Nat) (s : State) : State :=
  let since := fun (e : Nat × Nat) => (e.2 + 2 ^ 64 - tget 0 s.shown.ctr.bank e.1 % 2 ^ 64) % 2 ^ 64
  { s with ctr.bank := s.ctr.bank.filterMap (fun e =>
             if e.1 / 16 != t then some e else if since e = 0 then none else some (e.1, since e)),
           shown.ctr.bank := s.shown.ctr.bank.filter (fun e => e.1 / 16 != t) }

/-- READ_COUNTERS. -/
def execReadCounters (c : Cmd) (s : State) : Host.Outcome State Fault Refusal :=
  let set' := pbits c.params 0 0 2
  let clear := set' = 0 && c.tenant = 0 && pbit c.params 0 2
  let t := if c.tenant = 0 then pbits c.params 1 0 5 else c.tenant
  let unit := pnum c.params 2 2
  let unit := if set' = 1 then min 2047 unit else if set' = 2 then min 95 unit else unit
  let count := pnum c.params 4 1
  let count := if set' = 1 then clampTo 1 7 count else if set' = 2 then min (clampTo 1 32 count) (96 - unit) else count
  let echo := le 1 (set' + 4 * b2n clear) ++ le 1 t ++ le 2 unit ++ le 1 count ++ zeros 3
  .next (kcpNow 0x803 c echo (fun s =>
    let at' := le 8 (sampledAt s)
    let x := s.shown.ctr
    match set' with
    | 0 => (stOK, at' ++ bankBytes x t, if clear then clearBank t s else s)
    | 1 =>
      if c.tenant != 0 && engineTenant s unit != some c.tenant then (stDENIED, [], s)
      else
        let rs := (latchedRecords s unit).take count
        (stOK, at' ++ le 1 rs.length ++ zeros 7 ++ rs.flatten, s)
    | 2 => (stOK, at' ++ (List.range count).flatMap (fun i => portCounts x t (unit + i)), s)
    | _ => if c.tenant != 0 then (stDENIED, [], s) else (stOK, at' ++ deviceBytes x, s)) s)

/-! ### READ_TRACE (R522 to R526) -/

/-- Steps along the ring of INDEX values from the oldest to another. -/
def ringSteps (oldest i : Nat) : Nat := (i + 0xFFFFFFFF - oldest) % 0xFFFFFFFF

/-- The entries of a slice from FROM_INDEX on; from the oldest where that one has been lost. -/
def entriesFrom (l : List (Nat × List Byte)) (i : Nat) : List (Nat × List Byte) :=
  match l with
  | [] => []
  | e :: _ =>
    let d := ringSteps e.1 i
    if i != 0 && d ≤ l.length then l.drop d else if i < e.1 then l else []

/-- READ_TRACE. Of an empty slice OLDEST_INDEX is a free value (log entry 15). -/
def execReadTrace (c : Cmd) (s : State) : Host.Outcome State Fault Refusal :=
  let q := pbits c.params 0 0 2
  let t := if c.tenant = 0 then pbits c.params 1 0 5 else c.tenant
  let count := clampTo 1 29 (pnum c.params 2 1)
  let i := pnum c.params 4 4
  .next (kcpNow 0x804 c (le 1 q ++ le 1 t ++ le 1 count ++ zeros 1 ++ le 4 i) (fun s =>
    let sl := tget {} s.ctr.trace (32 * q + t)
    let (oldest, s) := match sl.entries with
      | e :: _ => (e.1, s)
      | [] => draw s
    let es := (entriesFrom sl.entries i).take count
    (stOK, le 4 oldest ++ le 4 sl.next ++ le 1 es.length ++ zeros 7 ++ es.flatMap (·.2), s)) s)

/-! ### Interrupts (R529 to R534) -/

/-- A core is eligible for a source (R530). -/
def intEligible (s : State) (source core : Nat) : Bool :=
  coreInService s core && (bit (intCoreMask s source) core || (bit (intCoreMask s source) 8 && s.pair.active = core)) &&
  runningPriority s core < intPriority s source

/-- A source waits for delivery, is enabled, and some core may take it. -/
def intReady (s : State) (source : Nat) : Bool :=
  intEnable s source && (match (tget {} s.intc.sources source).st with
    | .pending => true
    | _ => false) && (List.range 8).any (intEligible s source)

/-- A source comes before another (R531). -/
def intBefore (s : State) (a b : Nat) : Bool :=
  intPriority s b < intPriority s a || (intPriority s a = intPriority s b && a < b)

/-- The core that a source is delivered to: the lowest running priority, then the delivery longest ago. Which of several
cores that have had none is a free value (log entry 16). -/
def intTarget (source : Nat) (s : State) : Option Nat × State :=
  let es := (List.range 8).filter (intEligible s source)
  let low := es.foldl (fun m c => min m (runningPriority s c)) 15
  let es := es.filter (fun c => runningPriority s c = low)
  let never := es.filter (fun c => !s.intc.recent.contains c)
  match never with
  | [] => (s.intc.recent.reverse.find? es.contains, s)
  | [c] => (some c, s)
  | l => let (n, s) := draw s; (l[n % l.length]?, s)

/-- INTERRUPT_DELIVERY (R530 to R532): the source goes to a core, unless another comes before it. -/
def execInterruptDelivery (source : Nat) (s : State) : Host.Outcome State Fault Refusal :=
  if !intReady s source || s.intc.sources.any (fun e => intReady s e.1 && intBefore s e.1 source) then .next s
  else
    let (core, s) := intTarget source s
    match core with
    | none => .next s
    | some c =>
      let s := { s with intc.sources := tset {} s.intc.sources source { st := .active, core := c },
                        intc.recent := c :: s.intc.recent.filter (· != c) }
      .next (bumpDev 7 1 (sat (0x000F8000 + 4 * c) 0 16 1 s))

/-- END_OF_INTERRUPT (R529, R533): a core ends a source that is active on it; any other write is counted. -/
def execEndOfInterrupt (core source : Nat) (s : State) : Host.Outcome State Fault Refusal :=
  let e := tget {} s.intc.sources source
  let put := fun (st : IntState) => { s with intc.sources := tset {} s.intc.sources source { st := st } }
  .next (if e.core != core then bumpDev 8 1 s
    else match e.st with
      | .active => put .inactive
      | .activePending => put .pending
      | _ => bumpDev 8 1 s)

/-- Sources active on a core for which a test holds become PENDING (R529, R534). -/
def interruptsBack (core : Nat) (test : Nat → Bool) (s : State) : State :=
  { s with intc.sources := s.intc.sources.map (fun e =>
      if e.2.core = core && test e.1 && (e.2.st = .active || e.2.st = .activePending) then (e.1, { st := .pending }) else e) }

/-- A control core leaves service: it enters reset, is fenced, or is listed. -/
def leaveService (core : Nat) (s : State) : State :=
  interruptsBack core (fun _ => true)
    { s with intc.outOfService := core :: s.intc.outOfService.filter (· != core) }

/-- A control core is in service again. -/
def enterService (core : Nat) (s : State) : State :=
  { s with intc.outOfService := s.intc.outOfService.filter (· != core) }

end Sys2Proof.Machine
end

