-- ==== Sys2Proof/Machine/Pair.lean ====
section
/-! DEFINITION. The pair of command processors (R497 to R504, R550): heartbeats, takeover, hand-over and self-test. -/
namespace Sys2Proof.Machine

/-- The core of the pair that is not active. -/
def otherCore (s : State) : Nat := 1 - s.pair.active

/-- Marks of silence after which a path counts as silent (R498). -/
abbrev silentMarks : Nat := 8

/-- A path is silent toward a core: no heartbeat has arrived on it for 8 consecutive marks. -/
def pathSilent (s : State) (core path : Nat) : Bool := tget 0 s.pair.heard (2 * core + path) + silentMarks ≤ lmc s

/-! ### Heartbeats (R498, R550) -/

/-- A core of the pair sends heartbeats: it serves, or tests itself. -/
def beats (s : State) (core : Nat) : Bool :=
  core = s.pair.active || (match s.pair.standby with
    | .ready | .testing => true
    | .fenced _ | .none => false)

/-- A core's heartbeat on both paths, on the mesh with its role; its lanyard line toggles. -/
def beat (core : Nat) (s : State) : State :=
  let s := emit (.heartbeat core 1 0) (emit (.heartbeat core 0 (b2n (core = s.pair.active))) s)
  if core = 0 then { s with pair.lnyA := !s.pair.lnyA } else { s with pair.lnyB := !s.pair.lnyB }

/-- HEARTBEAT_SEND (R498): at every mark each core of the pair sends on both paths. -/
def execHeartbeatSend (s : State) : Host.Outcome State Fault Refusal :=
  .next (if !serving s then s else ([0, 1] : List Nat).foldl (fun s c => if beats s c then beat c s else s) s)

/-- HEARTBEAT_RECEIVED (R498): a core hears the other on a path. -/
def execHeartbeatReceived (core path : Nat) (s : State) : Host.Outcome State Fault Refusal :=
  let k := 2 * (core % 2) + path % 2
  .next (if !serving s then s else
    { s with pair.heard := tset 0 s.pair.heard k (lmc s), pair.reported := s.pair.reported.filter (· != k) })

/-- HEARTBEAT_PATH_SILENT (R500, 8.1): one path has been silent for 8 marks; both silent at the standby is a takeover. -/
def execHeartbeatPathSilent (core path : Nat) (s : State) : Host.Outcome State Fault Refusal :=
  let core := core % 2
  let k := 2 * core + path % 2
  let takeover : Bool := core == otherCore s && pathSilent s core 0 && pathSilent s core 1
  .next (if !serving s || s.pair.standby != .ready || !pathSilent s core (path % 2) || takeover || s.pair.reported.contains k
    then s
    else recordError { seq := 0, domain := 8, source := 1, rung := 0 } 0 0
      { s with pair.reported := s.pair.reported ++ [k] })

/-! ### Who holds OWNER (R497, R500, R501, R534) -/

/-- OWNER moves to the other core: sources that name bit 8 and are active on the former core become PENDING, and FAILOVERS
and its moment are kept. -/
def moveOwner (kind : Nat) (s : State) : State :=
  let old := s.pair.active
  let s := interruptsBack old (fun i => bit (intCoreMask s i) 8) s
  { s with pair.active := 1 - old, pair.failovers := (s.pair.failovers + 1) % 2 ^ 32, pair.lastFailover := fmt s,
           pair.lastKind := kind }

/-- FAILOVER_TAKEOVER (R500, R501, 8.2): both paths are silent at the standby, which claims OWNER; the former active core
is fenced, and the fence interrupt is raised on it. From the claim on every take, journal write, claim and reply is the
owner's: the ring serves no other core. -/
def execFailoverTakeover (s : State) : Host.Outcome State Fault Refusal :=
  let x := s.pair.active
  let y := otherCore s
  if !serving s || s.err.fatal || s.pair.standby != .ready || !pathSilent s y 0 || !pathSilent s y 1 then .next s
  else
    let s := leaveService x (moveOwner 1 s)
    let s := { s with pair.standby := .fenced (lmc s + 12), pair.journalAt := lmc s, intc.fenced := [x] }
    let (_, s) := detect { seq := 0, domain := 8, source := 2, rung := 3, unitKind := 8, unit := x } 3 0 0 s
    .next (event 9 y (fun _ => true) [] s)

/-- FENCE_CLOSE (R500, R501): 12 marks after the claim the former active core's write port closes and it is reset at
control-core scope; it then tests itself. -/
def execFenceClose (s : State) : Host.Outcome State Fault Refusal :=
  match s.pair.standby with
  | .fenced m =>
    .next (if lmc s < m then s
      else
        let x := otherCore s
        endHandling 8 x (enterService x (interruptsBack x (fun _ => true)
          { s with pair.standby := .testing, pair.testAt := lmc s, intc.fenced := [] })))
  | _ => .next s

/-- FORCE_FAILOVER (R503): a hand-over with no overlap; the former active core tests itself. -/
def execForceFailover (c : Cmd) (s : State) : Host.Outcome State Fault Refusal :=
  .next (kcpNow 0x808 c (zeros 4) (fun s =>
    if s.pair.standby != .ready then (stDENIED, [], s)
    else (stOK, [], { moveOwner 2 s with pair.standby := .testing, pair.testAt := lmc s })) s)

/-! ### Self-test (R500, R502) -/

/-- Marks between self-test cycles. -/
abbrev testPeriod : Nat := 4096

/-- The core that is not active is listed and held in reset: KIND 4, CAUSE 4. -/
def listControlCore (core : Nat) (s : State) : State :=
  leaveService core (recordFailure 4 4 core { s with pair.standby := .none })

/-- A self-test cycle passes. -/
def testPasses (s : State) : State :=
  endHandling 8 (otherCore s)
    { s with pair.standby := .ready, pair.passes := (s.pair.passes + 1) % 2 ^ 32, pair.failRun := 0,
             pair.lastPass := fmt s, pair.testAt := lmc s }

/-- A self-test cycle fails (8.3): the core is initialised again; the third consecutive failure lists it. -/
def testFails (s : State) : State :=
  let y := otherCore s
  let s := { s with pair.standby := .testing, pair.fails := (s.pair.fails + 1) % 2 ^ 32, pair.failRun := s.pair.failRun + 1,
                    pair.testAt := lmc s }
  let (_, s) := detect { seq := 0, domain := 8, source := 3, rung := 2, unitKind := 8, unit := y } 2 0 0 s
  if s.pair.failRun < 3 then s else endHandling 8 y (listControlCore y s)

/-- STANDBY_SELFTEST (R500, R502): a cycle every 4,096 marks; a core that tests itself goes on at once. -/
def execStandbySelftest (passed : Bool) (s : State) : Host.Outcome State Fault Refusal :=
  let due := match s.pair.standby with
    | .ready => s.pair.testAt + testPeriod ≤ lmc s
    | .testing => true
    | .fenced _ | .none => false
  .next (if !serving s || !due then s else if passed then testPasses s else testFails s)

/-! ### READ_HEALTH (R504) -/

/-- STANDBY_STATE: a fenced core shows as failed. -/
def standbyCode : Standby → Nat
  | .ready => 0
  | .testing => 1
  | .fenced _ => 2
  | .none => 3

/-- PATHS: mesh and lanyard as heard at the standby, then at the active core. -/
def pathBits (s : State) : Nat :=
  let here : Bool := s.pair.standby != .none
  let y := otherCore s
  let x := s.pair.active
  b2n (here && !pathSilent s y 0) + 2 * b2n (here && !pathSilent s y 1) + 4 * b2n (here && !pathSilent s x 0) +
  8 * b2n (here && !pathSilent s x 1)

/-- READ_HEALTH. -/
def execReadHealth (c : Cmd) (s : State) : Host.Outcome State Fault Refusal :=
  .next (kcpNow 0x809 c (zeros 4) (fun s =>
    (stOK, le 1 s.pair.active ++ le 1 (if s.pair.standby = .none then 0xFF else otherCore s) ++
      le 1 (standbyCode s.pair.standby) ++ le 1 (pathBits s) ++ le 4 s.pair.passes ++ le 4 s.pair.fails ++ zeros 4 ++
      le 8 s.pair.lastPass ++ le 4 s.pair.failovers ++ zeros 4 ++ le 8 s.pair.lastFailover ++ le 1 s.pair.lastKind ++
      zeros 23, s)) s)

end Sys2Proof.Machine
end

