-- ==== Sys2Proof/Machine/Boot.lean ====
section
/-! DEFINITION. Bring-up (R424, R425, R458 to R466, R472, R477): power and clocks, training of strands, the start-up test,
COMMIT_IMAGE and RESET_SCOPE. -/
namespace Sys2Proof.Machine

/-! ### Power and clocks (R458 to R461) -/

/-- Quadrants that CHECK_POWER and LOCK_CLOCKS have found good in this start. -/
def goodQuadrants (s : State) : Nat := s.boot.powerOk &&& s.boot.clocksOn

/-- The stage moves on from one stage to the next (R458). -/
def stageFrom (n : Nat) (s : State) : State := if s.boot.stage = n then { s with boot.stage := n + 1 } else s

/-- The first running command that waits for something. -/
def runningFor (s : State) (p : Wait → Bool) : Option Running := s.kcp.running.find? (fun r => p r.wait)

/-- CHECK_POWER (R460): `temps` are the temperatures read, s0 first. Where every quadrant is good and another rail is
not, R460 gives no status: it is OK or DEGRADED, as a free value says. -/
def checkPower (temps : List Nat) (s : State) : Nat × List Byte × State :=
  let s := (temps.take 16).zipIdx.foldl (fun s e => stackTemp e.2 e.1 s) s
  let m := unitBits 4 (quadrantPower s)
  let s := { s with boot.powerOk := if s.boot.stage ≤ 1 then m else s.boot.powerOk &&& m }
  let body := le 4 (s.pwr.railsOk % 2 ^ 28) ++ le 1 m ++ zeros 3 ++ (List.range 16).flatMap (fun k => le 1 (tget 0 s.mem.temp k))
  if m = 0 then (stDENIED, body, s)
  else if s.pwr.railsOk % 2 ^ 28 = onesMask 28 then (stOK, body, stageFrom 1 s)
  else if m != 0xF then (stDEGRADED, body, stageFrom 1 s)
  else let (d, s) := draw s; (if d % 2 = 0 then stOK else stDEGRADED, body, stageFrom 1 s)

def execCheckPower (c : Cmd) (temps : List Nat) (s : State) : Host.Outcome State Fault Refusal :=
  .next (kcpNow 0x101 c (zeros 4) (checkPower temps) s)

/-- LOCK_CLOCKS (R461): the clocks of the selected good quadrants start. -/
def execLockClocks (c : Cmd) (s : State) : Host.Outcome State Fault Refusal :=
  let q := pbits c.params 0 0 4
  let q := (if q = 0 then 0xF else q) &&& s.boot.powerOk
  .next (kcpTake 0x102 c (le 1 q ++ zeros 3) (fun s =>
    if 3 ≤ s.boot.stage then (.done stOK (le 1 s.boot.clocksOn ++ zeros 3), s) else (.later (.clocks q), s)) s)

/-- CLOCKS_LOCKED (R461): the quadrants of `locked` have every domain locked. -/
def execClocksLocked (locked : Nat) (s : State) : Host.Outcome State Fault Refusal :=
  match runningFor s (fun w => match w with
    | .clocks _ => true
    | _ => false) with
  | none => .next s
  | some r => match r.wait with
    | .clocks q =>
      if s.boot.stage != 2 then .next (finish r stOK (le 1 s.boot.clocksOn ++ zeros 3) s)
      else
        let m := locked &&& q
        let st := if m = 0 then stDENIED else if m = s.boot.powerOk then stOK else stDEGRADED
        let s := if m = 0 then s else stageFrom 2 { s with boot.clocksOn := m }
        .next (finish r st (le 1 m ++ zeros 3) s)
    | _ => .next s

/-! ### Strands (R409, R424, R425) -/

/-- A strand is bound, or in a step. -/
def strandBound (s : State) (st : Nat) : Bool := (tget {} s.bind.strand st).st != .unbound

/-- A strand that TRAIN_STRANDS or STRAND_PATTERN holds. -/
def strandHeld (s : State) (st : Nat) : Bool :=
  s.kcp.running.any (fun r => match r.wait with
    | .train first count _ _ => first ≤ st && st < first + count
    | .pattern x _ => x.strand == st
    | _ => false)

/-- A strand that training reaches: not LOST, and in a quadrant that is not excluded (R458, R476). -/
def trainable (s : State) (st : Nat) : Bool := !(strandOf s st).lostUnit && bit (goodQuadrants s) (strandQuadrant st)

/-- A slice leaves self-refresh for training or a pattern: its schedule restarts and its tables are empty (R409). -/
def wakeStrand (st : Nat) (s : State) : State :=
  modStrand st (fun x => { x with power := .training }) (sliceRestarts st s)

/-- Training writes raw patterns of its own over every line of a strand (R424): what stood there is gone. -/
def dropRaw (st : Nat) (s : State) : State :=
  { s with mem.lines := s.mem.lines.filter (fun e => lineStrand e.1 != st),
           mem.patterns := s.mem.patterns.filter (fun r => r.strand != st) }

/-- A run writes its pattern raw (R425): its lines are no lines of a tenant any more (R422). -/
def writePattern (r : PatternRun) (s : State) : State :=
  { s with mem.lines := s.mem.lines.filter (fun e => !r.covers e.1), mem.patterns := r :: s.mem.patterns }

/-- TRAIN_STRANDS (R424). -/
def execTrainStrands (c : Cmd) (s : State) : Host.Outcome State Fault Refusal :=
  let first := min 511 (pnum c.params 0 2)
  let count := min (clampTo 1 512 (pnum c.params 2 2)) (512 - first)
  let steps := pbits c.params 4 0 5
  let steps := if steps = 0 then 0x1F else steps
  let quick := pbit c.params 5 0
  let units := (List.range count).map (first + ·)
  .next (kcpTake 0x103 c (le 2 first ++ le 2 count ++ le 1 steps ++ le 1 (b2n quick) ++ zeros 2) (fun s =>
    if units.any (strandBound s) then (.done stDENIED [], s)
    else if units.any (strandHeld s) then (.done stBUSY [], s)
    else (.later (.train first count steps quick), (units.filter (trainable s)).foldl (fun s u => wakeStrand u s) s)) s)

/-- A strand's training ends: it has trained, or failed and reads POWER 3. -/
def trained (st : Nat) (ok : Bool) (s : State) : State :=
  modStrand st (fun x => { x with power := if ok then .selfRefresh else .failed, trained := ok })
    (dropRaw st s)

/-- A bound strand's quick training at rung 2 ends (0.2 of R492): its data is kept; a failure resets the cluster. -/
def quickTrained (st : Nat) (ok : Bool) (s : State) : State :=
  if ok then endHandling 1 st (modStrand st (fun x => { x with power := .active }) s)
  else
    let s := modStrand st (fun x => { x with power := .selfRefresh }) s
    let (_, s) := detect { seq := 0, domain := 0, source := 2, rung := 2, tenant := strandTenant s st, unitKind := 1,
                           unit := st } 3 (strandQuadrant st) (strandStack st) s
    rung3 1 (strandStack st) s

/-- A bound strand in training at rung 2, which waits out a global stop (R493). -/
def quickTraining (s : State) (st : Nat) : Bool := !stopped s && strandBound s st && (strandOf s st).power = .training

/-- The strands of a TRAIN_STRANDS finish (R424). -/
def trainEnds (r : Running) (first count : Nat) (failed : List Nat) (s : State) : State :=
  let named := (List.range count).map (first + ·)
  let units := named.filter (trainable s)
  let bad := units.filter failed.contains
  let s := units.foldl (fun s u => trained u (!failed.contains u) s) s
  let st := if bad != [] || named.any (fun u => (strandOf s u).lostUnit) then stDEGRADED else stOK
  stageFrom 3 (finish r st (le 2 (units.length - bad.length) ++ le 2 bad.length ++ le 64 (unitBits 512 bad.contains)) s)

/-- STRANDS_TRAINED (R424, R492): strands in training finish; `failed` names those that failed. -/
def execStrandsTrained (failed : List Nat) (s : State) : Host.Outcome State Fault Refusal :=
  let s := ((List.range 512).filter (quickTraining s)).foldl (fun s u => quickTrained u (!failed.contains u) s) s
  match runningFor s (fun w => match w with
    | .train _ _ _ _ => true
    | _ => false) with
  | none => .next s
  | some r => match r.wait with
    | .train first count _ _ => .next (trainEnds r first count failed s)
    | _ => .next s

/-- The run that a STRAND_PATTERN names, clamped (R425). -/
def patternRun (ps : List Byte) : PatternRun :=
  let row := min 49151 (pnum ps 8 2)
  let mask := pnum ps 12 8
  { strand := min 511 (pnum ps 0 2), row := row, rows := min (clampTo 1 512 (pnum ps 10 2)) (49152 - row),
    mask := if mask = 0 then onesMask 64 else mask, pattern := pbits ps 2 2 2, seed := max 1 (pnum ps 4 4),
    user := lineOf (pbytes ps 20 128) }

/-- STRAND_PATTERN (R425). A run that writes leaves no tenant's line in the rows and banks that it names. -/
def execStrandPattern (c : Cmd) (s : State) : Host.Outcome State Fault Refusal :=
  let r := patternRun c.params
  let action := min 2 (pbits c.params 2 0 2)
  let echo := le 2 r.strand ++ le 1 (action + 4 * r.pattern) ++ zeros 1 ++ le 4 r.seed ++ le 2 r.row ++ le 2 r.rows ++
    le 8 r.mask ++ lineBytes r.user
  .next (kcpTake 0x104 c echo (fun s =>
    let x := strandOf s r.strand
    if strandBound s r.strand || !x.trained then (.done stDENIED [], s)
    else if x.lostUnit then (.done stDEGRADED [], s)
    else if strandHeld s r.strand then (.done stBUSY [], s)
    else (.later (.pattern r action), wakeStrand r.strand (if action = 1 then s else writePattern r s))) s)

/-- STRAND_PATTERN_COMPLETE (R425): each line is compared with the pattern as it is generated again. `damage` and
`spareDamage` are the bits that the channel turned over, `other` and `spareOther` what lines hold of which nothing is known. -/
def execStrandPatternComplete (damage other : List (Nat × Line)) (spareDamage spareOther : List (Nat × Nat)) (s : State) :
    Host.Outcome State Fault Refusal :=
  match runningFor s (fun w => match w with
    | .pattern _ _ => true
    | _ => false) with
  | none => .next s
  | some r => match r.wait with
    | .pattern run action =>
      let lines := if action = 0 then [] else run.lines
      let res := patternResults lines (patternErrors s run damage other spareDamage spareOther)
      .next (finish r stOK res (modStrand run.strand (fun x => { x with power := .selfRefresh }) s))
    | _ => .next s

/-! ### The start-up test (R463 to R466) -/

/-- A unit of any kind is bound, or in a step. -/
def anyBound (s : State) : Bool :=
  [UnitKind.strand, .engine, .coilWay, .port, .eid, .knots, .faultQueue].any (fun k =>
    (bindTable s k).any (fun e => e.2.st != .unbound))

/-- RUN_STARTUP_TEST (R463). -/
def execRunStartupTest (c : Cmd) (s : State) : Host.Outcome State Fault Refusal :=
  .next (kcpTake 0x105 c (zeros 4) (fun s =>
    if anyBound s then (.done stDENIED [], s)
    else if s.kcp.running.any (fun r => r.wait == .startup) then (.done stBUSY [], s)
    else (.later .startup, s)) s)

/-- Quadrant of a physical unit by the KIND of R466. -/
def defectQuadrant (kind physical : Nat) : Nat :=
  match kind with
  | 0 => physical / 544
  | 1 => physical / 128
  | 2 => physical / 48
  | _ => physical

/-- A unit that the test covers (R464). -/
def tested (s : State) (kind physical : Nat) : Bool :=
  match kind with
  | 0 => physical < 2176 && bit (goodQuadrants s) (defectQuadrant 0 physical)
  | 1 => physical < 512 && (strandOf s physical).trained && bit (goodQuadrants s) (defectQuadrant 1 physical)
  | 2 => physical < 192 && bit (goodQuadrants s) (defectQuadrant 2 physical) &&
    (let p := portState (portOf s (lanePort s physical)); p != 1 && p != 2)
  | 3 => physical < 4 && bit (goodQuadrants s) physical
  | 4 => physical < 8
  | _ => false

/-- Defects that this test has to add, in the order of their finding: failures while running, quadrants without power or
clocks, strands that failed training, and what the test found. -/
def candidates (found : List (Nat × Nat)) (s : State) : List Defect :=
  let start := (s.boot.startCount + 1) % 2 ^ 32
  let mk := fun (kind cause physical : Nat) => ({ kind := kind, cause := cause, physical := physical, start := start } : Defect)
  (s.boot.newFailures.map (fun d => { d with start := start })) ++ (s.boot.unlisted.map (fun d => { d with start := start })) ++
  ((List.range 4).filter (fun q => !bit (goodQuadrants s) q)).map (mk 3 1) ++
  ((List.range 512).filter (fun st => (strandOf s st).power = .failed && !(strandOf s st).lostUnit)).map (mk 1 2) ++
  (found.filter (fun e => tested s e.1 e.2)).map (fun e => mk e.1 1 e.2)

/-- Keep the first defect of each unit that the list does not hold (R466). -/
def freshDefects (known : List Defect) : List Defect → List Defect
  | [] => []
  | d :: l => if known.any (fun k => k.kind == d.kind && k.physical == d.physical) then freshDefects known l
    else d :: freshDefects (d :: known) l

/-- The positions of a cluster and their physical cores (R465). -/
def mapPositions (s : State) (cluster : Nat) : List Nat → List Nat → List (Option Nat)
  | [], _ => []
  | k :: ks, spares =>
    if !defective s 0 (cluster * 136 + k) then some k :: mapPositions s cluster ks spares
    else match spares with
      | x :: r => some x :: mapPositions s cluster ks r
      | [] => none :: mapPositions s cluster ks []

def clusterMap (s : State) (cluster : Nat) : List (Option Nat) :=
  if defective s 3 (cluster / 4) then List.replicate 128 none
  else mapPositions s cluster (List.range 128)
    (((List.range 8).map (128 + ·)).filter (fun k => !defective s 0 (cluster * 136 + k)))

/-- A strand of this start's inventory. -/
def strandPresent (s : State) (st : Nat) : Bool :=
  (strandOf s st).trained && !defective s 1 st && !defective s 3 (strandQuadrant st)

/-- A port that the lanes present can form (R50): its first lane is present. -/
def portPresent (s : State) (p : Nat) : Bool := !defective s 2 (portLane0 p) && !defective s 3 (portQuadrant p)

/-- Engine cores under the new numbering: held in boot, or in service where firmware is committed. -/
def numberCores (s : State) : State :=
  let places := (List.range 16).flatMap (clusterMap s)
  let held : MapState := if 6 ≤ s.boot.stage && s.boot.committed.isSome then .inService else .heldInBoot
  let core := fun (p : Option Nat) => match p with
    | some k => ({ map := held, physical := k } : Core)
    | none => { map := .lost, absent := true }
  let lostCore : BindEnt := { isLost := true }
  { s with eng.cores := (places.zipIdx.map (fun e => (e.2, core e.1))).filter (fun e => e.2 != {}),
           bind.engine := (places.zipIdx.filter (fun e => e.1.isNone)).map (fun e => (e.2, lostCore)),
           boot.engineCores := places.countP (·.isSome), boot.coresLost := 0,
           boot.spares := places.zipIdx.filterMap (fun e => match e.1 with
             | some k => if 128 ≤ k then some (e.2 / 128, k) else none
             | none => none) }

/-- Strands and ports under the new numbering. -/
def numberStrands (s : State) : State :=
  let ids := List.range 512
  let old := s.bind.strand
  let ent := fun (st : Nat) => ({ epoch := (tget {} old st).epoch, isLost := !strandPresent s st } : BindEnt)
  let slice := fun (st : Nat) => { strandOf s st with lostUnit := !strandPresent s st }
  let lostPort : BindEnt := { isLost := true }
  { s with mem.strands := (ids.map (fun st => (st, slice st))).filter (fun e => e.2 != {}),
           bind.strand := (ids.map (fun st => (st, ent st))).filter (fun e => e.2 != {}),
           bind.knots := ((List.range 256).filter (fun b => defective s 3 (b / 64))).map (fun b => (b, lostPort)),
           bind.port := ((List.range 96).filter (fun p => !portPresent s p)).map (fun p => (p, lostPort)),
           boot.strandCount := ids.countP (strandPresent s), boot.ports := (List.range 96).countP (portPresent s),
           boot.quadrants := unitBits 4 (fun q => !defective s 3 q),
           boot.stacksPresent := unitBits 16 (fun k => (List.range 32).any (fun i => strandPresent s (32 * k + i))) }

/-- A listed quadrant is held in partition reset (R464): its ports go down, and its registers take their reset values. -/
def holdQuadrants (s : State) : State :=
  ((List.range 4).filter (defective s 3)).foldl (fun s q =>
    resetRegisters 2 q ((List.range 24).foldl (fun s i => (portWithPartition (24 * q + i) s).2) s)) s

/-- The control cores: listed ones leave service; the pair has tested the former active core and handed back, unless one
of the two is listed (R464, R502). -/
def judgePair (s : State) : State :=
  let s := ((List.range 8).filter (defective s 4)).foldl (fun s c => leaveService c s) s
  let bad := fun (c : Nat) => defective s 4 c
  if bad 0 && bad 1 then controlLost { s with pair.standby := .none }
  else if bad s.pair.active then { moveOwner 2 s with pair.standby := .none }
  else if bad (otherCore s) then { s with pair.standby := .none }
  else if s.pair.standby = .ready then testPasses s else s

/-- The defect list as flash holds it and as it is measured (R432, R466). -/
def defectBytes (l : List Defect) : List Byte :=
  l.flatMap (fun e => le 4 e.start ++ le 4 ((e.kind % 16) <<< 28 ||| (e.cause % 16) <<< 24 ||| (e.physical % 4096) <<< 12 ||| 1))

/-- The list is written and measured (R463, R466, R552). -/
def writeDefects (added full : List Defect) (s : State) : State :=
  let l := s.boot.defects ++ added
  { s with boot.startCount := s.boot.startCount + 1, boot.defects := l, boot.newFailures := [], boot.unlisted := full,
           sec.defectDigest := sm3 (defectBytes l) }

/-- The march tests leave no line, coil line, directory entry, translation or knot behind. -/
def afterMarch (s : State) : State :=
  { s with mem.lines := [], mem.patterns := [], mem.coil := [], coh.dir := [], xlat.cache := [], belay.knots := [] }

/-- STARTUP_TEST_COMPLETE (R463 to R466): `found` lists the defects found, KIND and PHYSICAL. -/
def execStartupTestComplete (found : List (Nat × Nat)) (s : State) : Host.Outcome State Fault Refusal :=
  match runningFor s (fun w => w == .startup) with
  | none => .next s
  | some r =>
    let fresh := freshDefects s.boot.defects (candidates found s)
    let room := 1024 - s.boot.defects.length
    let s := writeDefects (fresh.take room) (fresh.drop room) s
    let s := judgePair (numberStrands (numberCores (holdQuadrants (afterMarch s))))
    let clean := s.boot.defects = [] && s.boot.unlisted = [] && s.boot.spares = []
    .next (stageFrom 4 (finish r (if clean then stOK else stDEGRADED)
      (le 2 (min room fresh.length) ++ le 2 (fresh.length - room) ++ le 2 s.boot.engineCores ++ le 2 s.boot.strandCount ++
       le 1 (quadrantsServing s) ++ zeros 3) s))

/-! ### COMMIT_IMAGE (R472, R473) -/

/-- A confirmed core switches to its staging bank, or waits for its contexts to end. Counts both. -/
def commitCore (core : Nat) (a : (Nat × Nat) × State) : (Nat × Nat) × State :=
  let (n, s) := a
  let y := tget {} s.eng.cores core
  match y.map with
  | .lost => a
  | .heldInBoot => ((n.1 + 1, n.2), modCore core (fun y => { y with map := .inService }) s)
  | _ => if runningCtxs s core = 0 then ((n.1 + 1, n.2), s)
    else ((n.1, n.2 + 1), modCore core (fun y => { y with switchWait := true }) s)

/-- An excluded core is held in boot and fails with CAUSE 3; its commands end POISONED. -/
def commitExcluded (core : Nat) (s : State) : State :=
  if (tget {} s.eng.cores core).map = .lost then s else coreFails core 3 (settleCores [core] stPOISONED s)

/-- COMMIT_IMAGE (R472). -/
def commitImage (s : State) : Nat × List Byte × State :=
  match s.boot.fw with
  | none => (stDENIED, [], s)
  | some f =>
    let good := ((partsOf f).filter (fun e => e.2.confirmed)).map (·.1)
    let bad := ((partsOf f).filter (fun e => e.2.excluded)).map (·.1)
    if f.running || good = [] then (stDENIED, [], s)
    else
      let s := { s with boot.fw := none, boot.committed := some f.payload, sec.engineDigest := f.digest }
      let (n, s) := good.foldl (fun a c => commitCore c a) ((0, 0), s)
      let s := settleHome (bad.foldl (fun s c => commitExcluded c s) s)
      (if bad = [] then stOK else stDEGRADED, le 2 n.1 ++ le 2 n.2, stageFrom 5 s)

def execCommitImage (c : Cmd) (s : State) : Host.Outcome State Fault Refusal :=
  .next (kcpNow 0x107 c (zeros 4) commitImage s)

/-! ### RESET_SCOPE (R477, R479) -/

/-- A reset in progress that overlaps a scope without lying inside it. -/
def resetBars (s : State) (scope target : Nat) : Bool :=
  s.boot.resets.any (fun r => scopesOverlap scope target r.scope r.target && !scopeContains scope target r.scope r.target) ||
  (scope != 3 && s.boot.deviceResetAt.isSome)

/-- RESET_SCOPE: a device-scope reply precedes its reset by 16 marks; what SETTLED_AT then holds is a free value. A scope
that is held already replies at once. -/
def resetScope (scope target : Nat) (s : State) : Answer × State :=
  if scope = 3 then
    let (d, s) := draw s
    (.done stOK (le 4 0 ++ le 8 d), if s.boot.deviceResetAt.isSome then s else deviceResetDue (lmc s + 16) s)
  else if scope = 0 && (tget {} s.eng.cores target).map = .lost then (.done stDEGRADED [], s)
  else if resetBars s scope target then (.done stBUSY [], s)
  else match s.boot.resets.find? (fun r => r.scope == scope && r.target == target && r.phase != 1) with
    | some r => (.done stOK (le 4 r.absorbed ++ le 8 r.settledAt), s)
    | none => (.later (.reset scope target 0), startReset scope target false s)

def execResetScope (c : Cmd) (s : State) : Host.Outcome State Fault Refusal :=
  let scope := pbits c.params 0 0 2
  let t := pnum c.params 2 2
  let target := match scope with
    | 0 => min 2047 t
    | 1 => min 15 t
    | 2 => min 3 t
    | _ => t
  .next (kcpTake 0x108 c (le 1 scope ++ zeros 1 ++ le 2 target) (resetScope scope target) s)

end Sys2Proof.Machine
end

