-- ==== Sys2Proof/Machine/Board.lean ====
section
/-! DEFINITION. The board's side (R455, R456, R537 to R551): reset and boot, rails, reference clocks, temperatures and
throttling, and the SMBus target. -/
namespace Sys2Proof.Machine

/-! ### Device reset (R14, R138, R478, R540) -/

/-- Device reset: every field takes its reset value, and reads show it. What the board holds, the levels of its pins and the rails, the
failures that wait for the next start-up test and rung 4 stay; so do the numbers of the strands' old keys, which no line
passes under. -/
def deviceReset (s : State) : State :=
  let b : BootSt := { pwrGood := s.boot.pwrGood, resetN := s.boot.resetN, sysref := s.boot.sysref,
                      startCount := s.boot.startCount, defects := s.boot.defects, newFailures := s.boot.newFailures }
  let keys : Tbl Strand := s.mem.strands.filterMap (fun e => if e.2.gen = 0 then none else some (e.1, { gen := e.2.gen }))
  boundary { pending := s.pending, out := s.out, draws := s.draws, boot := b, mem := { strands := keys },
             err := { fatal := s.err.fatal }, sec := { defectDigest := s.sec.defectDigest },
             pwr := { railsOk := s.pwr.railsOk, thermTrip := s.pwr.thermTrip, alert := s.pwr.alert } }

/-- What the loss of power clears beside: rung 4, the trip, the board alert, and what control SRAM kept. -/
def powerRemoved (s : State) : State :=
  boundary { s with boot.newFailures := [], err := {}, sec := {}, pwr := {} }

/-- DEVICE_RESET_INPUT (R539, R540): the levels of PWR_GOOD and RESET_N. While either is low the device is held in reset.
PWR_GOOD rises with every rail in range. -/
def execDeviceResetInput (pwrGood resetN : Bool) (s : State) : Host.Outcome State Fault Refusal :=
  let rises := pwrGood && !s.boot.pwrGood
  let same : Bool := pwrGood == s.boot.pwrGood && resetN == s.boot.resetN
  let s := if same then s else
    { s with boot.pwrGood := pwrGood, boot.resetN := resetN, boot.sysref := s.boot.sysref || (pwrGood && resetN),
             pwr.railsOk := if rises then onesMask 28 else s.pwr.railsOk }
  .next (if !pwrGood then powerRemoved (deviceReset s) else if !resetN then deviceReset s else s)

/-- SYSREF_STOP (R548). -/
def execSysrefStop (s : State) : Host.Outcome State Fault Refusal :=
  .next (deviceReset { s with boot.sysref := false })

/-- DEVICE_SCOPE_RESET (R477, R478): the device reset that is due. -/
def execDeviceScopeReset (s : State) : Host.Outcome State Fault Refusal :=
  match s.boot.deviceResetAt with
  | some m => .next (if lmc s < m then s else deviceReset s)
  | none => .next s

/-! ### Boot (R455, R456, R458) -/

/-- A stage verifies under the Varvia firmware key (R431): the copy's key has the digest that the ROM holds, and the signature is over
the image's digest. -/
def stageVerifies (key : Nat) (image : List Byte) (sig : Nat) : Bool :=
  sm3 (pointBytes (pairOf key)) = romKeyDigest && verifies key (sm3 image) sig

/-- The two stages of a copy: the control firmware is verified by the boot stage once that runs (R455). -/
def bootVerifies (a : FlashCopy) : Bool := stageVerifies a.key a.bootImage a.bootSig
def copyVerifies (a : FlashCopy) : Bool := bootVerifies a && stageVerifies a.key a.controlImage a.controlSig

/-- A verified stage is measured before it runs (R432). -/
def measureStages (a : FlashCopy) (s : State) : State :=
  if !bootVerifies a then s
  else
    let s := { s with sec.bootDigest := sm3 a.bootImage }
    if copyVerifies a then { s with sec.controlDigest := sm3 a.controlImage, sec.controlVersion := a.version } else s

/-- The control firmware of a verified copy runs: the command processors and the other control cores start, but for
those that are listed. -/
def startControl (slot : Nat) (s : State) : State :=
  let bad := fun (c : Nat) => defective s 4 c
  let beats : Tbl Nat := ((List.range 4).map (fun k => (k, lmc s))).filter (fun e => e.2 != 0)
  { s with boot.inRom := false, boot.slot := slot, boot.stage := 1,
           intc.outOfService := (List.range 8).filter bad, kcp.ethDown := [0, 1].filter (fun e => !bit s.pwr.railsOk (25 + e)),
           pair := { active := if bad 0 then 1 else 0, standby := if bad 0 || bad 1 then .none else .ready, heard := beats,
                     journalAt := lmc s, testAt := lmc s } }

/-- POWER_ON_BOOT (R431, R432, R455, R456): the ROM boots copy A, or copy B where a stage of A fails; with both failed it stays in the
ROM until the next reset. -/
def execPowerOnBoot (a b : FlashCopy) (s : State) : Host.Outcome State Fault Refusal :=
  if heldInReset s || !s.boot.inRom || (s.boot.aFailed && s.boot.bFailed) || !bit s.pwr.railsOk 4 || !bit s.pwr.railsOk 27 then
    .next s
  else
    let s := measureStages a s
    if copyVerifies a then .next (startControl 0 s)
    else
      let s := measureStages b { s with boot.aFailed := true }
      .next (if copyVerifies b then startControl 1 s else { s with boot.bFailed := true })

/-! ### Rails and clocks (R538, R541, R548) -/

/-- An Ethernet port stops. -/
def ethStops (n : Nat) (s : State) : State :=
  { s with kcp.ethDown := if s.kcp.ethDown.contains n then s.kcp.ethDown else s.kcp.ethDown ++ [n] }

/-- Quadrant that a rail feeds. -/
def railQuadrant (rail : Nat) : Nat := if rail < 4 then rail else (rail - 5) % 4

/-- RAIL_FAULT (R541, 8.5): a rail has been outside its tolerance at two consecutive samples. -/
def execRailFault (rail : Nat) (s : State) : Host.Outcome State Fault Refusal :=
  if 28 ≤ rail || !bit s.pwr.railsOk rail then .next s
  else
    let s := { s with pwr.railsOk := s.pwr.railsOk - 2 ^ rail }
    .next (if rail = 4 || rail = 27 then deviceReset s
      else if !serving s then s
      else if rail = 25 || rail = 26 then
        ethStops (rail - 25) (detect { seq := 0, domain := 8, source := 5, rung := 0, detail0 := rail } 0 0 0 s).2
      else quadrantFault 8 5 (railQuadrant rail) rail s)

/-- LINKREF_STOP (R548): every lane of the quadrant loses its locks, and its ports in service are lost. -/
def execLinkrefStop (q : Nat) (s : State) : Host.Outcome State Fault Refusal :=
  if 4 ≤ q || !lanesRun s then .next s
  else
    let locked := ((List.range 48).map (48 * q + ·)).filter (fun l => (laneState s l).cwLock || (laneState s l).blockLock)
    let s := locked.foldl (fun s l => lockLost l (fun x => { x with cwLock := false, blockLock := false }) s) s
    .next (settleHome (((List.range 24).map (24 * q + ·)).foldl (fun s p => linkLost p true s) s))

/-- ETHREF_STOP (R548). -/
def execEthrefStop (n : Nat) (s : State) : Host.Outcome State Fault Refusal := .next (if n < 2 then ethStops n s else s)

/-! ### Temperatures and throttling (R543 to R545) -/

/-- THERMAL_TRIP (R545, 8.6). -/
def execThermalTrip (isStack : Bool) (_unit temp : Nat) (s : State) : Host.Outcome State Fault Refusal :=
  if !s.boot.pwrGood || s.pwr.thermTrip || temp < (if isStack then 105 else 115) then .next s
  else
    let (_, s) := detect { seq := 0, domain := 8, source := 6, rung := 4 } 4 0 0 s
    .next (rung4 { s with pwr.thermTrip := true })

/-- A quadrant's throttle level changes at this mark. -/
def setLevel (q level : Nat) (s : State) : State :=
  { s with pwr.level := tset 0 s.pwr.level q level, pwr.levelAt := tset 0 s.pwr.levelAt q (lmc s) }

/-- A level rises by 1, not more than once in 16 marks. -/
def levelRises (q : Nat) (s : State) : State :=
  if lmc s < tget 0 s.pwr.levelAt q + 16 || 3 ≤ throttleLevel s q then s else setLevel q (throttleLevel s q + 1) s

/-- The readings of a quadrant are kept for THERMAL_STATUS. -/
def keepReadings (q : Nat) (t : Thermal) (s : State) : State :=
  { s with pwr.thermal := tset ⟨0, 0, 0⟩ s.pwr.thermal q t }

/-- Rails 0 to 4 together may draw less than this (R544). -/
abbrev coreRailLimit : Nat := 1180

/-- THROTTLE_LEVEL_RISE (R543, R544): `t` is what held throughout 16 consecutive marks, in a quadrant or, with none, over
rails 0 to 4 together. -/
def execThrottleLevelRise (q : Option Nat) (t : Thermal) (s : State) : Host.Outcome State Fault Refusal :=
  if heldInReset s then .next s
  else match q with
    | none => .next (if t.amps < coreRailLimit then s else (List.range 4).foldl (fun s q => levelRises q s) s)
    | some q =>
      if 4 ≤ q then .next s
      else
        let s := keepReadings q t s
        .next (if throttleC s ≤ t.die || stackThrottleC s ≤ t.stack || currentLimit s ≤ t.amps then levelRises q s else s)

/-- THROTTLE_LEVEL_FALL (R543): `t` is the highest of each quantity over 1,024 consecutive marks. -/
def execThrottleLevelFall (q : Nat) (t : Thermal) (s : State) : Host.Outcome State Fault Refusal :=
  if 4 ≤ q || heldInReset s then .next s
  else
    let s := keepReadings q t s
    .next (if t.die + 5 ≤ throttleC s && t.stack + 5 ≤ stackThrottleC s && t.amps + 20 ≤ currentLimit s &&
        throttleLevel s q != 0 && tget 0 s.pwr.levelAt q + 1024 ≤ lmc s then setLevel q (throttleLevel s q - 1) s else s)

/-! ### The SMBus target (R551) -/

/-- The control-space offset of the register that a code names. -/
def smbusRegister (s : State) (code : Nat) : Option Nat :=
  if code = 0 then some 0x00000000
  else if code = 1 then some 0x00000018
  else if code = 2 then some 0x00000010
  else if code = 3 then some 0x00090440
  else if code = 4 then some 0x000B0020
  else if 5 ≤ code && code ≤ 8 then some (0x000B0010 + 4 * (code - 5))
  else if 0x10 ≤ code && code ≤ 0x1F then some (0x00090000 + 0x40 * s.err.order.headD 0 + 4 * (code - 0x10))
  else if 0x20 ≤ code && code ≤ 0x2F then some (0x0006C040 + 4 * (code - 0x20))
  else none

/-- SMBUS_BLOCK_READ (R551): with no tenant filtering; in the ROM only three codes return data. -/
def execSmbusBlockRead (code : Nat) (write : Bool) (s : State) : Host.Outcome State Fault Refusal :=
  if !s.boot.pwrGood then .next s
  else match (if write then none else smbusRegister s code) with
    | none => .next (emit .smbusNack s)
    | some off =>
      if s.boot.inRom && !([0, 1, 4].contains code) then .next (emit (.smbus 0) s)
      else match locate off with
        | some (f, i) => .next (emit (.smbus (regWord s 0 f i off)) s)
        | none => .next (emit (.smbus 0) s)

end Sys2Proof.Machine
end

