-- ==== Sys2Proof/Machine/Halt.lean ====
section
/-! DEFINITION. The global stop (R505 to R513): arming, landing, and the three steps of resuming. -/
namespace Sys2Proof.Machine

/-- HALT_STATUS.STATE changes (R511, R528). -/
def haltState (h : HaltState) (s : State) : State :=
  if s.halt.st = h then s else fire 325 { s with halt.st := h }

/-- HALT_AT_MARK (R505, R510): the stop is armed, in place of one armed before; the counts and the log start afresh. DESIGN CHOICE (log
entry 123): a stop that is replaced, or disarmed by RESUME, before its mark M reports no COMMAND_DONE. -/
def execHaltAtMark (c : Cmd) (s : State) : Host.Outcome State Fault Refusal :=
  let m := clampTo (fmt s + 8) (fmt s + 2 ^ 20) (pnum c.params 0 8)
  let flight := pnum c.params 8 1
  .next (kcpNow 0x806 c (le 8 m ++ le 1 flight ++ zeros 3) (fun s =>
    let h : HaltSt := { st := s.halt.st, mark := m, flight := flight, landing := m + flight + 8, gates := s.halt.gates,
                        held := s.halt.held, parked := s.halt.parked, session := c.session, seq := c.seq }
    (stOK, le 8 (m + flight + 8), haltState .armed { s with halt := h })) s)

/-- Packets other than CTL that stand in egress queues and have not begun to leave. -/
def unissued (s : State) : Nat :=
  s.link.ports.foldl (fun n e => n + e.2.tx.queue.countP (fun q => q.2.2.hdr.code != 0x80)) 0

/-- At M nothing issues any more, HALTED goes to every session (R505 to R508), and the HALT_AT_MARK that armed the stop
is complete (R117; log entry 123). -/
def haltAtMark (s : State) : State :=
  let s := haltState .landing { s with halt.heldCount := unissued s }
  let s := event 8 (s.halt.mark % 2 ^ 32) (fun _ => true) [] s
  boundary (commandDone s.halt.session s.halt.seq 0x806 stOK [] s)

/-- HALT_MARK_REACHED (R505 to R508). -/
def execHaltMarkReached (s : State) : Host.Outcome State Fault Refusal :=
  .next (if s.halt.st != .armed || fmt s < s.halt.mark then s else haltAtMark s)

/-- At LANDING_CLOSE the stop is halted (R507). -/
def landingCloses (s : State) : State := boundary (haltState .halted s)

/-- LANDING_CLOSE (R507). -/
def execLandingClose (s : State) : Host.Outcome State Fault Refusal :=
  .next (if s.halt.st != .landing || fmt s < s.halt.landing then s else landingCloses s)

/-- RESUME (R512): at once when no stop is in force; otherwise the reply waits for the end of the stop. -/
def execResume (c : Cmd) (s : State) : Host.Outcome State Fault Refusal :=
  let a := pnum c.params 0 8
  let at' := if a = 0 then 0 else clampTo (fmt s + 1) (fmt s + 1000) a
  .next (kcpTake 0x807 c (le 8 at') (fun s =>
    match s.halt.st with
    | .landing | .resuming => (.done stBUSY [], s)
    | .armed => (.done stOK [], haltState .running s)
    | .running => (.done stOK [], s)
    | .halted =>
      (.later .resume, haltState .resuming { s with halt.resumeAt := if a = 0 then fmt s + 1 else at' })) s)

/-! ### The end of the stop (R512, R513) -/

/-- P1 requests admitted before M whose response has not begun to leave complete HALTED, those outside their bound among them
(R513). -/
def haltPromised (s : State) : State :=
  let s := (s.coh.trackers.filter (·.p1)).foldl (fun s t => abortTracker t.id stHALTED s) s
  overrideQueued (fun p => p.bound != 0) stHALTED s

/-- A parked P1 request, to this device or to another EID, is answered PROMISE_REFUSED (R513); every other parked packet
waits in its port's buffer for its own command. -/
def unpark (rx : RxPkt) (s : State) : State :=
  let h := rx.hdr
  let a := arrivalOf s rx
  let promised := if isOwnEid s h.dst then 1 ≤ h.code && h.code ≤ 5 || h.code = 8 else codeVc h.code = 1
  if !h.mcast && effClass h = 1 && promised && a.carried then
    complete h a.tenant none stREFUSED (countP1 a.tenant false (takeArrived rx s))
  else s

/-- Held packets go to their queues in the order in which they were held. -/
def issueHeld (s : State) : State :=
  s.halt.held.foldl (fun s q => enqueue q.1 q.2.1 q.2.2 s) { s with halt.held := [] }

/-- Gates that knots released in the stop are passed. -/
def passHeldGates (s : State) : State :=
  let gates := s.halt.gates
  mapCtxs (fun c k x => if gates.contains (c, k) && atGate x && (gateOf x).kind = 1 then passGate x else x)
    { s with halt.gates := [] }

/-- Units issue again: reads of the engine cores, requests of the page swaps. -/
def issueAgain (s : State) : State :=
  settleHome (settleStops allContexts (issueWaiting s))

/-- Ports whose retraining of rung 2 waited for RESUME are retrained (R493). -/
def retrainWaiting (s : State) : State :=
  ((List.range 96).filter (fun p => (portOf s p).retrainDue)).foldl (fun s p =>
    let s := modPort p (fun x => { x with retrainDue := false }) s
    if (portOf s p).phase = .lost && portFree s p then startTraining p false s else s) s

/-- The stop ends: held packets are issued, parked ones processed, units issue again; then the RESUME is answered
(R512, R513). -/
def resumeStop (s : State) : State :=
  let s := haltState .running (haltPromised s)
  let s := issueHeld s
  let parked := s.halt.parked
  let s := parked.foldl (fun s r => unpark r s) { s with halt.parked := [] }
  let s := retrainWaiting (issueAgain (passHeldGates s))
  boundary ((s.kcp.running.filter (fun r => r.wait == .resume)).foldl (fun s r => finish r stOK [] s) s)

/-- RESUME_AT_MARK (R512, R513). -/
def execResumeAtMark (s : State) : Host.Outcome State Fault Refusal :=
  .next (if s.halt.st != .resuming || fmt s < s.halt.resumeAt then s else resumeStop s)

end Sys2Proof.Machine
end

