-- ==== Sys2Proof/Machine/Time.lean ====
section
/-! DEFINITION. Fabric time (R39, R52 to R69, R85, R353, R354): the mark counts, the updates of the timing master, the
timing states and the admission windows. -/
namespace Sys2Proof.Machine

/-! ### Marks (R52, R66) -/

/-- Units of `TimeSt.pos` that one mark of LMC adds: the trimmed rate, or 64/65 of it while FMT runs with 65 ns marks. -/
def markRate (t : TimeSt) : Nat := if t.slow then 65536 else (66560 + t.trim).toNat

/-- A mark of LMC goes by (R52, R66): FMT runs at its trimmed rate, or with 65 ns marks; in a global stop the mark does not count
toward paused timeouts (R506). -/
def clockMark (s : State) : State :=
  { s with time.lmc := s.time.lmc + 1, time.pos := s.time.pos + markRate s.time,
           time.stopped := if stopped s then s.time.stopped + 1 else s.time.stopped }

/-- What the blocks do in every mark: the ports' congestion counts, the loads that end, and the strand slices (R399, R407). -/
def marked (s : State) : State :=
  slicesMark (clockMark (endLoads (s.link.ports.foldl (fun s e => congestionMark e.1 e.2 s) s)))

/-- One mark passes, unless the device is held in reset: the partition resets that have fallen due begin, the invariants are
checked (R495), and what has changed is shown. -/
def tick (s : State) : State :=
  if heldInReset s then s else
  let s := marked s
  boundary (auditMark (s.err.partitionDue.foldl (fun s q => rung3 2 q s) { s with err.partitionDue := [] }))

/-! ### Admission windows (R68, R85) -/

/-- FMT marks in an admission window. -/
abbrev windowMarks : Nat := 1024

/-- The window in progress ends: P1_STATS of each tenant shows its counts, and the next window begins. -/
def endWindow (s : State) : State :=
  let s := (List.range 32).foldl (fun s t =>
    setField (0x00010200 + 4 * t) 16 0 (min 0xFFFF (tget 0 s.time.winRefused t))
      (setField (0x00010200 + 4 * t) 0 0 (min 0xFFFF (tget 0 s.time.winAdmitted t)) s)) s
  { s with time.winRefused := [], time.winAdmitted := [], time.window := fmt s / windowMarks }

/-- A window boundary fires: admission opens at the first one after entry into LOCKED (R68). -/
def windowFires (s : State) : State :=
  let s := endWindow s
  if s.time.openAtWindow then { s with time.openAtWindow := false, time.admitOpen := true } else s

/-- ADMISSION_WINDOW_BOUNDARY (R68, R85): FMT has reached a multiple of 1,024 beyond the window in progress. -/
def execAdmissionWindowBoundary (s : State) : Host.Outcome State Fault Refusal :=
  .next (if fmt s / windowMarks = s.time.window then s else boundary (windowFires s))

/-! ### Events scheduled at marks of FMT (R55) -/

/-- What is scheduled at a mark of FMT. -/
inductive FmtEvent where
  | window | haltMark | landing | resume
deriving DecidableEq, Repr

/-- An event fires. -/
def FmtEvent.fires : FmtEvent → State → State
  | .window => windowFires
  | .haltMark => haltAtMark
  | .landing => landingCloses
  | .resume => resumeStop

/-- The events that FMT has reached and that have not fired, with their marks: of several window boundaries passed the
first ends the window in progress, and the others end none (R85). -/
def fmtDue (s : State) : List (Nat × FmtEvent) :=
  let now := fmt s
  let w := windowMarks * (s.time.window + 1)
  let windows := if now < w then [] else [(w, FmtEvent.window)]
  let halts : List (Nat × FmtEvent) := match s.halt.st with
    | .armed => [(s.halt.mark, .haltMark), (s.halt.landing, .landing)]
    | .landing => [(s.halt.landing, .landing)]
    | .resuming => [(s.halt.resumeAt, .resume)]
    | _ => []
  windows ++ halts.filter (fun e => e.1 ≤ now)

/-- Skipped events fire in the order of their marks. -/
def fireSkipped (s : State) : State :=
  ((fmtDue s).mergeSort (fun a b => a.1 ≤ b.1)).foldl (fun s e => e.2.fires s) s

/-! ### Updates (R54 to R58, R63, R66) -/

/-- The state that holds once what has been decided takes effect (R68). -/
def decided (t : TimeSt) : TState := t.next.getD t.st

/-- Units of `TimeSt.pos` in 1/256 mark. -/
abbrev fracUnit : Nat := 260

/-- An update differs from the value that the previous one predicts by at most STEP_LIMIT marks. -/
def consistent (s : State) (v : Nat) : Bool :=
  match s.time.prevUpd with
  | none => false
  | some (p, at') =>
    let want := p + 256 * (lmc s - at')
    decide (((v : Int) - (want : Int)).natAbs ≤ 256 * stepLimit s)

/-- FMT steps forward to a source value, in 1/256 mark, and the events it skips fire (R55). -/
def setFmt (v : Nat) (s : State) : State := fireSkipped { s with time.pos := fracUnit * v }

/-- The first lock sets FMT to a source value, in 1/256 mark: the window in progress ends at the lock in either direction
(R85); forward, what is skipped fires, and backward nothing fires again (R54, R55). -/
def lockFmt (v : Nat) (s : State) : State :=
  let back := fracUnit * v < s.time.pos
  let s := endWindow { s with time.pos := fracUnit * v }
  if back then s else fireSkipped s

/-- What an update decides within a mark takes effect at the next mark boundary (R68). -/
def decideTime (n : TState) (s : State) : State := { s with time.next := some n, time.nextAt := fmt s + 1 }

/-- A timeout's count is full at a boundary of LMC: what it decides takes effect at the boundary of the mark that has begun
there, as the section's example dates it. DEDUCED (log entry 157). -/
def timeoutDecides (n : TState) (s : State) : State := { s with time.next := some n, time.nextAt := fmt s }

/-- An accepted update: its moment and its source's state are kept, and FMT's rate is trimmed by at most 1/1,024. By how
much is the device's own choice (log entry 14). -/
def acceptUpdate (holdover : Bool) (s : State) : State :=
  let (n, s) := draw s
  { s with time.lastAccept := lmc s, time.badRun := 0, time.srcHoldover := holdover, time.slow := false,
           time.trim := (n % 131 : Nat) - 65 }

/-- A rejected update is counted; RELOCK_COUNT of them, consistent among themselves, lose the time. -/
def rejectUpdate (like : Bool) (s : State) : State :=
  let n := if like && s.time.badRun != 0 then s.time.badRun + 1 else 1
  let s := { s with time.rejects := (s.time.rejects + 1) % 65536, time.badRun := n }
  if relockCount s ≤ n then decideTime .lost { s with time.goodRun := 0, time.badRun := 0 } else s

/-- An update of the selected source arrives: its value in 1/256 mark, and whether the source reports HOLDOVER. -/
def timeUpdate (v : Nat) (holdover : Bool) (s : State) : State :=
  let like := consistent s v
  let run := if like then s.time.goodRun + 1 else 1
  let err : Int := (fracUnit * v : Nat) - (s.time.pos : Int)
  let limit := posUnit * stepLimit s
  let s := { s with time.prevUpd := some (v, lmc s), time.goodRun := run }
  match decided s.time with
  | .unset =>
    if run < relockCount s then s else acceptUpdate holdover (decideTime .locked (lockFmt v s))
  | .locked =>
    if err.natAbs ≤ limit then acceptUpdate holdover s else rejectUpdate like s
  | .holdover =>
    if err.natAbs ≤ limit then acceptUpdate holdover (decideTime .locked s) else rejectUpdate like s
  | .lost =>
    if run < relockCount s then s
    else if err < -(posUnit : Int) then { s with time.slow := true }
    else
      let s := if 0 < err then setFmt v s else s
      acceptUpdate holdover (decideTime .locked s)

/-! ### Timing control blocks (R56 to R59, R353, R354) -/

/-- Three pieces in a row are 0, 1 and 2 in a rotation: the high word they spell. -/
def highWord : List (Nat × Nat) → Option Nat
  | [(a, x), (b, y), (c, z)] =>
    if a < 3 && b = (a + 1) % 3 && c = (a + 2) % 3 then
      some (([(a, x), (b, y), (c, z)].foldl (fun h p => h + p.2 * 2 ^ (12 * p.1)) 0) % 2 ^ 32) else none
  | _ => none

/-- A block while the high word is not built: it counts as no update. -/
def buildHigh (b : TimingBlk) (s : State) : State :=
  let old := match s.time.rxLo with
    | some lo => if b.fmtLo < lo then [] else s.time.rxPieces
    | none => []
  let ps := (old ++ [(b.pieceSel, b.piece)]).drop (old.length - 2)
  match highWord ps with
  | some h => { s with time.rxHigh := some h, time.rxPieces := [], time.rxLo := some b.fmtLo }
  | none => { s with time.rxPieces := ps, time.rxLo := some b.fmtLo }

/-- A port's lanes carry blocks: in service, and in training but for its marks of silence (R336, R339). -/
def carriesBlocks (s : State) (p : Nat) : Bool :=
  match (portOf s p).phase with
  | .off | .lost => false
  | _ => match (portOf s p).train with
    | some t => t.stepTo.isNone
    | none => true

/-- TIMING_BLOCK_RECEIVED (R54 to R58, R354): a block on lane 0 of the selected port. -/
def execTimingBlockReceived (port : Nat) (w : Blk) (inBadCodeword : Bool) (s : State) : Host.Outcome State Fault Refusal :=
  let b := readTiming w
  if !serving s || timeSrc s != 1 || port != timeSrcPort s || !carriesBlocks s port || inBadCodeword || !isType w typeTIMING then
    .next s
  else match s.time.rxHigh with
    | none => .next (buildHigh b s)
    | some h =>
      let h := if (s.time.rxLo.getD 0) ≤ b.fmtLo then h else (h + 1) % 2 ^ 32
      let s := { s with time.rxLo := some b.fmtLo, time.rxHigh := some h }
      if 3 ≤ b.pieceSel || b.piece != pieceOf h b.pieceSel then
        .next (buildHigh b { s with time.rxHigh := none, time.rxPieces := [] })
      else if b.state != 1 && b.state != 2 then .next s
      else .next (timeUpdate (256 * (h * 2 ^ 32 + b.fmtLo) + b.fraction + linkDelay s) (b.state == 2) s)

/-- TIMING_BLOCK_TRANSMIT (R59, R353): the device's own FMT, fraction and state; the piece cycles 0, 1, 2. -/
def execTimingBlockTransmit (port : Nat) (s : State) : Host.Outcome State Fault Refusal :=
  if !serving s || !carriesBlocks s port then .next s
  else
    let sel := tget 0 s.time.txPiece port
    .next (sendControl port 0 (timingWord (timeCode s.time.st) (fraction s) (fmt s) sel)
      { s with time.txPiece := tset 0 s.time.txPiece port ((sel + 1) % 3) })

/-! ### PTP (R60 to R63) -/

/-- The better of two masters by the data set comparison of the default best master clock algorithm: of two
grandmasters the one with the lower data, in the order of the fields; of two paths to one grandmaster the shorter, then
the lower sender. -/
def betterMaster (a b : PtpAnn) : Bool :=
  let rank := fun (x : PtpAnn) => [x.priority1, x.clockClass, x.accuracy, x.variance, x.priority2, x.grandmaster]
  let path := fun (x : PtpAnn) => [x.stepsRemoved, x.identity, x.portNumber]
  if a.grandmaster = b.grandmaster then path a ≤ path b else rank a ≤ rank b

/-- Marks after which a master that has sent no Announce is no longer heard: three of its announce intervals. -/
def announceTimeout (a : PtpAnn) : Nat := 3 * 2 ^ a.logInterval * 15625000

/-- The masters still heard on the selected Ethernet port. -/
def mastersHeard (s : State) : List PtpAnn :=
  (s.time.ptp.masters.filter (fun m => timeSrc s = 2 + m.2.1 && lmc s < m.2.2 + announceTimeout m.1)).map (·.1)

/-- The selected master. -/
def ptpMaster (s : State) : Option PtpAnn :=
  match mastersHeard s with
  | [] => none
  | a :: r => some (r.foldl (fun x y => if betterMaster x y then x else y) a)

/-- The client on a port takes a message of its transport and domain. -/
def ptpTakes (s : State) (port domain transport : Nat) : Bool :=
  timeSrc s = 2 + port && domain = ptpDomain s && transport = ptpTransport s

/-- The client takes a message of its selected master. -/
def fromMaster (s : State) (port domain transport identity : Nat) : Bool :=
  ptpTakes s port domain transport && (ptpMaster s).map (·.identity) == some identity

/-- A PTP timestamp as fabric time in 1/256 mark (R63); none before the epoch. -/
def ptpTime (s : State) (seconds nanoseconds : Nat) : Option Nat :=
  if seconds < ptpEpoch s then none
  else some (256 * ((seconds - ptpEpoch s) * 15625000 + nanoseconds / 64) + nanoseconds % 64 * 4)

/-- LMC in 1/256 mark: the clock by which the client times its messages. -/
def ptpClock (s : State) : Nat := 256 * lmc s

/-- The path delay from a master: none is known before its first exchange is complete. -/
def pathDelay (s : State) (identity : Nat) : Nat :=
  match s.time.ptp.delay with
  | some (i, d) => if i = identity then d else 0
  | none => 0

/-- The origin time of a Sync is known: it becomes an update, moved on by the path delay and by the time since the Sync
arrived (R61, R63). A timestamp before the epoch is rejected and counted. -/
def ptpUpdate (y : PtpSync) (seconds nanoseconds : Nat) (s : State) : State :=
  match ptpTime s seconds nanoseconds with
  | none => { s with time.rejects := (s.time.rejects + 1) % 65536 }
  | some t =>
    let s := { s with time.ptp.lastSync := some { y with origin := some t } }
    timeUpdate (t + pathDelay s y.identity + (ptpClock s - y.received)) false s

/-- The frame of a Delay_Req over UDP (R60, R91), to the sender of the Sync. PRESUMED (log entry 158): both UDP ports are 319, as
IEEE 1588 has them, and the tag is that of the port's other priority traffic. -/
def ptpFrame (s : State) (port mac ip : Nat) : Option EthTx :=
  if ptpTransport s = 0 then none else some (ethFrame s port mac ip 319 319 7)

/-- A Delay_Resp completes an exchange: half of what lies between the Sync's origin and the Delay_Req's arrival at the
master, less the time between the Sync's arrival and the Delay_Req's leaving (R60, R61). A timestamp before the epoch is rejected
and counted (R63). -/
def ptpDelay (seconds nanoseconds : Nat) (s : State) : State :=
  match s.time.ptp.lastSync, s.time.ptp.requestAt, ptpTime s seconds nanoseconds with
  | _, _, none => { s with time.rejects := (s.time.rejects + 1) % 65536 }
  | some y, some left, some t4 => match y.origin with
    | some t1 => { s with time.ptp.delay := some (y.identity, (t4 - t1 - (left - y.received)) / 2),
                          time.ptp.requestAt := none }
    | none => s
  | _, _, _ => s

/-- PTP_MESSAGE (R60 to R63, R91, R528): Announce messages choose the master; a Sync of the master is answered with a
Delay_Req to its sender and, with its Follow_Up if it is of two steps, gives an update; a Delay_Resp gives the path
delay. Every event message fires the port's source. -/
def execPtpMessage (port : Nat) (m : PtpMsg) (s : State) : Host.Outcome State Fault Refusal :=
  if !serving s || !ethUp s port then .next s
  else match m with
    | .announce domain transport a =>
      if !ptpTakes s port domain transport then .next s
      else .next { s with time.ptp.masters :=
        s.time.ptp.masters.filter (fun x => x.1.identity != a.identity || x.1.portNumber != a.portNumber || x.2.1 != port) ++
          [(a, port, lmc s)] }
    | .sync domain transport identity seq twoStep seconds nanoseconds mac ip =>
      let s := fire (if port = 0 then 43 else 555) s
      if !fromMaster s port domain transport identity then .next s
      else
        let n := (s.time.ptp.requestSeq + 1) % 65536
        let y : PtpSync := { identity := identity, seq := seq, received := ptpClock s }
        let s := emit (.ptpDelayReq port (ethMac s port) mac n (ptpFrame s port mac ip))
          { s with time.ptp.requestSeq := n, time.ptp.requestAt := some y.received, time.ptp.lastSync := some y }
        .next (if twoStep then s else ptpUpdate y seconds nanoseconds s)
    | .followUp domain transport identity seq seconds nanoseconds =>
      if !fromMaster s port domain transport identity then .next s
      else match s.time.ptp.lastSync with
        | some y => .next (if y.identity = identity && y.seq = seq && y.origin.isNone then
            ptpUpdate y seconds nanoseconds s else s)
        | none => .next s
    | .delayResp domain transport identity seq seconds nanoseconds =>
      .next (if fromMaster s port domain transport identity && seq = s.time.ptp.requestSeq &&
          (s.time.ptp.lastSync.map (·.identity)) == some identity then ptpDelay seconds nanoseconds s else s)
    | .other => .next s

/-! ### The timing states (R66, R68) -/

/-- HOLDOVER_ENTRY (R66): GAP_LIMIT × 16 marks of LMC since the last accepted update. -/
def execHoldoverEntry (s : State) : Host.Outcome State Fault Refusal :=
  .next (if decided s.time = .locked && s.time.lastAccept + 16 * gapLimit s ≤ lmc s then
    timeoutDecides .holdover s else s)

/-- HOLDOVER_EXPIRY (R66): 1 watch of LMC since the last accepted update. -/
def execHoldoverExpiry (s : State) : Host.Outcome State Fault Refusal :=
  .next (if decided s.time = .holdover && s.time.lastAccept + watch ≤ lmc s then
    timeoutDecides .lost { s with time.goodRun := 0, time.badRun := 0 } else s)

/-- The consequences of a change of state, all at one mark boundary, with which TIME_STATE_CHANGED is stamped (R68, R123, R492,
R528). -/
def enterTime (n : TState) (s : State) : State :=
  let old := s.time.st
  let s := { s with time.st := n }
  let s := match n with
    | .locked =>
      if old = .unset || old = .lost then { s with time.openAtWindow := true } else s
    | .holdover => { s with time.srcHoldover := false }
    | .lost => { s with time.srcHoldover := false, time.openAtWindow := false, time.admitOpen := false }
    | .unset => s
  let s := fire 321 s
  let s := eventAt 6 (timeCode n) (fmt s) 0 (fun _ => true) [] s
  if n = .lost then recordError { seq := 0, domain := 7, source := 1, rung := 0 } 0 0 s else s

/-- TIME_STATE_CHANGE (R68): at its boundary of FMT, what has been decided takes effect. -/
def execTimeStateChange (s : State) : Host.Outcome State Fault Refusal :=
  match s.time.next with
  | none => .next s
  | some n =>
    if fmt s < s.time.nextAt then .next s
    else
      let s := { s with time.next := none }
      .next (boundary (if n = s.time.st then s else enterTime n s))

/-! ### The leader among the mark counters (R39) -/

/-- A quadrant that returned in a mark took the counts at the next boundary and follows for the mark after it. -/
def stillFollows (s : State) (q : Nat) : Bool := s.time.following.any (fun f => f.1 == q && lmc s < f.2 + 2)

/-- MARK_LEADER_CHANGE (R39): at a mark boundary the lowest-numbered quadrant out of reset that has followed for a mark
leads; with none, the timing unit's own copy runs on. -/
def execMarkLeaderChange (s : State) : Host.Outcome State Fault Refusal :=
  let q := ((List.range 4).find? (fun q => quadrantRuns s q && !stillFollows s q)).getD 4
  .next (boundary { s with time.leader := q, time.following := s.time.following.filter (fun f => lmc s < f.2 + 2) })

end Sys2Proof.Machine
end

