-- ==== Sys2Proof/Machine/Dispatch.lean ====
section
/-! DEFINITION. The dispatch of a command to its meaning: one arm per constructor. -/
namespace Sys2Proof.Machine

def exec (i : Instr) (s : State) : Host.Outcome State Fault Refusal :=
  match i with
  | .powerOnBoot a b => Sys2Proof.Machine.execPowerOnBoot a b s
  | .deviceResetInput pwrGood resetN => Sys2Proof.Machine.execDeviceResetInput pwrGood resetN s
  | .sysrefStop => Sys2Proof.Machine.execSysrefStop s
  | .linkrefStop q => Sys2Proof.Machine.execLinkrefStop q s
  | .ethrefStop n => Sys2Proof.Machine.execEthrefStop n s
  | .railFault rail => Sys2Proof.Machine.execRailFault rail s
  | .thermalTrip isStack unit temp => Sys2Proof.Machine.execThermalTrip isStack unit temp s
  | .throttleLevelRise q t => Sys2Proof.Machine.execThrottleLevelRise q t s
  | .throttleLevelFall q t => Sys2Proof.Machine.execThrottleLevelFall q t s
  | .refreshRateChange stack temp => Sys2Proof.Machine.execRefreshRateChange stack temp s
  | .smbusBlockRead code write => Sys2Proof.Machine.execSmbusBlockRead code write s
  | .kcpPacketReceived path info pkt => Sys2Proof.Machine.execKcpPacketReceived path info pkt s
  | .unknownOpcode c opcode => Sys2Proof.Machine.execUnknownOpcode c opcode s
  | .eventAcknowledgement path pkt => Sys2Proof.Machine.execEventAcknowledgement path pkt s
  | .eventResend session => Sys2Proof.Machine.execEventResend session s
  | .sessionIdleTimeout session => Sys2Proof.Machine.execSessionIdleTimeout session s
  | .sessionOpenTimeout session => Sys2Proof.Machine.execSessionOpenTimeout session s
  | .arpRequest port target mac => Sys2Proof.Machine.execArpRequest port target mac s
  | .neighbourSolicitation port target mac => Sys2Proof.Machine.execNeighbourSolicitation port target mac s
  | .ethFrameDiscard info => Sys2Proof.Machine.execEthFrameDiscard info s
  | .ptpMessage port m => Sys2Proof.Machine.execPtpMessage port m s
  | .swapFrame info f => Sys2Proof.Machine.execSwapFrame info f s
  | .nop c => Sys2Proof.Machine.execNop c s
  | .openSession path c => Sys2Proof.Machine.execOpenSession path c s
  | .closeSession c => Sys2Proof.Machine.execCloseSession c s
  | .readRegs c => Sys2Proof.Machine.execReadRegs c s
  | .writeRegs c => Sys2Proof.Machine.execWriteRegs c s
  | .registerWrite offset value mask => Sys2Proof.Machine.execRegisterWrite offset value mask s
  | .liveWriteApply offset lo => Sys2Proof.Machine.execLiveWriteApply offset lo s
  | .edgeWriteApply offset lo => Sys2Proof.Machine.execEdgeWriteApply offset lo s
  | .heldWriteApply offset lo => Sys2Proof.Machine.execHeldWriteApply offset lo s
  | .knotArm knot cfg => Sys2Proof.Machine.execKnotArm knot cfg s
  | .knotDisarm knot cfg => Sys2Proof.Machine.execKnotDisarm knot cfg s
  | .knotClear knot => Sys2Proof.Machine.execKnotClear knot s
  | .flipArmNextWrite strand => Sys2Proof.Machine.execFlipArmNextWrite strand s
  | .flipArmNextRead strand => Sys2Proof.Machine.execFlipArmNextRead strand s
  | .flipDisarm strand => Sys2Proof.Machine.execFlipDisarm strand s
  | .fbarDisable group => Sys2Proof.Machine.execFbarDisable group s
  | .endOfInterrupt core source => Sys2Proof.Machine.execEndOfInterrupt core source s
  | .discover c => Sys2Proof.Machine.execDiscover c s
  | .subscribeEvents c => Sys2Proof.Machine.execSubscribeEvents c s
  | .checkPower c temps => Sys2Proof.Machine.execCheckPower c temps s
  | .lockClocks c => Sys2Proof.Machine.execLockClocks c s
  | .trainStrands c => Sys2Proof.Machine.execTrainStrands c s
  | .strandPattern c => Sys2Proof.Machine.execStrandPattern c s
  | .runStartupTest c => Sys2Proof.Machine.execRunStartupTest c s
  | .loadImage c => Sys2Proof.Machine.execLoadImage c s
  | .commitImage c => Sys2Proof.Machine.execCommitImage c s
  | .resetScope c => Sys2Proof.Machine.execResetScope c s
  | .bindStrand c => Sys2Proof.Machine.execBindStrand c s
  | .bindEngine c => Sys2Proof.Machine.execBindEngine c s
  | .bindCoilWay c => Sys2Proof.Machine.execBindCoilWay c s
  | .bindPort c => Sys2Proof.Machine.execBindPort c s
  | .bindEid c => Sys2Proof.Machine.execBindEid c s
  | .bindKnots c => Sys2Proof.Machine.execBindKnots c s
  | .bindFaultQueue c => Sys2Proof.Machine.execBindFaultQueue c s
  | .bindStepComplete kind unit => Sys2Proof.Machine.execBindStepComplete kind unit s
  | .grantExtent c => Sys2Proof.Machine.execGrantExtent c s
  | .revokeExtent c => Sys2Proof.Machine.execRevokeExtent c s
  | .revokeDrainDeadline base => Sys2Proof.Machine.execRevokeDrainDeadline base s
  | .revokeFinalDeadline base => Sys2Proof.Machine.execRevokeFinalDeadline base s
  | .setSealed c => Sys2Proof.Machine.execSetSealed c s
  | .sealingEffective tenant => Sys2Proof.Machine.execSealingEffective tenant s
  | .unsealingEffective tenant => Sys2Proof.Machine.execUnsealingEffective tenant s
  | .enrollTenant c => Sys2Proof.Machine.execEnrollTenant c s
  | .readExtents c => Sys2Proof.Machine.execReadExtents c s
  | .setTableRoot c => Sys2Proof.Machine.execSetTableRoot c s
  | .invalidate c => Sys2Proof.Machine.execInvalidate c s
  | .pinTranslation c => Sys2Proof.Machine.execPinTranslation c s
  | .unpinTranslation c => Sys2Proof.Machine.execUnpinTranslation c s
  | .tableWalkComplete quadrant tenant tva => Sys2Proof.Machine.execTableWalkComplete quadrant tenant tva s
  | .faultPostedEvent queue => Sys2Proof.Machine.execFaultPostedEvent queue s
  | .faultRecordDrain queue => Sys2Proof.Machine.execFaultRecordDrain queue s
  | .faultRecordAllocate tenant => Sys2Proof.Machine.execFaultRecordAllocate tenant s
  | .resumeFault c => Sys2Proof.Machine.execResumeFault c s
  | .pageOut c => Sys2Proof.Machine.execPageOut c s
  | .pageIn c => Sys2Proof.Machine.execPageIn c s
  | .swapResendTimer transfer => Sys2Proof.Machine.execSwapResendTimer transfer s
  | .swapTransferTimeout transfer => Sys2Proof.Machine.execSwapTransferTimeout transfer s
  | .loadProgram c => Sys2Proof.Machine.execLoadProgram c s
  | .loadChain c => Sys2Proof.Machine.execLoadChain c s
  | .submit c => Sys2Proof.Machine.execSubmit c s
  | .cancel c => Sys2Proof.Machine.execCancel c s
  | .restart c => Sys2Proof.Machine.execRestart c s
  | .shareTakesContext core => Sys2Proof.Machine.execShareTakesContext core s
  | .tileTranslate core ctx => Sys2Proof.Machine.execTileTranslate core ctx s
  | .engineReadResponse core ctx k f => Sys2Proof.Machine.execEngineReadResponse core ctx k f s
  | .engineWriteAck core ctx => Sys2Proof.Machine.execEngineWriteAck core ctx s
  | .arithSliceEnd core badLine => Sys2Proof.Machine.execArithSliceEnd core badLine s
  | .scratchRecomputeComplete core ctx => Sys2Proof.Machine.execScratchRecomputeComplete core ctx s
  | .mergeListsReceived core ctx child => Sys2Proof.Machine.execMergeListsReceived core ctx child s
  | .engineBankSwitch core => Sys2Proof.Machine.execEngineBankSwitch core s
  | .knotRead c => Sys2Proof.Machine.execKnotRead c s
  | .knotSet c => Sys2Proof.Machine.execKnotSet c s
  | .configureBarrier c => Sys2Proof.Machine.execConfigureBarrier c s
  | .knotIncrement knot n => Sys2Proof.Machine.execKnotIncrement knot n s
  | .bightLineRise line => Sys2Proof.Machine.execBightLineRise line s
  | .gateTimeout core ctx => Sys2Proof.Machine.execGateTimeout core ctx s
  | .fbarArrival rx => Sys2Proof.Machine.execFbarArrival rx s
  | .fbarRelease rx => Sys2Proof.Machine.execFbarRelease rx s
  | .bringUpLink c => Sys2Proof.Machine.execBringUpLink c s
  | .retrainPort c => Sys2Proof.Machine.execRetrainPort c s
  | .setPortWidth c => Sys2Proof.Machine.execSetPortWidth c s
  | .runLoopback c => Sys2Proof.Machine.execRunLoopback c s
  | .runPrbs c => Sys2Proof.Machine.execRunPrbs c s
  | .prbsTestEnd lane received => Sys2Proof.Machine.execPrbsTestEnd lane received s
  | .loopbackTestEnd lane received => Sys2Proof.Machine.execLoopbackTestEnd lane received s
  | .codewordLockAcquired lane => Sys2Proof.Machine.execCodewordLockAcquired lane s
  | .codewordLockLost lane => Sys2Proof.Machine.execCodewordLockLost lane s
  | .blockLockAcquired lane => Sys2Proof.Machine.execBlockLockAcquired lane s
  | .blockLockLost lane => Sys2Proof.Machine.execBlockLockLost lane s
  | .markerBlock lane w place decoded => Sys2Proof.Machine.execMarkerBlock lane w place decoded s
  | .trainBlockReceived lane w eyeOpen wants => Sys2Proof.Machine.execTrainBlockReceived lane w eyeOpen wants s
  | .verifyEnd port => Sys2Proof.Machine.execVerifyEnd port s
  | .trainPhaseTimeout port => Sys2Proof.Machine.execTrainPhaseTimeout port s
  | .rateStep port => Sys2Proof.Machine.execRateStep port s
  | .autoRetrain port => Sys2Proof.Machine.execAutoRetrain port s
  | .changeBlock port w own => Sys2Proof.Machine.execChangeBlock port w own s
  | .changeAnswerTimeout port => Sys2Proof.Machine.execChangeAnswerTimeout port s
  | .changeBackoff port => Sys2Proof.Machine.execChangeBackoff port s
  | .newLanesTimeout port => Sys2Proof.Machine.execNewLanesTimeout port s
  | .widthSwitch port => Sys2Proof.Machine.execWidthSwitch port s
  | .loopBlock lane w => Sys2Proof.Machine.execLoopBlock lane w s
  | .badFlit port => Sys2Proof.Machine.execBadFlit port s
  | .sequencedFlit port blocks => Sys2Proof.Machine.execSequencedFlit port blocks s
  | .linkCtlFlit port m => Sys2Proof.Machine.execLinkCtlFlit port m s
  | .abortFlit port seq => Sys2Proof.Machine.execAbortFlit port seq s
  | .nakWaitExpiry port => Sys2Proof.Machine.execNakWaitExpiry port s
  | .ackInterval port => Sys2Proof.Machine.execAckInterval port s
  | .ackKeepalive port => Sys2Proof.Machine.execAckKeepalive port s
  | .ackTimeout port => Sys2Proof.Machine.execAckTimeout port s
  | .linkSilence port => Sys2Proof.Machine.execLinkSilence port s
  | .transmitFlit port => Sys2Proof.Machine.execTransmitFlit port s
  | .creditNullPacket port => Sys2Proof.Machine.execCreditNullPacket port s
  | .timingBlockReceived port w inBadCodeword => Sys2Proof.Machine.execTimingBlockReceived port w inBadCodeword s
  | .timingBlockTransmit port => Sys2Proof.Machine.execTimingBlockTransmit port s
  | .holdoverEntry => Sys2Proof.Machine.execHoldoverEntry s
  | .holdoverExpiry => Sys2Proof.Machine.execHoldoverExpiry s
  | .timeStateChange => Sys2Proof.Machine.execTimeStateChange s
  | .admissionWindowBoundary => Sys2Proof.Machine.execAdmissionWindowBoundary s
  | .markLeaderChange => Sys2Proof.Machine.execMarkLeaderChange s
  | .load rx => Sys2Proof.Machine.execLoad rx s
  | .readShared rx => Sys2Proof.Machine.execReadShared rx s
  | .readOwn rx => Sys2Proof.Machine.execReadOwn rx s
  | .store rx => Sys2Proof.Machine.execStore rx s
  | .storeMasked rx => Sys2Proof.Machine.execStoreMasked rx s
  | .writeback rx => Sys2Proof.Machine.execWriteback rx s
  | .evictClean rx => Sys2Proof.Machine.execEvictClean rx s
  | .atomic rx => Sys2Proof.Machine.execAtomic rx s
  | .bulkCopy rx => Sys2Proof.Machine.execBulkCopy rx s
  | .signal rx => Sys2Proof.Machine.execSignal rx s
  | .grantAck rx => Sys2Proof.Machine.execGrantAck rx s
  | .snpAck rx => Sys2Proof.Machine.execSnpAck rx s
  | .snpData rx => Sys2Proof.Machine.execSnpData rx s
  | .data rx => Sys2Proof.Machine.execData rx s
  | .completion rx => Sys2Proof.Machine.execCompletion rx s
  | .homeRequestResume line upset => Sys2Proof.Machine.execHomeRequestResume line upset s
  | .snoopTimeout line eid => Sys2Proof.Machine.execSnoopTimeout line eid s
  | .grantAckTimeout line => Sys2Proof.Machine.execGrantAckTimeout line s
  | .idemRecordExpiry quadrant eid tag => Sys2Proof.Machine.execIdemRecordExpiry quadrant eid tag s
  | .lineFetchComplete line f => Sys2Proof.Machine.execLineFetchComplete line f s
  | .packetSwitched rx => Sys2Proof.Machine.execPacketSwitched rx s
  | .mcastReplicate rx => Sys2Proof.Machine.execMcastReplicate rx s
  | .fwdRecordTimeout port src tag => Sys2Proof.Machine.execFwdRecordTimeout port src tag s
  | .mcastAckTimeout tag => Sys2Proof.Machine.execMcastAckTimeout tag s
  | .loadRoutes c => Sys2Proof.Machine.execLoadRoutes c s
  | .flipRouteEpoch c => Sys2Proof.Machine.execFlipRouteEpoch c s
  | .routeEpochFlipApply => Sys2Proof.Machine.execRouteEpochFlipApply s
  | .routeDrained => Sys2Proof.Machine.execRouteDrained s
  | .setMcastGroup c => Sys2Proof.Machine.execSetMcastGroup c s
  | .readCongestionMap c => Sys2Proof.Machine.execReadCongestionMap c s
  | .congestionMapLatch => Sys2Proof.Machine.execCongestionMapLatch s
  | .refreshCommand strand bank => Sys2Proof.Machine.execRefreshCommand strand bank s
  | .refreshWindowStart strand bank => Sys2Proof.Machine.execRefreshWindowStart strand bank s
  | .neighbourRefresh strand bank row => Sys2Proof.Machine.execNeighbourRefresh strand bank row s
  | .scrubRead strand f => Sys2Proof.Machine.execScrubRead strand f s
  | .getAttestation c => Sys2Proof.Machine.execGetAttestation c s
  | .sealExtent c => Sys2Proof.Machine.execSealExtent c s
  | .sealHashComplete base => Sys2Proof.Machine.execSealHashComplete base s
  | .loadExtension c => Sys2Proof.Machine.execLoadExtension c s
  | .setPortKey c => Sys2Proof.Machine.execSetPortKey c s
  | .rngHealthFail => Sys2Proof.Machine.execRngHealthFail s
  | .measurementStoreFault => Sys2Proof.Machine.execMeasurementStoreFault s
  | .readErrors c => Sys2Proof.Machine.execReadErrors c s
  | .clearFirstError c => Sys2Proof.Machine.execClearFirstError c s
  | .interruptDelivery source => Sys2Proof.Machine.execInterruptDelivery source s
  | .readCounters c => Sys2Proof.Machine.execReadCounters c s
  | .readTrace c => Sys2Proof.Machine.execReadTrace c s
  | .readAudit c => Sys2Proof.Machine.execReadAudit c s
  | .auditDiscrepancy kind unit vc => Sys2Proof.Machine.execAuditDiscrepancy kind unit vc s
  | .haltAtMark c => Sys2Proof.Machine.execHaltAtMark c s
  | .haltMarkReached => Sys2Proof.Machine.execHaltMarkReached s
  | .landingClose => Sys2Proof.Machine.execLandingClose s
  | .resume c => Sys2Proof.Machine.execResume c s
  | .resumeAtMark => Sys2Proof.Machine.execResumeAtMark s
  | .forceFailover c => Sys2Proof.Machine.execForceFailover c s
  | .readHealth c => Sys2Proof.Machine.execReadHealth c s
  | .heartbeatSend => Sys2Proof.Machine.execHeartbeatSend s
  | .heartbeatReceived core path => Sys2Proof.Machine.execHeartbeatReceived core path s
  | .heartbeatPathSilent core path => Sys2Proof.Machine.execHeartbeatPathSilent core path s
  | .failoverTakeover => Sys2Proof.Machine.execFailoverTakeover s
  | .fenceClose => Sys2Proof.Machine.execFenceClose s
  | .standbySelftest passed => Sys2Proof.Machine.execStandbySelftest passed s
  | .controlStall => Sys2Proof.Machine.execControlStall s
  | .imageStartFrame core => Sys2Proof.Machine.execImageStartFrame core s
  | .imageChunkFrame f => Sys2Proof.Machine.execImageChunkFrame f s
  | .imageEndFrame core => Sys2Proof.Machine.execImageEndFrame core s
  | .imageBitmapReceived core missing => Sys2Proof.Machine.execImageBitmapReceived core missing s
  | .imageConfirm core => Sys2Proof.Machine.execImageConfirm core s
  | .imageBitmapTimeout core => Sys2Proof.Machine.execImageBitmapTimeout core s
  | .imageLoadDeadline => Sys2Proof.Machine.execImageLoadDeadline s
  | .rehomeComplete core passed => Sys2Proof.Machine.execRehomeComplete core passed s
  | .resetSettled scope target => Sys2Proof.Machine.execResetSettled scope target s
  | .resetRestored scope target failed => Sys2Proof.Machine.execResetRestored scope target failed s
  | .deviceScopeReset => Sys2Proof.Machine.execDeviceScopeReset s
  | .clocksLocked locked => Sys2Proof.Machine.execClocksLocked locked s
  | .strandsTrained failed => Sys2Proof.Machine.execStrandsTrained failed s
  | .strandPatternComplete damage other spareDamage spareOther => Sys2Proof.Machine.execStrandPatternComplete damage other spareDamage spareOther s
  | .startupTestComplete found => Sys2Proof.Machine.execStartupTestComplete found s
  | .rngHealthPass => Sys2Proof.Machine.execRngHealthPass s
  | .strandSliceFault strand => Sys2Proof.Machine.execStrandSliceFault strand s
  | .engineLogicFault core => Sys2Proof.Machine.execEngineLogicFault core s
  | .switchLogicFault quadrant => Sys2Proof.Machine.execSwitchLogicFault quadrant s
  | .controlMeshFault => Sys2Proof.Machine.execControlMeshFault s

end Sys2Proof.Machine
end

