-- ==== Sys2Proof/Safety.lean ====
section
/-! DEFINITION. The terms in which the claims are made: when a KCP command runs, what a reply to it is, the invariant of
the block, and what a device reset leaves. -/
namespace Sys2Proof.Machine

/-- A KCP command is taken and nothing turns it away (R101 to R107, R117, R119): the device serves, the session is known,
the number is neither applied nor beyond the window, its predecessors are done where it is ordered, it is its tenant's
turn, and no refusal that comes before the command's own checks holds. -/
def Runs (op : Nat) (c : Cmd) (s : State) : Prop :=
  serving s = true ∧ ∃ ss, sessionOf s c.session = some ss ∧ wasApplied ss c.seq = false ∧ c.seq ≤ ss.base + 63 ∧
    (c.unordered = true ∨ orderedReady s ss c.seq = true) ∧ ringTurn s c.session c.seq ss.tenant = true ∧
    refusal s ss op c.tenant = none

/-- A KCP command that replies at once: `t` is the state it leaves before the reply, `st` the status, `res` the results. -/
def RepliesWith (op : Nat) (c : Cmd) (st : Nat) (res : List Byte) (t : State) (o : Host.Outcome State Fault Refusal) :
    Prop := ∃ echo, o = .next (answer op c echo (.done st res) t)

/-- A KCP command whose reply is owed: `t` is the state it leaves and `w` what it waits for. -/
def Waits (op : Nat) (c : Cmd) (w : Wait) (t : State) (o : Host.Outcome State Fault Refusal) : Prop :=
  ∃ echo, o = .next (answer op c echo (.later w) t)

/-- A KCP packet reaches the receive hardware in a form that R91, R95 and R135 let through to the session: on an
Ethernet port that is up, in a sound frame to one of its addresses and its KCP port with the reserved tag; on a link, by
a port that carries its source EID. -/
def Reaches (path : Path) (info : Option EthInfo) (p : KcpPkt) (s : State) : Prop :=
  serving s = true ∧ wellFormedKcp p = true ∧ ¬(p.opcode = 2 ∧ p.type = 0 ∧ p.session = 0) ∧
    match path, info with
    | .eth port _ _ _, some i => i.port = port ∧ ethUp s port = true ∧ frameSound i = true ∧ addressed s i = true ∧
        i.dstUdp = kcpUdpPort s port ∧ rightTag s i = true
    | .eth port _ _ _, none => ethUp s port = true
    | .link port e, none => linkCarries s port e = true
    | .link _ _, some _ => False

/-- What a verified packet does before it is sorted (R89, R100, R122): the port's source fires, and its session takes the
packet's path. -/
def heard (path : Path) (p : KcpPkt) (s : State) : State :=
  verified path p (match path with
    | .eth port _ _ _ => fire (if port = 0 then 42 else 554) s
    | .link _ _ => s)

/-- A packet as its port has stamped it (R382), and the state at its port then. -/
def atPort (rx : RxPkt) (s : State) : RxPkt := (stamped rx s).1
def afterPort (rx : RxPkt) (s : State) : State := (arrive (atPort rx s) (stamped rx s).2).2

/-- A packet for this device that its port lets through (R135, R507): `a` is what was settled about it at its arrival. -/
def Enters (rx : RxPkt) (a : Arrival) (s : State) : Prop :=
  serving s = true ∧ receivable s rx = true ∧ frozen s = false ∧ arrivalOf (stamped rx s).2 (atPort rx s) = a ∧
    a.carried = true ∧ isOwnEid s rx.hdr.dst = true

/-- The state in which a packet has been taken up at its port and has left its receive buffer. -/
def takenUp (rx : RxPkt) (s : State) : State := takeArrived (atPort rx s) (afterPort rx s)

/-- A request for this device is accepted (R36, R135, R196, R363, R371, R390): it enters, is well formed, it is its turn to cross
the network to its home, and it holds an entry of its window, or needs none. `s'` is the state that then holds: the packet
has left its buffer, has crossed and is counted. -/
def Accepted (rx : RxPkt) (a : Arrival) (pair : Option Nat) (s s' : State) : Prop :=
  Enters rx a s ∧ malformed (atPort rx s).hdr = false ∧ rx.hdr.mcast = false ∧
    networkTurn (afterPort rx s) (atPort rx s) a = true ∧
    window (atPort rx s) (bump a.tenant 0 1 (takeArrived (atPort rx s) (crossed (atPort rx s) a (afterPort rx s)))) = .held pair s'

/-- The physical address that a request's address means (R198): its own FABRIC_ADDR, or the translation that the cache of
its port's quadrant holds for its tenant. -/
def Means (rx : RxPkt) (tenant : Nat) (s : State) (ppa : Nat) : Prop :=
  (rx.hdr.atype = 1 ∧ fabricOk s rx.hdr.addr (requestLines rx) = true ∧ ppa = rx.hdr.addr % 2 ^ 41) ∨
  (rx.hdr.atype ≠ 1 ∧ ∃ x, cachedLeaf s (portQuadrant rx.port) tenant (rx.hdr.addr % 2 ^ 57)
      (translatesAsWrite rx.hdr.code) = some x ∧ ppa = leafPpa x (rx.hdr.addr % 2 ^ 57))

/-- A packet with another code: what a command's row says the packet's code is. -/
def withCode (code : Nat) (rx : RxPkt) : RxPkt := { rx with hdr := { rx.hdr with code := code } }

/-- The packet that a command of a row's code puts to its home. -/
def asTaken (code : Nat) (rx : RxPkt) (s : State) : RxPkt := atPort (withCode code rx) s

/-- Nothing of the block falls due at the next mark: no command ends at it, no partition reset and no discrepancy is due, and no
slice owes or claims a refresh (R407, R410, R495). -/
def Still (s : State) : Prop :=
  (∀ r ∈ s.kcp.running, r.wait ≠ .load 0 ∧ r.wait ≠ .load 1) ∧ s.err.partitionDue = [] ∧ auditNow s = [] ∧
  s.coh.claims = [] ∧ (∀ e ∈ s.mem.strands, ∀ b ∈ e.2.banks, b.2.lag = 0 ∧ b.2.waiting = [])

/-- The invariant of the block: the pool and the coil keep their canonical form, one core of the pair is active (R497),
the stage is one of R458's, and no loaded credential stands in the operator's fused slot (R444). -/
def Inv (s : State) : Prop :=
  Memory.wf s.mem = true ∧ s.pair.active < 2 ∧ s.boot.stage ≤ 6 ∧ tget none s.sec.creds 0 = none

/-- What a device reset leaves (R14, R138): every register and every block at its reset value, no stored line and no
strand key; the levels of the pins and the defect list in flash stay. -/
def ResetLeaves (s t : State) : Prop :=
  t.fields = [] ∧ t.waiting = [] ∧ t.time = {} ∧ t.kcp = {} ∧ t.bind = {} ∧ t.xlat = {} ∧ t.coh = {} ∧ t.eng = {} ∧
  t.belay = {} ∧ t.link = {} ∧ t.sw = {} ∧ t.pair = {} ∧ t.halt = {} ∧ t.ctr = {} ∧ t.intc = {} ∧ t.mem.lines = [] ∧
  t.mem.coil = [] ∧ (∀ e ∈ t.mem.strands, e.2.keyed = false) ∧ t.boot.stage = 0 ∧ t.boot.inRom = true ∧
  t.boot.startCount = s.boot.startCount ∧ t.boot.defects = s.boot.defects ∧ t.out = s.out ∧ t.pending = s.pending

end Sys2Proof.Machine
end

