-- ==== Sys2Proof/Certificates/Slice0/Obligations.lean ====
section
/-! DEFINITION. The statements for the provers: what the block and its commands do, in the terms of Safety.lean. -/
open Sys2Proof Sys2Proof.Machine

/-! ### The block as a whole -/

/-- A step at a non-empty queue runs the command at its front on the state with the queue's rest. -/
def Obligations.StepRunsFrontCommand : Prop :=
  ∀ (c : Instr) (s : State), step { s with pending := c :: s.pending } = exec c s

/-- The model's choice (log entries 1 and 78): on an empty queue one mark passes. What the device has changed shows in the
read-only LIVE fields (R15). Where no partition reset has fallen due and every invariant of R495 holds at the mark, LMC rises by
one, FMT runs on (R52), and a LOAD_ROUTES that runs ends; and while none runs and no slice owes a refresh (`Still`) nothing
changes but the clocks, the sampled congestion counts and what the audit remembers of the last mark. A device held in reset stands
still. -/
def Obligations.EmptyQueuePassesOneMark : Prop :=
  ∀ s : State, s.pending = [] →
    (heldInReset s = true → step s = .next s) ∧
    (heldInReset s = false → ∃ t, step s = .next t ∧ t = boundary t ∧
      ((marked s).err.partitionDue = [] → auditNow (marked s) = [] →
        t.time.lmc = s.time.lmc + 1 ∧
        t.time.pos = s.time.pos + (if s.time.slow then 65536 else (66560 + s.time.trim).toNat) ∧
        t.time.stopped = s.time.stopped + (if stopped s then 1 else 0) ∧
        (∀ r ∈ t.kcp.running, r.wait ≠ .load 0 ∧ r.wait ≠ .load 1)) ∧
      (Still s → { t with time := s.time, sw := { t.sw with cong := s.sw.cong }, shown := s.shown,
                          err := { t.err with audited := s.err.audited, auditDone := s.err.auditDone } } = s))

/-- What the spec gives of the state after device reset: LMC at zero, time UNSET, stage 0 in the ROM, no session and
no unit bound, nothing stored, local flags clear, no stop, and every strand keyless in self-refresh. -/
def Obligations.ResetLeavesTheSpecsValues : Prop :=
  lmc State.reset = 0 ∧ State.reset.time.st = .unset ∧ State.reset.boot.stage = 0 ∧ State.reset.boot.inRom = true ∧
  State.reset.kcp.sessions = [] ∧ (∀ k u, (bindEnt State.reset k u).st = .unbound) ∧ State.reset.mem.lines = [] ∧
  (∀ st, (strandOf State.reset st).keyed = false ∧ (strandOf State.reset st).power = .selfRefresh) ∧
  (∀ k, knotOf State.reset k = { count := 0, armed := false, target := 1 }) ∧
  (∀ c, (tget {} State.reset.eng.cores c).flags = 0) ∧ State.reset.halt.st = .running ∧
  (∀ p, (portOf State.reset p).phase = .off) ∧ State.reset.pending = []

/-- The invariant holds after reset. -/
def Obligations.ResetIsSafe : Prop := Inv State.reset

/-- Every step keeps the invariant: the pool and the coil keep their canonical form, one core of the pair stays active, the
stage stays one of R458's, and nothing takes the place of the operator's fused credential. -/
def Obligations.StepKeepsTheInvariant : Prop :=
  ∀ s t : State, Inv s → step s = .next t → Inv t

/-! ### The board: reset, boot, rails, clocks, temperatures -/

/-- DEVICE_RESET_INPUT with a low pin, SYSREF_STOP, and DEVICE_SCOPE_RESET when it is due: everything takes its reset value,
and what is in flash stays. With both pins high and no change of level nothing changes. -/
def ClaimDeviceResetClearsEverything : Prop :=
  (∀ (p r : Bool) (s : State), (p && r) = false → ∃ t, exec (.deviceResetInput p r) s = .next t ∧ ResetLeaves s t ∧
    heldInReset t = true) ∧
  (∀ s : State, ∃ t, exec .sysrefStop s = .next t ∧ ResetLeaves s t ∧ heldInReset t = true) ∧
  (∀ (s : State) (m : Nat), s.boot.deviceResetAt = some m → m ≤ lmc s →
    ∃ t, exec .deviceScopeReset s = .next t ∧ ResetLeaves s t ∧ t.boot.deviceResetAt = none) ∧
  (∀ s : State, s.boot.pwrGood = true → s.boot.resetN = true → exec (.deviceResetInput true true) s = .next s)

/-- POWER_ON_BOOT (R431, R432, R456): with the control rails in range the ROM verifies both stages of copy A under the key whose
digest it holds; it leaves for stage 1 with copy A, or with copy B where A fails, with the digests of what it verified
recorded; with both failed it stays in the ROM. -/
def ClaimRomBootsAGoodCopy : Prop :=
  ∀ (a b : FlashCopy) (s : State), heldInReset s = false → s.boot.inRom = true → s.boot.aFailed = false →
    bit s.pwr.railsOk 4 = true → bit s.pwr.railsOk 27 = true →
    (copyVerifies a = true → ∃ t, exec (.powerOnBoot a b) s = .next t ∧ t.boot.stage = 1 ∧
      t.boot.inRom = false ∧ t.boot.slot = 0 ∧ t.sec.bootDigest = sm3 a.bootImage ∧ t.sec.controlDigest = sm3 a.controlImage ∧
      t.sec.controlVersion = a.version ∧ t.fields = s.fields ∧ t.mem = s.mem) ∧
    (copyVerifies a = false → copyVerifies b = true → ∃ t, exec (.powerOnBoot a b) s = .next t ∧
      t.boot.stage = 1 ∧ t.boot.inRom = false ∧ t.boot.slot = 1 ∧ t.boot.aFailed = true ∧
      t.sec.bootDigest = sm3 b.bootImage ∧ t.sec.controlDigest = sm3 b.controlImage ∧ t.fields = s.fields ∧ t.mem = s.mem) ∧
    (copyVerifies a = false → copyVerifies b = false → ∃ t, exec (.powerOnBoot a b) s = .next t ∧ t.boot.aFailed = true ∧
      t.boot.bFailed = true ∧ t.boot.inRom = true ∧ t.boot.stage = s.boot.stage ∧
      t.sec.bootDigest = (if bootVerifies b then sm3 b.bootImage else if bootVerifies a then sm3 a.bootImage else s.sec.bootDigest) ∧
      t.sec.controlDigest = s.sec.controlDigest ∧ { t with sec := s.sec, boot := s.boot } = s)

/-- Device reset clears everything, and the ROM boots a good copy of the control firmware. -/
def Obligations.DeviceResetAndBoot : Prop :=
  ClaimDeviceResetClearsEverything ∧ ClaimRomBootsAGoodCopy

/-- RAIL_FAULT of VDD_CORE_CTL or VDD_IO is a device reset at once; of VDD_ETHn it takes Ethernet port n down; of a rail of a
quadrant it is the quadrant's fault 8.5. ETHREF_STOP takes port n down; LINKREF_STOP takes the locks of every lane of
the quadrant and loses its ports. -/
def Obligations.RailsAndClocksThatFail : Prop :=
  (∀ (r : Nat) (s : State), bit s.pwr.railsOk r = true → (r = 4 ∨ r = 27) →
    ∃ t, exec (.railFault r) s = .next t ∧ ResetLeaves s t ∧ t.pwr.railsOk = s.pwr.railsOk - 2 ^ r) ∧
  (∀ (r : Nat) (s : State), bit s.pwr.railsOk r = true → serving s = true → (r = 25 ∨ r = 26) →
    ∃ t, exec (.railFault r) s = .next t ∧ t.kcp.ethDown.contains (r - 25) = true ∧ t.mem = s.mem) ∧
  (∀ (r : Nat) (s : State), r < 28 → bit s.pwr.railsOk r = true → serving s = true → r ≠ 4 → r ≠ 25 → r ≠ 26 → r ≠ 27 →
    exec (.railFault r) s =
      .next (quadrantFault 8 5 (railQuadrant r) r { s with pwr.railsOk := s.pwr.railsOk - 2 ^ r })) ∧
  (∀ (n : Nat) (s : State), n < 2 → ∃ t, exec (.ethrefStop n) s = .next t ∧ t.kcp.ethDown.contains n = true ∧
    { t with kcp := { t.kcp with ethDown := s.kcp.ethDown } } = s) ∧
  (∀ (q : Nat) (s : State), q < 4 → lanesRun s = true →
    exec (.linkrefStop q) s = .next (settleHome (((List.range 24).map (24 * q + ·)).foldl (fun s p => linkLost p true s)
      ((((List.range 48).map (48 * q + ·)).filter (fun l => (laneState s l).cwLock || (laneState s l).blockLock)).foldl
        (fun s l => lockLost l (fun x => { x with cwLock := false, blockLock := false }) s) s))))

/-- THERMAL_TRIP at its threshold takes rung 4 and asserts the trip and the alert; THROTTLE_LEVEL_RISE and _FALL move a
quadrant's level by one between 0 and 3 when what they report reaches the limits and the level has stood long enough;
REFRESH_RATE_CHANGE above 85 °C doubles the refresh of every strand of the stack. -/
def Obligations.TemperaturesAndThrottling : Prop :=
  (∀ (k : Bool) (u temp : Nat) (s : State), s.boot.pwrGood = true → s.pwr.thermTrip = false →
    (if k then 105 else 115) ≤ temp → ∃ t, exec (.thermalTrip k u temp) s = .next t ∧ t.err.fatal = true ∧
      t.pwr.thermTrip = true ∧ t.pwr.alert = true ∧ t.mem = s.mem) ∧
  (∀ (q : Nat) (x : Thermal) (s : State), q < 4 → heldInReset s = false → throttleLevel s q < 3 →
    tget 0 s.pwr.levelAt q + 16 ≤ lmc s →
    (throttleC s ≤ x.die ∨ stackThrottleC s ≤ x.stack ∨ currentLimit s ≤ x.amps) →
    ∃ t, exec (.throttleLevelRise (some q) x) s = .next t ∧ throttleLevel t q = throttleLevel s q + 1 ∧
      tget 0 t.pwr.levelAt q = lmc s ∧ (∀ k, k ≠ q → throttleLevel t k = throttleLevel s k) ∧ { t with pwr := s.pwr } = s) ∧
  (∀ (x : Thermal) (s : State), heldInReset s = false → 1180 ≤ x.amps →
    (∀ q < 4, throttleLevel s q < 3 ∧ tget 0 s.pwr.levelAt q + 16 ≤ lmc s) →
    ∃ t, exec (.throttleLevelRise none x) s = .next t ∧ (∀ q < 4, throttleLevel t q = throttleLevel s q + 1) ∧
      { t with pwr := s.pwr } = s) ∧
  (∀ (q : Nat) (x : Thermal) (s : State), q < 4 → heldInReset s = false → throttleLevel s q ≠ 0 →
    tget 0 s.pwr.levelAt q + 1024 ≤ lmc s → x.die + 5 ≤ throttleC s → x.stack + 5 ≤ stackThrottleC s →
    x.amps + 20 ≤ currentLimit s →
    ∃ t, exec (.throttleLevelFall q x) s = .next t ∧ throttleLevel t q = throttleLevel s q - 1 ∧
      (∀ k, k ≠ q → throttleLevel t k = throttleLevel s k) ∧ { t with pwr := s.pwr } = s) ∧
  (∀ (k temp : Nat) (s : State), k < 16 → 85 < temp → heldInReset s = false →
    ∃ t, exec (.refreshRateChange k temp) s = .next t ∧ tget 0 t.mem.temp k = min 255 temp ∧
      (∀ i < 32, (strandOf t (32 * k + i)).hot = true) ∧ t.mem.lines = s.mem.lines)

/-- SMBUS_BLOCK_READ: from PWR_GOOD on a write and every code that names no register is a NACK; in the ROM a code that names
a register other than DEV_ID, BOOT_STATUS and RAIL_STATUS reads zero. Nothing but the answer changes. -/
def Obligations.SmbusAnswers : Prop :=
  (∀ (code : Nat) (w : Bool) (s : State), s.boot.pwrGood = true → (w = true ∨ smbusRegister s code = none) →
    exec (.smbusBlockRead code w) s = .next (emit .smbusNack s)) ∧
  (∀ (code off : Nat) (s : State), s.boot.pwrGood = true → smbusRegister s code = some off → s.boot.inRom = true →
    code ≠ 0 → code ≠ 1 → code ≠ 4 → exec (.smbusBlockRead code false) s = .next (emit (.smbus 0) s)) ∧
  (∀ (code off i : Nat) (f : RegFam) (s : State), s.boot.pwrGood = true → smbusRegister s code = some off →
    (s.boot.inRom = false ∨ code = 0 ∨ code = 1 ∨ code = 4) → locate off = some (f, i) →
    exec (.smbusBlockRead code false) s = .next (emit (.smbus (regWord s 0 f i off)) s)) ∧
  (∀ (code : Nat) (s : State), (smbusRegister s code).isSome = true ↔ (code ≤ 8 ∨ (0x10 ≤ code ∧ code ≤ 0x2F)))

/-! ### Keakin packets, sessions and events -/

/-- A new number of a session that verifies is placed on the ring, parked where its predecessors are not done, and its
session takes the packet's path; nothing of it has run. -/
def Obligations.VerifiedCommandIsPlaced : Prop :=
  ∀ (path : Path) (info : Option EthInfo) (p : KcpPkt) (s : State) (ss : Session), Reaches path info p s →
    sessionOf s p.session = some ss → p.tag = tagOf ss.tagKey p → p.type = 0 → wasApplied ss p.seq = false →
    p.seq ≤ ss.base + 63 → s.kcp.ring.any (fun e => e.pkt.session == ss.id && e.pkt.seq == p.seq) = false →
    ringHeld s ss.tenant < ringLimit ss.tenant →
    (p.unordered = true ∨ orderedReady s ss p.seq = true ∨ parkedOf s ss.id < 16) →
    ∃ t, exec (.kcpPacketReceived path info p) s = .next t ∧
      t.kcp.ring = s.kcp.ring ++ [RingEntry.mk path p ss.tenant
        (!(p.unordered || orderedReady s ss p.seq))] ∧
      (∃ x, sessionOf t p.session = some x ∧ x.path = path ∧ x.isOpen = true ∧ x.base = ss.base ∧
        x.applied = ss.applied ∧ x.replies = ss.replies) ∧
      t.mem = s.mem ∧ t.bind = s.bind ∧ t.eng = s.eng

/-- R102: a duplicate of an applied number gets its reply again where it is among the session's last 64, BUSY while it runs,
and nothing otherwise; a duplicate of a number that waits on the ring gets BUSY and is not placed again. -/
def Obligations.DuplicatesNeverRunAgain : Prop :=
  ∀ (path : Path) (info : Option EthInfo) (p : KcpPkt) (s : State) (ss : Session), Reaches path info p s →
    sessionOf s p.session = some ss → p.tag = tagOf ss.tagKey p → p.type = 0 →
    (∀ r, wasApplied ss p.seq = true → ss.replies.find? (fun r => r.1 == p.seq) = some r →
      exec (.kcpPacketReceived path info p) s = .next (sendKcp path r.2 (heard path p s))) ∧
    (wasApplied ss p.seq = true → ss.replies.find? (fun r => r.1 == p.seq) = none →
      s.kcp.running.any (fun r => r.session == ss.id && r.seq == p.seq) = true →
      exec (.kcpPacketReceived path info p) s =
        .next (reply ss.id p.tenant p.seq p.opcode false (le 4 stBUSY) (heard path p s))) ∧
    (wasApplied ss p.seq = true → ss.replies.find? (fun r => r.1 == p.seq) = none →
      s.kcp.running.any (fun r => r.session == ss.id && r.seq == p.seq) = false →
      exec (.kcpPacketReceived path info p) s = .next (heard path p s)) ∧
    (wasApplied ss p.seq = false →
      s.kcp.ring.any (fun e => e.pkt.session == ss.id && e.pkt.seq == p.seq) = true →
      exec (.kcpPacketReceived path info p) s =
        .next (reply ss.id p.tenant p.seq p.opcode false (le 4 stBUSY) (heard path p s)))

/-- A command that is turned away before its own checks (R96, R101, R107, R119) takes no effect but its number and its
reply; the numbers of a session that were applied never run again, whatever the command. -/
def Obligations.RefusedCommandsTakeNoEffect : Prop :=
  ∀ (op st : Nat) (c : Cmd) (echo : List Byte) (body : State → Answer × State) (s : State) (ss : Session),
    serving s = true → sessionOf s c.session = some ss →
    (wasApplied ss c.seq = true → kcpTake op c echo body s = ringDrop c.session c.seq s) ∧
    (wasApplied ss c.seq = false → c.seq ≤ ss.base + 63 → (c.unordered = true ∨ orderedReady s ss c.seq = true) →
      ringTurn s c.session c.seq ss.tenant = true → refusal s ss op c.tenant = some st →
      kcpTake op c echo body s = answer op c echo (.done st []) (takeNumber c s))

/-- An acknowledgement frees the events up to its number (R122), and changes nothing else of the session but its path and
its idle time; EVENT_RESEND sends the oldest one again when its interval is over. -/
def Obligations.EventsAreHeldUntilAcknowledged : Prop :=
  (∀ (path : Path) (p : KcpPkt) (s : State) (ss : Session), Reaches path none { p with type := 3 } s →
    sessionOf s p.session = some ss → p.tag = tagOf ss.tagKey { p with type := 3 } →
    ∃ t, exec (.eventAcknowledgement path p) s = .next t ∧ t.kcp.ring = s.kcp.ring ∧ t.out = s.out ∧
      (∃ x, sessionOf t p.session = some x ∧ x.unacked = ss.unacked.filter (fun q => p.seq < q.seq) ∧
        { x with unacked := ss.unacked, path := ss.path, lastAt := ss.lastAt } = ss)) ∧
  (∀ (id : Nat) (s : State) (ss : Session) (p : KcpPkt) (l : List KcpPkt), sessionOf s id = some ss →
    ss.unacked = p :: l → ss.resendAt + eventResendMarks s ≤ lmc s →
    exec (.eventResend id) s = .next (modSession id (fun x => { x with resendAt := lmc s }) (sendKcp ss.path p s)))

/-- OPEN_SESSION with session 0 (R96) in its turn (R107) with a usable credential adds one session, not yet open, under a fresh
ID, and answers on the path the command came on, with session 0 and no tag. -/
def ClaimOpenSessionAddsASession : Prop :=
  ∀ (path : Path) (c : Cmd) (s : State) (key : Nat), serving s = true → s.err.fatal = false → s.sec.rngOk = true →
    s.kcp.sessions.countP (fun x => x.tenant == c.tenant % 32) < sessionSlots (c.tenant % 32) →
    credential s (c.tenant % 32) (min 3 (pnum c.params 0 1)) = some key → onCurve (pnum c.params 4 64) = true →
    c.session = 0 → turnOf s (openEntry path c) (c.tenant % 32) = true →
    ∃ t x p, exec (.openSession path c) s = .next t ∧ t.kcp.sessions = s.kcp.sessions ++ [x] ∧
      x.id = freshId s.kcp.usedIds (s.kcp.usedIds.length + 2) (Config.free s.draws % 2 ^ 32) ∧
      x.tenant = c.tenant % 32 ∧ x.cred = min 3 (pnum c.params 0 1) ∧ x.isOpen = false ∧ x.openedAt = lmc s ∧
      x.base = 1 ∧ t.kcp.usedIds = x.id :: s.kcp.usedIds ∧ t.draws = s.draws + 2 ∧
      t.mem = s.mem ∧ t.bind = s.bind ∧ t.fields = s.fields ∧
      (∀ port mac ip udp, path = .eth port mac ip udp → ethUp s port = true →
        t.out = .kcp path (some (kcpFrame s port mac ip udp)) p :: s.out ∧
        p.session = 0 ∧ p.tag = 0 ∧ p.seq = c.seq ∧ p.params.take 4 = le 4 stOK)

/-- A fresh session ID is not zero and is none that was used since reset (R99, R100), as long as IDs remain. -/
def Obligations.SessionIdsAreNeverReused : Prop :=
  ∀ (used : List Nat) (c : Nat), used.length + 2 ≤ 2 ^ 32 →
    freshId used (used.length + 2) (c % 2 ^ 32) ≠ 0 ∧ freshId used (used.length + 2) (c % 2 ^ 32) ∉ used ∧
    freshId used (used.length + 2) (c % 2 ^ 32) < 2 ^ 32

/-- CLOSE_SESSION, the idle limit and the time to open close a session (R100, R447, R557): it is gone with its ring entries
and its page swaps, and every other session stays. -/
def ClaimSessionsClose : Prop :=
  let closed := fun (id : Nat) (s t : State) => sessionOf t id = none ∧
    (∀ e ∈ t.kcp.ring, e.pkt.session ≠ id) ∧ (∀ x ∈ t.xlat.transfers, x.session ≠ id) ∧
    (t.kcp.sessions.map (·.id) = (s.kcp.sessions.map (·.id)).filter (· != id)) ∧ t.mem = s.mem ∧ t.bind = s.bind
  (∀ (c : Cmd) (s : State), Runs 3 c s → ∃ t, exec (.closeSession c) s = .next t ∧ closed c.session s t) ∧
  (∀ (id : Nat) (s : State) (ss : Session), sessionOf s id = some ss → ss.isOpen = true →
    ss.lastAt + idleMarks s ≤ lmc s → ∃ t, exec (.sessionIdleTimeout id) s = .next t ∧ closed id s t) ∧
  (∀ (id : Nat) (s : State) (ss : Session), sessionOf s id = some ss → ss.isOpen = false →
    ss.openedAt + watch ≤ lmc s → ∃ t, exec (.sessionOpenTimeout id) s = .next t ∧ closed id s t)

/-- Sessions are opened and closed. -/
def Obligations.SessionsOpenAndClose : Prop :=
  ClaimOpenSessionAddsASession ∧ ClaimSessionsClose

/-- ARP_REQUEST and NEIGHBOUR_SOLICITATION for an address in use are answered with the port's MAC address and change nothing
else; for another address nothing happens. ETH_FRAME_DISCARD counts a KCP datagram with a wrong priority. -/
def Obligations.EthernetHousekeeping : Prop :=
  (∀ (p a m : Nat) (s : State), serving s = true → ethUp s p = true →
    exec (.arpRequest p a m) s = .next (if (ethAddresses4 s p).contains a then emit (.arpReply p a (ethMac s p) m) s else s)) ∧
  (∀ (p a m : Nat) (s : State), serving s = true → ethUp s p = true →
    exec (.neighbourSolicitation p a m) s =
      .next (if (ethAddresses6 s p).contains a then emit (.neighbourAdvertisement p a (ethMac s p) m) s else s)) ∧
  (∀ (i : EthInfo) (s : State), serving s = true → ethUp s i.port = true → frameSound i = true → addressed s i = true →
    i.dstUdp = kcpUdpPort s i.port → wrongPrio i = true →
    ∃ t, exec (.ethFrameDiscard i) s = .next t ∧
      getField (0x00020034 + 0x100 * i.port) 16 0 t = min 0xFFFF (getField (0x00020034 + 0x100 * i.port) 16 0 s + 1) ∧
      { t with fields := s.fields } = s)

/-- NOP does nothing and replies OK; an opcode that the device does not implement is answered UNKNOWN_OPCODE with the status
word alone and has no other effect; DISCOVER reports 16 bytes a port; SUBSCRIBE_EVENTS sets the session's mask. -/
def Obligations.PlainCommands : Prop :=
  (∀ (c : Cmd) (s : State), Runs 1 c s → exec (.nop c) s = .next (answer 1 c [] (.done stOK []) (takeNumber c s))) ∧
  (∀ (c : Cmd) (op : Nat) (s : State), implemented op = false → Runs op c s →
    exec (.unknownOpcode c op) s = .next (answer op c [] (.bare stUNKNOWN) (takeNumber c s))) ∧
  (∀ (c : Cmd) (s : State), Runs 6 c s → ∃ res, RepliesWith 6 c stOK res (takeNumber c s) (exec (.discover c) s) ∧
    res.length = 16 * min (clampTo 1 60 (pnum c.params 1 1)) (96 - min 95 (pnum c.params 0 1))) ∧
  (∀ (c : Cmd) (s : State), Runs 7 c s → RepliesWith 7 c stOK [] (modSession c.session
    (fun x => { x with mask := pnum c.params 0 4 &&& eventCodes c.tenant }) (takeNumber c s)) (exec (.subscribeEvents c) s))

/-! ### Registers -/

/-- READ_REGS by a caller that may read every register of the range, and WRITE_REGS by one that may write every register it
names, reply OK; a write to one that it may not write is DENIED and writes nothing (R101, R112). -/
def Obligations.RegisterCommands : Prop :=
  (∀ (c : Cmd) (s : State), Runs 4 c s →
    ((List.range (clampTo 1 64 (pnum c.params 4 1))).map (fun i => pnum c.params 0 4 / 4 * 4 + 4 * i)).any
      (unreadable (takeNumber c s) c.tenant) = false →
    ∃ res, RepliesWith 4 c stOK res (readRange c ((List.range (clampTo 1 64 (pnum c.params 4 1))).map
      (fun i => pnum c.params 0 4 / 4 * 4 + 4 * i)) (takeNumber c s)).2 (exec (.readRegs c) s)) ∧
  (∀ (c : Cmd) (s : State) (es : List (Nat × Nat × Nat)), Runs 5 c s →
    es = (List.range (clampTo 1 64 (pnum c.params 0 4))).map (fun i => (pnum c.params (4 + 12 * i) 4 / 4 * 4,
      pnum c.params (8 + 12 * i) 4, pnum c.params (12 + 12 * i) 4)) →
    (es.any (fun e => !mayWrite (takeNumber c s) c.tenant e.1) = false →
      ∃ echo body, exec (.writeRegs c) s =
        .next (answer 5 c echo (.whole stOK body) (writeAll c 0 es (takeNumber c s)).2)) ∧
    (es.any (fun e => !mayWrite (takeNumber c s) c.tenant e.1) = true →
      RepliesWith 5 c stDENIED [] (takeNumber c s) (exec (.writeRegs c) s)))

/-- REGISTER_WRITE whose mask covers one writable field of a register accepts that field's clamped value and touches no
other, but for LINK_VC_CFG and LANE_TX_EQ, whose fields are then fitted together (R349, R366); a knot's register takes the
written bits as R304 says; a field that the mask does not cover whole is left as it is (R112), and an offset that names no
register changes nothing. -/
def ClaimRegisterWriteAcceptsCoveredFields : Prop :=
  (∀ (off v m : Nat) (s : State), locate (off / 4 * 4) = none → exec (.registerWrite off v m) s = .next s) ∧
  (∀ (off v m i : Nat) (f : RegFam) (x : Fld) (s : State), locate (off / 4 * 4) = some (f, i) →
    (fieldsOf f i).filter (fun x => x.acc == .rw && covered m x) = [x] →
    let t := acceptField f i (off / 4 * 4) x (clampField s f i (off / 4 * 4) x.lo (bits v x.lo x.w)) s
    (f ≠ .knotCfg → f ≠ .vcCfg → f ≠ .laneEq → exec (.registerWrite off v m) s = .next t) ∧
    (f = .vcCfg → exec (.registerWrite off v m) s = .next (fitPools i (off / 4 * 4) t)) ∧
    (f = .laneEq → exec (.registerWrite off v m) s = .next (fitTaps i (off / 4 * 4) t))) ∧
  (∀ (off v m i : Nat) (s : State), locate (off / 4 * 4) = some (.knotCfg, i) →
    exec (.registerWrite off v m) s = .next (writeKnot i v m s)) ∧
  (∀ (off v m i : Nat) (f : RegFam) (s : State), locate (off / 4 * 4) = some (f, i) → f ≠ .knotCfg → f ≠ .vcCfg → f ≠ .laneEq →
    (fieldsOf f i).filter (fun x => x.acc == .rw && covered m x) = [] → exec (.registerWrite off v m) s = .next s)

/-- When a value accepted for a field takes effect (R15, R17): a LIVE value waits for the next mark, an EDGE or HELD value for
a busy block, and for an idle block it is in force at once; what waited for the field before is gone (R18). -/
def ClaimFieldClasses : Prop :=
  ∀ (f : RegFam) (i off v : Nat) (x : Fld) (s : State),
    (x.cls = .live → v ≠ getField off x.lo x.reset s →
      acceptField f i off x v s = { s with waiting := otherWrites s off x.lo ++
        [{ offset := off, lo := x.lo, value := v, cls := .live, at_ := lmc s + 1 }] }) ∧
    (x.cls ≠ .live → blockIdle s f i = true →
      acceptField f i off x v s = applyField f i off x v { s with waiting := otherWrites s off x.lo }) ∧
    (x.cls ≠ .live → blockIdle s f i = false → alwaysIdle f x.lo = false → v ≠ getField off x.lo x.reset s →
      acceptField f i off x v s = { s with waiting := otherWrites s off x.lo ++
        [{ offset := off, lo := x.lo, value := v, cls := x.cls, at_ := lmc s + 1 }] })

/-- A register write accepts the fields its mask covers, and each waits as its class says. -/
def Obligations.RegisterWritesAreAccepted : Prop :=
  ClaimRegisterWriteAcceptsCoveredFields ∧ ClaimFieldClasses

/-- A waiting write takes effect at its boundary (R15): a LIVE one from its mark on, an EDGE one at the boundary that the
command is, a HELD one once the block is idle; before that a LIVE or HELD one goes on waiting. -/
def Obligations.WaitingWritesTakeEffect : Prop :=
  ∀ (off lo i : Nat) (f : RegFam) (x : Fld) (w : WaitingWrite) (s : State), locate off = some (f, i) →
    fieldAt f i lo = some x →
    (s.waiting.find? (fun w => w.offset == off && w.lo == lo && w.cls == .live) = some w →
      exec (.liveWriteApply off lo) s = .next (if w.at_ ≤ lmc s then
        applyField f i off x w.value { s with waiting := otherWrites s off lo } else s)) ∧
    (s.waiting.find? (fun w => w.offset == off && w.lo == lo && w.cls == .edge) = some w →
      exec (.edgeWriteApply off lo) s =
        .next (applyField f i off x w.value { s with waiting := otherWrites s off lo })) ∧
    (s.waiting.find? (fun w => w.offset == off && w.lo == lo && w.cls == .held) = some w →
      exec (.heldWriteApply off lo) s = .next (if blockIdle s f i then
        applyField f i off x w.value { s with waiting := otherWrites s off lo } else s))

/-! ### Knots and flags -/

/-- KNOT_INCREMENT adds with saturation (R304). Unarmed, or below TARGET, that is all; in latch mode the knot then fires: FIRED is
set and ARMED cleared; in pulse mode COUNT falls by TARGET until it is below it, ARMED stays set and FIRED stays as it was. Other
knots, the pool and the registers of other blocks stay. A knot whose home quadrant is held in reset discards it (log entry 169). -/
def Obligations.KnotIncrement : Prop :=
  ∀ (k n : Nat) (s : State), (knotRuns s k = false → exec (.knotIncrement k n) s = .next (knotDiscard k s) ∧
      (knotDiscard k s).belay.knots = s.belay.knots) ∧
    (knotRuns s k = true → (knotOf s k).count ≤ 0xFFFFFFFF → (knotOf s k).target ≠ 0 → ∃ t, exec (.knotIncrement k n) s = .next t ∧
      (let c := min 0xFFFFFFFF ((knotOf s k).count + n)
       let fires := (knotOf s k).armed && decide ((knotOf s k).target ≤ c)
       (knotOf t k).count = (if fires && (knotOf s k).reload then c % (knotOf s k).target else c) ∧
       (knotOf t k).armed = ((knotOf s k).armed && !(fires && !(knotOf s k).reload)) ∧
       (knotOf t k).fired = ((knotOf s k).fired || (fires && !(knotOf s k).reload)) ∧
       (knotOf t k).overflow = ((knotOf s k).overflow || decide (0xFFFFFFFF < (knotOf s k).count + n))) ∧
      (knotOf t k).target = (knotOf s k).target ∧ (knotOf t k).reload = (knotOf s k).reload ∧
      (∀ j, j ≠ k → knotOf t j = knotOf s j) ∧ t.mem = s.mem ∧ t.kcp = s.kcp ∧ t.bind = s.bind ∧ t.time = s.time ∧
      t.out = s.out)

/-- Arming (R303, R304): CLEAR first, then TARGET (at least 1) and RELOAD are taken, FIRED is cleared and ARMED set, and an
arm whose TARGET is already met fires at once. Disarming takes the same fields and leaves FIRED as it stands. KNOT_CLEAR
sets COUNT to 0 and clears OVERFLOW. On a knot whose home quadrant is held in reset none of them has an effect. -/
def Obligations.KnotArmDisarmClear : Prop :=
  ∀ (k cfg : Nat) (s : State), (knotRuns s k = false → exec (.knotArm k cfg) s = .next s ∧ exec (.knotDisarm k cfg) s = .next s ∧
      exec (.knotClear k) s = .next s) ∧
   (knotRuns s k = true →
    (let c := if bit cfg 29 then 0 else (knotOf s k).count
     let o := (knotOf s k).overflow && !bit cfg 29
     let tg := max 1 (bits cfg 0 24)
     (∃ t, exec (.knotArm k cfg) s = .next t ∧ t.mem = s.mem ∧ t.kcp = s.kcp ∧ (∀ j, j ≠ k → knotOf t j = knotOf s j) ∧
       knotOf t k = (if c < tg then { count := c, armed := true, reload := bit cfg 30, fired := false, overflow := o, target := tg }
         else if bit cfg 30 then { count := c % tg, armed := true, reload := true, fired := false, overflow := o, target := tg }
         else { count := c, armed := false, reload := false, fired := true, overflow := o, target := tg })) ∧
     (∃ t, exec (.knotDisarm k cfg) s = .next t ∧ t.mem = s.mem ∧ t.kcp = s.kcp ∧ (∀ j, j ≠ k → knotOf t j = knotOf s j) ∧
       knotOf t k = { count := c, armed := false, reload := bit cfg 30, fired := (knotOf s k).fired, overflow := o,
                      target := tg })) ∧
    ((knotOf s k).target ≠ 0 → ∃ t, exec (.knotClear k) s = .next t ∧ t.mem = s.mem ∧
      knotOf t k = { knotOf s k with count := 0, overflow := false } ∧ (∀ j, j ≠ k → knotOf t j = knotOf s j)))

/-- KNOT_READ by the operator or by the tenant of every block it names returns the two registers of each knot, DEGRADED where a
knot's quadrant is absent (R476); KNOT_SET returns them before and after, and takes no effect on an absent knot or on one
held in reset; CONFIGURE_BARRIER of a loaded chain that nothing runs sets one stage's gate. -/
def ClaimKnotCommands : Prop :=
  (∀ (c : Cmd) (s : State), Runs 0x501 c s →
    let n := min (clampTo 1 64 (pnum c.params 2 1)) (65536 - pnum c.params 0 2)
    let ks := (List.range n).map (pnum c.params 0 2 + ·)
    (c.tenant = 0 ∨ ∀ i < n, knotTenant s (pnum c.params 0 2 + i) = some c.tenant) →
    RepliesWith 0x501 c (if ks.any (knotAbsent s) then stDEGRADED else stOK) (ks.flatMap (knotPair s)) (takeNumber c s)
      (exec (.knotRead c) s)) ∧
  (∀ (c : Cmd) (s : State), Runs 0x502 c s → (knotAbsent s (pnum c.params 0 2) = true ∨ knotRuns s (pnum c.params 0 2) = false) →
    RepliesWith 0x502 c (if knotAbsent s (pnum c.params 0 2) then stDEGRADED else stBUSY)
      (knotPair s (pnum c.params 0 2) ++ knotPair s (pnum c.params 0 2)) (takeNumber c s) (exec (.knotSet c) s)) ∧
  (∀ (c : Cmd) (s : State), Runs 0x502 c s → knotAbsent s (pnum c.params 0 2) = false → knotRuns s (pnum c.params 0 2) = true →
    ∃ t, RepliesWith 0x502 c stOK (knotPair s (pnum c.params 0 2) ++ knotPair t (pnum c.params 0 2)) t (exec (.knotSet c) s) ∧
      (min 2 (pnum c.params 2 1) = 1 → (knotOf s (pnum c.params 0 2)).armed = false →
        (knotOf s (pnum c.params 0 2)).count ≤ 0xFFFFFFFF → (knotOf t (pnum c.params 0 2)).count =
          min 0xFFFFFFFF ((knotOf s (pnum c.params 0 2)).count + pnum c.params 4 4)) ∧
      (∀ j, j ≠ pnum c.params 0 2 → knotOf t j = knotOf s j) ∧ t.mem = s.mem) ∧
  (∀ (c : Cmd) (s : State) (ch : Chain), Runs 0x503 c s → min 5 (pbits c.params 2 0 3) = 0 →
    chainInUse s c.tenant (min 63 (pnum c.params 0 1)) = false →
    tget none s.eng.chains (storeKey c.tenant (min 63 (pnum c.params 0 1))) = some ch →
    ∃ g t, RepliesWith 0x503 c stOK [] t (exec (.configureBarrier c) s) ∧ g.kind = 0 ∧
      g.post = (if pbit c.params 3 3 then some (pbits c.params 3 0 3) else none) ∧
      tget none t.eng.chains (storeKey c.tenant (min 63 (pnum c.params 0 1))) =
        some { ch with gates := tset {} ch.gates (min 15 (pnum c.params 1 1)) g } ∧ t.eng.cores = s.eng.cores)

/-- Other synchronisation (R318, R320, R388): a bight line that nobody drives low any more lets every context at a gate on it
pass; a fabric barrier that is disabled counts nothing; a multicast STORE whose answers stay away goes on with them counted
as failures. -/
def ClaimLinesAndBarriersRelease : Prop :=
  (∀ (line : Nat) (s : State), frozen s = false → tget 0 s.belay.holders line ≠ 0 →
    s.belay.low.any (fun e => e.1 == line) = false → ∃ t, exec (.bightLineRise line) s = .next t ∧ (∀ core k, ctxOf t core k =
      (ctxOf s core k).map (fun x => if atGate x && (gateOf x).kind == 4 && (gateOf x).select == line then passGate x else x)) ∧
      t.mem = s.mem ∧ t.kcp = s.kcp) ∧
  (∀ (g : Nat) (s : State), ∃ t, exec (.fbarDisable g) s = .next t ∧ getField (fbarReg g 0) 31 0 t = 0 ∧ fbarArrived t g = 0 ∧
    { t with fields := s.fields } = s) ∧
  (∀ (tag : Nat) (s : State) (m : McastPkt) (x : Ctx), s.sw.mcast.find? (fun m => m.tag == tag) = some m →
    ctxOf s m.core m.ctx = some x →
    ((copyWaits s tag = true ∨ plmc s < m.lastCopyAt + 2048) → exec (.mcastAckTimeout tag) s = .next s) ∧
    (copyWaits s tag = false → m.lastCopyAt + 2048 ≤ plmc s → ∃ u, exec (.mcastAckTimeout tag) s = .next (mcastSettled m u) ∧
      ctxOf u m.core m.ctx = some { x with
        missing := max x.missing m.answers,
        failStatus := (if x.failStatus = 0 then stLOST_UNKNOWN else x.failStatus) } ∧
      u.mem = s.mem ∧ u.sw = s.sw))

/-- Knots are read, set and named in chains by command, and other waits are released. -/
def Obligations.KnotCommands : Prop := ClaimKnotCommands ∧ ClaimLinesAndBarriersRelease

/-! ### Binding and extents -/

/-- The units, the tenant and the flags of a binding command's effective parameters (R131). -/
def bindUnits (k : UnitKind) (c : Cmd) : List Nat :=
  let x := unitLimits k
  let first := min (x.1 - 1) (pnum c.params 0 2)
  (List.range (min (clampTo 1 x.2.1 (pnum c.params 2 2)) (x.2.2 * (first / x.2.2 + 1) - first))).map (first + ·)
def bindShares (k : UnitKind) (c : Cmd) : Bool := k == .port && !pbit c.params 4 5 && pbit c.params 4 7
def bindTo (k : UnitKind) (c : Cmd) : Nat := if pbit c.params 4 5 || bindShares k c then 0 else pbits c.params 4 0 5

/-- Each of the seven binding commands, when no unit's precondition fails (R132, R134) and, for strands, the random number
generator serves (R430): every unit begins its step, and the reply waits for the last of them. -/
def ClaimBindingBeginsSteps : Prop :=
  ∀ (k : UnitKind) (op : Nat) (i : Cmd → Instr) (c : Cmd) (s : State),
    (k, op, i) ∈ [(UnitKind.strand, 0x201, Instr.bindStrand), (.engine, 0x202, Instr.bindEngine),
      (.coilWay, 0x203, Instr.bindCoilWay), (.port, 0x204, Instr.bindPort), (.eid, 0x205, Instr.bindEid),
      (.knots, 0x206, Instr.bindKnots), (.faultQueue, 0x207, Instr.bindFaultQueue)] →
    Runs op c s → (k = .strand → s.sec.rngOk = true) →
    (bindUnits k c).findSome? (fun u => bindRefusal (takeNumber c s) k u (bindTo k c) (pbit c.params 4 5) (bindShares k c)
      (pbit c.params 4 6)) = none →
    Waits op c (.bind k (bindUnits k c) 0 false) ((bindUnits k c).foldl
      (fun s u => beginStep k (bindTo k c) (pbit c.params 4 5) (bindShares k c) u s) (takeNumber c s)) (exec (i c) s)

/-- A unit that begins its step shows STATE 2 and the tenant it goes to, and keeps its old tenant until the step ends. -/
def ClaimAUnitInItsStep : Prop :=
  ∀ (k : UnitKind) (tenant u : Nat) (unbind shared : Bool) (s : State),
    (bindEnt (beginStep k tenant unbind shared u s) k u).st = .stepping ∧
    (bindEnt (beginStep k tenant unbind shared u s) k u).newTenant = tenant ∧
    (bindEnt (beginStep k tenant unbind shared u s) k u).unbind = unbind ∧
    (bindEnt (beginStep k tenant unbind shared u s) k u).tenant = (bindEnt s k u).tenant ∧
    (∀ v, v ≠ u → bindEnt (beginStep k tenant unbind shared u s) k v = bindEnt s k v)

/-- The binding commands begin the steps of their units, and a unit in its step shows it. -/
def Obligations.BindingStepsBegin : Prop :=
  ClaimBindingBeginsSteps ∧ ClaimAUnitInItsStep

/-- BIND_STEP_COMPLETE of a unit whose step is ready: the unit serves its new tenant, or none, and the command that named it
learns of it. A strand has a new key and a new epoch, so that nothing written before passes its check (R130, R137). -/
def Obligations.BindStepCompletes : Prop :=
  ∀ (k : UnitKind) (u : Nat) (s : State), (bindEnt s k u).st = .stepping → stepReady s k u = true →
    ∃ t, exec (.bindStepComplete k u) s = .next (stepDone k u (bindEnt s k u).isLost t) ∧
      (bindEnt t k u).st = (if (bindEnt s k u).unbind then .unbound else .bound) ∧
      (bindEnt t k u).tenant = (if (bindEnt s k u).unbind then 0 else (bindEnt s k u).newTenant) ∧
      (k = .strand → (strandOf t u).gen = (strandOf s u).gen + 1 ∧ (strandOf t u).keyed = true ∧
        (bindEnt t k u).epoch = ((bindEnt s k u).epoch + 1) % 65536 ∧ (∀ e ∈ t.mem.coil, lineStrand e.1 ≠ u)) ∧
      (k = .engine → (tget {} t.eng.cores u).flags = 0 ∧ (tget {} t.eng.cores u).ctxs = []) ∧
      (k = .knots → ∀ e ∈ t.belay.knots, e.1 / 256 ≠ u)

/-- GRANT_EXTENT to the tenant of the strand, clear of every other extent and within the limit, adds the extent; otherwise
it is DENIED and adds none (R140). READ_EXTENTS of a strand is answered to its tenant and the operator alone (R143). On a strand
that is LOST both are DEGRADED and no extent is added (R476). -/
def ClaimExtentsAreGranted : Prop :=
  (∀ (c : Cmd) (s : State), Runs 0x208 c s →
    let raw := pnum c.params 0 8 % 2 ^ 41
    let g := min (strandGranules - 1) (ppaOffset raw / 0x200000)
    let n := min (clampTo 1 strandGranules (pnum c.params 8 4)) (strandGranules - g)
    let base := ppaStrand raw * 0x100000000 + 0x200000 * g
    let clash := s.bind.extents.any (fun e => e.base < base + 0x200000 * n && base < e.base + 0x200000 * e.granules)
    (strandTenant s (ppaStrand raw) = some (pbits c.params 12 0 5) → (strandOf s (ppaStrand raw)).lostUnit = true →
      RepliesWith 0x208 c stDEGRADED [] (takeNumber c s) (exec (.grantExtent c) s)) ∧
    (strandTenant s (ppaStrand raw) = some (pbits c.params 12 0 5) → (strandOf s (ppaStrand raw)).lostUnit = false →
      clash = false → s.bind.extents.length < extentLimit →
      ∃ t, RepliesWith 0x208 c stOK [] t (exec (.grantExtent c) s) ∧
        t = { takeNumber c s with bind.extents := t.bind.extents } ∧
        extentAt t base = some { base := base, granules := n, tenant := pbits c.params 12 0 5 } ∧
        (∀ e ∈ s.bind.extents, e ∈ t.bind.extents)) ∧
    ((strandTenant s (ppaStrand raw) ≠ some (pbits c.params 12 0 5) ∨ ((strandOf s (ppaStrand raw)).lostUnit = false ∧
        (clash = true ∨ extentLimit ≤ s.bind.extents.length))) →
      RepliesWith 0x208 c stDENIED [] (takeNumber c s) (exec (.grantExtent c) s))) ∧
  (∀ (c : Cmd) (s : State), Runs 0x20C c s →
    ((c.tenant = 0 ∨ strandTenant s (min 511 (pnum c.params 0 2)) = some c.tenant) →
      ∃ res, RepliesWith 0x20C c (if (strandOf s (min 511 (pnum c.params 0 2))).lostUnit then stDEGRADED else stOK) res
        (takeNumber c s) (exec (.readExtents c) s)) ∧
    (c.tenant ≠ 0 → strandTenant s (min 511 (pnum c.params 0 2)) ≠ some c.tenant →
      RepliesWith 0x20C c stDENIED [] (takeNumber c s) (exec (.readExtents c) s)))

/-- REVOKE_EXTENT of a granted extent starts the revocation, and its reply waits for it. -/
def ClaimRevocationStarts : Prop :=
  ∀ (c : Cmd) (s : State) (e : Extent), Runs 0x209 c s → extentAt s (pnum c.params 0 8) = some e → e.st = .granted →
    ∃ echo t, exec (.revokeExtent c) s = .next t ∧
      (t = answer 0x209 c echo (.later (.revoke e.base)) ((if pbit c.params 8 0 then revokeAbrupt e else revokeGraceful e)
        (dropRecords e (endSeal e stREVOKED (takeNumber c s)))) ∨
       t = settleHome (answer 0x209 c echo (.later (.revoke e.base))
        ((if pbit c.params 8 0 then revokeAbrupt e else revokeGraceful e) (dropRecords e (endSeal e stREVOKED (takeNumber c s))))))

/-- The deadlines of a revocation (R146): at r + 64 accesses other than admitted P1 requests end REVOKED; at T, with no line
of the extent left busy or in the directory, the extent is FREE, and what waits for that is answered. -/
def ClaimRevocationEnds : Prop :=
  (∀ (base : Nat) (s : State) (e : Extent) (r : Revocation), extentAt s base = some e → e.revocation = some r →
    ((e.st ≠ .draining ∨ r.drained = true ∨ plmc s < r.drainAt) → exec (.revokeDrainDeadline base) s = .next s) ∧
    (e.st = .draining → r.drained = false → r.drainAt ≤ plmc s → exec (.revokeDrainDeadline base) s =
      .next (settleHome (revokeAccesses e false
        (modExtent e.base (fun e => { e with revocation := some { r with drained := true } }) s))))) ∧
  (∀ (base : Nat) (s : State) (e e' : Extent) (r : Revocation), extentAt s base = some e → e.revocation = some r →
    e.st ≠ .granted → r.finalAt ≤ plmc s → s.coh.busy.any (fun b => inExtent e b.line) = false →
    (revokeAccesses e true s).coh.dir.any (fun d => inExtent e d.1) = false →
    extentAt (revokeAccesses e true s) base = some e' →
    exec (.revokeFinalDeadline base) s = .next (settleHome (freeExtent e' (revokeAccesses e true s)))) ∧
  (∀ (e : Extent) (s : State), (∀ x ∈ (freeExtent e s).bind.extents, x.base ≠ e.base) ∧
    (∀ x ∈ s.bind.extents, x.base ≠ e.base → x ∈ (freeExtent e s).bind.extents) ∧ (freeExtent e s).mem = s.mem)

/-- Extents are granted, read and revoked. -/
def Obligations.ExtentsAreGrantedAndRevoked : Prop :=
  ClaimExtentsAreGranted ∧ ClaimRevocationStarts ∧ ClaimRevocationEnds

/-- Sealing and unsealing of a tenant take effect at their mark and not before it (R157), and free or hold its slots. -/
def Obligations.SealingTakesEffect : Prop :=
  (∀ (t a n : Nat) (s : State), tget (0, 0) s.bind.sealPending t = (n, a) → n ≠ 0 → a ≤ lmc s →
    ∃ x, exec (.sealingEffective t) s = .next x ∧ tget 0 x.bind.sealSlots t = n ∧ sealedTenant x t = true ∧
      { x with bind := { x.bind with sealSlots := s.bind.sealSlots, sealPending := s.bind.sealPending } } = s) ∧
  (∀ (t a n : Nat) (s : State), tget (0, 0) s.bind.sealPending t = (n, a) → lmc s < a →
    exec (.sealingEffective t) s = .next s) ∧
  (∀ (t a : Nat) (s : State), tget 0 s.bind.unsealPending t = a → a ≠ 0 → a ≤ lmc s →
    ∃ x, exec (.unsealingEffective t) s = .next x ∧ tget 0 x.bind.sealSlots t = 0 ∧
      { x with bind := { x.bind with sealSlots := s.bind.sealSlots, unsealPending := s.bind.unsealPending } } = s) ∧
  (∀ (c : Cmd) (s : State), Runs 0x20A c s → pbit c.params 1 0 = true →
    min (clampTo 1 4 (pnum c.params 2 1)) (4 - otherSlots s (max 1 (pbits c.params 0 0 5))) ≠ 0 →
    (List.range 96).any (fun p => portShared s p && carriesTenant s p (max 1 (pbits c.params 0 0 5))) = false →
    ∃ t, RepliesWith 0x20A c stOK [] t (exec (.setSealed c) s) ∧
      lmc s < (tget (0, 0) t.bind.sealPending (max 1 (pbits c.params 0 0 5))).2 ∧
      (tget (0, 0) t.bind.sealPending (max 1 (pbits c.params 0 0 5))).1 =
        min (clampTo 1 4 (pnum c.params 2 1)) (4 - otherSlots s (max 1 (pbits c.params 0 0 5))))

/-- ENROLL_TENANT stores a key that is a point of the curve, or removes one, in a slot that is never the operator's fused
one; no session opened with that credential remains (R444, R445). -/
def ClaimCredentialsAreReplaced : Prop :=
  ∀ (c : Cmd) (s : State), Runs 0x20B c s →
    (pbit c.params 2 0 = true ∨ onCurve (pnum c.params 4 64) = true) →
    let t := pbits c.params 0 0 5
    let i := clampTo (if t = 0 then 1 else 0) 3 (pnum c.params 1 1)
    ∃ x, RepliesWith 0x20B c stOK [] x (exec (.enrollTenant c) s) ∧
      tget none x.sec.creds (4 * t + i) = (if pbit c.params 2 0 then none else some (pnum c.params 4 64)) ∧
      (∀ j, j ≠ 4 * t + i → tget none x.sec.creds j = tget none s.sec.creds j) ∧ 4 * t + i ≠ 0 ∧
      (∀ y ∈ x.kcp.sessions, y.tenant = t → y.cred ≠ i) ∧ x.mem = s.mem ∧ x.bind = s.bind

/-- A key that is not a point of the SM2 curve is answered DENIED (R445). -/
def ClaimBadKeysAreDenied : Prop :=
  ∀ (c : Cmd) (s : State), Runs 0x20B c s → pbit c.params 2 0 = false → onCurve (pnum c.params 4 64) = false →
    RepliesWith 0x20B c stDENIED [] (takeNumber c s) (exec (.enrollTenant c) s)

/-- ENROLL_TENANT changes one slot and closes the sessions of its credential, or is denied. -/
def Obligations.EnrollTenantReplacesACredential : Prop :=
  ClaimCredentialsAreReplaced ∧ ClaimBadKeysAreDenied

/-! ### The pool -/

/-- The home reads a line as it was last written there: after a whole-line write, from the coil or at the strand, the line
reads back with the data and the POISON written, as long as no flip mask is armed on its strand. -/
def Obligations.PoolReadsWhatWasWritten : Prop :=
  ∀ (t u line : Nat) (d : Line) (p k m : Bool) (s : State), flipReady s (lineStrand line) 1 = false →
    flipReady s (lineStrand line) 2 = false →
    (homeRead u line m 0 [] (homeWrite t line d p k s)).1 = (d, p)

/-- A write at the home changes no other line: a line that is not in the coil, on a strand with no flip mask armed, reads
as before, and so does a line that stays in the coil. -/
def Obligations.PoolWritesOneLine : Prop :=
  ∀ (t u line l : Nat) (d : Line) (p k m : Bool) (s : State), l ≠ line →
    (coilOf s l = none → flipReady s (lineStrand l) 1 = false → flipReady s (lineStrand l) 2 = false →
      (homeRead u l m 0 [] (homeWrite t line d p k s)).1 = (homeRead u l m 0 [] s).1) ∧
    (coilOf (homeWrite t line d p k s) l ≠ none → coilOf (homeWrite t line d p k s) l = coilOf s l)

/-- A strand's bind step draws new data and tweak keys and counts the epoch up (R137, R442): a line stored before is read through
the new keys, as a line that is no line of the tenant, and passes only if its old CHECK happens to fit what they make of it with
the new epoch; where nothing is stored, the chance pass is R137's. -/
def Obligations.OldKeysOpenNothing : Prop :=
  ∀ (st line : Nat) (unbind : Bool) (s : State), lineStrand line = st →
    let t := rekeyStrand st unbind s
    let k := strandOf t st
    (k.gen = (strandOf s st).gen + 1 ∧ k.keyed = true ∧ k.dataKey = BitVec.ofNat 128 (Config.free s.draws) ∧
      k.tweakKey = BitVec.ofNat 128 (Config.free (s.draws + 1)) ∧ epochOf t st = (epochOf s st + 1) % 65536) ∧
    (∀ x, tget none s.mem.lines line = some x → x.gen ≤ (strandOf s st).gen →
      matching t line = (if x.check = checkOf line (decryptLine k line x.raw) (epochOf t st) x.mark ∧
        (x.mark = 0 ∨ x.mark = markPoison) then some (decryptLine k line x.raw, x.mark) else none)) ∧
    (tget none s.mem.lines line = none → s.mem.patterns.any (fun r => r.covers line) = false →
      matching t line = (if Config.strayPass line k.gen then some (Config.strayData line k.gen, 0) else none))

/-- The value that an ATOMIC leaves (R201): sums wrap at 32 bits, MIN and MAX compare signed or unsigned, and a CAS
changes the location exactly when the old value equals the compare value. -/
def ClaimAtomicOperations : Prop :=
  (∀ old a c, atomicNew 0 old a c = (old + a) % 2 ^ 32) ∧
  (∀ old a c, old < 2 ^ 32 → a < 2 ^ 32 →
    (BitVec.ofNat 32 (atomicNew 1 old a c)).toInt = min (BitVec.ofNat 32 old).toInt (BitVec.ofNat 32 a).toInt ∧
    atomicNew 2 old a c = min old a ∧
    (BitVec.ofNat 32 (atomicNew 3 old a c)).toInt = max (BitVec.ofNat 32 old).toInt (BitVec.ofNat 32 a).toInt ∧
    atomicNew 4 old a c = max old a ∧ atomicNew 5 old a c = old &&& a ∧ atomicNew 6 old a c = old ||| a ∧
    atomicNew 7 old a c = old ^^^ a ∧ atomicNew 8 old a c = a) ∧
  (∀ old a c, old < 2 ^ 64 → a < 2 ^ 64 → c < 2 ^ 64 → atomicNew 9 old a c = a ∧
    (old = c → atomicNew 10 old a c = a) ∧ (old ≠ c → atomicNew 10 old a c = old)) ∧
  (∀ old a c, old < 2 ^ 128 → a < 2 ^ 128 → c < 2 ^ 128 → atomicNew 11 old a c = a ∧
    (old = c → atomicNew 12 old a c = a) ∧ (old ≠ c → atomicNew 12 old a c = old))

/-- An atomic replaces its own bytes of the line and no other: the `w` bytes at the offset read as the new value, and every
other byte of the line as before. -/
def ClaimAtomicsTouchTheirBytes : Prop :=
  ∀ (l : Line) (off w v : Nat), off + w ≤ 128 →
    lineNat (putBytes l off w v) off w = v % 2 ^ (8 * w) ∧
    ∀ j, j < 128 → (j < off ∨ off + w ≤ j) → lineByte (putBytes l off w v) j = lineByte l j

/-- STORE_MASKED's merge takes the masked bytes from the new line and every other byte from the old. -/
def ClaimMaskedStoresMerge : Prop :=
  ∀ (old new : Line) (m j : Nat), j < 128 →
    lineByte (mergeLine old new m) j = if m.testBit j then lineByte new j else lineByte old j

/-- R201: operand A is at bytes 0 to 15 of the payload and the compare value at bytes 16 to 31; the home writes the new
value at the operand's place and keeps the old one for the answer; a code from 13 to 15, or an operand that is not aligned
to its width, completes DENIED. -/
def ClaimAtomicsAreServed : Prop :=
  (∀ (rx : RxPkt) (i : Nat), lineOp (withCode 8 rx) i = .atomic rx.hdr.aop (rx.hdr.addr % 128)
    (lineNat (rx.payload.headD 0) 0 16) (lineNat (rx.payload.headD 0) 16 16)) ∧
  (∀ (j : Job) (t : Tracker) (data : Line) (s : State) (aop off a c : Nat), j.op = .atomic aop off a c →
    serve j t data false s = lineDone j.tracker j.line none stOK (freeLine j.line (modTracker j.tracker
      (fun t => { t with old := lineNat data off (atomicWidth aop) }) (homeWrite t.tenant j.line (putBytes data off
        (atomicWidth aop) (atomicNew aop (lineNat data off (atomicWidth aop)) a c)) false (allocates t) s)))) ∧
  (∀ (rx : RxPkt) (a : Arrival) (s s' : State) (pair : Option Nat), Accepted (withCode 8 rx) a pair s s' →
    (12 < rx.hdr.aop ∨ rx.hdr.addr % atomicWidth rx.hdr.aop ≠ 0) →
    exec (.atomic rx) s = .next (complete (asTaken 8 rx s).hdr a.tenant pair stDENIED s'))

/-- Atomics compute what R201 lays down on their own bytes, and masked stores merge by byte. -/
def Obligations.AtomicsAndMasks : Prop :=
  ClaimAtomicOperations ∧ ClaimAtomicsTouchTheirBytes ∧ ClaimAtomicsAreServed ∧ ClaimMaskedStoresMerge

/-- A pool request that its home takes (R133, R196, R198, R200, R372): accepted and well shaped, of class F, its address means a
line that its tenant may reach, no record of its idempotency tag is kept and a tracker is free. -/
def PoolTaken (code : Nat) (rx : RxPkt) (a : Arrival) (pair : Option Nat) (line : Nat) (s s' : State) : Prop :=
  Accepted (withCode code rx) a pair s s' ∧ wellShaped (asTaken code rx s) = true ∧ effClass (asTaken code rx s).hdr ≠ 1 ∧
    (∃ ppa, Means (asTaken code rx s) a.tenant s' ppa ∧ line = lineOfPpa ppa) ∧
    refusedAt s' a.tenant (ppaOfLine line) (requestLines (asTaken code rx s)) (changesLine code) = none ∧
    idemMatch s' (lineQuadrant line) (asTaken code rx s).hdr = none ∧ trackersUsed s' (lineQuadrant line) false < 16384

/-- What a taken request becomes: a tracker, and a job at the home of each of its lines. -/
def atItsHome (rx : RxPkt) (a : Arrival) (pair : Option Nat) (line : Nat) (s : State) : State :=
  settleHome (takeRequest rx a line (requestLines rx) pair none s)

/-- LOAD, READ_SHARED, READ_OWN, STORE, STORE_MASKED and ATOMIC that the home takes are given a tracker and put to their
lines. -/
def ClaimPoolRequestsAreTaken : Prop :=
  ∀ (rx : RxPkt) (a : Arrival) (s s' : State) (pair : Option Nat) (line : Nat),
    (PoolTaken 1 rx a pair line s s' → exec (.load rx) s = .next (atItsHome (asTaken 1 rx s) a pair line s')) ∧
    (PoolTaken 2 rx a pair line s s' → exec (.readShared rx) s = .next (atItsHome (asTaken 2 rx s) a pair line s')) ∧
    (PoolTaken 3 rx a pair line s s' → exec (.readOwn rx) s = .next (atItsHome (asTaken 3 rx s) a pair line s')) ∧
    (PoolTaken 4 rx a pair line s s' → exec (.store rx) s = .next (atItsHome (asTaken 4 rx s) a pair line s')) ∧
    (PoolTaken 5 rx a pair line s s' → exec (.storeMasked rx) s = .next (atItsHome (asTaken 5 rx s) a pair line s')) ∧
    (PoolTaken 8 rx a pair line s s' → exec (.atomic rx) s = .next (atItsHome (asTaken 8 rx s) a pair line s'))

/-- A release that its home takes, outside a crossing: by the tenant of the line's extent, on a strand that is not LOST, with a
reserve tracker free (R200, R475). -/
def ReleaseTaken (code : Nat) (rx : RxPkt) (a : Arrival) (pair : Option Nat) (line : Nat) (s s' : State) : Prop :=
  Accepted (withCode code rx) a pair s s' ∧ wellShaped (asTaken code rx s) = true ∧
    (∃ ppa, Means (asTaken code rx s) a.tenant s' ppa ∧ line = lineOfPpa ppa ∧ trackersUsed s' (ppaQuadrant ppa) true < 4096) ∧
    ppaOffset (ppaOfLine line) + 128 ≤ 0xC0000000 ∧ idemMatch s' (lineQuadrant line) (asTaken code rx s).hdr = none ∧
    (∃ e, extentAt s' (ppaOfLine line) = some e ∧ e.tenant = a.tenant) ∧ (strandOf s' (lineStrand line)).lostUnit = false ∧
    s'.coh.silent.contains (rx.hdr.src, line) = false ∧ crossing s' line rx.hdr.src = false

/-- WRITEBACK and EVICT_CLEAN that the home takes are put to their line; one to an address outside the populated memory is
DENIED and counted (R29, R133). -/
def ClaimReleasesAreTaken : Prop :=
  ∀ (rx : RxPkt) (a : Arrival) (s s' : State) (pair : Option Nat) (line : Nat),
    (ReleaseTaken 6 rx a pair line s s' →
      exec (.writeback rx) s = .next (settleHome (takeRequest (asTaken 6 rx s) a line 1 none none s'))) ∧
    (ReleaseTaken 7 rx a pair line s s' →
      exec (.evictClean rx) s = .next (settleHome (takeRequest (asTaken 7 rx s) a line 1 none none s'))) ∧
    (∀ (code : Nat) (ppa : Nat), (code = 6 ∨ code = 7) → Accepted (withCode code rx) a pair s s' →
      wellShaped (asTaken code rx s) = true → Means (asTaken code rx s) a.tenant s' ppa →
      trackersUsed s' (ppaQuadrant ppa) true < 4096 → 0xC0000000 < ppaOffset (ppaOfLine (lineOfPpa ppa)) + 128 →
      exec (if code = 6 then .writeback rx else .evictClean rx) s =
        .next (complete (asTaken code rx s).hdr a.tenant none stDENIED (countDenied a.tenant s')))

/-- Pool requests and releases from a link are taken and put to the home of their lines. -/
def Obligations.PoolRequestsReachTheHome : Prop :=
  ClaimPoolRequestsAreTaken ∧ ClaimReleasesAreTaken

/-- SIGNAL without BARRIER waits under R206 behind its source's earlier writes and is then applied; FBAR_ARRIVAL of the
group's tenant is counted at this node and answered OK. -/
def Obligations.SignalsAreTaken : Prop :=
  (∀ (rx : RxPkt) (a : Arrival) (s s' : State) (pair : Option Nat), Accepted (withCode 0x0A rx) a pair s s' →
    rx.hdr.barrier = false → idemMatch s' (knotHome rx.hdr.knot) (asTaken 0x0A rx s).hdr = none →
    trackersUsed s' (knotHome rx.hdr.knot) false < 16384 →
    ∃ u k g, exec (.signal rx) s = .next (settleHome u) ∧ u.coh.trackers = s'.coh.trackers ++ [k] ∧
      u.coh.signals = s'.coh.signals ++ [g] ∧ g.knot = rx.hdr.knot ∧ g.src = rx.hdr.src ∧ g.tracker = some k.id ∧
      g.order = a.place ∧ g.tenant = a.tenant ∧ k.who = .link rx.port rx.hdr.src rx.hdr.tag ∧ k.pair = pair ∧
      u.mem = s'.mem ∧ u.belay = s'.belay) ∧
  (∀ (rx : RxPkt) (a : Arrival) (s s' : State) (pair : Option Nat),
    Accepted { rx with hdr := { rx.hdr with code := 0x0A, barrier := true } } a pair s s' →
    groupTenant s' rx.hdr.group = some a.tenant →
    exec (.fbarArrival rx) s = .next (complete (atPort { rx with hdr := { rx.hdr with code := 0x0A, barrier := true } } s).hdr
      a.tenant pair stOK (fbarCount rx.hdr.group s')))

/-- GRANT_ACK, SNP_ACK and SNP_DATA from the port that carries their source reach the line that waits for them. -/
def ClaimHomeAnswersArrive : Prop :=
  ∀ (rx : RxPkt) (a : Arrival) (s : State), Enters rx a s →
    exec (.grantAck rx) s = .next (settleHome (grantAcked rx.hdr a.tenant (takenUp rx s))) ∧
    exec (.snpAck rx) s = .next (settleHome (snoopAnswer rx.hdr none a.tenant (takenUp rx s))) ∧
    exec (.snpData rx) s = .next (settleHome (snoopAnswer rx.hdr (some (rx.payload.headD 0)) a.tenant (takenUp rx s)))

/-- A granted line comes to rest with the requester's own GRANT_ACK (R212): nothing queued, no snoop owed and no recall
held back, it is no longer busy; the ACK of another tag leaves every line as it is. -/
def ClaimGrantAcksFreeTheLine : Prop :=
  (∀ (h : PktHdr) (t : Nat) (s : State) (b : BusyLine), s.coh.busy.find? (fun b => match b.phase with
      | .granting eid tag _ => eid = h.src && tag = h.tag
      | _ => false) = some b → b = (busyOf s b.line).getD b → b.queue = [] → b.owed = [] → b.recalls = [] →
    busyOf (grantAcked h t s) b.line = none) ∧
  (∀ (h : PktHdr) (t : Nat) (s : State), (∀ b ∈ s.coh.busy, ∀ m, b.phase ≠ .granting h.src h.tag m) →
    (grantAcked h t s).coh = s.coh ∧ (grantAcked h t s).mem = s.mem)

/-- DATA and COMPLETION that answer a request of the device itself reach the unit that asked, and what waited for their
window is issued. -/
def ClaimAnswersReachTheirUnit : Prop :=
  ∀ (rx : RxPkt) (a : Arrival) (s s' : State) (pair : Option Nat),
    (Enters (withCode 0x41 rx) a s → passBack rx.port (asTaken 0x41 rx s).hdr (takenUp (withCode 0x41 rx) s) = .goes pair s' →
      exec (.data rx) s =
        .next (settleHome (issueWaiting (takeAnswer (asTaken 0x41 rx s).hdr rx.payload (freePair pair s'))))) ∧
    (Enters (withCode 0x42 rx) a s → passBack rx.port (asTaken 0x42 rx s).hdr (takenUp (withCode 0x42 rx) s) = .goes pair s' →
      exec (.completion rx) s =
        .next (settleHome (issueWaiting (takeAnswer (asTaken 0x42 rx s).hdr rx.payload (freePair pair s')))))

/-- Answers from holders and from endpoints reach what waits for them. -/
def Obligations.AnswersArrive : Prop :=
  ClaimHomeAnswersArrive ∧ ClaimGrantAcksFreeTheLine ∧ ClaimAnswersReachTheirUnit

/-- What moves a busy line on: its fetch or write completes in its turn at the strand and at the bridge (R27, R36), but for what a
global stop holds (R506), its next request resumes, a holder or a grantee stays silent for 2,048 marks; and an idempotency record
leaves when its hold is over, alone. -/
def Obligations.BusyLinesMoveOn : Prop :=
  (∀ (line : Nat) (f : Fetches) (s : State), (busyOf s line).bind (·.job) = none →
    exec (.lineFetchComplete line f) s = .next (settleHome (fetchDone line f s))) ∧
  (∀ (line : Nat) (f : Fetches) (s : State) (j : Job) (t : Tracker), (busyOf s line).bind (·.job) = some j →
    trackerOf s j.tracker = some t → (∀ c x, ¬(t.who = .engine c x ∧ t.hdr.code = 1)) →
    (lineTurn s line = true → onChipHeld s line = false →
      exec (.lineFetchComplete line f) s = .next (settleHome (fetchDone line f (lineTaken line s)))) ∧
    ((lineTurn s line = false ∨ onChipHeld s line = true) → exec (.lineFetchComplete line f) s = .next (settleHome s))) ∧
  (∀ (line : Nat) (upset : Bool) (s : State) (b : BusyLine) (j : Job) (q : List Job), busyOf s line = some b → b.job = none →
    b.phase = .recalling [] → b.owed = [] → frozen s = false → b.queue = j :: q →
    exec (.homeRequestResume line upset) s = .next (settleHome (startJob j (putBusy { b with queue := q } (if upset then
      setDir line ((dirOf s line).map (fun d => { d with bad := true })) s else s))))) ∧
  (∀ (line eid : Nat) (s : State) (b : BusyLine) (x : Snoop) (l : List Snoop), busyOf s line = some b →
    b.phase = .snooping l → x ∈ l → x.eid = eid → x.complete = false → x.sentAt + 2048 ≤ plmc s →
    exec (.snoopTimeout line eid) s = .next (settleHome (silentSnoop line eid s))) ∧
  (∀ (line eid tag since : Nat) (s : State) (b : BusyLine), busyOf s line = some b → b.phase = .granting eid tag since →
    since + 2048 ≤ plmc s → exec (.grantAckTimeout line) s = .next (settleHome
      (b.recalls.foldl (fun s e => recallHeld line e s) (freeLine line (silentHolder line eid s))))) ∧
  (∀ (q e g : Nat) (s : State), ∃ t, exec (.idemRecordExpiry q e g) s = .next t ∧
    { t with coh := { t.coh with idem := s.coh.idem } } = s ∧
    (∀ r ∈ s.coh.idem, r ∈ t.coh.idem ∨
      (r.quadrant = q ∧ r.eid = e ∧ r.tag = g ∧ r.tracker = none ∧ r.doneAt + idemHold s ≤ lmc s)) ∧
    (∀ r ∈ t.coh.idem, r ∈ s.coh.idem ∧
      ¬(r.quadrant = q ∧ r.eid = e ∧ r.tag = g ∧ r.tracker = none ∧ r.doneAt + idemHold s ≤ lmc s)))

/-! ### The switch -/

/-- A packet that was received whole waits in its port's buffer, `a` what was settled about it, and its port carries it. -/
def PacketWaits (rx : RxPkt) (a : Arrival) (s : State) : Prop :=
  serving s = true ∧ frozen s = false ∧ receiving s rx = none ∧ (∃ x, waitingPkt s rx = some x ∧ x.info = a) ∧
    a.carried = true ∧ malformed rx.hdr = false

/-- PACKET_SWITCHED: a request of class F for another EID, in its turn in the network (R36, R207) and behind none of its flow,
that its header's route takes to a port in STATE 2, within its window and not to another tenant's EID, is queued there, and its
place in the receive buffer goes with it; a multicast packet that the switch accepts goes, in its turn, to every other port of its
mask in STATE 2, as the release of a fabric barrier does after it has released this device's own gangs. -/
def Obligations.PacketsAreSwitched : Prop :=
  (∀ (rx : RxPkt) (a : Arrival) (s s' : State) (pair : Option Nat) (p : Nat), PacketWaits rx a s →
    isOwnEid s rx.hdr.dst = false → overtakes s rx a = false → rx.hdr.mcast = false → rx.hdr.code ≠ 0 → rx.hdr.code < 0x40 →
      effClass rx.hdr ≠ 1 →
    networkTurn s rx a = true → window rx (bump a.tenant 0 1 s) = .held pair s' → a.route = some p → portUp s' p = true →
    (eidTenant s' rx.hdr.dst = none ∨ eidTenant s' rx.hdr.dst = some a.tenant) →
    ∃ u b, exec (.packetSwitched rx) s = .next (crossed rx a (enqueue p (queueOf u rx.hdr false a.tenant)
      { hdr := rx.hdr, payload := rx.payload, tenant := a.tenant, pair := pair, buffer := b } u)) ∧
      b = (if a.credited then some (rx.port, a.place) else none) ∧
      (portOf u rx.port).rx.arrived = (portOf s rx.port).rx.arrived.erase { pkt := rx, info := a } ∧
      u.mem = s.mem ∧ u.coh = s.coh ∧ u.eng = s.eng ∧ u.kcp = s.kcp) ∧
  (∀ (rx : RxPkt) (a : Arrival) (s : State), PacketWaits rx a s → rx.hdr.mcast = true → mcastAccepted s rx = true →
    networkTurn s rx a = true → (rx.hdr.code ≠ 0x0A ∨ rx.hdr.barrier = false) →
    exec (.mcastReplicate rx) s = .next (copyOut rx a (crossed rx a s))) ∧
  (∀ (rx : RxPkt) (a : Arrival) (s : State), PacketWaits rx a s → rx.hdr.mcast = true → mcastAccepted s rx = true →
    networkTurn s rx a = true → rx.hdr.code = 0x0A → rx.hdr.barrier = true →
    exec (.fbarRelease rx) s = .next (copyOut rx a (fbarReleaseHere rx.hdr.group (crossed rx a s))))

/-! ### Engines -/

/-- LOAD_PROGRAM and LOAD_CHAIN, of an image that can be read and is sound, under an ID that nothing queued or running uses:
the program or the chain stands in the tenant's store, measured, and the reply carries its digest. -/
def Obligations.ImagesAreLoaded : Prop :=
  (∀ (c : Cmd) (s s' : State) (bs : List Byte) (ws : List Nat), Runs 0x401 c s → frozen s = false →
    let tva := pnum c.params 0 8 % 2 ^ 57 / 128 * 128
    let id := min 63 (pnum c.params 8 1)
    let n := clampTo 1 768 (pnum c.params 10 2)
    let r := clampTo 4 256 (pnum c.params 12 2 / 4 * 4)
    (readByTva c.tenant ((n + 31) / 32) tva [] s).1 ≠ .wait →
    programInUse (takeNumber c s) c.tenant id = false →
    readByTva c.tenant ((n + 31) / 32) tva [] (takeNumber c s) = (.bytes bs, s') →
    checkProgram (wordsOf 4 n bs) r = .ok ws →
    ∃ echo p, exec (.loadProgram c) s = .next (clearGathered c.tenant (answer 0x401 c echo
        (.done stOK (digestBytes p.digest ++ zeros 12))
        { s' with eng.programs := tset none s'.eng.programs (storeKey c.tenant id) (some p) })) ∧
      p.words = ws ∧ p.rowBytes = r ∧ p.digest = sm3 (ws.flatMap (le 4) ++ le 2 r)) ∧
  (∀ (c : Cmd) (s s' : State) (bs : List Byte), Runs 0x402 c s → frozen s = false →
    let tva := pnum c.params 0 8 % 2 ^ 57 / 128 * 128
    let id := min 63 (pnum c.params 8 1)
    let n := clampTo 1 16 (pnum c.params 9 1)
    (readByTva c.tenant n tva [] s).1 ≠ .wait → chainInUse (takeNumber c s) c.tenant id = false →
    readByTva c.tenant n tva [] (takeNumber c s) = (.bytes bs, s') →
    mergesFollow (clampStages 1 (imageLines n bs)) = true →
    ∃ echo ch, exec (.loadChain c) s = .next (clearGathered c.tenant (answer 0x402 c echo
        (.done stOK (digestBytes ch.digest ++ zeros 8))
        { s' with eng.chains := tset none s'.eng.chains (storeKey c.tenant id) (some ch) })) ∧
      ch.stages = clampStages 1 (imageLines n bs) ∧ ch.gates = [] ∧ ch.digest = sm3 (ch.stages.flatMap lineBytes))

/-- SUBMIT on cores of the caller that have room, and RESTART on one of them, queue their shares; CANCEL with nothing of the
command left replies OK with the count of what it ended. -/
def ClaimCommandsQueueShares : Prop :=
  (∀ (c : Cmd) (s : State) (stages : List Line) (gates : Tbl Gate), Runs 0x403 c s →
    let p := submitOf c.params
    let cores := (List.range p.count).map (p.first + ·)
    submitStages s c.tenant p = some (stages, gates) → cores.all (fun k => engineTenant s k == some c.tenant) = true →
    badSignal s c.tenant stages = false → cores.any (coreGone s) = false → cores.any (queueFull s) = false →
    (bightLines gates stages.length).all (fun l => tget 0 s.belay.holders l == 0) = true →
    ∃ sh, RepliesWith 0x403 c stOK (le 2 p.count ++ zeros 2) (queueGang p.first p.count cores sh (journalQueue c cores (takeNumber c s)))
        (exec (.submit c) s) ∧ sh.tenant = c.tenant ∧ sh.stages = stages ∧ sh.gates = gates ∧ sh.startStage = 0 ∧
      sh.startProgress = 0 ∧ sh.origin.session = c.session ∧ sh.origin.seq = c.seq ∧ sh.origin.kind = 0) ∧
  (∀ (c : Cmd) (s : State) (stages : List Line) (gates : Tbl Gate), Runs 0x405 c s →
    let p := submitOf (c.params.drop 32)
    let core := clampTo p.first (p.first + p.count - 1) p.restartCore
    submitStages s c.tenant p = some (stages, gates) → pnum c.params 24 8 = submitCheck p →
    pnum c.params 8 1 < stages.length → engineTenant s core = some c.tenant → badSignal s c.tenant stages = false →
    (List.range p.count).any (fun i => coreGone s (p.first + i)) = false → queueFull s core = false →
    (bightLines gates stages.length).all (fun l => tget 0 s.belay.holders l == 0) = true →
    ∃ sh, RepliesWith 0x405 c stOK [] (queueGang p.first p.count [core] sh (journalQueue c [core] (takeNumber c s)))
        (exec (.restart c) s) ∧
      sh.startStage = pnum c.params 8 1 ∧ sh.startProgress = pnum c.params 16 8 ∧ sh.tenant = c.tenant ∧ sh.stages = stages ∧
      sh.origSeq = pnum c.params 0 8) ∧
  (∀ (c : Cmd) (s : State), Runs 0x404 c s → pnum c.params 8 2 ≠ 0xFFFF →
    let core := min 2047 (pnum c.params 8 2)
    coreGone s core = false → engineTenant s core = some c.tenant →
    let r := cancelOn c.session (pnum c.params 0 8) core (0, takeNumber c s)
    ((coreCtxs (tget {} (settleHome r.2).eng.cores core)).any
      (fun x => ofCommand c.session (pnum c.params 0 8) x.2.share.origin) = false →
      RepliesWith 0x404 c stOK (le 2 r.1 ++ zeros 2) (settleHome r.2) (exec (.cancel c) s)) ∧
    (r.1 ≠ 0 → (coreCtxs (tget {} (settleHome r.2).eng.cores core)).any
      (fun x => ofCommand c.session (pnum c.params 0 8) x.2.share.origin) = true →
      Waits 0x404 c (.cancel (pnum c.params 0 8) [core] r.1) (settleHome r.2) (exec (.cancel c) s)))

/-- A queued gang puts one share at the end of each of its cores' queues, all of the one new gang, with their index from the
first core on; other cores' queues, every context and the pool stay. -/
def Obligations.GangsTakeTheirPlaces : Prop :=
  ∀ (first size : Nat) (cores : List Nat) (sh : Share) (s : State), cores.Nodup →
    let t := queueGang first size cores sh s
    (∀ k ∈ cores, (tget {} t.eng.cores k).queue = (tget {} s.eng.cores k).queue ++
      [{ sh with gang := s.eng.nextGang, index := k - first, size := size }] ∧
      (tget {} t.eng.cores k).ctxs = (tget {} s.eng.cores k).ctxs) ∧
    (∀ k, k ∉ cores → tget {} t.eng.cores k = tget {} s.eng.cores k) ∧ t.eng.nextGang = s.eng.nextGang + 1 ∧
    t.mem = s.mem ∧ t.kcp = s.kcp ∧ t.bind = s.bind ∧ t.fields = s.fields

/-- BULK_COPY that carries one COPY for a core of the sender's tenant with room in its queue is queued there as a share of
its own. -/
def ClaimBulkCopiesAreQueued : Prop :=
  ∀ (rx : RxPkt) (a : Arrival) (s s' : State) (pair : Option Nat), Accepted (withCode 9 rx) a pair s s' → rx.hdr.any = false →
    dOp (rx.payload.headD 0) = 2 → engineTenant s' rx.hdr.core = some a.tenant →
    coreGone s' rx.hdr.core = false → queueFull s' rx.hdr.core = false →
    ∃ sh, exec (.bulkCopy rx) s = .next (queueGang rx.hdr.core 1 [rx.hdr.core] sh s') ∧
      sh.stages = [clampDesc 1 (rx.payload.headD 0)] ∧ sh.tenant = a.tenant ∧ sh.origin.kind = 2 ∧
      sh.origin.session = rx.hdr.src ∧ sh.origin.tag = rx.hdr.tag

/-- Commands for the engines queue their shares, from a session or from an endpoint. -/
def Obligations.EngineCommandsAreQueued : Prop :=
  ClaimCommandsQueueShares ∧ ClaimBulkCopiesAreQueued

/-- A core that takes commands moves the share at the head of its queue into its lowest free context; ENGINE_BANK_SWITCH lets
a core whose contexts have ended take commands again; GATE_TIMEOUT ends a context that has waited its time REVOKED. -/
def ClaimSharesTakeContexts : Prop :=
  (∀ (core : Nat) (s : State), takesCommands s core = true →
    exec (.shareTakesContext core) s = .next (settleHome (settleStops allContexts (takeContext core s)))) ∧
  (∀ (core : Nat) (s : State), (tget {} s.eng.cores core).switchWait = true → runningCtxs s core = 0 →
    ∃ t, exec (.engineBankSwitch core) s = .next t ∧ (tget {} t.eng.cores core).switchWait = false ∧
      { t with eng := { t.eng with cores := s.eng.cores } } = s ∧
      (∀ k, k ≠ core → tget {} t.eng.cores k = tget {} s.eng.cores k)) ∧
  (∀ (core k since : Nat) (x : Ctx) (s : State), ctxOf s core k = some x → x.phase = .gate since →
    since + 16 * (gateOf x).timeout ≤ plmc s →
    ∃ u, exec (.gateTimeout core k) s = .next (settleHome (stopCtx core k stREVOKED u)) ∧ u.eng = s.eng ∧ u.mem = s.mem ∧
      u.belay = s.belay ∧ u.bind = s.bind ∧ (tget 1 u.err.nextSeq 5) = (tget 1 s.err.nextSeq 5 + 1) % 2 ^ 32)

/-- The sequencer of a running context with no tile in work takes its next tile once its pages are translated, and issues its
reads; a page that is in no cache starts or joins a walk and the context waits for it. -/
def ClaimTilesAreTranslated : Prop :=
  ∀ (core k : Nat) (s : State) (x : Ctx), frozen s = false → ctxOf s core k = some x →
    x.phase = .running → x.started = true → x.tilesDone = false → x.tileLen = 0 →
    let d := stageLine x
    let len := (tileFrom s core x d x.tileOff).1
    let ops := (tileFrom s core x d x.tileOff).2
    let y := keepTrans s core x (pagesOf ops)
    let missing := missingPages s core y (pagesOf ops)
    (missing = [] → exec (.tileTranslate core k) s = .next (settleHome (takeTile core k y d len
      (ops.filter (fun o => !o.write)) (lowestCut (ops.filterMap (operandCut s core y))) s))) ∧
    (missing ≠ [] → exec (.tileTranslate core k) s = .next (settleHome (missing.foldl (fun s p =>
      waitForWalk (coreQuadrant core) y.share.tenant p.1 (b2n p.2) (.engine core k) s)
      (putCtx core k (some { y with phase := .walking }) s))))

/-- A context's pool read that its line has come for, in its turn at the strand and at the bridge (R27, R36, R231), is served by
the home; a written line is acknowledged, leaves the context's writes and is counted, and the stage ends when nothing is left;
recomputed scratch lets its context go on. -/
def ClaimContextsAdvance : Prop :=
  (∀ (core k i : Nat) (f : Fetches) (s : State) (t : Tracker) (b : BusyLine) (j : Job),
    readTracker s core k i = some t → busyOf s t.firstLine = some b → b.phase = .fetching → b.job = some j →
    j.tracker = t.id → lineTurn s t.firstLine = true → onChipHeld s t.firstLine = false →
    exec (.engineReadResponse core k i f) s =
      .next (settleHome (pumpReads core 4096 (fetchDone t.firstLine f (lineTaken t.firstLine s))))) ∧
  (∀ (core k : Nat) (s : State) (x : Ctx) (w : EngWrite), ctxOf s core k = some x → frozen s = false →
    x.writes.find? (fun w => w.ready) = some w →
    exec (.engineWriteAck core k) s = .next (settleHome (settleStops allContexts (stageEnd core k
      (putCtx core k (some { { x with writes := x.writes.erase w } with
        linesWritten := x.linesWritten + (if w.kind = 2 then w.bytes / 128 else 1) }) s))))) ∧
  (∀ (core k rung : Nat) (s : State) (x : Ctx), ctxOf s core k = some x → x.phase = .recompute rung →
    dOp (stageLine x) ≠ 6 → ∃ u, exec (.scratchRecomputeComplete core k) s = .next (settleHome (stageStart core k u)) ∧
      ctxOf u core k = some { x with phase := .running, recomputes := x.recomputes + b2n (rung = 1) } ∧ u.mem = s.mem)

/-- Shares take contexts, and contexts go on as their reads, writes and recomputations end. -/
def Obligations.ContextsRunTheirStages : Prop :=
  ClaimSharesTakeContexts ∧ ClaimContextsAdvance

/-- At a slice boundary the arithmetic unit serves the next ready context after the one served last, round-robin, once the
scratch lines that it reads have passed their CRC-16 checks (R236, R262); a line that fails is dealt with in that context.
An upset line is one bit of what the context of its partition holds there; a context that is recomputing its content has
a second mismatch (R265). A child's lists that reach its parent in the same MERGE are merged into the parent's (R250). -/
def ClaimArithmeticServesInTurn : Prop :=
  (∀ (core k : Nat) (x : Ctx) (s : State), frozen s = false → nextReady s core = some (k, x) →
    let u := modCore core (fun y => { y with turn := (k + 1) % 8 }) s
    (linesSound x = true → heldSound x = true → (∀ r, x.phase ≠ .merging r) →
      exec (.arithSliceEnd core none) s = .next (settleHome (settleStops allContexts (serveCtx core k x u)))) ∧
    (linesSound x = true → heldSound x = true → x.phase = .merging 1 →
      exec (.arithSliceEnd core none) s = .next (settleHome (settleStops allContexts (mergeOut core k x u)))) ∧
    (linesSound x = true → heldSound x = true → x.phase = .merging 4 →
      exec (.arithSliceEnd core none) s = .next (settleHome (settleStops allContexts (mergeSend core k x u)))) ∧
    ((linesSound x = false ∨ heldSound x = false) →
      exec (.arithSliceEnd core none) s = .next (settleHome (settleStops allContexts (scratchMismatch core k x u))))) ∧
  (∀ (core l : Nat) (s : State), frozen s = false → exec (.arithSliceEnd core (some l)) s =
    .next (settleHome (settleStops allContexts (serveNext core (scratchUpset core l s))))) ∧
  (∀ (core l : Nat) (x : Ctx) (s : State), ctxOf s core (partitionWith (ctxLog s core) l) = some x →
    ((∀ r, x.phase ≠ .recompute r) → ∃ n, scratchUpset core l s =
      putCtx core (partitionWith (ctxLog s core) l) (some (upsetLine l n x)) { s with draws := s.draws + 1 }) ∧
    (∀ r, x.phase = .recompute r → scratchUpset core l s = scratchMismatch core (partitionWith (ctxLog s core) l) x s)) ∧
  (∀ (core k k' child : Nat) (x y : Ctx) (g : Gang) (s : State), ctxOf s core k = some x → gangOf s x.share.gang = some g →
    gangCtx s g.id (g.first + child) = some (k', y) → frozen s = false → heldSound x = true → heldSound y = true →
      x.stage = y.stage → x.phase = .merging 1 →
    y.phase = .merging 2 → effParent g 12 child = some x.share.index → (g.first + child, k') ≠ (core, k) →
    ∃ u x', exec (.mergeListsReceived core k child) s =
        .next (settleHome (settleStops allContexts (stageEnd (g.first + child) k' u))) ∧ ctxOf u core k = some x' ∧
      x'.arrived = (x.arrived ++ child :: y.arrived).dedup ∧ x'.phase = .merging 1 ∧
      ctxOf u (g.first + child) k' = some { y with phase := .merging 3 } ∧ u.mem = s.mem)

/-- Tiles are translated and the arithmetic unit serves them in turn. -/
def Obligations.TilesAndSlices : Prop :=
  ClaimTilesAreTranslated ∧ ClaimArithmeticServesInTurn

/-! ### Translation, faults and page swaps -/

/-- SET_TABLE_ROOT to an own table and own queues, INVALIDATE and UNPIN_TRANSLATION reply OK and leave no cache entry that
they name as it was; PIN_TRANSLATION of a range that translates and has room pins each of its leaves. -/
def Obligations.TranslationsAreManaged : Prop :=
  (∀ (c : Cmd) (s : State), Runs 0x301 c s →
    (pbit c.params 8 0 = false ∨ inExtents s c.tenant (pnum c.params 0 8 % 2 ^ 41 / 4096 * 4096) 4096 = true) →
    fqTenant s (min 63 (pnum c.params 9 1)) = some c.tenant → fqTenant s (min 63 (pnum c.params 10 1)) = some c.tenant →
    ∃ t n, RepliesWith 0x301 c stOK (le 4 n) t (exec (.setTableRoot c) s) ∧
      rootOf t c.tenant = some (Root.mk (pnum c.params 0 8 % 2 ^ 41 / 4096 * 4096) (pbit c.params 8 0)
        (min 63 (pnum c.params 9 1)) (min 63 (pnum c.params 10 1))) ∧
      (∀ x ∈ t.xlat.cache, x.tenant ≠ c.tenant) ∧ (∀ x ∈ s.xlat.cache, x.tenant ≠ c.tenant → x ∈ t.xlat.cache) ∧
      t.mem = s.mem) ∧
  (∀ (c : Cmd) (s : State), Runs 0x302 c s → frozen s = false →
    (∀ x ∈ s.xlat.cache, x.tenant = c.tenant → x.pinned = false) →
    ∃ t n, ∃ echo, exec (.invalidate c) s = .next (clearGathered c.tenant
        (answer 0x302 c echo (.done stOK (le 4 n ++ le 4 0 ++ le 4 0)) t)) ∧
      (∀ x ∈ t.xlat.cache, x.tenant = c.tenant → pbit c.params 16 0 = false ∧
        overlaps x (rangeParams c.params).1 (rangeParams c.params).2 = false) ∧
      (∀ x ∈ s.xlat.cache, x.tenant ≠ c.tenant → x ∈ t.xlat.cache) ∧
      (∀ w ∈ t.xlat.walks, w.tenant = c.tenant → w.noFill = true) ∧ t.mem = s.mem) ∧
  (∀ (c : Cmd) (s : State), Runs 0x304 c s →
    let r := rangeParams c.params
    let m := if pbits c.params 16 0 4 = 0 then 1 else pbits c.params 16 0 4
    ∃ t n, RepliesWith 0x304 c stOK (le 4 n) t (exec (.unpinTranslation c) s) ∧
      (∀ x ∈ t.xlat.cache, x.tenant = c.tenant → bit m x.quadrant = true → overlaps x r.1 r.2 = true → x.pinned = false) ∧
      t.xlat.cache.length = s.xlat.cache.length ∧ t.mem = s.mem) ∧
  (∀ (c : Cmd) (s s' : State) (ls : List CacheEnt), Runs 0x303 c s → frozen s = false →
    let r := rangeParams c.params
    let m := if pbits c.params 16 0 4 = 0 then 1 else pbits c.params 16 0 4
    (rangeWaits c.tenant (r.1 + r.2) false (r.2 / 4096 + 1) r.1 s).findSome? (fun p => walkWaits c.tenant p.1 p.2 s) = none →
    walkRange c.tenant (r.1 + r.2) false (r.2 / 4096 + 1) r.1 [] (takeNumber c s) = (.leaves ls, s') →
    (quadrantsOf m).all (fun q => decide ((s'.xlat.cache.filter (fun x => x.quadrant == q && x.tenant == c.tenant && x.pinned)).length +
      ls.length ≤ slicePins)) = true →
    ∃ echo, exec (.pinTranslation c) s = .next (clearGathered c.tenant (answer 0x303 c echo (.done stOK (le 4 ls.length))
      ((quadrantsOf m).foldl (fun s q => ls.foldl (fun s x => fillOne { x with quadrant := q, pinned := true } s) s) s')))) ∧
  (∀ (q t tva : Nat) (s s' : State) (w : Walk) (r : Walked),
    s.xlat.walks.find? (fun w => w.quadrant == q && w.tenant == t && w.tva / 4096 == tva / 4096) = some w →
    frozen s = false → walkFor true q t w.tva (w.access != 0) s = (r, s') → r ≠ .wait →
    ∃ u, exec (.tableWalkComplete q t tva) s = .next (w.waiters.foldl (fun s x => wakeWaiter w r x s) u) ∧
      u.xlat.walks = s'.xlat.walks.erase w ∧ (∀ x p, r = .leaf x p → w.noFill = false →
        u = fillWalk x p (clearGathered t { s' with xlat.walks := s'.xlat.walks.erase w }) ∨
        u = clearGathered t (fillWalk x p { s' with xlat.walks := s'.xlat.walks.erase w })))

/-- RESUME_FAULT of an open record of the caller frees it: with ABORT its waiting contexts end FAULT, otherwise they are tried
again. A waiting engine fault takes a record when one is free; a queue drains into its ring; FAULT_POSTED is sent once. -/
def Obligations.FaultRecordsMove : Prop :=
  (∀ (c : Cmd) (s : State) (o : OpenRec), Runs 0x305 c s →
    s.xlat.openRecs.find? (fun r => r.tenant == c.tenant && r.record.id == pnum c.params 0 4) = some o →
    ∃ u, u.xlat.openRecs = s.xlat.openRecs.erase o ∧ u.eng = s.eng ∧
      RepliesWith 0x305 c stOK (le 4 o.waiting.length) (if pbit c.params 4 0 then stopAll o.waiting stFAULT u
        else o.waiting.foldl (fun s w => retryCtx w.1 w.2 s) u) (exec (.resumeFault c) s)) ∧
  (∀ (t : Nat) (s : State) (w : WaitingFault), s.xlat.waitingFaults.find? (fun w => w.tenant == t) = some w →
    openCount s t < openLimit → exec (.faultRecordAllocate t) s = .next (giveRecord t w.core w.ctx w.record
      { s with xlat.waitingFaults := s.xlat.waitingFaults.erase w })) ∧
  (∀ (q : Nat) (s : State), frozen s = false → exec (.faultRecordDrain q) s = .next (drainQueue q 2048 s)) ∧
  (∀ (q a : Nat) (s : State), (queueState s q).postedAt = some a →
    ∃ u, exec (.faultPostedEvent q) s = .next (eventAt 3 q a (fraction s) (fun t => fqTenant s q == some t) [] u) ∧
      (queueState u q).postedAt = none ∧ { u with xlat := { u.xlat with queues := s.xlat.queues } } = s)

/-- PAGE_OUT and PAGE_IN of an own EID, over an own knot and on an Ethernet session where it asks for that, are transfers; a frame
whose tag verifies reaches its transfer and no other frame does; a quiet transfer resends after 256 marks and ends after a watch. -/
def Obligations.PageSwapsRun : Prop :=
  (∀ (op : Nat) (i : Cmd → Instr) (c : Cmd) (s : State), (op, i) ∈ [(0x306, Instr.pageOut), (0x307, Instr.pageIn)] →
    Runs op c s → frozen s = false →
    let bytes := if pbit c.params 8 0 then 0x200000 else 0x10000
    let tva := pnum c.params 0 8 % 2 ^ 57 / bytes * bytes
    (rangeWaits c.tenant (tva + bytes) (op = 0x306) (bytes / 4096 + 1) tva s).findSome?
      (fun p => walkWaits c.tenant p.1 p.2 s) = none →
    (pbit c.params 9 0 = true ∨ eidTenant s (pnum c.params 16 8 / bytes * bytes / 2 ^ 52) = some c.tenant) →
    (pbit c.params 9 1 = true → knotTenant s (pnum c.params 10 2) = some c.tenant) →
    (pbit c.params 9 0 = true → ∀ ss p e, sessionOf s c.session = some ss → ss.path ≠ .link p e) →
    s.xlat.transfers.countP (fun t => t.tenant == c.tenant) < 64 →
    ∃ t echo, t.id = s.xlat.nextTransfer ∧ t.session = c.session ∧ t.seq = c.seq ∧ t.tenant = c.tenant ∧
      t.isOut = decide (op = 0x306) ∧ t.tva = tva ∧ t.size = (if pbit c.params 8 0 then 1 else 0) ∧
      t.ethernet = pbit c.params 9 0 ∧ t.ppas = [] ∧
      exec (i c) s = .next (clearGathered c.tenant (startTransfer t.id
        (answer op c echo (.done stOK (le 4 (t.id % 2 ^ 32) ++ zeros 4)) { takeNumber c s with
          xlat := { s.xlat with transfers := s.xlat.transfers ++ [t], nextTransfer := t.id + 1 } })))) ∧
  (∀ (i : EthInfo) (f : SwapFrm) (s : State) (ss : Session) (t : Transfer), serving s = true → swapSorted s i = true →
    stopped s = false → s.err.fatal = false → sessionOf s f.session = some ss → f.tag = hmacSm3 ss.tagKey (swapBytes f) →
    s.xlat.transfers.find? (fun t => t.session == f.session && t.id % 2 ^ 32 == f.transfer && t.ethernet) = some t →
    exec (.swapFrame i f) s = .next (settleHome (swapFrameIn t f s))) ∧
  (∀ (i : EthInfo) (f : SwapFrm) (s : State) (ss : Session), serving s = true → swapSorted s i = true →
    stopped s = false → s.err.fatal = false → sessionOf s f.session = some ss → f.tag ≠ hmacSm3 ss.tagKey (swapBytes f) →
    ∃ u, exec (.swapFrame i f) s = .next u ∧ { u with fields := s.fields } = s) ∧
  (∀ (id : Nat) (s : State) (t : Transfer), transferOf s id = some t → t.ethernet = true → frozen s = false → t.isOut = true →
    t.lastNew + swapResendMarks ≤ plmc s →
    exec (.swapResendTimer id) s = .next (swapFrameOut t 0 2 (heldBitmap t)
      (modTransfer id (fun x => { x with lastNew := plmc s }) s))) ∧
  (∀ (id : Nat) (s : State) (t : Transfer), transferOf s id = some t → t.ethernet = true → t.lastVerified + watch ≤ plmc s →
    exec (.swapTransferTimeout id) s = .next (endTransfer id (lostTransfer t) s))

/-! ### Records, counters, interrupts, security -/

/-- READ_ERRORS and CLEAR_FIRST_ERROR: the operator's ACK retires records up to it and no others, a tenant receives only
records that name it (R485), and the first-error registers of the named domains are cleared and FATAL left (R488). -/
def Obligations.ErrorRecordsAreReadAndCleared : Prop :=
  (∀ (c : Cmd) (s : State), Runs 0x801 c s → c.tenant = 0 → ∃ t res, RepliesWith 0x801 c stOK res t (exec (.readErrors c) s) ∧
    tget [] t.err.queues (min 9 (pbits c.params 0 0 4)) = (if pnum c.params 8 4 = 0 then
      tget [] s.err.queues (min 9 (pbits c.params 0 0 4)) else
      (tget [] s.err.queues (min 9 (pbits c.params 0 0 4))).filter (fun r => pnum c.params 8 4 < r.seq)) ∧
    t.err.first = s.err.first ∧ t.mem = s.mem) ∧
  (∀ (c : Cmd) (s : State), Runs 0x801 c s → c.tenant ≠ 0 → ∃ rs : List ErrRec, (∀ r ∈ rs, r.tenant = some c.tenant) ∧
    RepliesWith 0x801 c stOK (le 1 rs.length ++ zeros 3 ++ le 4 (tget 1 s.err.nextSeq (min 9 (pbits c.params 0 0 4))) ++
      rs.flatMap recBytes) (takeNumber c s) (exec (.readErrors c) s)) ∧
  (∀ (c : Cmd) (s : State), Runs 0x802 c s →
    let m := if pnum c.params 0 2 % 1024 = 0 then 0x3FF else pnum c.params 0 2 % 1024
    ∃ t, RepliesWith 0x802 c stOK [] t (exec (.clearFirstError c) s) ∧
      (∀ e ∈ t.err.first, bit m e.1 = false) ∧ (∀ d ∈ t.err.order, bit m d = false) ∧
      (∀ d, bit m d = false → tget none t.err.first d = tget none s.err.first d) ∧ t.err.fatal = s.err.fatal ∧
      t.err.queues = s.err.queues)

/-- READ_COUNTERS returns what was latched at the last mark boundary; its CLEAR leaves what has been counted since (R515, R521).
READ_TRACE and READ_AUDIT return what is kept and change nothing; a discrepancy
of a port that is up takes the port to LOST, from where it retrains, in a global stop at RESUME (R493); one of a quadrant is the
quadrant's fault. -/
def Obligations.CountersTracesAndAudits : Prop :=
  (∀ (c : Cmd) (s : State), Runs 0x803 c s → pbits c.params 0 0 2 = 0 →
    let t := if c.tenant = 0 then pbits c.params 1 0 5 else c.tenant
    ∃ u, RepliesWith 0x803 c stOK (le 8 (sampledAt s) ++ bankBytes s.shown.ctr t) u (exec (.readCounters c) s) ∧
      (c.tenant ≠ 0 → u = takeNumber c s) ∧ (c.tenant = 0 → pbit c.params 0 2 = true →
        (∀ e ∈ u.shown.ctr.bank, e.1 / 16 ≠ t) ∧ (∀ e ∈ s.ctr.bank, e.1 / 16 ≠ t → e ∈ u.ctr.bank) ∧
        (∀ e ∈ u.ctr.bank, e.1 / 16 = t → ∃ v, (e.1, v) ∈ s.ctr.bank ∧
          e.2 = (v + 2 ^ 64 - tget 0 s.shown.ctr.bank e.1 % 2 ^ 64) % 2 ^ 64 ∧ e.2 ≠ 0))) ∧
  (∀ (c : Cmd) (s : State) (e : Nat × List Byte) (l : List (Nat × List Byte)), Runs 0x804 c s →
    let t := if c.tenant = 0 then pbits c.params 1 0 5 else c.tenant
    (tget {} s.ctr.trace (32 * pbits c.params 0 0 2 + t)).entries = e :: l →
    ∃ res, RepliesWith 0x804 c stOK (le 4 e.1 ++ res) (takeNumber c s) (exec (.readTrace c) s)) ∧
  (∀ (c : Cmd) (s : State), Runs 0x805 c s → ∃ res, RepliesWith 0x805 c stOK (le 8 (sampledAt s) ++ res) (takeNumber c s)
    (exec (.readAudit c) s)) ∧
  (∀ (k q v : Nat) (s : State), 2 ≤ k → q < 4 → exec (.auditDiscrepancy k q v) s = .next (quadrantFault 9 2 q 0 s)) ∧
  (∀ (k p v : Nat) (s : State), k < 2 → p < 96 → portUp s p = true → beingHandled s 3 p = false →
    ∃ u, exec (.auditDiscrepancy k p v) s = .next (settleHome (if stopped (linkLost p false u) then
          modPort p (fun x => { x with retrainDue := true }) (linkLost p false u)
        else if (linkLost p false u).err.fatal then linkLost p false u
        else startTraining p false (linkLost p false u))) ∧ u.mem = s.mem ∧ (∀ q, (portOf u q).phase = (portOf s q).phase) ∧
      beingHandled u 3 p = true)

/-- INTERRUPT_DELIVERY of the first ready source makes it ACTIVE on the core it goes to; END_OF_INTERRUPT by that core makes it
INACTIVE, or PENDING where it fired meanwhile, and by another core, or of a source that is not active, is counted alone. -/
def Obligations.InterruptsAreDeliveredAndEnded : Prop :=
  (∀ (i core : Nat) (s s' : State), intReady s i = true →
    s.intc.sources.any (fun e => intReady s e.1 && intBefore s e.1 i) = false → intTarget i s = (some core, s') →
    ∃ t, exec (.interruptDelivery i) s = .next t ∧ tget {} t.intc.sources i = { st := .active, core := core } ∧
      t.intc.recent.head? = some core ∧ (∀ j, j ≠ i → tget {} t.intc.sources j = tget {} s'.intc.sources j) ∧ t.mem = s'.mem) ∧
  (∀ (core i : Nat) (s : State), (tget {} s.intc.sources i).core = core →
    ((tget {} s.intc.sources i).st = .active → ∃ t, exec (.endOfInterrupt core i) s = .next t ∧
      (tget {} t.intc.sources i).st = .inactive ∧ { t with intc := { t.intc with sources := s.intc.sources } } = s) ∧
    ((tget {} s.intc.sources i).st = .activePending → ∃ t, exec (.endOfInterrupt core i) s = .next t ∧
      (tget {} t.intc.sources i).st = .pending ∧ { t with intc := { t.intc with sources := s.intc.sources } } = s)) ∧
  (∀ (core i : Nat) (s : State), ((tget {} s.intc.sources i).core ≠ core ∨ (tget {} s.intc.sources i).st = .inactive ∨
    (tget {} s.intc.sources i).st = .pending) → exec (.endOfInterrupt core i) s = .next (bumpDev 8 1 s))

/-- GET_ATTESTATION (R430, R449 to R451): another scope than a tenant's own is DENIED; while the generator does not serve it is
BUSY; otherwise the reply carries the piece at the clamped offset, of at most 896 bytes. A report the session holds for the same
nonce, scope and selection is served again; else it is built now and held: the chain, or the body signed over its digest. -/
def ClaimAttestation : Prop :=
  ∀ (c : Cmd) (s : State) (ss : Session), Runs 0x701 c s → sessionOf s c.session = some ss →
    let nonce := pnum c.params 0 32
    let scope := pbits c.params 36 0 5
    let select := min 1 (pbits c.params 36 5 2)
    let off := pnum c.params 32 4 / 128 * 128
    let echo := fun o => le 32 nonce ++ le 4 o ++ le 1 (scope + 32 * select) ++ zeros 3
    (c.tenant ≠ 0 → scope ≠ c.tenant →
      exec (.getAttestation c) s = .next (answer 0x701 c (echo off) (.done stDENIED []) (takeNumber c s))) ∧
    ((c.tenant = 0 ∨ scope = c.tenant) → s.sec.rngOk = false →
      exec (.getAttestation c) s = .next (answer 0x701 c (echo off) (.done stBUSY []) (takeNumber c s))) ∧
    ((c.tenant = 0 ∨ scope = c.tenant) → s.sec.rngOk = true → ∃ bytes t,
      (let o := min off ((bytes.length - 1) / 128 * 128)
       let piece := (bytes.drop o).take 896
       exec (.getAttestation c) s = .next (answer 0x701 c (echo off) (.whole stOK
         (echo o ++ le 4 bytes.length ++ le 2 piece.length ++ zeros 2 ++ piece)) t)) ∧
      t.mem = s.mem ∧ t.bind = s.bind ∧ t.sec = s.sec ∧ t.fields = s.fields ∧
      (∀ r, ss.report = some r → r.nonce = nonce → r.scope = scope → r.select = select →
        bytes = r.bytes ∧ t = takeNumber c s) ∧
      ((∀ r, ss.report = some r → ¬(r.nonce = nonce ∧ r.scope = scope ∧ r.select = select)) →
        (∃ x, sessionOf t c.session = some x ∧ x.report = some { nonce := nonce, scope := scope, select := select, bytes := bytes }) ∧
        (select = 1 → bytes = certChain ∧ t.draws = s.draws) ∧
        (select = 0 → bytes = reportBody (takeNumber c s) nonce scope ++
          identitySign (sm3 (reportBody (takeNumber c s) nonce scope)) (Config.free s.draws) ∧ t.draws = s.draws + 1)))

/-- SEAL_EXTENT (R434, R435) of an own granted extent that bears no seal, with a place in the tenant's list, begins the seal and
recalls its owned lines; of any other it is DENIED, and on a LOST strand DEGRADED (R476), with no effect. -/
def ClaimSealsBegin : Prop :=
  ∀ (c : Cmd) (s : State), Runs 0x702 c s →
    (extentAt s (pnum c.params 0 8) = none → RepliesWith 0x702 c stDENIED [] (takeNumber c s) (exec (.sealExtent c) s)) ∧
    (∀ e, extentAt s (pnum c.params 0 8) = some e →
      ((e.tenant ≠ c.tenant ∨ e.sealing.isSome = true ∨ e.st ≠ .granted ∨ 1024 ≤ sealsOf s c.tenant) →
        RepliesWith 0x702 c stDENIED [] (takeNumber c s) (exec (.sealExtent c) s)) ∧
      (e.tenant = c.tenant → e.sealing = none → e.st = .granted → sealsOf s c.tenant < 1024 →
        ((strandOf s (ppaStrand e.base)).lostUnit = true →
          RepliesWith 0x702 c stDEGRADED [] (takeNumber c s) (exec (.sealExtent c) s)) ∧
        ((strandOf s (ppaStrand e.base)).lostUnit = false →
          let begun : Seal :=
            { session := c.session, seq := c.seq, length := min (max 1 (pnum c.params 8 8)) (0x200000 * e.granules) }
          RepliesWith 0x702 c stOK [] (recallOwned e (modExtent e.base (fun e => { e with sealing := some begun }) (takeNumber c s)))
            (exec (.sealExtent c) s))))

/-- SEAL_HASH_COMPLETE (R435, R436): with no owned line and no write of the extent left, the digest over its lines is the seal's,
and COMMAND_DONE carries it; where a line reads poisoned or lost, the seal is given up and COMMAND_DONE says POISONED; until then
its owned lines are recalled and nothing is hashed. -/
def ClaimSealsEnd : Prop :=
  ∀ (base : Nat) (s : State) (e : Extent) (x : Seal),
    s.bind.extents.find? (fun e => e.base == base && e.st == .granted) = some e → e.sealing = some x → x.sealedAt = none →
    frozen s = false →
    (sealWaits (recallOwned e s) e = true → exec (.sealHashComplete base) s = .next (recallOwned e s)) ∧
    (sealWaits (recallOwned e s) e = false → ∀ s',
      (∀ ls, hashLines e.tenant ((x.length + 127) / 128) (lineOfPpa e.base) [] (recallOwned e s) = (some ls, s') →
        exec (.sealHashComplete base) s = .next (commandDone x.session x.seq 0x702 stOK
          (zeros 5 ++ digestBytes (sealDigest x.length ls)) (modExtent base (fun e => { e with sealing := some { x with
            sealedAt := some (fmt s'), digest := sealDigest x.length ls } }) s'))) ∧
      (hashLines e.tenant ((x.length + 127) / 128) (lineOfPpa e.base) [] (recallOwned e s) = (none, s') →
        exec (.sealHashComplete base) s = .next (commandDone x.session x.seq 0x702 stPOISONED []
          (modExtent base (fun e => { e with sealing := none }) s'))))

/-- LOAD_EXTENSION (R452, R453): UNLOAD stops the core's module and closes its session, with undefined results; a load whose image
has been read, is of 256 bytes to 2 MiB and bears the operator's signature over its digest replaces the module of its core, BUSY
where the operator has no session left; any other is DENIED and leaves the module. -/
def ClaimModules : Prop :=
  ∀ (c : Cmd) (s : State), Runs 0x703 c s →
    let core := clampTo 6 7 (pnum c.params 8 1)
    let tva := pnum c.params 0 8 % 2 ^ 57 / 128 * 128
    (pbit c.params 9 0 = true →
      let u := stopModule core (takeNumber c s)
      RepliesWith 0x703 c stOK (le 32 (Config.free u.draws) ++ le 4 (Config.free (u.draws + 1))) { u with draws := u.draws + 2 }
        (exec (.loadExtension c) s) ∧ tget none u.sec.ext core = none ∧ (∀ x ∈ u.kcp.sessions, x.module ≠ some core) ∧
      u.mem = s.mem) ∧
    (∀ (s' : State) (bs : List Byte), pbit c.params 9 0 = false → frozen s = false →
      (readByTva 0 (imageLength tva s).2 tva [] s).1 ≠ .wait →
      readByTva 0 (imageLength tva s).2 tva [] (takeNumber c s) = (.bytes bs, s') →
      let len := (imageLength tva s).1
      let d := sm3 (bs.take (len - 64))
      let good := 256 ≤ len ∧ len ≤ 0x200000 ∧ verifies Config.operatorKey d (pnum bs (len - 64) 64) = true
      let full := sessionSlots 0 ≤ s'.kcp.sessions.countP (fun x => x.tenant == 0)
      (¬good → ∃ echo, exec (.loadExtension c) s = .next (clearGathered 0 (answer 0x703 c echo (.done stDENIED []) s'))) ∧
      (good → full → ∃ echo, exec (.loadExtension c) s = .next (clearGathered 0 (answer 0x703 c echo (.done stBUSY []) s'))) ∧
      (good → ¬full → ∃ echo u, exec (.loadExtension c) s =
          .next (clearGathered 0 (answer 0x703 c echo (.done stOK (digestBytes d ++ le 4 (pnum bs 4 4))) u)) ∧
        tget none u.sec.ext core = some (d, pnum bs 4 4) ∧ u.mem = s'.mem ∧ u.bind = s'.bind))

/-- SET_PORT_KEY (R438, R439): the key unwrapped under the session's wrap key goes into the key not in use of the transmitter, of
the receiver, or of both. -/
def ClaimPortKeys : Prop :=
  ∀ (c : Cmd) (s : State) (ss : Session), Runs 0x704 c s → sessionOf s c.session = some ss →
    let key := sm4Unwrap ss.wrapKey (pnum c.params 4 16)
    let p := min 95 (pnum c.params 0 1)
    let dir := min 2 (pbits c.params 1 0 2)
    RepliesWith 0x704 c stOK [] (if dir = 0 then loadTxKey p key (takeNumber c s) else if dir = 1 then loadRxKey p key (takeNumber c s)
      else loadRxKey p key (loadTxKey p key (takeNumber c s))) (exec (.setPortKey c) s)

/-- RNG_HEALTH_PASS, RNG_HEALTH_FAIL and MEASUREMENT_STORE_FAULT (R430, R491, R492): a failed generator stops serving and is handled
until it passes; nested it is rung 3 at device scope. A fault of the measurement store is a device reset, and nested
rung 4. Before a copy of the control firmware serves nothing is handled. -/
def ClaimGeneratorAndStore : Prop :=
  (∀ s : State, ∃ t, exec .rngHealthPass s = .next t ∧ t.sec.rngOk = true ∧
    (∀ h ∈ t.err.handled, ¬(h.2.1 = 0 ∧ h.2.2.1 = 16 * 6 + 1)) ∧
    { t with sec := { t.sec with rngOk := s.sec.rngOk }, err := { t.err with handled := s.err.handled } } = s) ∧
  (∀ s : State, serving s = false → exec .rngHealthFail s = .next { s with sec.rngOk := false } ∧
    exec .measurementStoreFault s = .next s) ∧
  (∀ s : State, serving s = true → beingHandled s 0 (16 * 6 + 1) = false → ∃ t, exec .rngHealthFail s = .next t ∧
    t.sec.rngOk = false ∧ beingHandled t 0 (16 * 6 + 1) = true ∧ t.mem = s.mem ∧ t.boot = s.boot) ∧
  (∀ s : State, serving s = true → beingHandled s 0 (16 * 6 + 1) = true → ∃ u, exec .rngHealthFail s = .next (rung3 3 0 u) ∧
    u.sec.rngOk = false ∧ u.mem = s.mem ∧ u.boot = s.boot) ∧
  (∀ s : State, serving s = true → beingHandled s 0 (16 * 6 + 2) = false → ∃ t, exec .measurementStoreFault s = .next t ∧
    t.boot.deviceLadder = true ∧ (s.boot.deviceResetAt = none → t.boot.deviceResetAt = some (lmc s)) ∧ t.mem = s.mem) ∧
  (∀ s : State, serving s = true → beingHandled s 0 (16 * 6 + 2) = true → ∃ t, exec .measurementStoreFault s = .next t ∧
    t.err.fatal = true ∧ t.pwr.alert = true ∧ t.mem = s.mem ∧ t.boot = s.boot)

/-- Attestation, seals, extension modules, port keys, and what the generator and the measurement store do. -/
def Obligations.SecurityCommands : Prop :=
  ClaimAttestation ∧ ClaimSealsBegin ∧ ClaimSealsEnd ∧ ClaimModules ∧ ClaimPortKeys ∧ ClaimGeneratorAndStore

/-! ### The global stop, the pair, fabric time -/

/-- HALT_AT_MARK arms the stop at the clamped mark; at that mark the device stops and its landing time begins, and at the end
of it the device is HALTED (R505 to R507). -/
def ClaimStopsAreArmedAndTaken : Prop :=
  (∀ (c : Cmd) (s : State), Runs 0x806 c s →
    let m := clampTo (fmt s + 8) (fmt s + 2 ^ 20) (pnum c.params 0 8)
    ∃ t, RepliesWith 0x806 c stOK (le 8 (m + pnum c.params 8 1 + 8)) t (exec (.haltAtMark c) s) ∧ t.halt.st = .armed ∧
      t.halt.mark = m ∧ t.halt.landing = m + pnum c.params 8 1 + 8 ∧ t.mem = s.mem ∧ t.eng = s.eng) ∧
  (∀ s : State, s.halt.st = .armed → (fmt s < s.halt.mark → exec .haltMarkReached s = .next s) ∧
    (s.halt.mark ≤ fmt s → ∃ t, exec .haltMarkReached s = .next t ∧ t.halt.st = .landing ∧ stopped t = true ∧
      t.halt.landing = s.halt.landing ∧ t.mem = s.mem ∧ t.eng = s.eng ∧ t.coh = s.coh)) ∧
  (∀ s : State, s.halt.st = .landing → s.halt.landing ≤ fmt s → ∃ t, exec .landingClose s = .next t ∧ t.halt.st = .halted ∧
    t.mem = s.mem ∧ t.eng = s.eng ∧ t.link = s.link ∧ t.kcp = s.kcp)

/-- RESUME of a halted device waits for its mark and is answered there (R512); before the stop it disarms it, and in a stop
that has not landed, or already resumes, it is BUSY. -/
def ClaimStopsEnd : Prop :=
  (∀ (c : Cmd) (s : State), Runs 0x807 c s → s.halt.st = .halted →
    ∃ t, Waits 0x807 c .resume t (exec (.resume c) s) ∧ t.halt.st = .resuming ∧ t.halt.resumeAt =
      (if pnum c.params 0 8 = 0 then fmt s + 1 else clampTo (fmt s + 1) (fmt s + 1000) (pnum c.params 0 8))) ∧
  (∀ (c : Cmd) (s : State), Runs 0x807 c s → (s.halt.st = .landing ∨ s.halt.st = .resuming) →
    RepliesWith 0x807 c stBUSY [] (takeNumber c s) (exec (.resume c) s)) ∧
  (∀ (c : Cmd) (s : State), Runs 0x807 c s →
    (s.halt.st = .armed → ∃ t, RepliesWith 0x807 c stOK [] t (exec (.resume c) s) ∧ t.halt.st = .running ∧ t.mem = s.mem) ∧
    (s.halt.st = .running → RepliesWith 0x807 c stOK [] (takeNumber c s) (exec (.resume c) s))) ∧
  (∀ s : State, s.halt.st = .resuming → s.halt.resumeAt ≤ fmt s →
    ∃ u v, u = issueHeld (haltState .running (haltPromised s)) ∧
      v = retrainWaiting (issueAgain (passHeldGates (u.halt.parked.foldl (fun s r => unpark r s) { u with halt.parked := [] }))) ∧
      exec .resumeAtMark s =
        .next (boundary ((v.kcp.running.filter (fun r => r.wait == .resume)).foldl (fun s r => finish r stOK [] s) v))) ∧
  (∀ (s : State) (p : Nat), frozen s = false → (issueHeld s).halt.held = [] ∧ (portOf (issueHeld s) p).tx.queue =
    (portOf s p).tx.queue ++ (s.halt.held.filter (fun q => q.1 == p)).map (fun q => (q.2.1, laneOf q.2.2.hdr.code, q.2.2)))

/-- A global stop is armed, taken, landed and resumed. -/
def Obligations.StopsRunTheirCourse : Prop := ClaimStopsAreArmedAndTaken ∧ ClaimStopsEnd

/-- The pair of command processors (R497 to R504): heartbeats go out from both cores, on the mesh with the core's role, and are
heard; a path silent for 8 marks is an error record, both at the standby a takeover, which fences the former active core for 12
marks; then, as after a forced hand-over, that core tests itself and stands by. -/
def Obligations.ThePairHandsOver : Prop :=
  (∀ s : State, serving s = true → s.pair.standby = .ready → s.pair.active < 2 → ∃ t, exec .heartbeatSend s = .next t ∧
    (∀ c < 2, Out.heartbeat c 0 (b2n (c = s.pair.active)) ∈ t.out ∧ Out.heartbeat c 1 0 ∈ t.out) ∧ t.pair.lnyA = !s.pair.lnyA ∧
      t.pair.lnyB = !s.pair.lnyB ∧
    t.pair.heard = s.pair.heard ∧ t.mem = s.mem) ∧
  (∀ (c p : Nat) (s : State), serving s = true → c < 2 → p < 2 → ∃ t, exec (.heartbeatReceived c p) s = .next t ∧
    tget 0 t.pair.heard (2 * c + p) = lmc s ∧ (∀ k, k ≠ 2 * c + p → tget 0 t.pair.heard k = tget 0 s.pair.heard k) ∧
    { t with pair := s.pair } = s) ∧
  (∀ (c p : Nat) (s : State), serving s = true → s.pair.standby = .ready → c < 2 → p < 2 →
    tget 0 s.pair.heard (2 * c + p) + 8 ≤ lmc s → s.pair.reported.contains (2 * c + p) = false →
    (c = s.pair.active ∨ ∃ q < 2, lmc s < tget 0 s.pair.heard (2 * c + q) + 8) → s.pair.active < 2 →
    exec (.heartbeatPathSilent c p) s = .next (recordError { seq := 0, domain := 8, source := 1, rung := 0 } 0 0
      { s with pair.reported := s.pair.reported ++ [2 * c + p] })) ∧
  (∀ s : State, serving s = true → s.err.fatal = false → s.pair.standby = .ready → s.pair.active < 2 →
    (∀ p < 2, tget 0 s.pair.heard (2 * (1 - s.pair.active) + p) + 8 ≤ lmc s) →
    ∃ t, exec .failoverTakeover s = .next t ∧ t.pair.active = 1 - s.pair.active ∧ t.pair.standby = .fenced (lmc s + 12) ∧
      t.pair.failovers = (s.pair.failovers + 1) % 2 ^ 32 ∧ t.pair.lastKind = 1 ∧ t.pair.lastFailover = fmt s ∧
      t.kcp.ring = s.kcp.ring ∧ t.mem = s.mem) ∧
  (∀ (m : Nat) (s : State), s.pair.standby = .fenced m → (lmc s < m → exec .fenceClose s = .next s) ∧
    (m ≤ lmc s → ∃ t, exec .fenceClose s = .next t ∧ t.pair.standby = .testing ∧ t.pair.active = s.pair.active ∧
      t.kcp = s.kcp ∧ t.mem = s.mem)) ∧
  (∀ (c : Cmd) (s : State), Runs 0x808 c s →
    (s.pair.standby = .ready → ∃ t, RepliesWith 0x808 c stOK [] t (exec (.forceFailover c) s) ∧
      t.pair.active = 1 - s.pair.active ∧ t.pair.standby = .testing ∧ t.pair.lastKind = 2 ∧ t.kcp = (takeNumber c s).kcp) ∧
    (s.pair.standby ≠ .ready → RepliesWith 0x808 c stDENIED [] (takeNumber c s) (exec (.forceFailover c) s))) ∧
  (∀ s : State, serving s = true → (s.pair.standby = .testing ∨ s.pair.standby = .ready ∧ s.pair.testAt + 4096 ≤ lmc s) →
    (∃ t, exec (.standbySelftest true) s = .next t ∧ t.pair.standby = .ready ∧ t.pair.failRun = 0 ∧
      t.pair.passes = (s.pair.passes + 1) % 2 ^ 32 ∧ t.pair.active = s.pair.active ∧ t.mem = s.mem) ∧
    (∃ t, exec (.standbySelftest false) s = .next t ∧ t.pair.fails = (s.pair.fails + 1) % 2 ^ 32 ∧
      t.pair.standby = (if 3 ≤ s.pair.failRun + 1 then .none else .testing) ∧ t.pair.active = s.pair.active ∧ t.mem = s.mem)) ∧
  (∀ (c : Cmd) (s : State), Runs 0x809 c s → ∃ res : List Byte, res.length = 64 ∧
    RepliesWith 0x809 c stOK (le 1 s.pair.active ++ res.drop 1) (takeNumber c s) (exec (.readHealth c) s)) ∧
  (∀ s : State, s.pair.standby = .none → s.kcp.ring ≠ [] → s.pair.journalAt + 64 ≤ lmc s →
    ∃ t, exec .controlStall s = .next t ∧ t.err.fatal = true ∧ t.pwr.alert = true ∧ t.mem = s.mem)

/-- Fabric time (R52 to R68): timing blocks and PTP messages of the selected source alone move it; an update within STEP_LIMIT is
accepted, one beyond it is counted and rejected; a Delay_Resp gives the path delay, and one before the epoch is rejected (R63);
what an update decides takes effect at the next mark boundary of FMT, what a timeout decides at the boundary that it is, and
promises close when time is lost. -/
def Obligations.FabricTimeIsKept : Prop :=
  (∀ (port : Nat) (w : Blk) (bad : Bool) (s : State),
    (serving s = false ∨ timeSrc s ≠ 1 ∨ port ≠ timeSrcPort s ∨ bad = true ∨ isType w typeTIMING = false ∨ carriesBlocks s port = false) →
    exec (.timingBlockReceived port w bad) s = .next s) ∧
  (∀ (w : Blk) (s : State) (h : Nat), serving s = true → timeSrc s = 1 → carriesBlocks s (timeSrcPort s) = true →
    isType w typeTIMING = true → s.time.rxHigh = some h → s.time.rxLo.getD 0 ≤ (readTiming w).fmtLo →
    (readTiming w).pieceSel < 3 → (readTiming w).piece = pieceOf h (readTiming w).pieceSel → (readTiming w).state = 1 →
    s.time.st = .locked → s.time.next = none →
    let v := 256 * (h * 2 ^ 32 + (readTiming w).fmtLo) + (readTiming w).fraction + linkDelay s
    ∃ t, exec (.timingBlockReceived (timeSrcPort s) w false) s = .next t ∧ t.time.pos = s.time.pos ∧ t.time.st = .locked ∧
      (((fracUnit * v : Nat) - (s.time.pos : Int)).natAbs ≤ posUnit * stepLimit s → t.time.lastAccept = lmc s ∧
        t.time.badRun = 0 ∧ t.time.rejects = s.time.rejects ∧ -65 ≤ t.time.trim ∧ t.time.trim ≤ 65 ∧ t.time.next = none) ∧
      (posUnit * stepLimit s < ((fracUnit * v : Nat) - (s.time.pos : Int)).natAbs →
        t.time.lastAccept = s.time.lastAccept ∧ t.time.rejects = (s.time.rejects + 1) % 65536) ∧
      { t with time := s.time, draws := s.draws } = s) ∧
  (∀ (port : Nat) (s : State), serving s = true → carriesBlocks s port = true →
    let sel := tget 0 s.time.txPiece port
    exec (.timingBlockTransmit port) s = .next (sendControl port 0
      (timingWord (timeCode s.time.st) (fraction s) (fmt s) sel)
      { s with time.txPiece := tset 0 s.time.txPiece port ((sel + 1) % 3) })) ∧
  (∀ (port d tr : Nat) (a : PtpAnn) (s : State), serving s = true → ethUp s port = true → ptpTakes s port d tr = true →
    let old := s.time.ptp.masters.filter (fun x => x.1.identity != a.identity || x.1.portNumber != a.portNumber || x.2.1 != port)
    exec (.ptpMessage port (.announce d tr a)) s = .next { s with time.ptp.masters := old ++ [(a, port, lmc s)] }) ∧
  (∀ (s : State) (a : PtpAnn), ptpMaster s = some a → a ∈ mastersHeard s ∧
    ((∀ x ∈ mastersHeard s, ∀ y ∈ mastersHeard s, x.grandmaster = y.grandmaster → x = y) →
      ∀ b ∈ mastersHeard s, betterMaster a b = true)) ∧
  (∀ (port d tr idn q sec ns mac ip : Nat) (s : State), serving s = true → ethUp s port = true →
    fromMaster s port d tr idn = true → sec < ptpEpoch s →
    ∃ t, exec (.ptpMessage port (.sync d tr idn q false sec ns mac ip)) s = .next t ∧
      t.time.rejects = (s.time.rejects + 1) % 65536 ∧ t.time.pos = s.time.pos ∧ t.time.lastAccept = s.time.lastAccept ∧
      t.out = .ptpDelayReq port (ethMac s port) mac ((s.time.ptp.requestSeq + 1) % 65536) (ptpFrame s port mac ip) :: s.out) ∧
  (∀ (port d tr idn sec ns t1 t4 left : Nat) (y : PtpSync) (s : State), serving s = true → ethUp s port = true →
    fromMaster s port d tr idn = true → s.time.ptp.lastSync = some y → y.identity = idn → y.origin = some t1 →
    s.time.ptp.requestAt = some left → ptpTime s sec ns = some t4 →
    exec (.ptpMessage port (.delayResp d tr idn s.time.ptp.requestSeq sec ns)) s =
      .next { s with time.ptp.delay := some (idn, (t4 - t1 - (left - y.received)) / 2), time.ptp.requestAt := none }) ∧
  (∀ (port d tr idn sec ns : Nat) (y : PtpSync) (s : State), serving s = true → ethUp s port = true →
    fromMaster s port d tr idn = true → s.time.ptp.lastSync = some y → y.identity = idn → sec < ptpEpoch s →
    exec (.ptpMessage port (.delayResp d tr idn s.time.ptp.requestSeq sec ns)) s =
      .next { s with time.rejects := (s.time.rejects + 1) % 65536 }) ∧
  (∀ s : State, s.time.st = .locked → s.time.next = none → exec .holdoverEntry s = .next
    (if s.time.lastAccept + 16 * gapLimit s ≤ lmc s then
      { s with time.next := some .holdover, time.nextAt := fmt s } else s)) ∧
  (∀ s : State, s.time.st = .holdover → s.time.next = none → s.time.lastAccept + watch ≤ lmc s →
    exec .holdoverExpiry s = .next { s with time.next := some .lost, time.nextAt := fmt s, time.goodRun := 0,
                                            time.badRun := 0 }) ∧
  (∀ (n : TState) (s : State), s.time.next = some n → n ≠ s.time.st →
    (fmt s < s.time.nextAt → exec .timeStateChange s = .next s) ∧
    (s.time.nextAt ≤ fmt s → ∃ t, exec .timeStateChange s = .next t ∧ t.time.st = n ∧ t.time.next = none ∧
      t.time.pos = s.time.pos ∧ t.mem = s.mem ∧ t.time.admitOpen = (if n = .lost then false else s.time.admitOpen) ∧
      (n = .locked → (s.time.st = .unset ∨ s.time.st = .lost) → t.time.openAtWindow = true))) ∧
  (∀ s : State, fmt s / 1024 ≠ s.time.window → ∃ t, exec .admissionWindowBoundary s = .next t ∧ t.time.window = fmt s / 1024 ∧
    t.time.winAdmitted = [] ∧ t.time.winRefused = [] ∧ t.time.admitOpen = (s.time.admitOpen || s.time.openAtWindow) ∧
    { t with time := s.time, fields := s.fields, shown := s.shown } = s) ∧
  (∀ s : State, ∃ q f, exec .markLeaderChange s = .next (boundary { s with time.leader := q, time.following := f }) ∧
    (q < 4 → quadrantRuns s q = true ∧ stillFollows s q = false) ∧
    (∀ p, p < q → p < 4 → quadrantRuns s p = false ∨ stillFollows s p = true) ∧ q ≤ 4 ∧
    (∀ e, e ∈ f ↔ e ∈ s.time.following ∧ lmc s < e.2 + 2))

/-! ### Ports and lanes -/

/-- BRING_UP_LINK of a port that is OFF or LOST, with its lanes free and sealing ready where it is enabled, starts to train
all its lanes at rate 1 (R337, R343); of a port that is up it replies OK. RETRAIN_PORT of a port that is up sends a CHANGE and
of a lost one trains it; SET_PORT_WIDTH sends a CHANGE, or replies OK where the width is in force (R344, R345). Of an absent port
the three are DEGRADED (R476), and of one in a partition held in reset BRING_UP_LINK and RETRAIN_PORT are BUSY (log entry 177). -/
def ClaimPortsAreBroughtUp : Prop :=
  (∀ (c : Cmd) (s : State), Runs 0x601 c s →
    let p := min 95 (pnum c.params 0 1)
    let w := slotWidth p (pbits c.params 1 0 2)
    (portAbsent s p = true → RepliesWith 0x601 c stDEGRADED [] (takeNumber c s) (exec (.bringUpLink c) s)) ∧
    (portAbsent s p = false → portFree s p = false → RepliesWith 0x601 c stBUSY [] (takeNumber c s) (exec (.bringUpLink c) s)) ∧
    (portAbsent s p = false → portFree s p = true → overlapsOther s p w = false → lanesHeld s p w = false →
    (((portOf s p).phase = .off ∨ (portOf s p).phase = .lost) → (sealEnable s p = true → sealReady s p = true) →
      ∃ t tr, Waits 0x601 c (.port p) t (exec (.bringUpLink c) s) ∧ (portOf t p).phase = .lock ∧ portWidthCfg t p = w ∧
        portMaxRate t p = clampTo 1 4 (pbits c.params 1 2 3) ∧ (portOf t p).train = some tr ∧ tr.rate = 1 ∧
        tr.phase = .lock ∧ tr.lanes = List.range (widthLanes w) ∧ tr.bringUp = true ∧
        (∀ l ∈ portLanes p w, (laneState t l).powered = true ∧ (laneState t l).rate = 1) ∧ t.mem = s.mem) ∧
    (portUp s p = true → RepliesWith 0x601 c stOK (bringUpResults s p) (takeNumber c s) (exec (.bringUpLink c) s)))) ∧
  (∀ (c : Cmd) (s : State), Runs 0x602 c s →
    let p := min 95 (pnum c.params 0 1)
    let x := portOf s p
    (portAbsent s p = true → RepliesWith 0x602 c stDEGRADED [] (takeNumber c s) (exec (.retrainPort c) s)) ∧
    (portAbsent s p = false → portFree s p = false → RepliesWith 0x602 c stBUSY [] (takeNumber c s) (exec (.retrainPort c) s)) ∧
    (portAbsent s p = false → portFree s p = true →
    (x.phase = .up → x.change = none → x.backoffUntil = none → x.widthChange = none →
      ∃ t, Waits 0x602 c (.retrain p) t (exec (.retrainPort c) s) ∧ (portOf t p).phase = .change ∧
        (portOf t p).change = some (0, x.width, lmc s, 0) ∧
        t.out = .block (laneId p 0) (trainWord (changeBlk s p 0 0 x.width 0 true)) :: s.out ∧ t.mem = s.mem) ∧
    (x.phase = .lost → (sealEnable s p = true → sealReady s p = true) →
      Waits 0x602 c (.port p) (startTraining p false (forgetDropped p (takeNumber c s))) (exec (.retrainPort c) s)) ∧
    (x.phase = .off → RepliesWith 0x602 c stDENIED [] (takeNumber c s) (exec (.retrainPort c) s)))) ∧
  (∀ (c : Cmd) (s : State), Runs 0x603 c s →
    let p := min 95 (pnum c.params 0 1)
    let x := portOf s p
    let w := slotWidth p (pbits c.params 1 0 2)
    (portAbsent s p = true → RepliesWith 0x603 c stDEGRADED [] (takeNumber c s) (exec (.setPortWidth c) s)) ∧
    (portAbsent s p = false → portUp s p = true → (x.width < w → overlapsOther s p w = false) → x.change = none → x.backoffUntil = none →
    x.widthChange = none →
    (w = x.width → RepliesWith 0x603 c stOK (widthResults s p) (takeNumber c s) (exec (.setPortWidth c) s)) ∧
    (w ≠ x.width → ∃ t, Waits 0x603 c (.width p) t (exec (.setPortWidth c) s) ∧ (portOf t p).phase = .change ∧
      (portOf t p).change = some (1, w, lmc s, 0) ∧ (portOf t p).width = x.width ∧ t.out = .block (laneId p 0)
        (trainWord (changeBlk s p 0 1 w (addedMask s p w) true)) :: s.out ∧ t.mem = s.mem)))

/-- Lanes `first` to `first + count - 1` are held for a test at a rate, and the command waits for its end. -/
def LanesTaken (op first count rate : Nat) (c : Cmd) (s : State) (o : Host.Outcome State Fault Refusal) : Prop :=
  ∃ t w, Waits op c w t o ∧ (∀ l, first ≤ l → l < first + count → (laneState t l).held = true ∧ (laneState t l).rate = rate) ∧
    (∀ l, (l < first ∨ first + count ≤ l) → laneState t l = laneState s l) ∧ t.link.ports = s.link.ports ∧ t.mem = s.mem

/-- A test on such lanes is over: its command replies with a record of 16 bytes a lane, and the lanes are free. -/
def TestOver (r : Running) (first count : Nat) (record : Nat → List Byte) (s : State) (o : Host.Outcome State Fault Refusal) :
    Prop :=
  ∃ t, o = .next (finish r stOK ((List.range count).flatMap record) t) ∧ (∀ i, i < count → (record i).length = 16) ∧
    (∀ l, first ≤ l → l < first + count → (laneState t l).held = false) ∧ t.link.ports = s.link.ports ∧ t.kcp = s.kcp ∧
    t.mem = s.mem

/-- RUN_LOOPBACK and RUN_PRBS hold lanes that no port uses until their time is over; then they reply with 16 bytes a lane and
the lanes are free (R347, R348). A partner's LOOP block is answered, and honoured where far-end loops are allowed. -/
def ClaimLanesAreTested : Prop :=
  (∀ (c : Cmd) (s : State), Runs 0x604 c s →
    let first := min 191 (pnum c.params 0 1)
    let count := min (clampTo 1 4 (pnum c.params 1 1)) (4 - first % 4)
    (∀ l, first ≤ l → l < first + count → portAbsent s (lanePort s l) = false ∧ portFree s (lanePort s l) = true ∧
      laneServes s l = false ∧ (laneState s l).held = false ∧ (laneState s l).farLoop = false) →
    LanesTaken 0x604 first count (if 2 ≤ pbits c.params 2 0 2 then 1 else clampTo 1 4 (pbits c.params 2 2 3)) c s
      (exec (.runLoopback c) s)) ∧
  (∀ (c : Cmd) (s : State), Runs 0x605 c s →
    let first := min 191 (pnum c.params 0 1)
    let count := min (clampTo 1 4 (pnum c.params 1 1)) (4 - first % 4)
    (∀ l, first ≤ l → l < first + count → portAbsent s (lanePort s l) = false ∧ portFree s (lanePort s l) = true ∧
      laneServes s l = false ∧ (laneState s l).held = false ∧ (laneState s l).farLoop = false) →
    LanesTaken 0x605 first count (clampTo 1 4 (pbits c.params 2 2 3)) c s (exec (.runPrbs c) s)) ∧
  (∀ (lane : Nat) (rx : List (List Bool)) (s : State) (r : Running) (first count rate deadline dur : Nat) (p13 : Bool)
    (lp : Option Nat) (no : List Nat), r.wait = .test first count rate deadline lp p13 dur no → deadline ≤ lmc s →
    let record := fun i => testRecord p13 (if testBegun count lp no then rx.getD i [] else [])
    (testOn s true lane = some r → TestOver r first count record s (exec (.loopbackTestEnd lane rx) s)) ∧
    (testOn s false lane = some r → TestOver r first count record s (exec (.prbsTestEnd lane rx) s))) ∧
  (∀ (lane : Nat) (w : Blk) (b : TrainBlk) (s : State), lanesRun s = true → readBlk typeLOOP w = some b →
    testOn s true lane = none →
    (b.ready = true → getField (portReg (lanePort s lane) 0) 25 0 s = 1 → portFree s (lanePort s lane) = true → laneServes s lane = false →
      (laneState s lane).held = false → ∃ t, exec (.loopBlock lane w) s = .next t ∧ (laneState t lane).farLoop = true ∧
        t.out = .block lane (trainWord (loopBlk s lane b.rate true)) :: s.out) ∧
    (b.ready = false → ∃ t, exec (.loopBlock lane w) s = .next t ∧ (laneState t lane).farLoop = false ∧ t.out = s.out))

/-- Ports are brought up, retrained and changed, and their lanes tested, by command. -/
def Obligations.PortAndLaneCommands : Prop := ClaimPortsAreBroughtUp ∧ ClaimLanesAreTested

/-- Locks and markers (R332 to R334): each lock is found and lost; a lane in service that loses one loses its port. -/
def ClaimLocksAreFoundAndLost : Prop :=
  (∀ (l : Nat) (s : State), lanesRun s = true → (laneState s l).powered = true → rawTest (laneState s l) = false →
    exec (.codewordLockAcquired l) s = .next (modLane l (fun x => { x with cwLock := true, badRun := 0 }) s)) ∧
  (∀ (l : Nat) (s : State), lanesRun s = true → (laneState s l).cwLock = true →
    ∃ t, exec (.blockLockAcquired l) s = .next t ∧ (laneState t l).blockLock = true ∧ (laneState t l).cwLock = true ∧
      (∀ k, k ≠ l → laneState t k = laneState s k) ∧ { t with link := s.link, draws := s.draws } = s) ∧
  (∀ (l : Nat) (s : State), lanesRun s = true → (laneState s l).cwLock = true → laneInService s l = false →
    ∃ t, exec (.codewordLockLost l) s = .next t ∧ (laneState t l).cwLock = false ∧ (laneState t l).blockLock = false ∧
      (laneState t l).deskewed = false ∧ getField (0x0010100C + 0x10 * l) 16 0 t =
        min 0xFFFF (getField (0x0010100C + 0x10 * l) 16 0 s + (8 - min 8 (laneState s l).badRun)) ∧
          t.link.ports = s.link.ports ∧ t.mem = s.mem) ∧
  (∀ (l : Nat) (s : State), lanesRun s = true → (laneState s l).blockLock = true → laneInService s l = false →
    ∃ t, exec (.blockLockLost l) s = .next t ∧ (laneState t l).blockLock = false ∧
      (laneState t l).cwLock = (laneState s l).cwLock ∧ t.link.ports = s.link.ports ∧ t.mem = s.mem) ∧
  (∀ (l : Nat) (s : State), lanesRun s = true → laneInService s l = true →
    ((laneState s l).cwLock = true → ∃ u, exec (.codewordLockLost l) s =
      .next (settleHome (linkLost (lanePort s l) true u)) ∧ u.link.ports = s.link.ports) ∧
    ((laneState s l).blockLock = true → ∃ u, exec (.blockLockLost l) s =
      .next (settleHome (linkLost (lanePort s l) true u)) ∧ u.link.ports = s.link.ports)) ∧
  (∀ (l place : Nat) (w : Blk) (ds : List (Option Nat)) (s : State), lanesRun s = true → (laneState s l).cwLock = true →
    let u := countCodewords l ds s
    getField (0x0010100C + 0x10 * l) 16 0 u = min 0xFFFF (getField (0x0010100C + 0x10 * l) 16 0 s + ds.countP (·.isNone)) ∧
    (readMarker w = none → exec (.markerBlock l w place ds) s = .next u) ∧
    (∀ c i, readMarker w = some (c, i) → (laneState s l).blockLock = true → l = laneId (lanePort s l) i →
      exec (.markerBlock l w place ds) s =
        .next (alignLanes (lanePort s l) c (modLane l (fun x => { x with marker := some (c, place) }) u)))) ∧
  (∀ (p c : Nat) (s : State) (m : Nat × Nat), m ∈ markedLanes s p c → ∃ first, (∃ y ∈ markedLanes s p c, y.2 = first) ∧
    (∀ y ∈ markedLanes s p c, first ≤ y.2) ∧ (laneState (alignLanes p c s) m.1).skew = min 255 (m.2 - first) ∧
    (laneState (alignLanes p c s) m.1).deskewed = decide (m.2 - first ≤ 128))

/-- Training (R336 to R341): good TRAIN blocks on the lead lane move LOCK on; VERIFY ends in AGREE with the lanes that passed,
or at rate 1 without the lead lane in OFF; a phase over its limit falls back; a rate begins after 16 marks of silence. -/
def ClaimTrainingGoesOn : Prop :=
  (∀ (l : Nat) (w : Blk) (eye : Bool) (wants : Nat × Nat × Nat) (s : State),
    (readBlk typeTRAIN w = none ∨ (laneState s l).powered = false) → exec (.trainBlockReceived l w eye wants) s = .next s) ∧
  (∀ (l p : Nat) (w : Blk) (b : TrainBlk) (eye : Bool) (wants : Nat × Nat × Nat) (s : State) (t : Train), lanesRun s = true →
    readBlk typeTRAIN w = some b → (laneState s l).powered = true → trainingOf s l = some (p, true, t) → t.phase = .lock →
      t.lead = l - portLane0 (lanePort s l) →
    t.stepTo = none → l = laneId p t.lead → p = lanePort s l → laneLocked s l = true → t.last = some (blkKey b) → 7 ≤ t.run →
    t.rate = 1 → ∃ u v, exec (.trainBlockReceived l w eye wants) s = .next u ∧ (portOf u p).phase = .verify ∧
      (portOf u p).train = some v ∧ v.phase = .verify ∧ v.lanes = t.lanes.filter (fun i => laneLocked s (laneId p i)) ∧
      v.partnerMax = b.maxRate ∧ (portOf u p).partnerEid = b.eid ∧ u.mem = s.mem) ∧
  (∀ (p : Nat) (s : State) (t : Train), lanesRun s = true → (portOf s p).train = some t →
    t.phase = .verify → t.since + 1024 ≤ lmc s → t.lanes.contains t.lead = true →
    let good := fun i => lanePasses s p i t.rate (decide (t.lanes.length = 1))
    (good t.lead = true → ∃ u v, exec (.verifyEnd p) s = .next u ∧ (portOf u p).train = some v ∧ v.phase = .agree ∧
      (portOf u p).phase = .agree ∧ v.lanes = t.lanes.filter (fun i => i == t.lead || good i) ∧
      (portOf u p).dropped = (portOf s p).dropped ++ t.lanes.filter (fun i => i != t.lead && !good i) ∧ v.rate = t.rate ∧ u.mem = s.mem) ∧
    (good t.lead = false → t.rate = 1 → ∃ u, exec (.verifyEnd p) s = .next u ∧ (portOf u p).phase = .off ∧
      (portOf u p).train = none ∧ (portOf u p).failReason = 2 ∧ u.mem = s.mem)) ∧
  (∀ (p n : Nat) (main : Bool) (s : State) (t : Train), lanesRun s = true → portTraining s p = some (main, t) →
    phaseLimit t = some n → t.stepTo = none → n ≤ lmc s → exec (.trainPhaseTimeout p) s =
      .next (if t.phase = .equalise then trainPhase p main t .verify s else fallBack p main t 1 s)) ∧
  (∀ (p r since : Nat) (s : State) (t : Train), lanesRun s = true → (portOf s p).train = some t → t.stepTo = some (r, since) →
    (lmc s < since + 16 → exec (.rateStep p) s = .next s) ∧
    (since + 16 ≤ lmc s → ∃ u v, exec (.rateStep p) s = .next u ∧ (portOf u p).phase = .lock ∧ (portOf u p).train = some v ∧
      v.rate = r ∧ v.lanes = t.lanes ∧ v.stepTo = none ∧ (∀ i ∈ t.lanes, (laneState u (laneId p i)).rate = r) ∧ u.mem = s.mem)) ∧
  (∀ (p : Nat) (s : State), lanesRun s = true → (portOf s p).phase = .lost → getField (portReg p 0) 26 0 s = 1 →
    ((lmc s < (portOf s p).lostAt + 16 ∨ stopped s = true ∨ portFree s p = false) → exec (.autoRetrain p) s = .next s) ∧
    ((portOf s p).lostAt + 16 ≤ lmc s → stopped s = false → portFree s p = true →
      exec (.autoRetrain p) s = .next (startTraining p false s)))

/-- Changes of a port in service (R344 to R346): the partner's agreement is followed, its own CHANGE is answered, of two
that meet the end with the lower EID leads, silence of
64 marks is BUSY, a back-off ends with the CHANGE sent again, lanes that do not come are given up after 12,288 marks, and
the transmitter switches at its mark. -/
def ClaimChangesComeThrough : Prop :=
  (∀ (p : Nat) (w : Blk) (b : TrainBlk) (s : State) (ch : Nat × Nat × Nat × Nat), lanesRun s = true → portUp s p = true →
    readBlk typeCHANGE w = some b → (portOf s p).change = some ch → (portOf s p).backoffUntil = none →
    (b.kind = ch.1 → (b.kind = 0 ∨ b.width = ch.2.1) →
      (b.ready = false → exec (.changeBlock p w false) s = .next (abandonChange p stDENIED s)) ∧
      (b.ready = true → exec (.changeBlock p w false) s = .next (followChange p ch.1 ch.2.1 s))) ∧
    (b.ready = true →
      (localEid s p < b.eid → exec (.changeBlock p w true) s = .next s) ∧
      (b.eid < localEid s p → exec (.changeBlock p w true) s = .next (answerChange p b (abandonChange p stBUSY s))) ∧
      (b.eid = localEid s p → exec (.changeBlock p w true) s = .next (collide p ch s)))) ∧
  (∀ (p : Nat) (w : Blk) (b : TrainBlk) (own : Bool) (s : State), lanesRun s = true → portUp s p = true →
    readBlk typeCHANGE w = some b → (portOf s p).change = none → b.ready = true →
    exec (.changeBlock p w own) s = .next (answerChange p b s)) ∧
  (∀ (p : Nat) (s : State) (ch : Nat × Nat × Nat × Nat), lanesRun s = true → (portOf s p).change = some ch →
    ((portOf s p).backoffUntil = none → ch.2.2.1 + 64 ≤ lmc s →
      exec (.changeAnswerTimeout p) s = .next (abandonChange p stBUSY s)) ∧
    (∀ u, (portOf s p).backoffUntil = some u → u ≤ lmc s → ∃ t, exec (.changeBackoff p) s = .next t ∧
      (portOf t p).backoffUntil = none ∧ (portOf t p).change = some (ch.1, ch.2.1, lmc s, ch.2.2.2) ∧
      t.out = .block (laneId p 0) (trainWord (changeBlk s p 0 ch.1 ch.2.1 (if ch.1 = 1 then addedMask s p ch.2.1 else 0)
        true)) :: s.out ∧ t.mem = s.mem)) ∧
  (∀ (p w since : Nat) (s : State), lanesRun s = true → (portOf s p).widthChange = some (.adding w since) →
    since + 12288 ≤ lmc s → ∃ t, exec (.newLanesTimeout p) s = .next (endChange p stDEGRADED (widthResults t p) t) ∧
      (portOf t p).widthChange = none ∧ (portOf t p).width = (portOf s p).width ∧
      (∀ i ∈ addedLanes s p w, (laneState t (laneId p i)).powered = false) ∧ t.mem = s.mem) ∧
  (∀ (p w a old : Nat) (got : List Nat) (s : State), lanesRun s = true →
    (portOf s p).widthChange = some (.switching w a old false got) →
    (lmc s < a + 1025 → exec (.widthSwitch p) s = .next s) ∧
    (a + 1025 ≤ lmc s → ∃ t, exec (.widthSwitch p) s = .next t ∧ (portOf t p).width = w ∧
      (portOf t p).widthChange = (if (List.range (widthLanes old)).all got.contains then none
        else some (.switching w a old true got)) ∧ t.mem = s.mem))

/-- What happens to lanes and ports by itself: locks, training, changes. -/
def Obligations.LanesAndPortsFollowTheirEvents : Prop :=
  ClaimLocksAreFoundAndLost ∧ ClaimTrainingGoesOn ∧ ClaimChangesComeThrough

/-! ### The link layer and the switch -/

/-- Flits received (R351, R357, R368): a bad one is counted and discarded, one held already or too far ahead is discarded; one
that is ahead of a gap is held and the gap is asked for; the next one of a packet joins it and brings its credit, and an
ABORT ends the packet and gives its credits back. -/
def ClaimFlitsAreReceived : Prop :=
  (∀ (p : Nat) (s : State), linkRuns s p = true → ∃ t, exec (.badFlit p) s = .next t ∧
    getField (portReg p 0x14) 16 0 t = min 0xFFFF (getField (portReg p 0x14) 16 0 s + 1) ∧ { t with fields := s.fields } = s) ∧
  (∀ (p : Nat) (ws : List Blk) (f : Flit) (s : State), linkRuns s p = true → flitIn ws = some f →
    (kindOf f = none → exec (.sequencedFlit p ws) s = exec (.badFlit p) s) ∧
    (kindOf f = some .linkCtl → exec (.sequencedFlit p ws) s = exec (.linkCtlFlit p (ctlOf f.body)) s)) ∧
  (∀ (p : Nat) (ws : List Blk) (f : Flit) (k : FlitKind) (s : State), linkRuns s p = true → s.err.fatal = false →
    flitIn ws = some f → kindOf f = some k → k ≠ .linkCtl →
    ((511 < ahead (portOf s p).rx.expect f.seq ∨ (portOf s p).rx.splice.any (fun g => g.seq == f.seq) = true) →
      ∃ t, exec (.sequencedFlit p ws) s = .next t ∧ { t with fields := s.fields } = s) ∧
    ((portOf s p).rx.expect < 1048576 → f.seq ≠ (portOf s p).rx.expect →
      ahead (portOf s p).rx.expect f.seq ≤ 511 → (portOf s p).rx.splice.any (fun g => g.seq == f.seq) = false →
      (portOf s p).rx.splice.any (fun g => g.seq == (portOf s p).rx.expect) = false → (portOf s p).sealActive = false →
      ∃ t, exec (.sequencedFlit p ws) s = .next t ∧ (portOf t p).rx.expect = (portOf s p).rx.expect ∧
        (portOf t p).rx.splice = (portOf s p).rx.splice ++ [f] ∧ (portOf t p).rx.partialPkt = (portOf s p).rx.partialPkt ∧
        (∀ i, i < ahead (portOf s p).rx.expect f.seq →
          (portOf t p).rx.splice.any (fun g => g.seq == (((portOf s p).rx.expect + i) % 1048576)) = true ∨
          (portOf t p).rx.asked.any (fun a => a.1 == (((portOf s p).rx.expect + i) % 1048576)) = true) ∧ t.mem = s.mem)) ∧
  (∀ (p : Nat) (ws : List Blk) (f : Flit) (b : FlitBody) (l : List FlitBody) (s : State), linkRuns s p = true →
    s.err.fatal = false → flitIn ws = some f → kindOf f = some .packet → f.seq = (portOf s p).rx.expect →
    (portOf s p).rx.splice = [] →
    (portOf s p).sealActive = false → (portOf s p).rx.partialPkt = b :: l →
    (b :: l).length + 1 < pktFlits (pktOf (b :: l ++ [f.body])).1.granules →
    ∃ t, exec (.sequencedFlit p ws) s = .next t ∧ (portOf t p).rx.expect = (f.seq + 1) % 1048576 ∧
      (portOf t p).rx.partialPkt = b :: l ++ [f.body] ∧ (portOf t p).rx.splice = [] ∧ (portOf t p).tx.credits =
        (if f.credVc = 0 then (portOf s p).tx.credits else vcAdd (f.credVc - 1) f.credN (portOf s p).tx.credits) ∧
      t.mem = s.mem ∧ t.kcp = s.kcp) ∧
  (∀ (p seq : Nat) (b : FlitBody) (l : List FlitBody) (s : State), linkRuns s p = true → s.err.fatal = false →
    (portOf s p).sealActive = false → (portOf s p).rx.splice = [] → seq = (portOf s p).rx.expect → seq < 1048576 →
    (portOf s p).rx.partialPkt = b :: l → ∃ t, exec (.abortFlit p seq) s = .next t ∧ (portOf t p).rx.partialPkt = [] ∧
      (portOf t p).rx.expect = (seq + 1) % 1048576 ∧ (let h := (pktOf (b :: l)).1
        (h.code ≠ 0 ∨ h.granules ≠ 0) → (portOf s p).rx.head.any (fun x => x.2.started || x.2.freed != 0) = false →
        (portOf t p).rx.owed = vcAdd (codeVc h.code) (pktFlits h.granules) (portOf s p).rx.owed) ∧
      getField (portReg p 0x18) 8 0 t = min 0xFF (getField (portReg p 0x18) 8 0 s + 1) ∧ t.mem = s.mem)

/-- Acknowledgement, retransmission and silence (R355, R358): an ACK frees the flits before it, what a NAK names and is still
held is to be sent again, what stays missing is asked for again, and without a link control flit the link is lost. -/
def ClaimFlitsAreAcknowledged : Prop :=
  (∀ (p : Nat) (m : LinkCtl) (s : State) (r : TxFlit) (l : List TxFlit), linkRuns s p = true → (portOf s p).tx.replay = r :: l →
    ahead r.flit.seq (m.ack % 1048576) ≤ (r :: l).length → ∃ t, exec (.linkCtlFlit p m) s = .next t ∧
      (portOf t p).tx.replay = (r :: l).drop (ahead r.flit.seq (m.ack % 1048576)) ∧ (portOf t p).rx.lastCtl = lmc s ∧
      (∀ e ∈ m.naks, ∀ i, i < e.2 → (portOf t p).tx.replay.any (fun r => r.flit.seq == (e.1 + i) % 1048576) = true →
        (e.1 + i) % 1048576 ∈ (portOf t p).tx.resend) ∧ t.mem = s.mem ∧ t.kcp = s.kcp) ∧
  (∀ (p n since : Nat) (s : State), linkRuns s p = true → (n, since) ∈ (portOf s p).rx.asked → since + nakWait s p ≤ lmc s →
    ∃ t, exec (.nakWaitExpiry p) s = .next t ∧ n ∈ (portOf t p).rx.nakDue ∧
      (n ∉ (portOf s p).rx.nakDue → (portOf t p).tx.ctlDue = true) ∧ t.mem = s.mem) ∧
  (∀ (p : Nat) (s : State), linkRuns s p = true →
    ((portOf s p).rx.unacked ≠ 0 → ((portOf s p).rx.ackedAt + 1 ≤ lmc s ∨ 32 ≤ (portOf s p).rx.unacked) →
      exec (.ackInterval p) s = .next (modTx p (fun t => { t with ctlDue := true }) s)) ∧
    ((portOf s p).tx.keepaliveAt + 16 ≤ lmc s →
      exec (.ackKeepalive p) s = .next (modTx p (fun t => { t with ctlDue := true }) s)) ∧
    (∀ r l, (portOf s p).tx.replay = r :: l → (portOf s p).tx.ackProgressAt + ackTimeoutMarks s p ≤ lmc s →
      ∃ t, exec (.ackTimeout p) s = .next t ∧ r.flit.seq ∈ (portOf t p).tx.resend ∧
        (portOf t p).tx.ackProgressAt = lmc s ∧ (portOf t p).tx.replay = r :: l ∧ t.mem = s.mem) ∧
    ((portOf s p).rx.lastCtl + silenceMarks s p ≤ lmc s →
      exec (.linkSilence p) s = .next (settleHome (linkLost p true s))))

/-- What a port sends (R356, R359, R364): link control first, then what is to be sent again, then new flits while the replay
buffer has room, and with none ready an IDLE block; owed credits leave with a NULL packet where no other flit carries
them. -/
def ClaimFlitsAreSent : Prop :=
  (∀ (p : Nat) (s : State), linkRuns s p = true → (portOf s p).tx.ctlDue = true → ∃ t naks, exec (.transmitFlit p) s = .next t ∧
    t.out = .flit p (mkFlit .linkCtl 0 0 0
      (ctlBody { ack := (portOf s p).rx.expect, nextSeq := (portOf s p).tx.nextSeq, naks := naks })) :: s.out ∧
    (portOf t p).tx.replay = (portOf s p).tx.replay ∧ (portOf t p).rx.unacked = 0 ∧ (portOf t p).tx.keepaliveAt = lmc s) ∧
  (∀ (p n : Nat) (l : List Nat) (s : State) (r : TxFlit), linkRuns s p = true → (portOf s p).tx.ctlDue = false →
    s.err.fatal = false → (portOf s p).tx.resend = n :: l →
    (portOf s p).tx.replay.find? (fun r => r.flit.seq == n) = some r → r.sent ≤ retryLimit s p →
    ∃ t, exec (.transmitFlit p) s = .next t ∧ t.out = .flit p r.flit :: s.out ∧ n ∉ (portOf t p).tx.resend ∧
      (portOf t p).tx.nextSeq = (portOf s p).tx.nextSeq ∧ t.mem = s.mem) ∧
  (∀ (p : Nat) (s s' : State) (e : Nat × Nat × TxPkt), linkRuns s p = true → (portOf s p).tx.ctlDue = false →
    s.err.fatal = false → (portOf s p).tx.resend = [] → (portOf s p).tx.replay.length < 512 → (portOf s p).sealActive = false →
    3 ≤ (portOf s p).tx.grantsSent → (portOf s p).tx.inProgress = none → 3 ≤ (portOf s p).rx.grants →
    schedule p s = (some e, s') → exec (.transmitFlit p) s = .next (startPacket p e s')) ∧
  (∀ (p : Nat) (s s' : State), linkRuns s p = true → (portOf s p).tx.ctlDue = false → (portOf s p).tx.resend = [] →
    (portOf s p).tx.replay.length < 512 → (portOf s p).sealActive = false → 3 ≤ (portOf s p).tx.grantsSent →
    (portOf s p).tx.inProgress = none → schedule p s = (none, s') →
    exec (.transmitFlit p) s = .next (deal p [idleWord] s)) ∧
  (∀ (p : Nat) (s : State) (v n : Nat), linkRuns s p = true → s.err.fatal = false → (portOf s p).tx.ctlDue = false →
    flitReady s p = false → (portOf s p).tx.replay.length < 512 → (portOf s p).sealActive = false →
      creditDue (portOf s p) = (v + 1, n) → ∃ t f, exec (.creditNullPacket p) s = .next t ∧
      t.out = .flit p f :: s.out ∧ f.credVc = v + 1 ∧ f.credN = n ∧ f.body = 0 ∧ f.seq = (portOf s p).tx.nextSeq ∧
      (portOf t p).rx.owed = vcSub v n (portOf s p).rx.owed ∧ t.mem = s.mem)

/-- What stands on a lane reads back as what was sent (R334, R336, R350 to R353, R355): a TRAIN, CHANGE or LOOP block, a marker,
a timing block, a flit in its 33 data blocks, and the body of a link control flit, at every value that their fields admit. -/
def ClaimBlocksReadBack : Prop :=
  (∀ b : TrainBlk, b.type < 256 → b.rate < 8 → b.maxRate < 8 → b.lane < 4 → b.lanesOk < 16 → b.width < 4 → b.eid < 4096 →
    b.cls < 16 → b.reqPre < 4 → b.reqMain < 4 → b.reqPost < 4 → b.statPre < 4 → b.statMain < 4 → b.statPost < 4 →
    b.kind < 2 → b.phase < 4 → readBlk b.type (trainWord b) = some b) ∧
  (∀ count lane : Nat, count < 256 → lane < 4 → readMarker (markerWord count lane) = some (count, lane)) ∧
  (∀ st frac fmt sel : Nat, st < 4 → frac < 256 → sel < 4 → isType (timingWord st frac fmt sel) typeTIMING = true ∧
    readTiming (timingWord st frac fmt sel) =
      { state := st, fraction := frac, fmtLo := fmt % 2 ^ 32, pieceSel := sel, piece := pieceOf (fmt / 2 ^ 32) sel }) ∧
  (∀ f : Flit, f.seq < 2 ^ 20 → f.credN < 2 ^ 10 → f.credVc < 4 → f.crc < 2 ^ 32 → flitIn (flitBlocks f) = some f) ∧
  (∀ m : LinkCtl, m.ack < 2 ^ 20 → m.nextSeq < 2 ^ 20 → m.naks.length ≤ 60 → (∀ e ∈ m.naks, e.1 < 2 ^ 20 ∧ e.2 < 2 ^ 8) →
    ctlOf (ctlBody m) = m)

/-- The link layer receives, acknowledges and sends flits, and what it puts on its lanes reads back. -/
def Obligations.TheLinkLayerRuns : Prop :=
  ClaimFlitsAreReceived ∧ ClaimFlitsAreAcknowledged ∧ ClaimFlitsAreSent ∧ ClaimBlocksReadBack

/-- The switch's tables (R383 to R388, R393, R399, R400): the version that is not active is loaded once it has drained, a flip
waits for the next FMT boundary and is answered there, groups are set over the ports of their tenant, and congestion counts are
latched once in every interval of FMT and read. A forward record that is too old is answered for; BULK_COPY's is not. -/
def Obligations.SwitchTablesAreManaged : Prop :=
  (∀ (c : Cmd) (s : State), Runs 0x606 c s →
    let ver := pbits c.params 0 0 1
    let first := min 4095 (pnum c.params 2 2)
    let count := min (clampTo 1 480 (pnum c.params 4 2)) (4096 - first)
    (ver = s.sw.active → RepliesWith 0x606 c stDENIED [] (takeNumber c s) (exec (.loadRoutes c) s)) ∧
    (ver ≠ s.sw.active → s.sw.drained = false → RepliesWith 0x606 c stBUSY [] (takeNumber c s) (exec (.loadRoutes c) s)) ∧
    (s.sw.active < 2 → ver ≠ s.sw.active → s.sw.drained = true → ∃ t, Waits 0x606 c (.load ver) t (exec (.loadRoutes c) s) ∧
      (∀ e, routeIn t s.sw.active e = routeIn s s.sw.active e) ∧
      (∀ e, (e < first ∨ first + count ≤ e) → routeIn t ver e = routeIn s ver e) ∧
      (∀ i, i < count → routeIn t ver (first + i) = (let w := pnum c.params (8 + 2 * i) 2
        if w / 2 ^ 15 % 2 = 1 then some (min 95 (w % 128)) else none)) ∧ t.mem = s.mem)) ∧
  (∀ s : State, heldInReset s = false → (marked s).err.partitionDue = [] → auditNow (marked s) = [] →
    ∃ w, w.kcp = s.kcp ∧ w.link = s.link ∧ (tick s).kcp = ((s.kcp.running.filter (fun r => r.wait == .load 0 || r.wait == .load 1)).foldl
      (fun s r => finish r stOK [] s) w).kcp) ∧
  (∀ (c : Cmd) (s : State), Runs 0x607 c s → loadRuns s (pbits c.params 0 0 1) = false →
    (pbits c.params 0 0 1 = s.sw.active → RepliesWith 0x607 c stOK (le 8 s.sw.lastFlip) (takeNumber c s) (exec (.flipRouteEpoch c) s)) ∧
    (pbits c.params 0 0 1 ≠ s.sw.active → ∃ t, Waits 0x607 c (.flip (pbits c.params 0 0 1)) t (exec (.flipRouteEpoch c) s) ∧
      t.sw.flipTo = some (pbits c.params 0 0 1) ∧ t.sw.flipAsked = fmt s ∧ t.sw.active = s.sw.active)) ∧
  (∀ (v : Nat) (s : State), s.sw.flipTo = some v → s.sw.flipAsked = fmt s → exec .routeEpochFlipApply s = .next s) ∧
  (∀ (v : Nat) (s : State), s.sw.flipTo = some v → s.sw.flipAsked ≠ fmt s → ∃ t, t.sw.active = v ∧ t.sw.flipTo = none ∧
    t.sw.lastFlip = fmt s ∧
    t.sw.drained = false ∧ { t with sw := s.sw } = s ∧ exec .routeEpochFlipApply s =
      .next (boundary ((s.kcp.running.filter (fun r => r.wait == .flip v)).foldl
        (fun s r => finish r stOK (le 8 s.sw.lastFlip) s) t))) ∧
  (∀ s : State, s.sw.lastOld + routeQuiet s ≤ lmc s → (s.sw.everFlipped = true → s.sw.lastFlipLmc + routeQuiet s ≤ lmc s) →
    exec .routeDrained s = .next (if oldHeld s = 0 then { s with sw.drained := true } else s)) ∧
  (∀ (c : Cmd) (s : State), Runs 0x608 c s →
    let g := min 4095 (pnum c.params 0 2)
    let t := pbits c.params 2 0 5
    streamUses s g = false → fbarArrived s g = 0 →
    (pbit c.params 2 5 = false → ((tget {} s.sw.groups g).assigned = true → (tget {} s.sw.groups g).tenant = t) →
      (∀ p < 96, bit (pnum c.params 8 12) p = true → portTenant s p = some t ∨ portTenant s p = none) →
      ∃ u, RepliesWith 0x608 c stOK [] u (exec (.setMcastGroup c) s) ∧ groupTenant u g = some t ∧
        (tget {} u.sw.groups g).mask = pnum c.params 8 12 ∧ (tget {} u.sw.groups g).members = clampTo 1 4095 (pnum c.params 4 2) ∧
        (∀ j, j ≠ g → tget {} u.sw.groups j = tget {} s.sw.groups j) ∧ u.fields = s.fields ∧ u.mem = s.mem) ∧
    (pbit c.params 2 5 = true → ∃ u, RepliesWith 0x608 c stOK [] u (exec (.setMcastGroup c) s) ∧ groupTenant u g = none)) ∧
  (∀ s : State, (fmt s % mapInterval s ≠ 0 ∨ s.sw.intervalEnd = fmt s) → exec .congestionMapLatch s = .next s) ∧
  (∀ s : State, fmt s % mapInterval s = 0 → s.sw.intervalEnd ≠ fmt s → ∃ t, exec .congestionMapLatch s = .next t ∧
    t.sw.latched = s.sw.cong ∧ t.sw.cong = [] ∧
    t.sw.intervalEnd = fmt s ∧ { t with sw := s.sw, shown := s.shown } = s) ∧
  (∀ (c : Cmd) (s : State), Runs 0x609 c s → ∃ res, RepliesWith 0x609 c stOK (le 8 s.sw.intervalEnd ++ res) (takeNumber c s)
    (exec (.readCongestionMap c) s) ∧
    res.length = 16 * min (clampTo 1 48 (pnum c.params 1 1)) (96 - min 95 (pnum c.params 0 1))) ∧
  (∀ (p src tag : Nat) (s : State) (f : FwdRec), s.sw.fwd.find? (fun f => f.port == p && f.src == src && f.tag == tag) = some f →
    ((f.code = 9 ∨ plmc s < f.since + fwdTimeout s) → exec (.fwdRecordTimeout p src tag) s = .next s) ∧
    (f.code ≠ 9 → f.since + fwdTimeout s ≤ plmc s → ∃ t, exec (.fwdRecordTimeout p src tag) s =
      .next (settleHome (issueWaiting (settleForwarded f ((0, 0), t)).2)) ∧ t.sw.fwd = s.sw.fwd.erase f ∧ (f.src, f.tag) ∈ t.sw.ended ∧
      t.mem = s.mem ∧ t.link = s.link))

/-! ### Strands -/

/-- REFRESH_COMMAND (R406, R407): one of the mark's commands refreshes the next 8 rows of a bank that is free, and holds the bank
for 2 marks; of a bank that is booked or held it is owed, and at 256 owed two marks after the last booking are claimed. A slice in
self-refresh, or with no command of this mark left, does nothing. -/
def ClaimRefreshCommands : Prop :=
  ∀ (st b : Nat) (s : State),
    let x := strandOf s st
    let y := tget {} x.banks b
    let issued := if x.refreshMark = lmc s then x.refreshes else 0
    ((x.power = .selfRefresh ∨ commandsPerMark s st ≤ issued) → exec (.refreshCommand st b) s = .next s) ∧
    (x.power ≠ .selfRefresh → issued < commandsPerMark s st → ∃ t, exec (.refreshCommand st b) s = .next t ∧
      (strandOf t st).refreshMark = lmc s ∧ (strandOf t st).refreshes = issued + 1 ∧
      (bankFree s st b = true → tget {} (strandOf t st).banks b =
          { y with openRow := none, nextRow := (y.nextRow + 8) % 49152, freeAt := lmc s + 2 } ∧ t.coh = s.coh) ∧
      (bankFree s st b = false → tget {} (strandOf t st).banks b = { y with lag := y.lag + 1 } ∧
        t.coh.claims = s.coh.claims ++ (if 256 ≤ y.lag + 1 ∧ s.coh.claims.any (fun c => c.1 == st && c.2.1 == b) = false then
          [(st, b, lastBooked s st + 1), (st, b, lastBooked s st + 2)] else [])) ∧
      (∀ c, c ≠ b → tget {} (strandOf t st).banks c = tget {} x.banks c) ∧ (∀ k, k ≠ st → strandOf t k = strandOf s k) ∧
      t.mem.lines = s.mem.lines ∧ t.mem.coil = s.mem.coil ∧ { t with mem := s.mem, coh := s.coh } = s)

/-- REFRESH_WINDOW_START and NEIGHBOUR_REFRESH (R410, R411): a new window empties the bank's table, and with the last bank's the
largest of the smallest counts of the window shows in TABLE_MIN_PEAK; the neighbours of a row that waits for it are refreshed
where the bank is free and the strand's allowance has come, its count starts again, and the refresh is counted. -/
def ClaimRowGuard : Prop :=
  ∀ (st b : Nat) (s : State),
    let x := strandOf s st
    let y := tget {} x.banks b
    (∃ t, exec (.refreshWindowStart st b) s = .next t ∧
      tget {} (strandOf t st).banks b = { y with table := [], minPeak := 0 } ∧
      (strandOf t st).windowPeak = (if b = 63 then 0 else max x.windowPeak y.minPeak) ∧
      (b = 63 → getField (strandReg st 0x18) 0 0 t = min 0xFFFF (max x.windowPeak y.minPeak)) ∧
      (b ≠ 63 → t.fields = s.fields) ∧ (∀ c, c ≠ b → tget {} (strandOf t st).banks c = tget {} x.banks c) ∧
      t.mem.lines = s.mem.lines ∧ t.mem.coil = s.mem.coil ∧ { t with mem := s.mem, fields := s.fields } = s) ∧
    (∀ row, ((y.waiting.any (fun e => e.1 == row) = false ∨ bankFree s st b = false ∨ lmc s < x.neighbourAt) →
        exec (.neighbourRefresh st b row) s = .next s) ∧
      (y.waiting.any (fun e => e.1 == row) = true → bankFree s st b = true → x.neighbourAt ≤ lmc s →
        ∃ t, exec (.neighbourRefresh st b row) s = .next t ∧
          getField (strandReg st 0x18) 16 0 t = min 0xFFFF (getField (strandReg st 0x18) 16 0 s + 1) ∧
          tget {} (strandOf t st).banks b =
            { y with openRow := none, freeAt := lmc s + 1, waiting := y.waiting.filter (fun e => e.1 != row),
                     table := y.table.map (fun e => if e.1 = row then (row, 0) else e) } ∧
          (strandOf t st).neighbourAt = lmc s + 2 ∧
          (∀ c, c ≠ b → tget {} (strandOf t st).banks c = tget {} x.banks c) ∧
          t.mem.lines = s.mem.lines ∧ t.mem.coil = s.mem.coil ∧ { t with mem := s.mem, fields := s.fields } = s))

/-- A scrub read of a strand goes: it is enabled, bound and in service, and the mark has a line and the line's bank for it. -/
def ScrubGoes (st : Nat) (s : State) : Prop :=
  scrubEnable s st = true ∧ (tget {} s.bind.strand st).st = .bound ∧ (strandOf s st).power = .active ∧ frozen s = false ∧
    (strandOf s st).scrubAt ≤ lmc s ∧ linesTaken s st < 51 ∧
    bankFree s st (lineBank (st * 33554432 + (strandOf s st).scrubNext)) = true

/-- SCRUB_READ (R408, R412, R421) of a bound strand in service, in its interval, with a line and its bank free, reads the next line
and counts it in SCRUB_UNCURED where no fetch cures it; it writes nothing. Otherwise the mark is skipped. -/
def ClaimScrubbing : Prop :=
  ∀ (st : Nat) (f : Fetches) (s : State),
    let x := strandOf s st
    let line := st * 33554432 + x.scrubNext
    (¬ScrubGoes st s → exec (.scrubRead st f) s = .next s) ∧
    (ScrubGoes st s → ∃ t, exec (.scrubRead st f) s = .next t ∧ (strandOf t st).scrubNext = (x.scrubNext + 1) % 25165824 ∧
      (strandOf t st).scrubAt = lmc s + scrubInterval s st ∧
      (lineStrand line = st → getField (strandReg st 0x14) 16 0 t =
        (if matching s line = none ∨ (∀ k < 3, f.getD k true = false) then min 0xFFFF (getField (strandReg st 0x14) 16 0 s + 1)
        else getField (strandReg st 0x14) 16 0 s)) ∧
      t.mem.lines = s.mem.lines ∧ t.mem.coil = s.mem.coil ∧ t.bind = s.bind ∧ t.kcp = s.kcp ∧ t.eng = s.eng)

/-- Nothing but the MODE and ARMED of a strand's flip mask differs. -/
def OnlyTheMask (st : Nat) (s t : State) : Prop :=
  { t with fields := s.fields } = s ∧ ∀ off lo r, lo < 32 → (off ≠ strandReg st 8 ∨ (lo ≠ 29 ∧ lo ≠ 30)) →
    getField off lo r t = getField off lo r s

/-- The flip mask (R423): armed for the next write, for the next read, or not at all, and no other register field changes. -/
def ClaimFlipMask : Prop :=
  ∀ (st : Nat) (s : State),
    (∃ t, exec (.flipArmNextWrite st) s = .next t ∧ flipReady t st 1 = true ∧ flipReady t st 2 = false ∧ OnlyTheMask st s t) ∧
    (∃ t, exec (.flipArmNextRead st) s = .next t ∧ flipReady t st 1 = false ∧ flipReady t st 2 = true ∧ OnlyTheMask st s t) ∧
    (∃ t, exec (.flipDisarm st) s = .next t ∧ flipReady t st 1 = false ∧ flipReady t st 2 = false ∧ OnlyTheMask st s t)

/-- What a strand's slice does by itself: refresh, row guard, scrubbing, and the flip mask. -/
def Obligations.StrandsAreKept : Prop :=
  ClaimRefreshCommands ∧ ClaimRowGuard ∧ ClaimScrubbing ∧ ClaimFlipMask

/-! ### Bring-up, tests, resets, firmware -/

/-- A running command is the first that waits for something of a kind. -/
def FirstWaiting (kind : Wait → Prop) (r : Running) (s : State) : Prop :=
  kind r.wait ∧ ∃ l m, s.kcp.running = l ++ r :: m ∧ ∀ x ∈ l, ¬kind x.wait

/-- CHECK_POWER reports the quadrants whose rails are in range and moves to stage 2 where one is (R460); LOCK_CLOCKS waits for
their clocks, whose lock moves to stage 3 (R461). -/
def ClaimPowerAndClocks : Prop :=
  (∀ (c : Cmd) (temps : List Nat) (s : State), Runs 0x101 c s →
    let m := unitBits 4 (quadrantPower s)
    (m = 0 → ∃ t res, RepliesWith 0x101 c stDENIED res t (exec (.checkPower c temps) s) ∧ t.boot.stage = s.boot.stage) ∧
    (m ≠ 0 → ∃ t st res, RepliesWith 0x101 c st (le 4 (s.pwr.railsOk % 2 ^ 28) ++ le 1 m ++ zeros 3 ++ res) t
      (exec (.checkPower c temps) s) ∧ (st = stOK ∨ st = stDEGRADED) ∧
      (s.pwr.railsOk % 2 ^ 28 = 2 ^ 28 - 1 → st = stOK) ∧ (m ≠ 0xF → st = stDEGRADED) ∧
      t.boot.powerOk = (if s.boot.stage ≤ 1 then m else s.boot.powerOk &&& m) ∧
      t.boot.stage = (if s.boot.stage = 1 then 2 else s.boot.stage) ∧ t.mem.lines = s.mem.lines)) ∧
  (∀ (c : Cmd) (s : State), Runs 0x102 c s →
    let q := if pbits c.params 0 0 4 = 0 then 0xF else pbits c.params 0 0 4
    (s.boot.stage < 3 → Waits 0x102 c (.clocks (q &&& s.boot.powerOk)) (takeNumber c s) (exec (.lockClocks c) s)) ∧
    (3 ≤ s.boot.stage → RepliesWith 0x102 c stOK (le 1 s.boot.clocksOn ++ zeros 3) (takeNumber c s) (exec (.lockClocks c) s))) ∧
  (∀ (locked q : Nat) (r : Running) (s : State), FirstWaiting (fun w => ∃ q, w = .clocks q) r s → r.wait = .clocks q →
    s.boot.stage = 2 →
    (locked &&& q = 0 → exec (.clocksLocked locked) s = .next (finish r stDENIED (le 1 0 ++ zeros 3) s)) ∧
    (locked &&& q ≠ 0 → ∃ t, exec (.clocksLocked locked) s =
        .next (finish r (if locked &&& q = s.boot.powerOk then stOK else stDEGRADED) (le 1 (locked &&& q) ++ zeros 3) t) ∧
      t.boot.clocksOn = locked &&& q ∧ t.boot.stage = 3 ∧ t.boot.powerOk = s.boot.powerOk ∧ t.mem = s.mem))

/-- TRAIN_STRANDS and STRAND_PATTERN take unbound strands that nothing holds, and answer when they are done: trained strands
stand in self-refresh, failed ones read so, and their lines are no tenant's any more (R422 to R425). A pattern that was written
reads back without a mismatch where nothing damages it. -/
def ClaimStrandsAreTrained : Prop :=
  (∀ (c : Cmd) (s : State), Runs 0x103 c s →
    let first := min 511 (pnum c.params 0 2)
    let count := min (clampTo 1 512 (pnum c.params 2 2)) (512 - first)
    (∀ u, first ≤ u → u < first + count → strandBound s u = false ∧ strandHeld s u = false) →
    ∃ t steps, Waits 0x103 c (.train first count steps (pbit c.params 5 0)) t (exec (.trainStrands c) s) ∧
      (∀ u, first ≤ u → u < first + count → trainable s u = true → (strandOf t u).power = .training) ∧
      (∀ u, (u < first ∨ first + count ≤ u) → strandOf t u = strandOf s u) ∧ t.mem.lines = s.mem.lines) ∧
  (∀ (failed : List Nat) (first count steps : Nat) (quick : Bool) (r : Running) (s : State),
    FirstWaiting (fun w => ∃ a b c d, w = .train a b c d) r s → r.wait = .train first count steps quick →
    (∀ u < 512, quickTraining s u = false) → ∃ t, exec (.strandsTrained failed) s = .next t ∧
      (∀ u, first ≤ u → u < first + count → trainable s u = true →
        (strandOf t u).power = (if failed.contains u then .failed else .selfRefresh) ∧
        (strandOf t u).trained = !failed.contains u ∧ ∀ e ∈ t.mem.lines, lineStrand e.1 ≠ u) ∧
      t.boot.stage = (if s.boot.stage = 3 then 4 else s.boot.stage) ∧ t.bind = s.bind) ∧
  (∀ (failed : List Nat) (s : State), (∀ u < 512, quickTraining s u = true → failed.contains u = false) →
    (∀ r ∈ s.kcp.running, ∀ a b c d, r.wait ≠ .train a b c d) → ∃ t, exec (.strandsTrained failed) s = .next t ∧
      (∀ u < 512, quickTraining s u = true → (strandOf t u).power = .active) ∧ t.mem.lines = s.mem.lines ∧ t.bind = s.bind) ∧
  (∀ (c : Cmd) (s : State), Runs 0x104 c s →
    let run := patternRun c.params
    let action := min 2 (pbits c.params 2 0 2)
    strandBound s run.strand = false → (strandOf s run.strand).trained = true → (strandOf s run.strand).lostUnit = false →
    strandHeld s run.strand = false →
    ∃ t, Waits 0x104 c (.pattern run action) t (exec (.strandPattern c) s) ∧ (strandOf t run.strand).power = .training ∧
      (action = 1 → t.mem.lines = s.mem.lines ∧ t.mem.patterns = s.mem.patterns) ∧
      (action ≠ 1 → t.mem.lines = s.mem.lines.filter (fun e => !run.covers e.1) ∧ t.mem.patterns = run :: s.mem.patterns)) ∧
  (∀ (run : PatternRun) (action : Nat) (damage other : List (Nat × Line)) (spareDamage spareOther : List (Nat × Nat)) (r : Running)
    (s : State), FirstWaiting (fun w => ∃ a b, w = .pattern a b) r s → r.wait = .pattern run action →
    ∃ t, exec (.strandPatternComplete damage other spareDamage spareOther) s =
        .next (finish r stOK (patternResults (if action = 0 then [] else run.lines)
          (patternErrors s run damage other spareDamage spareOther)) t) ∧ (strandOf t run.strand).power = .selfRefresh ∧
      t.mem.lines = s.mem.lines ∧ t.mem.patterns = s.mem.patterns ∧ t.bind = s.bind) ∧
  (∀ (run : PatternRun) (s : State) (line : Nat), run.covers line = true →
    patternErrors (writePattern run s) run [] [] [] [] line = (0, 0))

/-- RUN_STARTUP_TEST needs every unit unbound; its end adds to the defect list what it does not hold, as far as there is room,
leaves no stored line, and moves to stage 5 (R463 to R466). -/
def ClaimStartupTestRuns : Prop :=
  (∀ (c : Cmd) (s : State), Runs 0x105 c s →
    (anyBound s = true → RepliesWith 0x105 c stDENIED [] (takeNumber c s) (exec (.runStartupTest c) s)) ∧
    (anyBound s = false → (∀ r ∈ s.kcp.running, r.wait ≠ .startup) →
      Waits 0x105 c .startup (takeNumber c s) (exec (.runStartupTest c) s))) ∧
  (∀ (found : List (Nat × Nat)) (r : Running) (s : State), FirstWaiting (fun w => w = .startup) r s →
    (∀ p < 96, (portOf s p).phase = .off ∨ (portOf s p).phase = .lost) → ∃ t, exec (.startupTestComplete found) s = .next t ∧
      t.boot.startCount = s.boot.startCount + 1 ∧ t.mem.lines = [] ∧ t.mem.coil = [] ∧ t.belay.knots = [] ∧
      t.boot.stage = (if s.boot.stage = 4 then 5 else s.boot.stage) ∧ t.boot.defects = s.boot.defects ++
        (freshDefects s.boot.defects (candidates found s)).take (1024 - s.boot.defects.length)) ∧
  (∀ (known l : List Defect), (∀ d ∈ freshDefects known l, d ∈ l ∧
      ∀ k ∈ known, ¬(k.kind = d.kind ∧ k.physical = d.physical)) ∧
    ((freshDefects known l).map (fun d => (d.kind, d.physical))).Nodup ∧
    (∀ d ∈ l, ∃ k ∈ known ++ freshDefects known l, k.kind = d.kind ∧ k.physical = d.physical))

/-- Bring-up: power and clocks, strands, the start-up test. -/
def Obligations.BringUpGoesThroughItsStages : Prop :=
  ClaimPowerAndClocks ∧ ClaimStrandsAreTrained ∧ ClaimStartupTestRuns

/-- A reset is the most recent one, whose scope and phase the status register shows (R480). -/
def LastReset (scope target : Nat) (s : State) : Prop := s.boot.lastScope = scope ∧ s.boot.lastTarget = target

/-- Resets of a scope (R477 to R480): RESET_SCOPE starts one and waits until the scope is held, which answers it and begins the
restoration; a restored core has no flags and is out of reset; the status register follows the most recent reset alone. A core
re-homed on the spare reserved for it is in service once the spare passes its test; where it fails, the next spare is tried. -/
def ClaimScopesAreReset : Prop :=
  (∀ (c : Cmd) (s : State), Runs 0x108 c s →
    (∀ scope target, scope = pbits c.params 0 0 2 → scope < 3 →
      target = min (if scope = 0 then 2047 else if scope = 1 then 15 else 3) (pnum c.params 2 2) →
      ¬(scope = 0 ∧ (tget {} s.eng.cores target).map = .lost) → resetBars s scope target = false →
      (∀ r ∈ s.boot.resets, r.scope = scope → r.target = target → r.phase = 1) →
      Waits 0x108 c (.reset scope target 0) (startReset scope target false (takeNumber c s)) (exec (.resetScope c) s)) ∧
    (pbits c.params 0 0 2 = 3 → s.boot.deviceResetAt = none → ∃ t d, RepliesWith 0x108 c stOK (le 4 0 ++ le 8 d) t
      (exec (.resetScope c) s) ∧ t.boot.deviceResetAt = some (lmc s + 16) ∧ t.mem = s.mem ∧ t.eng = s.eng)) ∧
  (∀ (scope target : Nat) (r : Reset) (s u : State), (scope ≠ 2 → u = s) → (scope = 2 → u = settleHome (recallQuadrant target s)) →
    s.boot.resets.find? (fun r => r.scope == scope && r.target == target && r.phase == 1) = some r → stopped s = false →
    stopped u = false → lmc s < r.started + 2048 →
    (scopeQuiet u scope target = false → exec (.resetSettled scope target) s = .next u) ∧
    (scopeQuiet u scope target = true → ∃ t, exec (.resetSettled scope target) s = .next t ∧
      t.boot.lastPhase = (if u.boot.lastScope = scope ∧ u.boot.lastTarget = target then 3 else u.boot.lastPhase) ∧
      t.boot.lastScope = u.boot.lastScope ∧ t.boot.lastTarget = u.boot.lastTarget ∧ t.boot.resets = u.boot.resets.map (fun x =>
        if x.scope = scope && x.target = target then { x with phase := 3, settledAt := fmt u } else x) ∧
      (∀ x ∈ t.kcp.running, ∀ n, x.wait ≠ .reset scope target n))) ∧
  (∀ (scope target : Nat) (r : Reset) (s : State), scope < 2 →
    s.boot.resets.find? (fun r => r.scope == scope && r.target == target && r.phase == 3) = some r →
    ∃ t, exec (.resetRestored scope target []) s = .next t ∧ (LastReset scope target s → t.boot.lastPhase = 4) ∧
      (¬LastReset scope target s → t.boot.lastPhase = s.boot.lastPhase) ∧
      (∀ x ∈ t.boot.resets, ¬(x.scope = scope ∧ x.target = target)) ∧
      (∀ k ∈ coresOf scope target, (tget {} t.eng.cores k).flags = 0 ∧ (tget {} t.eng.cores k).inReset = false) ∧
      (∀ k, k ∉ coresOf scope target → tget {} t.eng.cores k = tget {} s.eng.cores k) ∧ t.mem.lines = s.mem.lines) ∧
  (∀ (target : Nat) (failed : List Nat) (r : Reset) (s : State),
    s.boot.resets.find? (fun r => r.scope == 2 && r.target == target && r.phase == 3) = some r → quadrantPower s target = false →
    ∃ t, exec (.resetRestored 2 target failed) s = .next t ∧ (LastReset 2 target s → t.boot.lastPhase = 2) ∧
      (∀ r ∈ t.boot.resets, r.scope = 2 → r.target = target → r.phase = 2) ∧ t.eng = s.eng ∧ t.mem = s.mem) ∧
  (∀ (core e : Nat) (s : State), (tget {} s.eng.cores core).map = .rehoming → (tget {} s.eng.cores core).spare = some e →
    (∃ t, exec (.rehomeComplete core true) s = .next t ∧
      (tget {} t.eng.cores core).map = (if s.boot.committed.isSome then .inService else .heldInBoot) ∧
      (tget {} t.eng.cores core).physical = e ∧ (tget {} t.eng.cores core).flags = 0 ∧ (tget {} t.eng.cores core).rehomed = true ∧
      (∀ k, k ≠ core → tget {} t.eng.cores k = tget {} s.eng.cores k) ∧ t.mem = s.mem) ∧
    (∀ k, freeSpare (recordFailure 0 4 (core / 128 * 136 + e) s) (core / 128) = some k →
      ∃ t, exec (.rehomeComplete core false) s = .next t ∧ t.boot.spares = s.boot.spares ++ [(core / 128, k)] ∧
        (tget {} t.eng.cores core).map = .rehoming ∧ (tget {} t.eng.cores core).spare = some k ∧
        (∀ j, j ≠ core → tget {} t.eng.cores j = tget {} s.eng.cores j) ∧ t.mem = s.mem))

/-- Faults of a unit's logic (R489 to R493): a strand slice is trained again at once, an engine core is reset at core scope, a
quadrant's switch at partition scope, and a fault of the control mesh is rung 4. -/
def ClaimLogicFaultsAreHandled : Prop :=
  (∀ (st : Nat) (s : State), st < 512 → (strandOf s st).lostUnit = false → beingHandled s 1 st = false →
    (strandOf s st).power = .active → ∃ t, exec (.strandSliceFault st) s = .next t ∧ (strandOf t st).power = .training ∧
      tget 1 t.err.nextSeq 0 = (tget 1 s.err.nextSeq 0 + 1) % 2 ^ 32 ∧ beingHandled t 1 st = true ∧ t.mem.lines = s.mem.lines) ∧
  (∀ (k : Nat) (s : State), k < 2048 → beingHandled s 2 k = false → ∃ u, exec (.engineLogicFault k) s = .next (rung3 0 k u) ∧
    u.eng = s.eng ∧ u.boot = s.boot ∧ beingHandled u 2 k = true) ∧
  (∀ (q : Nat) (s : State), q < 4 → beingHandled s 5 q = false → ∃ u, exec (.switchLogicFault q) s = .next (rung3 2 q u) ∧
    u.eng = s.eng ∧ u.boot = s.boot ∧ u.mem = s.mem ∧ beingHandled u 5 q = true) ∧
  (∀ s : State, ∃ t, exec .controlMeshFault s = .next t ∧ t.err.fatal = true ∧ t.pwr.alert = true ∧ t.mem = s.mem ∧
    t.eng = s.eng)

/-- Resets of a scope, and faults of a unit's logic. -/
def Obligations.ScopesAreResetAndRestored : Prop := ClaimScopesAreReset ∧ ClaimLogicFaultsAreHandled

/-- LOAD_IMAGE of a signed image broadcasts it to its cores; COMMIT_IMAGE of a load that has ended puts it in service on every
core that confirmed (R468 to R472). -/
def ClaimImagesAreLoadedAndCommitted : Prop :=
  (∀ (c : Cmd) (s s' : State) (bs : List Byte) (len lines : Nat), Runs 0x106 c s → frozen s = false →
    let tva := pnum c.params 0 8 % 2 ^ 57 / 128 * 128
    let first := min 2047 (pnum c.params 8 2)
    let count := min (max 1 (pnum c.params 10 2)) (2048 - first)
    firmwareLength tva s = (len, lines) → (readByTva 0 lines tva [] s).1 ≠ .wait → s.boot.fw.any (·.running) = false →
    readByTva 0 lines tva [] (takeNumber c s) = (.bytes bs, s') → lengthOk len = true →
    verifies Config.firmwareKey (sm3 (bs.take (128 + len))) (pnum bs (128 + len) 64) = true →
    loadTargets s' first count ≠ [] → ∃ echo f, exec (.loadImage c) s = .next (clearGathered 0 (answer 0x106 c echo (.later .image)
        (broadcast f { s' with boot.fw := some f }))) ∧ f.length = len ∧ f.running = true ∧
      f.digest = sm3 ((bs.take (128 + len)).drop 128) ∧
      (partsOf f).map (·.1) = loadTargets s' first count ∧ ∀ e ∈ partsOf f, e.2.missing = 2 ^ (len / 1024) - 1 ∧ e.2.confirmed = false) ∧
  (∀ (c : Cmd) (s : State) (f : FwLoad), Runs 0x107 c s → s.boot.fw = some f → f.running = false →
    (∃ e ∈ partsOf f, e.2.confirmed = true) → (∀ e ∈ partsOf f, e.2.excluded = false) →
    ∃ u res, RepliesWith 0x107 c stOK res (stageFrom 5 (settleHome u)) (exec (.commitImage c) s) ∧ u.boot.fw = none ∧
      u.boot.committed = some f.payload ∧ u.sec.engineDigest = f.digest ∧
      (∀ e ∈ partsOf f, e.2.confirmed = true → (tget {} s.eng.cores e.1).map = .heldInBoot →
        (tget {} u.eng.cores e.1).map = .inService) ∧ u.mem = s.mem) ∧
  (∀ (c : Cmd) (s : State), Runs 0x107 c s → s.boot.fw = none →
    RepliesWith 0x107 c stDENIED [] (takeNumber c s) (exec (.commitImage c) s))

/-- The frames of a load (R470, R471), for a core that is neither confirmed nor excluded: START clears its bank, a chunk whose
digest holds is kept, END reports what is missing, the missing chunks are sent again, a verified core is confirmed, a silent
one is asked for its bitmap and then sent everything, and at the deadline what is not confirmed is excluded. -/
def ClaimLoadFrames : Prop :=
  (∀ (core : Nat) (s : State) (f : FwLoad) (p : CoreLoad), partOf s core = some (f, p) → frozen s = false → p.confirmed = false →
    p.excluded = false →
    (exec (.imageStartFrame core) s =
      .next (putPart core { p with missing := 2 ^ chunkCount f - 1, staging := [], verified := false } s)) ∧
    (p.missing ≠ 0 → exec (.imageEndFrame core) s = .next (emit (.mesh (.bitmap core p.missing)) s)) ∧
    (p.missing = 0 → exec (.imageEndFrame core) s = .next (verifyPart core f p s)) ∧
    (∀ m, m % 2 ^ chunkCount f ≠ 0 → ∃ t, exec (.imageBitmapReceived core m) s = .next t ∧
      (∀ i < chunkCount f, m.testBit i = true → Out.mesh (.chunk (some core) i) ∈ t.out) ∧
      (∃ g q, partOf t core = some (g, q) ∧ q.rounds = min 255 (p.rounds + 1) ∧ q.missing = p.missing)) ∧
    (p.verified = true → ∃ t, exec (.imageConfirm core) s = .next (loadEnds t) ∧
      ∃ g, partOf t core = some (g, { p with confirmed := true })) ∧
    (p.asked = false → p.since + 256 ≤ plmc s → ∃ t, exec (.imageBitmapTimeout core) s = .next t ∧
      t.out = .mesh (.askBitmap core) :: s.out ∧ ∃ g q, partOf t core = some (g, q) ∧ q.asked = true ∧ q.since = plmc s) ∧
    (p.asked = true → p.since + 64 ≤ plmc s → ∃ t, exec (.imageBitmapTimeout core) s = .next t ∧
      (∀ i < chunkCount f, Out.mesh (.chunk (some core) i) ∈ t.out) ∧ ∃ g q, partOf t core = some (g, q) ∧ q.asked = false)) ∧
  (∀ (c : ImgChunk) (s : State) (f : FwLoad) (p : CoreLoad), partOf s c.core = some (f, p) → frozen s = false →
    p.confirmed = false → p.excluded = false → p.verified = false →
    (c.digest ≠ sm3 c.data → exec (.imageChunkFrame c) s = .next s) ∧
    (c.digest = sm3 c.data → c.chunk < chunkCount f → p.missing.testBit c.chunk = true → p.missing ≠ 2 ^ c.chunk →
      ∃ t g q, exec (.imageChunkFrame c) s = .next t ∧ partOf t c.core = some (g, q) ∧
        q.missing = p.missing - 2 ^ c.chunk ∧ tget [] q.staging c.chunk = c.data ∧
        (∀ i, i ≠ c.chunk → tget [] q.staging i = tget [] p.staging i) ∧ t.out = s.out)) ∧
  (∀ (s : State) (f : FwLoad), s.boot.fw = some f → f.running = true → frozen s = false → f.taken + watch ≤ plmc s →
    ∃ t g, exec .imageLoadDeadline s = .next (loadEnds t) ∧ t.boot.fw = some g ∧ g.cores.length = f.cores.length ∧
      (∀ e ∈ partsOf g, e.2.confirmed = true ∨ e.2.excluded = true) ∧ { t with boot.fw := s.boot.fw } = s)

/-- Engine firmware is loaded, repaired, confirmed and committed. -/
def Obligations.FirmwareIsDistributed : Prop := ClaimImagesAreLoadedAndCommitted ∧ ClaimLoadFrames
end

