-- ==== Sys2Proof/WellFormed.lean ====
section
/-! DEFINITION. Well-formed commands: every unit, identifier, packet and command that a command names lies in the
range the spec gives it (R8, R34, R94, R361). -/
namespace Sys2Proof

/-- The kinds of identifier that a command carries. -/
inductive IdKind where
  | port | lane | strand | bank | stack | quadrant | core | ctx | control | hbPath | knot | bight | group | eid
  | tenant | queue | source | rail | eth | memLine
deriving DecidableEq, Repr

/-- How many units of a kind exist (R8, R24, R230, R303, R317, R386, R404, R498, R528, R537, R130). -/
def IdKind.size : IdKind → Nat
  | .port => 96
  | .lane => 192
  | .strand => 512
  | .bank => 64
  | .stack => 16
  | .quadrant => 4
  | .core => 2048
  | .ctx => 8
  | .control => 2
  | .hbPath => 2
  | .knot => 65536
  | .bight => 16
  | .group => 4096
  | .eid => 4096
  | .tenant => 32
  | .queue => 64
  | .source => 1024
  | .rail => 28
  | .eth => 2
  | .memLine => 17179869184

/-- A part of a command that has a range. -/
inductive Part where
  | unit (k : IdKind) (n : Nat)
  | cmd (c : Cmd)
  | pkt (rx : RxPkt)
  | path (p : Path)

/-- A path names a port and an address of its widths, or an EID. -/
def Path.ok : Path → Bool
  | .eth port mac ip udp => port < 2 && mac < 2 ^ 48 && ip < 2 ^ 128 && udp < 65536
  | .link port eid => port < 96 && eid < 4096

/-- A packet header holds values of its fields' widths (R361). -/
def PktHdr.ok (h : PktHdr) : Bool :=
  h.code < 256 && h.cls < 4 && h.epoch < 2 && h.atype < 2 && h.dst < 4096 && h.src < 4096 && h.tag < 65536 &&
  h.addr < 2 ^ 64 && h.granules < 64 && h.lines < 64 && h.status < 256 && h.state < 4 && h.answer < 8 && h.aop < 16 &&
  h.knot < 65536 && h.group < 4096 && h.core < 2048 && h.reqEid < 4096 && h.reqTag < 65536 && h.idem < 2 ^ 32 &&
  h.mask < 2 ^ 128

/-- A part in range: a unit that exists, a command whose header and parameters fit a KCP packet (R94), a packet whose
payload is GRANULES lines (R360). -/
def Part.ok : Part → Bool
  | .unit k n => n < k.size
  | .cmd c => c.session < 2 ^ 32 && c.seq < 2 ^ 64 && c.tenant < 32 && c.params.length ≤ 972
  | .pkt rx => rx.port < 96 && rx.hdr.ok && rx.payload.length = rx.hdr.granules
  | .path p => p.ok

/-- The parts of a command that have ranges. -/
def Instr.parts : Instr → List Part
  | .powerOnBoot _ _ => []
  | .deviceResetInput _ _ => []
  | .sysrefStop => []
  | .linkrefStop q => [.unit .quadrant q]
  | .ethrefStop n => [.unit .eth n]
  | .railFault rail => [.unit .rail rail]
  | .thermalTrip _ _ _ => []
  | .throttleLevelRise q _ => q.toList.map (.unit .quadrant)
  | .throttleLevelFall q _ => [.unit .quadrant q]
  | .refreshRateChange stack _ => [.unit .stack stack]
  | .smbusBlockRead _ _ => []
  | .kcpPacketReceived path _ _ => [.path path]
  | .unknownOpcode c _ => [.cmd c]
  | .eventAcknowledgement path _ => [.path path]
  | .eventResend _ => []
  | .sessionIdleTimeout _ => []
  | .sessionOpenTimeout _ => []
  | .arpRequest port _ _ => [.unit .eth port]
  | .neighbourSolicitation port _ _ => [.unit .eth port]
  | .ethFrameDiscard _ => []
  | .ptpMessage port _ => [.unit .eth port]
  | .swapFrame i _ => [.unit .eth i.port]
  | .nop c => [.cmd c]
  | .openSession path c => [.path path, .cmd c]
  | .closeSession c => [.cmd c]
  | .readRegs c => [.cmd c]
  | .writeRegs c => [.cmd c]
  | .registerWrite _ _ _ => []
  | .liveWriteApply _ _ => []
  | .edgeWriteApply _ _ => []
  | .heldWriteApply _ _ => []
  | .knotArm knot _ => [.unit .knot knot]
  | .knotDisarm knot _ => [.unit .knot knot]
  | .knotClear knot => [.unit .knot knot]
  | .flipArmNextWrite strand => [.unit .strand strand]
  | .flipArmNextRead strand => [.unit .strand strand]
  | .flipDisarm strand => [.unit .strand strand]
  | .fbarDisable group => [.unit .group group]
  | .endOfInterrupt core source => [.unit .control core, .unit .source source]
  | .discover c => [.cmd c]
  | .subscribeEvents c => [.cmd c]
  | .checkPower c _ => [.cmd c]
  | .lockClocks c => [.cmd c]
  | .trainStrands c => [.cmd c]
  | .strandPattern c => [.cmd c]
  | .runStartupTest c => [.cmd c]
  | .loadImage c => [.cmd c]
  | .commitImage c => [.cmd c]
  | .resetScope c => [.cmd c]
  | .bindStrand c => [.cmd c]
  | .bindEngine c => [.cmd c]
  | .bindCoilWay c => [.cmd c]
  | .bindPort c => [.cmd c]
  | .bindEid c => [.cmd c]
  | .bindKnots c => [.cmd c]
  | .bindFaultQueue c => [.cmd c]
  | .bindStepComplete _ _ => []
  | .grantExtent c => [.cmd c]
  | .revokeExtent c => [.cmd c]
  | .revokeDrainDeadline _ => []
  | .revokeFinalDeadline _ => []
  | .setSealed c => [.cmd c]
  | .sealingEffective tenant => [.unit .tenant tenant]
  | .unsealingEffective tenant => [.unit .tenant tenant]
  | .enrollTenant c => [.cmd c]
  | .readExtents c => [.cmd c]
  | .setTableRoot c => [.cmd c]
  | .invalidate c => [.cmd c]
  | .pinTranslation c => [.cmd c]
  | .unpinTranslation c => [.cmd c]
  | .tableWalkComplete quadrant tenant _ => [.unit .quadrant quadrant, .unit .tenant tenant]
  | .faultPostedEvent queue => [.unit .queue queue]
  | .faultRecordDrain queue => [.unit .queue queue]
  | .faultRecordAllocate tenant => [.unit .tenant tenant]
  | .resumeFault c => [.cmd c]
  | .pageOut c => [.cmd c]
  | .pageIn c => [.cmd c]
  | .swapResendTimer _ => []
  | .swapTransferTimeout _ => []
  | .loadProgram c => [.cmd c]
  | .loadChain c => [.cmd c]
  | .submit c => [.cmd c]
  | .cancel c => [.cmd c]
  | .restart c => [.cmd c]
  | .shareTakesContext core => [.unit .core core]
  | .tileTranslate core ctx => [.unit .core core, .unit .ctx ctx]
  | .engineReadResponse core ctx _ _ => [.unit .core core, .unit .ctx ctx]
  | .engineWriteAck core ctx => [.unit .core core, .unit .ctx ctx]
  | .arithSliceEnd core _ => [.unit .core core]
  | .scratchRecomputeComplete core ctx => [.unit .core core, .unit .ctx ctx]
  | .mergeListsReceived core ctx child => [.unit .core core, .unit .ctx ctx, .unit .core child]
  | .engineBankSwitch core => [.unit .core core]
  | .knotRead c => [.cmd c]
  | .knotSet c => [.cmd c]
  | .configureBarrier c => [.cmd c]
  | .knotIncrement knot _ => [.unit .knot knot]
  | .bightLineRise line => [.unit .bight line]
  | .gateTimeout core ctx => [.unit .core core, .unit .ctx ctx]
  | .fbarArrival rx => [.pkt rx]
  | .fbarRelease rx => [.pkt rx]
  | .bringUpLink c => [.cmd c]
  | .retrainPort c => [.cmd c]
  | .setPortWidth c => [.cmd c]
  | .runLoopback c => [.cmd c]
  | .runPrbs c => [.cmd c]
  | .prbsTestEnd lane _ => [.unit .lane lane]
  | .loopbackTestEnd lane _ => [.unit .lane lane]
  | .codewordLockAcquired lane => [.unit .lane lane]
  | .codewordLockLost lane => [.unit .lane lane]
  | .blockLockAcquired lane => [.unit .lane lane]
  | .blockLockLost lane => [.unit .lane lane]
  | .markerBlock lane _ _ _ => [.unit .lane lane]
  | .trainBlockReceived lane _ _ _ => [.unit .lane lane]
  | .verifyEnd port => [.unit .port port]
  | .trainPhaseTimeout port => [.unit .port port]
  | .rateStep port => [.unit .port port]
  | .autoRetrain port => [.unit .port port]
  | .changeBlock port _ _ => [.unit .port port]
  | .changeAnswerTimeout port => [.unit .port port]
  | .changeBackoff port => [.unit .port port]
  | .newLanesTimeout port => [.unit .port port]
  | .widthSwitch port => [.unit .port port]
  | .loopBlock lane _ => [.unit .lane lane]
  | .badFlit port => [.unit .port port]
  | .sequencedFlit port _ => [.unit .port port]
  | .linkCtlFlit port _ => [.unit .port port]
  | .abortFlit port _ => [.unit .port port]
  | .nakWaitExpiry port => [.unit .port port]
  | .ackInterval port => [.unit .port port]
  | .ackKeepalive port => [.unit .port port]
  | .ackTimeout port => [.unit .port port]
  | .linkSilence port => [.unit .port port]
  | .transmitFlit port => [.unit .port port]
  | .creditNullPacket port => [.unit .port port]
  | .timingBlockReceived port _ _ => [.unit .port port]
  | .timingBlockTransmit port => [.unit .port port]
  | .holdoverEntry => []
  | .holdoverExpiry => []
  | .timeStateChange => []
  | .admissionWindowBoundary => []
  | .markLeaderChange => []
  | .load rx => [.pkt rx]
  | .readShared rx => [.pkt rx]
  | .readOwn rx => [.pkt rx]
  | .store rx => [.pkt rx]
  | .storeMasked rx => [.pkt rx]
  | .writeback rx => [.pkt rx]
  | .evictClean rx => [.pkt rx]
  | .atomic rx => [.pkt rx]
  | .bulkCopy rx => [.pkt rx]
  | .signal rx => [.pkt rx]
  | .grantAck rx => [.pkt rx]
  | .snpAck rx => [.pkt rx]
  | .snpData rx => [.pkt rx]
  | .data rx => [.pkt rx]
  | .completion rx => [.pkt rx]
  | .homeRequestResume line _ => [.unit .memLine line]
  | .snoopTimeout line eid => [.unit .memLine line, .unit .eid eid]
  | .grantAckTimeout line => [.unit .memLine line]
  | .idemRecordExpiry quadrant eid _ => [.unit .quadrant quadrant, .unit .eid eid]
  | .lineFetchComplete line _ => [.unit .memLine line]
  | .packetSwitched rx => [.pkt rx]
  | .mcastReplicate rx => [.pkt rx]
  | .fwdRecordTimeout port src _ => [.unit .port port, .unit .eid src]
  | .mcastAckTimeout _ => []
  | .loadRoutes c => [.cmd c]
  | .flipRouteEpoch c => [.cmd c]
  | .routeEpochFlipApply => []
  | .routeDrained => []
  | .setMcastGroup c => [.cmd c]
  | .readCongestionMap c => [.cmd c]
  | .congestionMapLatch => []
  | .refreshCommand strand bank => [.unit .strand strand, .unit .bank bank]
  | .refreshWindowStart strand bank => [.unit .strand strand, .unit .bank bank]
  | .neighbourRefresh strand bank _ => [.unit .strand strand, .unit .bank bank]
  | .scrubRead strand _ => [.unit .strand strand]
  | .getAttestation c => [.cmd c]
  | .sealExtent c => [.cmd c]
  | .sealHashComplete _ => []
  | .loadExtension c => [.cmd c]
  | .setPortKey c => [.cmd c]
  | .rngHealthFail => []
  | .measurementStoreFault => []
  | .readErrors c => [.cmd c]
  | .clearFirstError c => [.cmd c]
  | .interruptDelivery source => [.unit .source source]
  | .readCounters c => [.cmd c]
  | .readTrace c => [.cmd c]
  | .readAudit c => [.cmd c]
  | .auditDiscrepancy _ _ _ => []
  | .haltAtMark c => [.cmd c]
  | .haltMarkReached => []
  | .landingClose => []
  | .resume c => [.cmd c]
  | .resumeAtMark => []
  | .forceFailover c => [.cmd c]
  | .readHealth c => [.cmd c]
  | .heartbeatSend => []
  | .heartbeatReceived core path => [.unit .control core, .unit .hbPath path]
  | .heartbeatPathSilent core path => [.unit .control core, .unit .hbPath path]
  | .failoverTakeover => []
  | .fenceClose => []
  | .standbySelftest _ => []
  | .controlStall => []
  | .imageStartFrame core => [.unit .core core]
  | .imageChunkFrame _ => []
  | .imageEndFrame core => [.unit .core core]
  | .imageBitmapReceived core _ => [.unit .core core]
  | .imageConfirm core => [.unit .core core]
  | .imageBitmapTimeout core => [.unit .core core]
  | .imageLoadDeadline => []
  | .rehomeComplete core _ => [.unit .core core]
  | .resetSettled _ _ => []
  | .resetRestored _ _ _ => []
  | .deviceScopeReset => []
  | .clocksLocked _ => []
  | .strandsTrained _ => []
  | .strandPatternComplete _ _ _ _ => []
  | .startupTestComplete _ => []
  | .rngHealthPass => []
  | .strandSliceFault strand => [.unit .strand strand]
  | .engineLogicFault core => [.unit .core core]
  | .switchLogicFault _ => []
  | .controlMeshFault => []

/-- A well-formed command: every part is in range. -/
def Instr.wf (i : Instr) : Bool := i.parts.all Part.ok

end Sys2Proof
end

