-- ==== Sys2Proof/Laws/PerInstr.lean ====
section
/-! SUPPORT. A law of every command as syntax: in a well-formed command, every part that names a unit names one that
exists, every carried command fits a KCP packet, and every carried packet has a sound header. -/
namespace Sys2Proof.Laws.InRange

/-- Every part of a well-formed command is in range. -/
def Statement (i : Instr) : Prop := i.wf = true → ∀ p ∈ i.parts, p.ok = true

theorem of_wf (i : Instr) : Statement i := fun h => by
  simpa [Instr.wf, List.all_eq_true] using h

theorem powerOnBoot (a b : FlashCopy) : Statement (.powerOnBoot a b) := of_wf _
theorem deviceResetInput (pwrGood resetN : Bool) : Statement (.deviceResetInput pwrGood resetN) := of_wf _
theorem sysrefStop : Statement (.sysrefStop) := of_wf _
theorem linkrefStop (q : Nat) : Statement (.linkrefStop q) := of_wf _
theorem ethrefStop (n : Nat) : Statement (.ethrefStop n) := of_wf _
theorem railFault (rail : Nat) : Statement (.railFault rail) := of_wf _
theorem thermalTrip (isStack : Bool) (unit temp : Nat) : Statement (.thermalTrip isStack unit temp) := of_wf _
theorem throttleLevelRise (q : Option Nat) (t : Thermal) : Statement (.throttleLevelRise q t) := of_wf _
theorem throttleLevelFall (q : Nat) (t : Thermal) : Statement (.throttleLevelFall q t) := of_wf _
theorem refreshRateChange (stack temp : Nat) : Statement (.refreshRateChange stack temp) := of_wf _
theorem smbusBlockRead (code : Nat) (write : Bool) : Statement (.smbusBlockRead code write) := of_wf _
theorem kcpPacketReceived (path : Path) (info : Option EthInfo) (pkt : KcpPkt) : Statement (.kcpPacketReceived path info pkt) := of_wf _
theorem unknownOpcode (c : Cmd) (opcode : Nat) : Statement (.unknownOpcode c opcode) := of_wf _
theorem eventAcknowledgement (path : Path) (pkt : KcpPkt) : Statement (.eventAcknowledgement path pkt) := of_wf _
theorem eventResend (session : Nat) : Statement (.eventResend session) := of_wf _
theorem sessionIdleTimeout (session : Nat) : Statement (.sessionIdleTimeout session) := of_wf _
theorem sessionOpenTimeout (session : Nat) : Statement (.sessionOpenTimeout session) := of_wf _
theorem arpRequest (port target mac : Nat) : Statement (.arpRequest port target mac) := of_wf _
theorem neighbourSolicitation (port target mac : Nat) : Statement (.neighbourSolicitation port target mac) := of_wf _
theorem ethFrameDiscard (info : EthInfo) : Statement (.ethFrameDiscard info) := of_wf _
theorem ptpMessage (port : Nat) (m : PtpMsg) : Statement (.ptpMessage port m) := of_wf _
theorem swapFrame (info : EthInfo) (f : SwapFrm) : Statement (.swapFrame info f) := of_wf _
theorem nop (c : Cmd) : Statement (.nop c) := of_wf _
theorem openSession (path : Path) (c : Cmd) : Statement (.openSession path c) := of_wf _
theorem closeSession (c : Cmd) : Statement (.closeSession c) := of_wf _
theorem readRegs (c : Cmd) : Statement (.readRegs c) := of_wf _
theorem writeRegs (c : Cmd) : Statement (.writeRegs c) := of_wf _
theorem registerWrite (offset value mask : Nat) : Statement (.registerWrite offset value mask) := of_wf _
theorem liveWriteApply (offset lo : Nat) : Statement (.liveWriteApply offset lo) := of_wf _
theorem edgeWriteApply (offset lo : Nat) : Statement (.edgeWriteApply offset lo) := of_wf _
theorem heldWriteApply (offset lo : Nat) : Statement (.heldWriteApply offset lo) := of_wf _
theorem knotArm (knot cfg : Nat) : Statement (.knotArm knot cfg) := of_wf _
theorem knotDisarm (knot cfg : Nat) : Statement (.knotDisarm knot cfg) := of_wf _
theorem knotClear (knot : Nat) : Statement (.knotClear knot) := of_wf _
theorem flipArmNextWrite (strand : Nat) : Statement (.flipArmNextWrite strand) := of_wf _
theorem flipArmNextRead (strand : Nat) : Statement (.flipArmNextRead strand) := of_wf _
theorem flipDisarm (strand : Nat) : Statement (.flipDisarm strand) := of_wf _
theorem fbarDisable (group : Nat) : Statement (.fbarDisable group) := of_wf _
theorem endOfInterrupt (core source : Nat) : Statement (.endOfInterrupt core source) := of_wf _
theorem discover (c : Cmd) : Statement (.discover c) := of_wf _
theorem subscribeEvents (c : Cmd) : Statement (.subscribeEvents c) := of_wf _
theorem checkPower (c : Cmd) (temps : List Nat) : Statement (.checkPower c temps) := of_wf _
theorem lockClocks (c : Cmd) : Statement (.lockClocks c) := of_wf _
theorem trainStrands (c : Cmd) : Statement (.trainStrands c) := of_wf _
theorem strandPattern (c : Cmd) : Statement (.strandPattern c) := of_wf _
theorem runStartupTest (c : Cmd) : Statement (.runStartupTest c) := of_wf _
theorem loadImage (c : Cmd) : Statement (.loadImage c) := of_wf _
theorem commitImage (c : Cmd) : Statement (.commitImage c) := of_wf _
theorem resetScope (c : Cmd) : Statement (.resetScope c) := of_wf _
theorem bindStrand (c : Cmd) : Statement (.bindStrand c) := of_wf _
theorem bindEngine (c : Cmd) : Statement (.bindEngine c) := of_wf _
theorem bindCoilWay (c : Cmd) : Statement (.bindCoilWay c) := of_wf _
theorem bindPort (c : Cmd) : Statement (.bindPort c) := of_wf _
theorem bindEid (c : Cmd) : Statement (.bindEid c) := of_wf _
theorem bindKnots (c : Cmd) : Statement (.bindKnots c) := of_wf _
theorem bindFaultQueue (c : Cmd) : Statement (.bindFaultQueue c) := of_wf _
theorem bindStepComplete (kind : UnitKind) (unit : Nat) : Statement (.bindStepComplete kind unit) := of_wf _
theorem grantExtent (c : Cmd) : Statement (.grantExtent c) := of_wf _
theorem revokeExtent (c : Cmd) : Statement (.revokeExtent c) := of_wf _
theorem revokeDrainDeadline (base : Nat) : Statement (.revokeDrainDeadline base) := of_wf _
theorem revokeFinalDeadline (base : Nat) : Statement (.revokeFinalDeadline base) := of_wf _
theorem setSealed (c : Cmd) : Statement (.setSealed c) := of_wf _
theorem sealingEffective (tenant : Nat) : Statement (.sealingEffective tenant) := of_wf _
theorem unsealingEffective (tenant : Nat) : Statement (.unsealingEffective tenant) := of_wf _
theorem enrollTenant (c : Cmd) : Statement (.enrollTenant c) := of_wf _
theorem readExtents (c : Cmd) : Statement (.readExtents c) := of_wf _
theorem setTableRoot (c : Cmd) : Statement (.setTableRoot c) := of_wf _
theorem invalidate (c : Cmd) : Statement (.invalidate c) := of_wf _
theorem pinTranslation (c : Cmd) : Statement (.pinTranslation c) := of_wf _
theorem unpinTranslation (c : Cmd) : Statement (.unpinTranslation c) := of_wf _
theorem tableWalkComplete (quadrant tenant tva : Nat) : Statement (.tableWalkComplete quadrant tenant tva) := of_wf _
theorem faultPostedEvent (queue : Nat) : Statement (.faultPostedEvent queue) := of_wf _
theorem faultRecordDrain (queue : Nat) : Statement (.faultRecordDrain queue) := of_wf _
theorem faultRecordAllocate (tenant : Nat) : Statement (.faultRecordAllocate tenant) := of_wf _
theorem resumeFault (c : Cmd) : Statement (.resumeFault c) := of_wf _
theorem pageOut (c : Cmd) : Statement (.pageOut c) := of_wf _
theorem pageIn (c : Cmd) : Statement (.pageIn c) := of_wf _
theorem swapResendTimer (transfer : Nat) : Statement (.swapResendTimer transfer) := of_wf _
theorem swapTransferTimeout (transfer : Nat) : Statement (.swapTransferTimeout transfer) := of_wf _
theorem loadProgram (c : Cmd) : Statement (.loadProgram c) := of_wf _
theorem loadChain (c : Cmd) : Statement (.loadChain c) := of_wf _
theorem submit (c : Cmd) : Statement (.submit c) := of_wf _
theorem cancel (c : Cmd) : Statement (.cancel c) := of_wf _
theorem restart (c : Cmd) : Statement (.restart c) := of_wf _
theorem shareTakesContext (core : Nat) : Statement (.shareTakesContext core) := of_wf _
theorem tileTranslate (core ctx : Nat) : Statement (.tileTranslate core ctx) := of_wf _
theorem engineReadResponse (core ctx k : Nat) (f : Fetches) : Statement (.engineReadResponse core ctx k f) := of_wf _
theorem engineWriteAck (core ctx : Nat) : Statement (.engineWriteAck core ctx) := of_wf _
theorem arithSliceEnd (core : Nat) (badLine : Option Nat) : Statement (.arithSliceEnd core badLine) := of_wf _
theorem scratchRecomputeComplete (core ctx : Nat) : Statement (.scratchRecomputeComplete core ctx) := of_wf _
theorem mergeListsReceived (core ctx child : Nat) : Statement (.mergeListsReceived core ctx child) := of_wf _
theorem engineBankSwitch (core : Nat) : Statement (.engineBankSwitch core) := of_wf _
theorem knotRead (c : Cmd) : Statement (.knotRead c) := of_wf _
theorem knotSet (c : Cmd) : Statement (.knotSet c) := of_wf _
theorem configureBarrier (c : Cmd) : Statement (.configureBarrier c) := of_wf _
theorem knotIncrement (knot n : Nat) : Statement (.knotIncrement knot n) := of_wf _
theorem bightLineRise (line : Nat) : Statement (.bightLineRise line) := of_wf _
theorem gateTimeout (core ctx : Nat) : Statement (.gateTimeout core ctx) := of_wf _
theorem fbarArrival (rx : RxPkt) : Statement (.fbarArrival rx) := of_wf _
theorem fbarRelease (rx : RxPkt) : Statement (.fbarRelease rx) := of_wf _
theorem bringUpLink (c : Cmd) : Statement (.bringUpLink c) := of_wf _
theorem retrainPort (c : Cmd) : Statement (.retrainPort c) := of_wf _
theorem setPortWidth (c : Cmd) : Statement (.setPortWidth c) := of_wf _
theorem runLoopback (c : Cmd) : Statement (.runLoopback c) := of_wf _
theorem runPrbs (c : Cmd) : Statement (.runPrbs c) := of_wf _
theorem prbsTestEnd (lane : Nat) (received : List (List Bool)) : Statement (.prbsTestEnd lane received) := of_wf _
theorem loopbackTestEnd (lane : Nat) (received : List (List Bool)) : Statement (.loopbackTestEnd lane received) := of_wf _
theorem codewordLockAcquired (lane : Nat) : Statement (.codewordLockAcquired lane) := of_wf _
theorem codewordLockLost (lane : Nat) : Statement (.codewordLockLost lane) := of_wf _
theorem blockLockAcquired (lane : Nat) : Statement (.blockLockAcquired lane) := of_wf _
theorem blockLockLost (lane : Nat) : Statement (.blockLockLost lane) := of_wf _
theorem markerBlock (lane : Nat) (w : Blk) (place : Nat) (decoded : List (Option Nat)) : Statement (.markerBlock lane w place decoded) := of_wf _
theorem trainBlockReceived (lane : Nat) (w : Blk) (eyeOpen : Bool) (wants : Nat × Nat × Nat) :
    Statement (.trainBlockReceived lane w eyeOpen wants) := of_wf _
theorem verifyEnd (port : Nat) : Statement (.verifyEnd port) := of_wf _
theorem trainPhaseTimeout (port : Nat) : Statement (.trainPhaseTimeout port) := of_wf _
theorem rateStep (port : Nat) : Statement (.rateStep port) := of_wf _
theorem autoRetrain (port : Nat) : Statement (.autoRetrain port) := of_wf _
theorem changeBlock (port : Nat) (w : Blk) (own : Bool) : Statement (.changeBlock port w own) := of_wf _
theorem changeAnswerTimeout (port : Nat) : Statement (.changeAnswerTimeout port) := of_wf _
theorem changeBackoff (port : Nat) : Statement (.changeBackoff port) := of_wf _
theorem newLanesTimeout (port : Nat) : Statement (.newLanesTimeout port) := of_wf _
theorem widthSwitch (port : Nat) : Statement (.widthSwitch port) := of_wf _
theorem loopBlock (lane : Nat) (w : Blk) : Statement (.loopBlock lane w) := of_wf _
theorem badFlit (port : Nat) : Statement (.badFlit port) := of_wf _
theorem sequencedFlit (port : Nat) (blocks : List Blk) : Statement (.sequencedFlit port blocks) := of_wf _
theorem linkCtlFlit (port : Nat) (m : LinkCtl) : Statement (.linkCtlFlit port m) := of_wf _
theorem abortFlit (port : Nat) (seq : Nat) : Statement (.abortFlit port seq) := of_wf _
theorem nakWaitExpiry (port : Nat) : Statement (.nakWaitExpiry port) := of_wf _
theorem ackInterval (port : Nat) : Statement (.ackInterval port) := of_wf _
theorem ackKeepalive (port : Nat) : Statement (.ackKeepalive port) := of_wf _
theorem ackTimeout (port : Nat) : Statement (.ackTimeout port) := of_wf _
theorem linkSilence (port : Nat) : Statement (.linkSilence port) := of_wf _
theorem transmitFlit (port : Nat) : Statement (.transmitFlit port) := of_wf _
theorem creditNullPacket (port : Nat) : Statement (.creditNullPacket port) := of_wf _
theorem timingBlockReceived (port : Nat) (w : Blk) (inBadCodeword : Bool) : Statement (.timingBlockReceived port w inBadCodeword) := of_wf _
theorem timingBlockTransmit (port : Nat) : Statement (.timingBlockTransmit port) := of_wf _
theorem holdoverEntry : Statement (.holdoverEntry) := of_wf _
theorem holdoverExpiry : Statement (.holdoverExpiry) := of_wf _
theorem timeStateChange : Statement (.timeStateChange) := of_wf _
theorem admissionWindowBoundary : Statement (.admissionWindowBoundary) := of_wf _
theorem markLeaderChange : Statement (.markLeaderChange) := of_wf _
theorem load (rx : RxPkt) : Statement (.load rx) := of_wf _
theorem readShared (rx : RxPkt) : Statement (.readShared rx) := of_wf _
theorem readOwn (rx : RxPkt) : Statement (.readOwn rx) := of_wf _
theorem store (rx : RxPkt) : Statement (.store rx) := of_wf _
theorem storeMasked (rx : RxPkt) : Statement (.storeMasked rx) := of_wf _
theorem writeback (rx : RxPkt) : Statement (.writeback rx) := of_wf _
theorem evictClean (rx : RxPkt) : Statement (.evictClean rx) := of_wf _
theorem atomic (rx : RxPkt) : Statement (.atomic rx) := of_wf _
theorem bulkCopy (rx : RxPkt) : Statement (.bulkCopy rx) := of_wf _
theorem signal (rx : RxPkt) : Statement (.signal rx) := of_wf _
theorem grantAck (rx : RxPkt) : Statement (.grantAck rx) := of_wf _
theorem snpAck (rx : RxPkt) : Statement (.snpAck rx) := of_wf _
theorem snpData (rx : RxPkt) : Statement (.snpData rx) := of_wf _
theorem data (rx : RxPkt) : Statement (.data rx) := of_wf _
theorem completion (rx : RxPkt) : Statement (.completion rx) := of_wf _
theorem homeRequestResume (line : Nat) (upset : Bool) : Statement (.homeRequestResume line upset) := of_wf _
theorem snoopTimeout (line eid : Nat) : Statement (.snoopTimeout line eid) := of_wf _
theorem grantAckTimeout (line : Nat) : Statement (.grantAckTimeout line) := of_wf _
theorem idemRecordExpiry (quadrant eid tag : Nat) : Statement (.idemRecordExpiry quadrant eid tag) := of_wf _
theorem lineFetchComplete (line : Nat) (f : Fetches) : Statement (.lineFetchComplete line f) := of_wf _
theorem packetSwitched (rx : RxPkt) : Statement (.packetSwitched rx) := of_wf _
theorem mcastReplicate (rx : RxPkt) : Statement (.mcastReplicate rx) := of_wf _
theorem fwdRecordTimeout (port src tag : Nat) : Statement (.fwdRecordTimeout port src tag) := of_wf _
theorem mcastAckTimeout (tag : Nat) : Statement (.mcastAckTimeout tag) := of_wf _
theorem loadRoutes (c : Cmd) : Statement (.loadRoutes c) := of_wf _
theorem flipRouteEpoch (c : Cmd) : Statement (.flipRouteEpoch c) := of_wf _
theorem routeEpochFlipApply : Statement (.routeEpochFlipApply) := of_wf _
theorem routeDrained : Statement (.routeDrained) := of_wf _
theorem setMcastGroup (c : Cmd) : Statement (.setMcastGroup c) := of_wf _
theorem readCongestionMap (c : Cmd) : Statement (.readCongestionMap c) := of_wf _
theorem congestionMapLatch : Statement (.congestionMapLatch) := of_wf _
theorem refreshCommand (strand bank : Nat) : Statement (.refreshCommand strand bank) := of_wf _
theorem refreshWindowStart (strand bank : Nat) : Statement (.refreshWindowStart strand bank) := of_wf _
theorem neighbourRefresh (strand bank row : Nat) : Statement (.neighbourRefresh strand bank row) := of_wf _
theorem scrubRead (strand : Nat) (f : Fetches) : Statement (.scrubRead strand f) := of_wf _
theorem getAttestation (c : Cmd) : Statement (.getAttestation c) := of_wf _
theorem sealExtent (c : Cmd) : Statement (.sealExtent c) := of_wf _
theorem sealHashComplete (base : Nat) : Statement (.sealHashComplete base) := of_wf _
theorem loadExtension (c : Cmd) : Statement (.loadExtension c) := of_wf _
theorem setPortKey (c : Cmd) : Statement (.setPortKey c) := of_wf _
theorem rngHealthFail : Statement (.rngHealthFail) := of_wf _
theorem measurementStoreFault : Statement (.measurementStoreFault) := of_wf _
theorem readErrors (c : Cmd) : Statement (.readErrors c) := of_wf _
theorem clearFirstError (c : Cmd) : Statement (.clearFirstError c) := of_wf _
theorem interruptDelivery (source : Nat) : Statement (.interruptDelivery source) := of_wf _
theorem readCounters (c : Cmd) : Statement (.readCounters c) := of_wf _
theorem readTrace (c : Cmd) : Statement (.readTrace c) := of_wf _
theorem readAudit (c : Cmd) : Statement (.readAudit c) := of_wf _
theorem auditDiscrepancy (kind unit vc : Nat) : Statement (.auditDiscrepancy kind unit vc) := of_wf _
theorem haltAtMark (c : Cmd) : Statement (.haltAtMark c) := of_wf _
theorem haltMarkReached : Statement (.haltMarkReached) := of_wf _
theorem landingClose : Statement (.landingClose) := of_wf _
theorem resume (c : Cmd) : Statement (.resume c) := of_wf _
theorem resumeAtMark : Statement (.resumeAtMark) := of_wf _
theorem forceFailover (c : Cmd) : Statement (.forceFailover c) := of_wf _
theorem readHealth (c : Cmd) : Statement (.readHealth c) := of_wf _
theorem heartbeatSend : Statement (.heartbeatSend) := of_wf _
theorem heartbeatReceived (core path : Nat) : Statement (.heartbeatReceived core path) := of_wf _
theorem heartbeatPathSilent (core path : Nat) : Statement (.heartbeatPathSilent core path) := of_wf _
theorem failoverTakeover : Statement (.failoverTakeover) := of_wf _
theorem fenceClose : Statement (.fenceClose) := of_wf _
theorem standbySelftest (passed : Bool) : Statement (.standbySelftest passed) := of_wf _
theorem controlStall : Statement (.controlStall) := of_wf _
theorem imageStartFrame (core : Nat) : Statement (.imageStartFrame core) := of_wf _
theorem imageChunkFrame (f : ImgChunk) : Statement (.imageChunkFrame f) := of_wf _
theorem imageEndFrame (core : Nat) : Statement (.imageEndFrame core) := of_wf _
theorem imageBitmapReceived (core missing : Nat) : Statement (.imageBitmapReceived core missing) := of_wf _
theorem imageConfirm (core : Nat) : Statement (.imageConfirm core) := of_wf _
theorem imageBitmapTimeout (core : Nat) : Statement (.imageBitmapTimeout core) := of_wf _
theorem imageLoadDeadline : Statement (.imageLoadDeadline) := of_wf _
theorem rehomeComplete (core : Nat) (passed : Bool) : Statement (.rehomeComplete core passed) := of_wf _
theorem resetSettled (scope target : Nat) : Statement (.resetSettled scope target) := of_wf _
theorem resetRestored (scope target : Nat) (failed : List Nat) : Statement (.resetRestored scope target failed) := of_wf _
theorem deviceScopeReset : Statement (.deviceScopeReset) := of_wf _
theorem clocksLocked (locked : Nat) : Statement (.clocksLocked locked) := of_wf _
theorem strandsTrained (failed : List Nat) : Statement (.strandsTrained failed) := of_wf _
theorem strandPatternComplete (damage other : List (Nat × Line)) (spareDamage spareOther : List (Nat × Nat)) : Statement (.strandPatternComplete damage other spareDamage spareOther) := of_wf _
theorem startupTestComplete (found : List (Nat × Nat)) : Statement (.startupTestComplete found) := of_wf _
theorem rngHealthPass : Statement (.rngHealthPass) := of_wf _
theorem strandSliceFault (strand : Nat) : Statement (.strandSliceFault strand) := of_wf _
theorem engineLogicFault (core : Nat) : Statement (.engineLogicFault core) := of_wf _
theorem switchLogicFault (quadrant : Nat) : Statement (.switchLogicFault quadrant) := of_wf _
theorem controlMeshFault : Statement (.controlMeshFault) := of_wf _

end Sys2Proof.Laws.InRange
end

