-- ==== Sys2Proof/Laws/Tables.lean ====
section
/-! SUPPORT. Sparse tables: a written key reads back, other keys read as before, and the canonical form is kept; then the
same for the pool and the coil. -/
namespace Sys2Proof.Machine

variable {α : Type}

/-! ### Reading after a write -/

@[simp] theorem tget_nil (d : α) (i : Nat) : tget d [] i = d := rfl

@[simp] theorem tget_tput_self (d : α) (t : Tbl α) (i : Nat) (v : α) : tget d (tput i v t) i = v := by
  induction t with
  | nil => simp [tput, tget]
  | cons e t ih =>
    obtain ⟨k, w⟩ := e
    simp only [tput]
    split
    · simp [tget]
    · split
      · simp [tget]
      · simp [tget, *]

theorem tget_tput_ne (d : α) (t : Tbl α) (i j : Nat) (v : α) (h : j ≠ i) : tget d (tput i v t) j = tget d t j := by
  induction t with
  | nil => simp [tput, tget, h.symm]
  | cons e t ih =>
    obtain ⟨k, w⟩ := e
    simp only [tput]
    split
    · simp [tget, h.symm]
    · split
      · next hk => subst hk; simp [tget, h.symm]
      · simp [tget, ih]

@[simp] theorem tget_tdel_self (d : α) (t : Tbl α) (i : Nat) : tget d (tdel i t) i = d := by
  induction t with
  | nil => rfl
  | cons e t ih =>
    obtain ⟨k, w⟩ := e
    by_cases hk : k = i
    · subst hk; simpa [tdel] using ih
    · have : tdel i ((k, w) :: t) = (k, w) :: tdel i t := by simp [tdel, hk]
      rw [this, tget, if_neg hk, ih]

theorem tget_tdel_ne (d : α) (t : Tbl α) (i j : Nat) (h : j ≠ i) : tget d (tdel i t) j = tget d t j := by
  induction t with
  | nil => rfl
  | cons e t ih =>
    obtain ⟨k, w⟩ := e
    by_cases hk : k = i
    · subst hk
      have : tdel k ((k, w) :: t) = tdel k t := by simp [tdel]
      rw [this, ih, tget, if_neg h.symm]
    · have : tdel i ((k, w) :: t) = (k, w) :: tdel i t := by simp [tdel, hk]
      rw [this, tget, tget, ih]

variable [DecidableEq α]

@[simp] theorem tget_tset_self (d : α) (t : Tbl α) (i : Nat) (v : α) : tget d (tset d t i v) i = v := by
  unfold tset; split
  · next h => simp [h]
  · simp

theorem tget_tset_ne (d : α) (t : Tbl α) (i j : Nat) (v : α) (h : j ≠ i) : tget d (tset d t i v) j = tget d t j := by
  unfold tset; split
  · exact tget_tdel_ne d t i j h
  · exact tget_tput_ne d t i j v h

/-- A table after a write, read at any key. -/
theorem tget_tset (d : α) (t : Tbl α) (i j : Nat) (v : α) : tget d (tset d t i v) j = if j = i then v else tget d t j := by
  split
  · next h => subst h; simp
  · next h => exact tget_tset_ne d t i j v h

@[simp] theorem tget_tmod_self (d : α) (t : Tbl α) (i : Nat) (f : α → α) : tget d (tmod d t i f) i = f (tget d t i) := by
  simp [tmod]

theorem tget_tmod_ne (d : α) (t : Tbl α) (i j : Nat) (f : α → α) (h : j ≠ i) : tget d (tmod d t i f) j = tget d t j :=
  tget_tset_ne d t i j _ h

/-! ### The canonical form -/

/-- The canonical form said by quantifiers: keys strictly rising, no entry equal to the default. -/
theorem twf_iff (d : α) (t : Tbl α) : twf d t = true ↔ t.Pairwise (fun a b => a.1 < b.1) ∧ ∀ e ∈ t, e.2 ≠ d := by
  induction t with
  | nil => simp [twf]
  | cons e t ih =>
    cases t with
    | nil => simp [twf]
    | cons f t =>
      simp only [twf, Bool.and_eq_true, bne_iff_ne, decide_eq_true_eq, ih, List.pairwise_cons, List.mem_cons,
        forall_eq_or_imp]
      constructor
      · rintro ⟨⟨h1, h2⟩, ⟨h3, h4⟩, h5, h6⟩
        exact ⟨⟨⟨h2, fun a ha => Nat.lt_trans h2 (h3 a ha)⟩, h3, h4⟩, h1, h5, h6⟩
      · rintro ⟨⟨⟨h2, -⟩, h3, h4⟩, h1, h5, h6⟩
        exact ⟨⟨h1, h2⟩, ⟨h3, h4⟩, h5, h6⟩

omit [DecidableEq α] in
/-- Entries of a table after `tput` are the new one and old ones. -/
theorem mem_tput {t : Tbl α} {i : Nat} {v : α} {e : Nat × α} (h : e ∈ tput i v t) : e = (i, v) ∨ e ∈ t := by
  induction t with
  | nil => simpa [tput] using h
  | cons f t ih =>
    obtain ⟨k, w⟩ := f
    simp only [tput] at h
    split at h
    · simpa using h
    · split at h
      · rcases List.mem_cons.mp h with h | h
        · exact .inl h
        · exact .inr (List.mem_cons_of_mem _ h)
      · rcases List.mem_cons.mp h with h | h
        · exact .inr (h ▸ List.mem_cons_self ..)
        · rcases ih h with h | h
          · exact .inl h
          · exact .inr (List.mem_cons_of_mem _ h)

theorem twf_filter (d : α) {t : Tbl α} (p : Nat × α → Bool) (h : twf d t = true) : twf d (t.filter p) = true := by
  rw [twf_iff] at h ⊢
  exact ⟨h.1.filter p, fun e he => h.2 e (List.mem_filter.mp he).1⟩

theorem twf_tput (d : α) {t : Tbl α} (i : Nat) {v : α} (hv : v ≠ d) (h : twf d t = true) :
    twf d (tput i v t) = true := by
  rw [twf_iff] at h ⊢
  refine ⟨?_, fun e he => ?_⟩
  · induction t with
    | nil => simp [tput]
    | cons f t ih =>
      obtain ⟨k, w⟩ := f
      obtain ⟨h1, h2⟩ := h
      have hp := List.pairwise_cons.mp h1
      simp only [tput]
      split
      · next hik =>
        refine List.pairwise_cons.mpr ⟨fun a ha => ?_, h1⟩
        rcases List.mem_cons.mp ha with rfl | ha
        · exact hik
        · exact Nat.lt_trans hik (hp.1 a ha)
      · split
        · next hki => subst hki; exact List.pairwise_cons.mpr ⟨hp.1, hp.2⟩
        · next hn hki =>
          refine List.pairwise_cons.mpr ⟨fun a ha => ?_, ih ⟨hp.2, fun e he => h2 e (List.mem_cons_of_mem _ he)⟩⟩
          rcases mem_tput ha with rfl | ha
          · simp only; omega
          · exact hp.1 a ha
  · rcases mem_tput he with rfl | he
    · exact hv
    · exact h.2 e he

/-- Writing a table keeps its canonical form. -/
theorem twf_tset (d : α) {t : Tbl α} (i : Nat) (v : α) (h : twf d t = true) : twf d (tset d t i v) = true := by
  unfold tset; split
  · exact twf_filter d _ h
  · next hv => exact twf_tput d i hv h

/-! ### Keyed state -/

theorem strandOf_modStrand_self (st : Nat) (f : Strand → Strand) (s : State) :
    strandOf (modStrand st f s) st = f (strandOf s st) := tget_tmod_self ..

theorem strandOf_modStrand_ne (st k : Nat) (f : Strand → Strand) (s : State) (h : k ≠ st) :
    strandOf (modStrand st f s) k = strandOf s k := tget_tmod_ne _ _ _ _ _ h

theorem portOf_modPort_self (p : Nat) (f : Port → Port) (s : State) : portOf (modPort p f s) p = f (portOf s p) :=
  tget_tmod_self ..

theorem portOf_modPort_ne (p k : Nat) (f : Port → Port) (s : State) (h : k ≠ p) : portOf (modPort p f s) k = portOf s k :=
  tget_tmod_ne _ _ _ _ _ h

@[simp] theorem getField_setField_self (off lo r v : Nat) (s : State) : getField off lo r (setField off lo r v s) = v :=
  tget_tset_self ..

theorem getField_setField_ne (off lo r v off' lo' : Nat) (s : State) (h : fkey off' lo' ≠ fkey off lo) :
    getField off' lo' r (setField off lo r v s) = getField off' lo' r s :=
  tget_tset_ne _ _ _ _ _ h

end Sys2Proof.Machine
end

