-- ==== Sys2Proof/Laws/State.lean ====
section
/-! SUPPORT. The frames of the shared operations: the parts of the state that each leaves as they are, one rewriting rule a
part. -/
namespace Sys2Proof.Machine

/-- Folding operations that all leave a part of the state as it is leaves it as it is. -/
theorem foldl_keeps {β γ : Type} (f : State → γ) (g : State → β → State) (h : ∀ s a, f (g s a) = f s) :
    ∀ (l : List β) (s : State), f (l.foldl g s) = f s
  | [], _ => rfl
  | a :: l, s => (foldl_keeps f g h l (g s a)).trans (h s a)

@[simp] theorem draw_frame (s : State) :
    (draw s).2.pending = s.pending ∧ (draw s).2.out = s.out ∧ (draw s).2.fields = s.fields ∧ (draw s).2.waiting
    = s.waiting ∧ (draw s).2.time = s.time ∧ (draw s).2.kcp = s.kcp ∧ (draw s).2.bind = s.bind ∧ (draw s).2.xlat
    = s.xlat ∧ (draw s).2.coh = s.coh ∧ (draw s).2.mem = s.mem ∧ (draw s).2.eng = s.eng ∧ (draw s).2.belay =
    s.belay ∧ (draw s).2.link = s.link ∧ (draw s).2.sw = s.sw ∧ (draw s).2.sec = s.sec ∧ (draw s).2.boot =
    s.boot ∧ (draw s).2.err = s.err ∧ (draw s).2.pair = s.pair ∧ (draw s).2.halt = s.halt ∧ (draw s).2.ctr =
    s.ctr ∧ (draw s).2.intc = s.intc ∧ (draw s).2.pwr = s.pwr ∧ (draw s).2.shown = s.shown :=
  ⟨rfl, rfl, rfl, rfl, rfl, rfl, rfl, rfl, rfl, rfl, rfl, rfl, rfl, rfl, rfl, rfl, rfl, rfl, rfl, rfl, rfl, rfl, rfl⟩

@[simp] theorem emit_frame (o : Out) (s : State) :
    (emit o s).pending = s.pending ∧ (emit o s).draws = s.draws ∧ (emit o s).fields = s.fields ∧ (emit o
    s).waiting = s.waiting ∧ (emit o s).time = s.time ∧ (emit o s).kcp = s.kcp ∧ (emit o s).bind = s.bind ∧
    (emit o s).xlat = s.xlat ∧ (emit o s).coh = s.coh ∧ (emit o s).mem = s.mem ∧ (emit o s).eng = s.eng ∧ (emit
    o s).belay = s.belay ∧ (emit o s).link = s.link ∧ (emit o s).sw = s.sw ∧ (emit o s).sec = s.sec ∧ (emit o
    s).boot = s.boot ∧ (emit o s).err = s.err ∧ (emit o s).pair = s.pair ∧ (emit o s).halt = s.halt ∧ (emit o
    s).ctr = s.ctr ∧ (emit o s).intc = s.intc ∧ (emit o s).pwr = s.pwr ∧ (emit o s).shown = s.shown :=
  ⟨rfl, rfl, rfl, rfl, rfl, rfl, rfl, rfl, rfl, rfl, rfl, rfl, rfl, rfl, rfl, rfl, rfl, rfl, rfl, rfl, rfl, rfl, rfl⟩

@[simp] theorem bump_frame (t i n : Nat) (s : State) :
    (bump t i n s).pending = s.pending ∧ (bump t i n s).out = s.out ∧ (bump t i n s).draws = s.draws ∧ (bump t i
    n s).fields = s.fields ∧ (bump t i n s).waiting = s.waiting ∧ (bump t i n s).time = s.time ∧ (bump t i n
    s).kcp = s.kcp ∧ (bump t i n s).bind = s.bind ∧ (bump t i n s).xlat = s.xlat ∧ (bump t i n s).coh = s.coh ∧
    (bump t i n s).mem = s.mem ∧ (bump t i n s).eng = s.eng ∧ (bump t i n s).belay = s.belay ∧ (bump t i n
    s).link = s.link ∧ (bump t i n s).sw = s.sw ∧ (bump t i n s).sec = s.sec ∧ (bump t i n s).boot = s.boot ∧
    (bump t i n s).err = s.err ∧ (bump t i n s).pair = s.pair ∧ (bump t i n s).halt = s.halt ∧ (bump t i n
    s).intc = s.intc ∧ (bump t i n s).pwr = s.pwr ∧ (bump t i n s).shown = s.shown :=
  ⟨rfl, rfl, rfl, rfl, rfl, rfl, rfl, rfl, rfl, rfl, rfl, rfl, rfl, rfl, rfl, rfl, rfl, rfl, rfl, rfl, rfl, rfl, rfl⟩

@[simp] theorem bumpDev_frame (i n : Nat) (s : State) :
    (bumpDev i n s).pending = s.pending ∧ (bumpDev i n s).out = s.out ∧ (bumpDev i n s).draws = s.draws ∧
    (bumpDev i n s).fields = s.fields ∧ (bumpDev i n s).waiting = s.waiting ∧ (bumpDev i n s).time = s.time ∧
    (bumpDev i n s).kcp = s.kcp ∧ (bumpDev i n s).bind = s.bind ∧ (bumpDev i n s).xlat = s.xlat ∧ (bumpDev i n
    s).coh = s.coh ∧ (bumpDev i n s).mem = s.mem ∧ (bumpDev i n s).eng = s.eng ∧ (bumpDev i n s).belay = s.belay
    ∧ (bumpDev i n s).link = s.link ∧ (bumpDev i n s).sw = s.sw ∧ (bumpDev i n s).sec = s.sec ∧ (bumpDev i n
    s).boot = s.boot ∧ (bumpDev i n s).err = s.err ∧ (bumpDev i n s).pair = s.pair ∧ (bumpDev i n s).halt =
    s.halt ∧ (bumpDev i n s).intc = s.intc ∧ (bumpDev i n s).pwr = s.pwr ∧ (bumpDev i n s).shown = s.shown :=
  ⟨rfl, rfl, rfl, rfl, rfl, rfl, rfl, rfl, rfl, rfl, rfl, rfl, rfl, rfl, rfl, rfl, rfl, rfl, rfl, rfl, rfl, rfl, rfl⟩

@[simp] theorem bumpBoth_frame (t i n : Nat) (s : State) :
    (bumpBoth t i n s).pending = s.pending ∧ (bumpBoth t i n s).out = s.out ∧ (bumpBoth t i n s).draws = s.draws
    ∧ (bumpBoth t i n s).fields = s.fields ∧ (bumpBoth t i n s).waiting = s.waiting ∧ (bumpBoth t i n s).time =
    s.time ∧ (bumpBoth t i n s).kcp = s.kcp ∧ (bumpBoth t i n s).bind = s.bind ∧ (bumpBoth t i n s).xlat =
    s.xlat ∧ (bumpBoth t i n s).coh = s.coh ∧ (bumpBoth t i n s).mem = s.mem ∧ (bumpBoth t i n s).eng = s.eng ∧
    (bumpBoth t i n s).belay = s.belay ∧ (bumpBoth t i n s).link = s.link ∧ (bumpBoth t i n s).sw = s.sw ∧
    (bumpBoth t i n s).sec = s.sec ∧ (bumpBoth t i n s).boot = s.boot ∧ (bumpBoth t i n s).err = s.err ∧
    (bumpBoth t i n s).pair = s.pair ∧ (bumpBoth t i n s).halt = s.halt ∧ (bumpBoth t i n s).intc = s.intc ∧
    (bumpBoth t i n s).pwr = s.pwr ∧ (bumpBoth t i n s).shown = s.shown := by
  unfold bumpBoth; (try dsimp only); split <;> simp

@[simp] theorem setField_frame (o l r v : Nat) (s : State) :
    (setField o l r v s).pending = s.pending ∧ (setField o l r v s).out = s.out ∧ (setField o l r v s).draws =
    s.draws ∧ (setField o l r v s).waiting = s.waiting ∧ (setField o l r v s).time = s.time ∧ (setField o l r v
    s).kcp = s.kcp ∧ (setField o l r v s).bind = s.bind ∧ (setField o l r v s).xlat = s.xlat ∧ (setField o l r v
    s).coh = s.coh ∧ (setField o l r v s).mem = s.mem ∧ (setField o l r v s).eng = s.eng ∧ (setField o l r v
    s).belay = s.belay ∧ (setField o l r v s).link = s.link ∧ (setField o l r v s).sw = s.sw ∧ (setField o l r v
    s).sec = s.sec ∧ (setField o l r v s).boot = s.boot ∧ (setField o l r v s).err = s.err ∧ (setField o l r v
    s).pair = s.pair ∧ (setField o l r v s).halt = s.halt ∧ (setField o l r v s).ctr = s.ctr ∧ (setField o l r v
    s).intc = s.intc ∧ (setField o l r v s).pwr = s.pwr ∧ (setField o l r v s).shown = s.shown :=
  ⟨rfl, rfl, rfl, rfl, rfl, rfl, rfl, rfl, rfl, rfl, rfl, rfl, rfl, rfl, rfl, rfl, rfl, rfl, rfl, rfl, rfl, rfl, rfl⟩

@[simp] theorem sat_frame (o l w n : Nat) (s : State) :
    (sat o l w n s).pending = s.pending ∧ (sat o l w n s).out = s.out ∧ (sat o l w n s).draws = s.draws ∧ (sat o
    l w n s).waiting = s.waiting ∧ (sat o l w n s).time = s.time ∧ (sat o l w n s).kcp = s.kcp ∧ (sat o l w n
    s).bind = s.bind ∧ (sat o l w n s).xlat = s.xlat ∧ (sat o l w n s).coh = s.coh ∧ (sat o l w n s).mem = s.mem
    ∧ (sat o l w n s).eng = s.eng ∧ (sat o l w n s).belay = s.belay ∧ (sat o l w n s).link = s.link ∧ (sat o l w
    n s).sw = s.sw ∧ (sat o l w n s).sec = s.sec ∧ (sat o l w n s).boot = s.boot ∧ (sat o l w n s).err = s.err ∧
    (sat o l w n s).pair = s.pair ∧ (sat o l w n s).halt = s.halt ∧ (sat o l w n s).ctr = s.ctr ∧ (sat o l w n
    s).intc = s.intc ∧ (sat o l w n s).pwr = s.pwr ∧ (sat o l w n s).shown = s.shown :=
  ⟨rfl, rfl, rfl, rfl, rfl, rfl, rfl, rfl, rfl, rfl, rfl, rfl, rfl, rfl, rfl, rfl, rfl, rfl, rfl, rfl, rfl, rfl, rfl⟩

@[simp] theorem fire_frame (i : Nat) (s : State) :
    (fire i s).pending = s.pending ∧ (fire i s).out = s.out ∧ (fire i s).draws = s.draws ∧ (fire i s).waiting =
    s.waiting ∧ (fire i s).time = s.time ∧ (fire i s).kcp = s.kcp ∧ (fire i s).bind = s.bind ∧ (fire i s).xlat =
    s.xlat ∧ (fire i s).coh = s.coh ∧ (fire i s).mem = s.mem ∧ (fire i s).eng = s.eng ∧ (fire i s).belay =
    s.belay ∧ (fire i s).link = s.link ∧ (fire i s).sw = s.sw ∧ (fire i s).sec = s.sec ∧ (fire i s).boot =
    s.boot ∧ (fire i s).err = s.err ∧ (fire i s).pair = s.pair ∧ (fire i s).halt = s.halt ∧ (fire i s).ctr =
    s.ctr ∧ (fire i s).pwr = s.pwr ∧ (fire i s).shown = s.shown :=
  ⟨rfl, rfl, rfl, rfl, rfl, rfl, rfl, rfl, rfl, rfl, rfl, rfl, rfl, rfl, rfl, rfl, rfl, rfl, rfl, rfl, rfl, rfl⟩

@[simp] theorem rung4_frame (s : State) :
    (rung4 s).pending = s.pending ∧ (rung4 s).out = s.out ∧ (rung4 s).draws = s.draws ∧ (rung4 s).fields =
    s.fields ∧ (rung4 s).waiting = s.waiting ∧ (rung4 s).time = s.time ∧ (rung4 s).kcp = s.kcp ∧ (rung4 s).bind
    = s.bind ∧ (rung4 s).xlat = s.xlat ∧ (rung4 s).coh = s.coh ∧ (rung4 s).mem = s.mem ∧ (rung4 s).eng = s.eng ∧
    (rung4 s).belay = s.belay ∧ (rung4 s).link = s.link ∧ (rung4 s).sw = s.sw ∧ (rung4 s).sec = s.sec ∧ (rung4
    s).boot = s.boot ∧ (rung4 s).pair = s.pair ∧ (rung4 s).halt = s.halt ∧ (rung4 s).ctr = s.ctr ∧ (rung4
    s).intc = s.intc ∧ (rung4 s).shown = s.shown :=
  ⟨rfl, rfl, rfl, rfl, rfl, rfl, rfl, rfl, rfl, rfl, rfl, rfl, rfl, rfl, rfl, rfl, rfl, rfl, rfl, rfl, rfl, rfl⟩

@[simp] theorem modPort_frame (p : Nat) (f : Port → Port) (s : State) :
    (modPort p f s).pending = s.pending ∧ (modPort p f s).out = s.out ∧ (modPort p f s).draws = s.draws ∧
    (modPort p f s).fields = s.fields ∧ (modPort p f s).waiting = s.waiting ∧ (modPort p f s).time = s.time ∧
    (modPort p f s).kcp = s.kcp ∧ (modPort p f s).bind = s.bind ∧ (modPort p f s).xlat = s.xlat ∧ (modPort p f
    s).coh = s.coh ∧ (modPort p f s).mem = s.mem ∧ (modPort p f s).eng = s.eng ∧ (modPort p f s).belay = s.belay
    ∧ (modPort p f s).sw = s.sw ∧ (modPort p f s).sec = s.sec ∧ (modPort p f s).boot = s.boot ∧ (modPort p f
    s).err = s.err ∧ (modPort p f s).pair = s.pair ∧ (modPort p f s).halt = s.halt ∧ (modPort p f s).ctr = s.ctr
    ∧ (modPort p f s).intc = s.intc ∧ (modPort p f s).pwr = s.pwr ∧ (modPort p f s).shown = s.shown :=
  ⟨rfl, rfl, rfl, rfl, rfl, rfl, rfl, rfl, rfl, rfl, rfl, rfl, rfl, rfl, rfl, rfl, rfl, rfl, rfl, rfl, rfl, rfl, rfl⟩

@[simp] theorem enqueue_frame (p q : Nat) (k : TxPkt) (s : State) :
    (enqueue p q k s).pending = s.pending ∧ (enqueue p q k s).out = s.out ∧ (enqueue p q k s).draws = s.draws ∧
    (enqueue p q k s).fields = s.fields ∧ (enqueue p q k s).waiting = s.waiting ∧ (enqueue p q k s).time =
    s.time ∧ (enqueue p q k s).kcp = s.kcp ∧ (enqueue p q k s).bind = s.bind ∧ (enqueue p q k s).xlat = s.xlat ∧
    (enqueue p q k s).coh = s.coh ∧ (enqueue p q k s).mem = s.mem ∧ (enqueue p q k s).eng = s.eng ∧ (enqueue p q
    k s).belay = s.belay ∧ (enqueue p q k s).sw = s.sw ∧ (enqueue p q k s).sec = s.sec ∧ (enqueue p q k s).boot
    = s.boot ∧ (enqueue p q k s).err = s.err ∧ (enqueue p q k s).pair = s.pair ∧ (enqueue p q k s).ctr = s.ctr ∧
    (enqueue p q k s).intc = s.intc ∧ (enqueue p q k s).pwr = s.pwr ∧ (enqueue p q k s).shown = s.shown := by
  unfold enqueue; (try dsimp only); split <;> simp

@[simp] theorem sendKcp_frame (path : Path) (p : KcpPkt) (s : State) :
    (sendKcp path p s).pending = s.pending ∧ (sendKcp path p s).draws = s.draws ∧ (sendKcp path p s).fields =
    s.fields ∧ (sendKcp path p s).waiting = s.waiting ∧ (sendKcp path p s).time = s.time ∧ (sendKcp path p
    s).kcp = s.kcp ∧ (sendKcp path p s).bind = s.bind ∧ (sendKcp path p s).xlat = s.xlat ∧ (sendKcp path p
    s).coh = s.coh ∧ (sendKcp path p s).mem = s.mem ∧ (sendKcp path p s).eng = s.eng ∧ (sendKcp path p s).belay
    = s.belay ∧ (sendKcp path p s).sw = s.sw ∧ (sendKcp path p s).sec = s.sec ∧ (sendKcp path p s).boot = s.boot
    ∧ (sendKcp path p s).err = s.err ∧ (sendKcp path p s).pair = s.pair ∧ (sendKcp path p s).ctr = s.ctr ∧
    (sendKcp path p s).intc = s.intc ∧ (sendKcp path p s).pwr = s.pwr ∧ (sendKcp path p s).shown = s.shown := by
  unfold sendKcp; (try dsimp only); repeat' split
  all_goals simp

@[simp] theorem replicate_frame (g : Nat) (h : PktHdr) (l : List Line) (t : Nat) (s : State) :
    (replicate g h l t s).pending = s.pending ∧ (replicate g h l t s).out = s.out ∧ (replicate g h l t s).draws
    = s.draws ∧ (replicate g h l t s).fields = s.fields ∧ (replicate g h l t s).waiting = s.waiting ∧ (replicate
    g h l t s).time = s.time ∧ (replicate g h l t s).kcp = s.kcp ∧ (replicate g h l t s).bind = s.bind ∧
    (replicate g h l t s).xlat = s.xlat ∧ (replicate g h l t s).coh = s.coh ∧ (replicate g h l t s).mem = s.mem
    ∧ (replicate g h l t s).eng = s.eng ∧ (replicate g h l t s).belay = s.belay ∧ (replicate g h l t s).sw =
    s.sw ∧ (replicate g h l t s).sec = s.sec ∧ (replicate g h l t s).boot = s.boot ∧ (replicate g h l t s).err =
    s.err ∧ (replicate g h l t s).pair = s.pair ∧ (replicate g h l t s).ctr = s.ctr ∧ (replicate g h l t s).intc
    = s.intc ∧ (replicate g h l t s).pwr = s.pwr ∧ (replicate g h l t s).shown = s.shown := by
  unfold replicate
  exact ⟨foldl_keeps (·.pending) _ (by simp) _ _, foldl_keeps (·.out) _ (by simp) _ _, foldl_keeps (·.draws) _ (by simp) _ _, foldl_keeps (·.fields) _ (by simp) _ _, foldl_keeps (·.waiting) _ (by simp) _ _, foldl_keeps (·.time) _ (by simp) _ _, foldl_keeps (·.kcp) _ (by simp) _ _, foldl_keeps (·.bind) _ (by simp) _ _, foldl_keeps (·.xlat) _ (by simp) _ _, foldl_keeps (·.coh) _ (by simp) _ _, foldl_keeps (·.mem) _ (by simp) _ _, foldl_keeps (·.eng) _ (by simp) _ _, foldl_keeps (·.belay) _ (by simp) _ _, foldl_keeps (·.sw) _ (by simp) _ _, foldl_keeps (·.sec) _ (by simp) _ _, foldl_keeps (·.boot) _ (by simp) _ _, foldl_keeps (·.err) _ (by simp) _ _, foldl_keeps (·.pair) _ (by simp) _ _, foldl_keeps (·.ctr) _ (by simp) _ _, foldl_keeps (·.intc) _ (by simp) _ _, foldl_keeps (·.pwr) _ (by simp) _ _, foldl_keeps (·.shown) _ (by simp) _ _⟩

@[simp] theorem originateWith_frame (k : Nat → Option Nat) (d : Nat) (h : PktHdr) (l : List Line) (t : Nat) (s : State) :
    (originateWith k d h l t s).pending = s.pending ∧ (originateWith k d h l t s).out = s.out ∧ (originateWith k
    d h l t s).draws = s.draws ∧ (originateWith k d h l t s).fields = s.fields ∧ (originateWith k d h l t
    s).waiting = s.waiting ∧ (originateWith k d h l t s).time = s.time ∧ (originateWith k d h l t s).kcp = s.kcp
    ∧ (originateWith k d h l t s).bind = s.bind ∧ (originateWith k d h l t s).xlat = s.xlat ∧ (originateWith k d
    h l t s).coh = s.coh ∧ (originateWith k d h l t s).mem = s.mem ∧ (originateWith k d h l t s).eng = s.eng ∧
    (originateWith k d h l t s).belay = s.belay ∧ (originateWith k d h l t s).sec = s.sec ∧ (originateWith k d h
    l t s).boot = s.boot ∧ (originateWith k d h l t s).err = s.err ∧ (originateWith k d h l t s).pair = s.pair ∧
    (originateWith k d h l t s).ctr = s.ctr ∧ (originateWith k d h l t s).intc = s.intc ∧ (originateWith k d h l
    t s).pwr = s.pwr ∧ (originateWith k d h l t s).shown = s.shown := by
  unfold originateWith; (try dsimp only); repeat' split
  all_goals simp

@[simp] theorem originate_frame (d : Nat) (h : PktHdr) (l : List Line) (t : Nat) (s : State) :
    (originate d h l t s).pending = s.pending ∧ (originate d h l t s).out = s.out ∧ (originate d h l t s).draws
    = s.draws ∧ (originate d h l t s).fields = s.fields ∧ (originate d h l t s).waiting = s.waiting ∧ (originate
    d h l t s).time = s.time ∧ (originate d h l t s).kcp = s.kcp ∧ (originate d h l t s).bind = s.bind ∧
    (originate d h l t s).xlat = s.xlat ∧ (originate d h l t s).coh = s.coh ∧ (originate d h l t s).mem = s.mem
    ∧ (originate d h l t s).eng = s.eng ∧ (originate d h l t s).belay = s.belay ∧ (originate d h l t s).sec =
    s.sec ∧ (originate d h l t s).boot = s.boot ∧ (originate d h l t s).err = s.err ∧ (originate d h l t s).pair
    = s.pair ∧ (originate d h l t s).ctr = s.ctr ∧ (originate d h l t s).intc = s.intc ∧ (originate d h l t
    s).pwr = s.pwr ∧ (originate d h l t s).shown = s.shown := by
  simp [originate]

@[simp] theorem freePair_frame (k : Option Nat) (s : State) :
    (freePair k s).pending = s.pending ∧ (freePair k s).out = s.out ∧ (freePair k s).draws = s.draws ∧ (freePair
    k s).fields = s.fields ∧ (freePair k s).waiting = s.waiting ∧ (freePair k s).time = s.time ∧ (freePair k
    s).kcp = s.kcp ∧ (freePair k s).bind = s.bind ∧ (freePair k s).xlat = s.xlat ∧ (freePair k s).coh = s.coh ∧
    (freePair k s).mem = s.mem ∧ (freePair k s).eng = s.eng ∧ (freePair k s).belay = s.belay ∧ (freePair k
    s).link = s.link ∧ (freePair k s).sec = s.sec ∧ (freePair k s).boot = s.boot ∧ (freePair k s).err = s.err ∧
    (freePair k s).pair = s.pair ∧ (freePair k s).halt = s.halt ∧ (freePair k s).ctr = s.ctr ∧ (freePair k
    s).intc = s.intc ∧ (freePair k s).pwr = s.pwr ∧ (freePair k s).shown = s.shown := by
  unfold freePair; (try dsimp only); split <;> simp

@[simp] theorem sendBlocks_frame (l : Nat) (w : List Blk) (s : State) :
    (sendBlocks l w s).pending = s.pending ∧ (sendBlocks l w s).out = s.out ∧ (sendBlocks l w s).draws = s.draws
    ∧ (sendBlocks l w s).fields = s.fields ∧ (sendBlocks l w s).waiting = s.waiting ∧ (sendBlocks l w s).time =
    s.time ∧ (sendBlocks l w s).kcp = s.kcp ∧ (sendBlocks l w s).bind = s.bind ∧ (sendBlocks l w s).xlat =
    s.xlat ∧ (sendBlocks l w s).coh = s.coh ∧ (sendBlocks l w s).mem = s.mem ∧ (sendBlocks l w s).eng = s.eng ∧
    (sendBlocks l w s).belay = s.belay ∧ (sendBlocks l w s).sw = s.sw ∧ (sendBlocks l w s).sec = s.sec ∧
    (sendBlocks l w s).boot = s.boot ∧ (sendBlocks l w s).err = s.err ∧ (sendBlocks l w s).pair = s.pair ∧
    (sendBlocks l w s).halt = s.halt ∧ (sendBlocks l w s).ctr = s.ctr ∧ (sendBlocks l w s).intc = s.intc ∧
    (sendBlocks l w s).pwr = s.pwr ∧ (sendBlocks l w s).shown = s.shown :=
  ⟨rfl, rfl, rfl, rfl, rfl, rfl, rfl, rfl, rfl, rfl, rfl, rfl, rfl, rfl, rfl, rfl, rfl, rfl, rfl, rfl, rfl, rfl, rfl⟩

@[simp] theorem sendBlock_frame (l : Nat) (w : Blk) (s : State) :
    (sendBlock l w s).pending = s.pending ∧ (sendBlock l w s).draws = s.draws ∧ (sendBlock l w s).fields =
    s.fields ∧ (sendBlock l w s).waiting = s.waiting ∧ (sendBlock l w s).time = s.time ∧ (sendBlock l w s).kcp =
    s.kcp ∧ (sendBlock l w s).bind = s.bind ∧ (sendBlock l w s).xlat = s.xlat ∧ (sendBlock l w s).coh = s.coh ∧
    (sendBlock l w s).mem = s.mem ∧ (sendBlock l w s).eng = s.eng ∧ (sendBlock l w s).belay = s.belay ∧
    (sendBlock l w s).sw = s.sw ∧ (sendBlock l w s).sec = s.sec ∧ (sendBlock l w s).boot = s.boot ∧ (sendBlock l
    w s).err = s.err ∧ (sendBlock l w s).pair = s.pair ∧ (sendBlock l w s).halt = s.halt ∧ (sendBlock l w s).ctr
    = s.ctr ∧ (sendBlock l w s).intc = s.intc ∧ (sendBlock l w s).pwr = s.pwr ∧ (sendBlock l w s).shown =
    s.shown := by
  simp [sendBlock]

@[simp] theorem sendFill_frame (l n : Nat) (s : State) :
    (sendFill l n s).pending = s.pending ∧ (sendFill l n s).out = s.out ∧ (sendFill l n s).draws = s.draws ∧
    (sendFill l n s).fields = s.fields ∧ (sendFill l n s).waiting = s.waiting ∧ (sendFill l n s).time = s.time
    ∧ (sendFill l n s).kcp = s.kcp ∧ (sendFill l n s).bind = s.bind ∧ (sendFill l n s).xlat = s.xlat ∧
    (sendFill l n s).coh = s.coh ∧ (sendFill l n s).mem = s.mem ∧ (sendFill l n s).eng = s.eng ∧ (sendFill l n
    s).belay = s.belay ∧ (sendFill l n s).sw = s.sw ∧ (sendFill l n s).sec = s.sec ∧ (sendFill l n s).boot =
    s.boot ∧ (sendFill l n s).err = s.err ∧ (sendFill l n s).pair = s.pair ∧ (sendFill l n s).halt = s.halt ∧
    (sendFill l n s).ctr = s.ctr ∧ (sendFill l n s).intc = s.intc ∧ (sendFill l n s).pwr = s.pwr ∧ (sendFill l
    n s).shown = s.shown := by
  simp [sendFill]

@[simp] theorem sendTrainBlock_frame (l : Nat) (w : Blk) (s : State) :
    (sendTrainBlock l w s).pending = s.pending ∧ (sendTrainBlock l w s).draws = s.draws ∧ (sendTrainBlock l w
    s).fields = s.fields ∧ (sendTrainBlock l w s).waiting = s.waiting ∧ (sendTrainBlock l w s).time = s.time ∧
    (sendTrainBlock l w s).kcp = s.kcp ∧ (sendTrainBlock l w s).bind = s.bind ∧ (sendTrainBlock l w s).xlat =
    s.xlat ∧ (sendTrainBlock l w s).coh = s.coh ∧ (sendTrainBlock l w s).mem = s.mem ∧ (sendTrainBlock l w
    s).eng = s.eng ∧ (sendTrainBlock l w s).belay = s.belay ∧ (sendTrainBlock l w s).sw = s.sw ∧ (sendTrainBlock
    l w s).sec = s.sec ∧ (sendTrainBlock l w s).boot = s.boot ∧ (sendTrainBlock l w s).err = s.err ∧
    (sendTrainBlock l w s).pair = s.pair ∧ (sendTrainBlock l w s).halt = s.halt ∧ (sendTrainBlock l w s).ctr =
    s.ctr ∧ (sendTrainBlock l w s).intc = s.intc ∧ (sendTrainBlock l w s).pwr = s.pwr ∧ (sendTrainBlock l w
    s).shown = s.shown := by
  simp [sendTrainBlock]

@[simp] theorem restartStream_frame (l : Nat) (s : State) :
    (restartStream l s).pending = s.pending ∧ (restartStream l s).out = s.out ∧ (restartStream l s).draws =
    s.draws ∧ (restartStream l s).fields = s.fields ∧ (restartStream l s).waiting = s.waiting ∧ (restartStream l
    s).time = s.time ∧ (restartStream l s).kcp = s.kcp ∧ (restartStream l s).bind = s.bind ∧ (restartStream l
    s).xlat = s.xlat ∧ (restartStream l s).coh = s.coh ∧ (restartStream l s).mem = s.mem ∧ (restartStream l
    s).eng = s.eng ∧ (restartStream l s).belay = s.belay ∧ (restartStream l s).sw = s.sw ∧ (restartStream l
    s).sec = s.sec ∧ (restartStream l s).boot = s.boot ∧ (restartStream l s).err = s.err ∧ (restartStream l
    s).pair = s.pair ∧ (restartStream l s).halt = s.halt ∧ (restartStream l s).ctr = s.ctr ∧ (restartStream l
    s).intc = s.intc ∧ (restartStream l s).pwr = s.pwr ∧ (restartStream l s).shown = s.shown :=
  ⟨rfl, rfl, rfl, rfl, rfl, rfl, rfl, rfl, rfl, rfl, rfl, rfl, rfl, rfl, rfl, rfl, rfl, rfl, rfl, rfl, rfl, rfl, rfl⟩

/-- What every filled lane keeps, a port keeping its lanes' pace keeps. -/
theorem keepPace_keeps {α : Type} (g : State → α) (h : ∀ l n u, g (sendFill l n u) = g u) (p : Nat) (s : State) :
    g (keepPace p s) = g s := by
  unfold keepPace
  split
  · split
    · rfl
    · exact foldl_keeps g _ (fun _ _ => h _ _ _) _ _
  · rfl

@[simp] theorem keepPace_frame (p : Nat) (s : State) :
    (keepPace p s).pending = s.pending ∧ (keepPace p s).out = s.out ∧ (keepPace p s).draws = s.draws ∧
    (keepPace p s).fields = s.fields ∧ (keepPace p s).waiting = s.waiting ∧ (keepPace p s).time = s.time ∧
    (keepPace p s).kcp = s.kcp ∧ (keepPace p s).bind = s.bind ∧ (keepPace p s).xlat = s.xlat ∧ (keepPace p
    s).coh = s.coh ∧ (keepPace p s).mem = s.mem ∧ (keepPace p s).eng = s.eng ∧ (keepPace p s).belay = s.belay
    ∧ (keepPace p s).sw = s.sw ∧ (keepPace p s).sec = s.sec ∧ (keepPace p s).boot = s.boot ∧ (keepPace p
    s).err = s.err ∧ (keepPace p s).pair = s.pair ∧ (keepPace p s).halt = s.halt ∧ (keepPace p s).ctr = s.ctr
    ∧ (keepPace p s).intc = s.intc ∧ (keepPace p s).pwr = s.pwr ∧ (keepPace p s).shown = s.shown := by
  exact ⟨keepPace_keeps (·.pending) (by simp) p s, keepPace_keeps (·.out) (by simp) p s,
    keepPace_keeps (·.draws) (by simp) p s, keepPace_keeps (·.fields) (by simp) p s,
    keepPace_keeps (·.waiting) (by simp) p s, keepPace_keeps (·.time) (by simp) p s,
    keepPace_keeps (·.kcp) (by simp) p s, keepPace_keeps (·.bind) (by simp) p s,
    keepPace_keeps (·.xlat) (by simp) p s, keepPace_keeps (·.coh) (by simp) p s,
    keepPace_keeps (·.mem) (by simp) p s, keepPace_keeps (·.eng) (by simp) p s,
    keepPace_keeps (·.belay) (by simp) p s, keepPace_keeps (·.sw) (by simp) p s,
    keepPace_keeps (·.sec) (by simp) p s, keepPace_keeps (·.boot) (by simp) p s,
    keepPace_keeps (·.err) (by simp) p s, keepPace_keeps (·.pair) (by simp) p s,
    keepPace_keeps (·.halt) (by simp) p s, keepPace_keeps (·.ctr) (by simp) p s,
    keepPace_keeps (·.intc) (by simp) p s, keepPace_keeps (·.pwr) (by simp) p s,
    keepPace_keeps (·.shown) (by simp) p s⟩

@[simp] theorem deal_frame (p : Nat) (ws : List Blk) (s : State) :
    (deal p ws s).pending = s.pending ∧ (deal p ws s).out = s.out ∧ (deal p ws s).draws = s.draws ∧ (deal p ws
    s).fields = s.fields ∧ (deal p ws s).waiting = s.waiting ∧ (deal p ws s).time = s.time ∧ (deal p ws s).kcp =
    s.kcp ∧ (deal p ws s).bind = s.bind ∧ (deal p ws s).xlat = s.xlat ∧ (deal p ws s).coh = s.coh ∧ (deal p ws
    s).mem = s.mem ∧ (deal p ws s).eng = s.eng ∧ (deal p ws s).belay = s.belay ∧ (deal p ws s).sw = s.sw ∧ (deal
    p ws s).sec = s.sec ∧ (deal p ws s).boot = s.boot ∧ (deal p ws s).err = s.err ∧ (deal p ws s).pair = s.pair
    ∧ (deal p ws s).halt = s.halt ∧ (deal p ws s).ctr = s.ctr ∧ (deal p ws s).intc = s.intc ∧ (deal p ws s).pwr
    = s.pwr ∧ (deal p ws s).shown = s.shown := by
  simp only [deal, keepPace_frame, modPort_frame]
  exact ⟨foldl_keeps (·.pending) _ (by simp) _ _, foldl_keeps (·.out) _ (by simp) _ _, foldl_keeps (·.draws) _ (by simp) _ _, foldl_keeps (·.fields) _ (by simp) _ _, foldl_keeps (·.waiting) _ (by simp) _ _, foldl_keeps (·.time) _ (by simp) _ _, foldl_keeps (·.kcp) _ (by simp) _ _, foldl_keeps (·.bind) _ (by simp) _ _, foldl_keeps (·.xlat) _ (by simp) _ _, foldl_keeps (·.coh) _ (by simp) _ _, foldl_keeps (·.mem) _ (by simp) _ _, foldl_keeps (·.eng) _ (by simp) _ _, foldl_keeps (·.belay) _ (by simp) _ _, foldl_keeps (·.sw) _ (by simp) _ _, foldl_keeps (·.sec) _ (by simp) _ _, foldl_keeps (·.boot) _ (by simp) _ _, foldl_keeps (·.err) _ (by simp) _ _, foldl_keeps (·.pair) _ (by simp) _ _, foldl_keeps (·.halt) _ (by simp) _ _, foldl_keeps (·.ctr) _ (by simp) _ _, foldl_keeps (·.intc) _ (by simp) _ _, foldl_keeps (·.pwr) _ (by simp) _ _, foldl_keeps (·.shown) _ (by simp) _ _⟩

@[simp] theorem sendOnPort_frame (p : Nat) (f : Flit) (s : State) :
    (sendOnPort p f s).pending = s.pending ∧ (sendOnPort p f s).draws = s.draws ∧ (sendOnPort p f s).fields =
    s.fields ∧ (sendOnPort p f s).waiting = s.waiting ∧ (sendOnPort p f s).time = s.time ∧ (sendOnPort p f
    s).kcp = s.kcp ∧ (sendOnPort p f s).bind = s.bind ∧ (sendOnPort p f s).xlat = s.xlat ∧ (sendOnPort p f
    s).coh = s.coh ∧ (sendOnPort p f s).mem = s.mem ∧ (sendOnPort p f s).eng = s.eng ∧ (sendOnPort p f s).belay
    = s.belay ∧ (sendOnPort p f s).sw = s.sw ∧ (sendOnPort p f s).sec = s.sec ∧ (sendOnPort p f s).boot = s.boot
    ∧ (sendOnPort p f s).err = s.err ∧ (sendOnPort p f s).pair = s.pair ∧ (sendOnPort p f s).halt = s.halt ∧
    (sendOnPort p f s).ctr = s.ctr ∧ (sendOnPort p f s).intc = s.intc ∧ (sendOnPort p f s).pwr = s.pwr ∧
    (sendOnPort p f s).shown = s.shown := by
  simp [sendOnPort]

@[simp] theorem modSession_frame (i : Nat) (f : Session → Session) (s : State) :
    (modSession i f s).pending = s.pending ∧ (modSession i f s).out = s.out ∧ (modSession i f s).draws = s.draws
    ∧ (modSession i f s).fields = s.fields ∧ (modSession i f s).waiting = s.waiting ∧ (modSession i f s).time =
    s.time ∧ (modSession i f s).bind = s.bind ∧ (modSession i f s).xlat = s.xlat ∧ (modSession i f s).coh =
    s.coh ∧ (modSession i f s).mem = s.mem ∧ (modSession i f s).eng = s.eng ∧ (modSession i f s).belay = s.belay
    ∧ (modSession i f s).link = s.link ∧ (modSession i f s).sw = s.sw ∧ (modSession i f s).sec = s.sec ∧
    (modSession i f s).boot = s.boot ∧ (modSession i f s).err = s.err ∧ (modSession i f s).pair = s.pair ∧
    (modSession i f s).halt = s.halt ∧ (modSession i f s).ctr = s.ctr ∧ (modSession i f s).intc = s.intc ∧
    (modSession i f s).pwr = s.pwr ∧ (modSession i f s).shown = s.shown :=
  ⟨rfl, rfl, rfl, rfl, rfl, rfl, rfl, rfl, rfl, rfl, rfl, rfl, rfl, rfl, rfl, rfl, rfl, rfl, rfl, rfl, rfl, rfl, rfl⟩

@[simp] theorem eventTo_frame (ss : Session) (c j m f : Nat) (d : List Byte) (s : State) :
    (eventTo ss c j m f d s).pending = s.pending ∧ (eventTo ss c j m f d s).draws = s.draws ∧ (eventTo ss c j m
    f d s).fields = s.fields ∧ (eventTo ss c j m f d s).waiting = s.waiting ∧ (eventTo ss c j m f d s).time =
    s.time ∧ (eventTo ss c j m f d s).bind = s.bind ∧ (eventTo ss c j m f d s).xlat = s.xlat ∧ (eventTo ss c j m
    f d s).coh = s.coh ∧ (eventTo ss c j m f d s).mem = s.mem ∧ (eventTo ss c j m f d s).eng = s.eng ∧ (eventTo
    ss c j m f d s).belay = s.belay ∧ (eventTo ss c j m f d s).sw = s.sw ∧ (eventTo ss c j m f d s).sec = s.sec
    ∧ (eventTo ss c j m f d s).boot = s.boot ∧ (eventTo ss c j m f d s).err = s.err ∧ (eventTo ss c j m f d
    s).pair = s.pair ∧ (eventTo ss c j m f d s).ctr = s.ctr ∧ (eventTo ss c j m f d s).intc = s.intc ∧ (eventTo
    ss c j m f d s).pwr = s.pwr ∧ (eventTo ss c j m f d s).shown = s.shown := by
  unfold eventTo; (try dsimp only); split <;> simp

@[simp] theorem eventAt_frame (c j m f : Nat) (p : Nat → Bool) (d : List Byte) (s : State) :
    (eventAt c j m f p d s).pending = s.pending ∧ (eventAt c j m f p d s).draws = s.draws ∧ (eventAt c j m f p d
    s).fields = s.fields ∧ (eventAt c j m f p d s).waiting = s.waiting ∧ (eventAt c j m f p d s).time = s.time ∧
    (eventAt c j m f p d s).bind = s.bind ∧ (eventAt c j m f p d s).xlat = s.xlat ∧ (eventAt c j m f p d s).coh
    = s.coh ∧ (eventAt c j m f p d s).mem = s.mem ∧ (eventAt c j m f p d s).eng = s.eng ∧ (eventAt c j m f p d
    s).belay = s.belay ∧ (eventAt c j m f p d s).sw = s.sw ∧ (eventAt c j m f p d s).sec = s.sec ∧ (eventAt c j
    m f p d s).boot = s.boot ∧ (eventAt c j m f p d s).err = s.err ∧ (eventAt c j m f p d s).pair = s.pair ∧
    (eventAt c j m f p d s).ctr = s.ctr ∧ (eventAt c j m f p d s).intc = s.intc ∧ (eventAt c j m f p d s).pwr =
    s.pwr ∧ (eventAt c j m f p d s).shown = s.shown := by
  unfold eventAt
  exact ⟨foldl_keeps (·.pending) _ (by simp) _ _, foldl_keeps (·.draws) _ (by simp) _ _, foldl_keeps (·.fields) _ (by simp) _ _, foldl_keeps (·.waiting) _ (by simp) _ _, foldl_keeps (·.time) _ (by simp) _ _, foldl_keeps (·.bind) _ (by simp) _ _, foldl_keeps (·.xlat) _ (by simp) _ _, foldl_keeps (·.coh) _ (by simp) _ _, foldl_keeps (·.mem) _ (by simp) _ _, foldl_keeps (·.eng) _ (by simp) _ _, foldl_keeps (·.belay) _ (by simp) _ _, foldl_keeps (·.sw) _ (by simp) _ _, foldl_keeps (·.sec) _ (by simp) _ _, foldl_keeps (·.boot) _ (by simp) _ _, foldl_keeps (·.err) _ (by simp) _ _, foldl_keeps (·.pair) _ (by simp) _ _, foldl_keeps (·.ctr) _ (by simp) _ _, foldl_keeps (·.intc) _ (by simp) _ _, foldl_keeps (·.pwr) _ (by simp) _ _, foldl_keeps (·.shown) _ (by simp) _ _⟩

@[simp] theorem event_frame (c j : Nat) (p : Nat → Bool) (d : List Byte) (s : State) :
    (event c j p d s).pending = s.pending ∧ (event c j p d s).draws = s.draws ∧ (event c j p d s).fields =
    s.fields ∧ (event c j p d s).waiting = s.waiting ∧ (event c j p d s).time = s.time ∧ (event c j p d s).bind
    = s.bind ∧ (event c j p d s).xlat = s.xlat ∧ (event c j p d s).coh = s.coh ∧ (event c j p d s).mem = s.mem ∧
    (event c j p d s).eng = s.eng ∧ (event c j p d s).belay = s.belay ∧ (event c j p d s).sw = s.sw ∧ (event c j
    p d s).sec = s.sec ∧ (event c j p d s).boot = s.boot ∧ (event c j p d s).err = s.err ∧ (event c j p d
    s).pair = s.pair ∧ (event c j p d s).ctr = s.ctr ∧ (event c j p d s).intc = s.intc ∧ (event c j p d s).pwr =
    s.pwr ∧ (event c j p d s).shown = s.shown := by
  simp [event]

@[simp] theorem commandDone_frame (i q o st : Nat) (d : List Byte) (s : State) :
    (commandDone i q o st d s).pending = s.pending ∧ (commandDone i q o st d s).draws = s.draws ∧ (commandDone i
    q o st d s).fields = s.fields ∧ (commandDone i q o st d s).waiting = s.waiting ∧ (commandDone i q o st d
    s).time = s.time ∧ (commandDone i q o st d s).bind = s.bind ∧ (commandDone i q o st d s).xlat = s.xlat ∧
    (commandDone i q o st d s).coh = s.coh ∧ (commandDone i q o st d s).mem = s.mem ∧ (commandDone i q o st d
    s).eng = s.eng ∧ (commandDone i q o st d s).belay = s.belay ∧ (commandDone i q o st d s).sw = s.sw ∧
    (commandDone i q o st d s).sec = s.sec ∧ (commandDone i q o st d s).boot = s.boot ∧ (commandDone i q o st d
    s).err = s.err ∧ (commandDone i q o st d s).pair = s.pair ∧ (commandDone i q o st d s).ctr = s.ctr ∧
    (commandDone i q o st d s).intc = s.intc ∧ (commandDone i q o st d s).pwr = s.pwr ∧ (commandDone i q o st d
    s).shown = s.shown := by
  unfold commandDone; repeat' split
  all_goals simp

@[simp] theorem errWrite_frame (r : ErrRec) (q u : Nat) (s : State) :
    (errWrite r q u s).pending = s.pending ∧ (errWrite r q u s).draws = s.draws ∧ (errWrite r q u s).waiting =
    s.waiting ∧ (errWrite r q u s).time = s.time ∧ (errWrite r q u s).bind = s.bind ∧ (errWrite r q u s).xlat =
    s.xlat ∧ (errWrite r q u s).coh = s.coh ∧ (errWrite r q u s).mem = s.mem ∧ (errWrite r q u s).eng = s.eng ∧
    (errWrite r q u s).belay = s.belay ∧ (errWrite r q u s).sw = s.sw ∧ (errWrite r q u s).sec = s.sec ∧
    (errWrite r q u s).boot = s.boot ∧ (errWrite r q u s).pair = s.pair ∧ (errWrite r q u s).ctr = s.ctr ∧
    (errWrite r q u s).pwr = s.pwr ∧ (errWrite r q u s).shown = s.shown := by
  simp only [errWrite]
  split <;> split <;> (try split) <;> simp

@[simp] theorem reply_frame (i t q o : Nat) (c : Bool) (b : List Byte) (s : State) :
    (reply i t q o c b s).pending = s.pending ∧ (reply i t q o c b s).draws = s.draws ∧ (reply i t q o c b
    s).fields = s.fields ∧ (reply i t q o c b s).waiting = s.waiting ∧ (reply i t q o c b s).time = s.time ∧
    (reply i t q o c b s).bind = s.bind ∧ (reply i t q o c b s).xlat = s.xlat ∧ (reply i t q o c b s).coh =
    s.coh ∧ (reply i t q o c b s).mem = s.mem ∧ (reply i t q o c b s).eng = s.eng ∧ (reply i t q o c b s).belay
    = s.belay ∧ (reply i t q o c b s).sw = s.sw ∧ (reply i t q o c b s).sec = s.sec ∧ (reply i t q o c b s).boot
    = s.boot ∧ (reply i t q o c b s).err = s.err ∧ (reply i t q o c b s).pair = s.pair ∧ (reply i t q o c b
    s).ctr = s.ctr ∧ (reply i t q o c b s).intc = s.intc ∧ (reply i t q o c b s).pwr = s.pwr ∧ (reply i t q o c
    b s).shown = s.shown := by
  unfold reply; (try dsimp only); repeat' split
  all_goals simp

@[simp] theorem finish_frame (r : Running) (st : Nat) (b : List Byte) (s : State) :
    (finish r st b s).pending = s.pending ∧ (finish r st b s).draws = s.draws ∧ (finish r st b s).fields =
    s.fields ∧ (finish r st b s).waiting = s.waiting ∧ (finish r st b s).time = s.time ∧ (finish r st b s).bind
    = s.bind ∧ (finish r st b s).xlat = s.xlat ∧ (finish r st b s).coh = s.coh ∧ (finish r st b s).mem = s.mem ∧
    (finish r st b s).eng = s.eng ∧ (finish r st b s).belay = s.belay ∧ (finish r st b s).sw = s.sw ∧ (finish r
    st b s).sec = s.sec ∧ (finish r st b s).boot = s.boot ∧ (finish r st b s).err = s.err ∧ (finish r st b
    s).pair = s.pair ∧ (finish r st b s).ctr = s.ctr ∧ (finish r st b s).intc = s.intc ∧ (finish r st b s).pwr =
    s.pwr ∧ (finish r st b s).shown = s.shown := by
  simp [finish]

@[simp] theorem rewait_frame (r : Running) (w : Wait) (s : State) :
    (rewait r w s).pending = s.pending ∧ (rewait r w s).out = s.out ∧ (rewait r w s).draws = s.draws ∧ (rewait r
    w s).fields = s.fields ∧ (rewait r w s).waiting = s.waiting ∧ (rewait r w s).time = s.time ∧ (rewait r w
    s).bind = s.bind ∧ (rewait r w s).xlat = s.xlat ∧ (rewait r w s).coh = s.coh ∧ (rewait r w s).mem = s.mem ∧
    (rewait r w s).eng = s.eng ∧ (rewait r w s).belay = s.belay ∧ (rewait r w s).link = s.link ∧ (rewait r w
    s).sw = s.sw ∧ (rewait r w s).sec = s.sec ∧ (rewait r w s).boot = s.boot ∧ (rewait r w s).err = s.err ∧
    (rewait r w s).pair = s.pair ∧ (rewait r w s).halt = s.halt ∧ (rewait r w s).ctr = s.ctr ∧ (rewait r w
    s).intc = s.intc ∧ (rewait r w s).pwr = s.pwr ∧ (rewait r w s).shown = s.shown :=
  ⟨rfl, rfl, rfl, rfl, rfl, rfl, rfl, rfl, rfl, rfl, rfl, rfl, rfl, rfl, rfl, rfl, rfl, rfl, rfl, rfl, rfl, rfl, rfl⟩

@[simp] theorem ringPlace_frame (path : Path) (p : KcpPkt) (u : Nat) (k : Bool) (s : State) :
    (ringPlace path p u k s).pending = s.pending ∧ (ringPlace path p u k s).out = s.out ∧ (ringPlace path p u k
    s).draws = s.draws ∧ (ringPlace path p u k s).waiting = s.waiting ∧ (ringPlace path p u k s).time = s.time ∧
    (ringPlace path p u k s).bind = s.bind ∧ (ringPlace path p u k s).xlat = s.xlat ∧ (ringPlace path p u k
    s).coh = s.coh ∧ (ringPlace path p u k s).mem = s.mem ∧ (ringPlace path p u k s).eng = s.eng ∧ (ringPlace
    path p u k s).belay = s.belay ∧ (ringPlace path p u k s).link = s.link ∧ (ringPlace path p u k s).sw = s.sw
    ∧ (ringPlace path p u k s).sec = s.sec ∧ (ringPlace path p u k s).boot = s.boot ∧ (ringPlace path p u k
    s).err = s.err ∧ (ringPlace path p u k s).halt = s.halt ∧
    (ringPlace path p u k s).ctr = s.ctr ∧ (ringPlace path p u k s).pwr = s.pwr ∧ (ringPlace path p u k s).shown
    = s.shown := by
  unfold ringPlace; dsimp only; split <;> simp

@[simp] theorem ringDrop_frame (i q : Nat) (s : State) :
    (ringDrop i q s).pending = s.pending ∧ (ringDrop i q s).out = s.out ∧ (ringDrop i q s).draws = s.draws ∧
    (ringDrop i q s).fields = s.fields ∧ (ringDrop i q s).waiting = s.waiting ∧ (ringDrop i q s).time = s.time ∧
    (ringDrop i q s).bind = s.bind ∧ (ringDrop i q s).xlat = s.xlat ∧ (ringDrop i q s).coh = s.coh ∧ (ringDrop i
    q s).mem = s.mem ∧ (ringDrop i q s).eng = s.eng ∧ (ringDrop i q s).belay = s.belay ∧ (ringDrop i q s).link =
    s.link ∧ (ringDrop i q s).sw = s.sw ∧ (ringDrop i q s).sec = s.sec ∧ (ringDrop i q s).boot = s.boot ∧
    (ringDrop i q s).err = s.err ∧ (ringDrop i q s).pair = s.pair ∧ (ringDrop i q s).halt = s.halt ∧ (ringDrop i
    q s).ctr = s.ctr ∧ (ringDrop i q s).intc = s.intc ∧ (ringDrop i q s).pwr = s.pwr ∧ (ringDrop i q s).shown =
    s.shown :=
  ⟨rfl, rfl, rfl, rfl, rfl, rfl, rfl, rfl, rfl, rfl, rfl, rfl, rfl, rfl, rfl, rfl, rfl, rfl, rfl, rfl, rfl, rfl, rfl⟩

@[simp] theorem takeNumber_frame (c : Cmd) (s : State) :
    (takeNumber c s).pending = s.pending ∧ (takeNumber c s).out = s.out ∧ (takeNumber c s).draws = s.draws ∧
    (takeNumber c s).fields = s.fields ∧ (takeNumber c s).waiting = s.waiting ∧ (takeNumber c s).time = s.time ∧
    (takeNumber c s).bind = s.bind ∧ (takeNumber c s).xlat = s.xlat ∧ (takeNumber c s).coh = s.coh ∧ (takeNumber
    c s).mem = s.mem ∧ (takeNumber c s).eng = s.eng ∧ (takeNumber c s).belay = s.belay ∧ (takeNumber c s).link =
    s.link ∧ (takeNumber c s).sw = s.sw ∧ (takeNumber c s).sec = s.sec ∧ (takeNumber c s).boot = s.boot ∧
    (takeNumber c s).err = s.err ∧ (takeNumber c s).halt = s.halt ∧ (takeNumber c s).ctr = s.ctr ∧ (takeNumber c
    s).intc = s.intc ∧ (takeNumber c s).pwr = s.pwr ∧ (takeNumber c s).shown = s.shown := by
  simp [takeNumber]

@[simp] theorem answer_frame (o : Nat) (c : Cmd) (e : List Byte) (a : Answer) (s : State) :
    (answer o c e a s).pending = s.pending ∧ (answer o c e a s).draws = s.draws ∧ (answer o c e a s).fields =
    s.fields ∧ (answer o c e a s).waiting = s.waiting ∧ (answer o c e a s).time = s.time ∧ (answer o c e a
    s).bind = s.bind ∧ (answer o c e a s).xlat = s.xlat ∧ (answer o c e a s).coh = s.coh ∧ (answer o c e a
    s).mem = s.mem ∧ (answer o c e a s).eng = s.eng ∧ (answer o c e a s).belay = s.belay ∧ (answer o c e a s).sw
    = s.sw ∧ (answer o c e a s).sec = s.sec ∧ (answer o c e a s).boot = s.boot ∧ (answer o c e a s).err = s.err
    ∧ (answer o c e a s).pair = s.pair ∧ (answer o c e a s).ctr = s.ctr ∧ (answer o c e a s).intc = s.intc ∧
    (answer o c e a s).pwr = s.pwr ∧ (answer o c e a s).shown = s.shown := by
  unfold answer; (try dsimp only); split <;> simp

@[simp] theorem modCore_frame (c : Nat) (f : Core → Core) (s : State) :
    (modCore c f s).pending = s.pending ∧ (modCore c f s).out = s.out ∧ (modCore c f s).draws = s.draws ∧
    (modCore c f s).fields = s.fields ∧ (modCore c f s).waiting = s.waiting ∧ (modCore c f s).time = s.time ∧
    (modCore c f s).kcp = s.kcp ∧ (modCore c f s).bind = s.bind ∧ (modCore c f s).xlat = s.xlat ∧ (modCore c f
    s).coh = s.coh ∧ (modCore c f s).mem = s.mem ∧ (modCore c f s).belay = s.belay ∧ (modCore c f s).link =
    s.link ∧ (modCore c f s).sw = s.sw ∧ (modCore c f s).sec = s.sec ∧ (modCore c f s).boot = s.boot ∧ (modCore
    c f s).err = s.err ∧ (modCore c f s).pair = s.pair ∧ (modCore c f s).halt = s.halt ∧ (modCore c f s).ctr =
    s.ctr ∧ (modCore c f s).intc = s.intc ∧ (modCore c f s).pwr = s.pwr ∧ (modCore c f s).shown = s.shown :=
  ⟨rfl, rfl, rfl, rfl, rfl, rfl, rfl, rfl, rfl, rfl, rfl, rfl, rfl, rfl, rfl, rfl, rfl, rfl, rfl, rfl, rfl, rfl, rfl⟩

@[simp] theorem putCtx_frame (c k : Nat) (x : Option Ctx) (s : State) :
    (putCtx c k x s).pending = s.pending ∧ (putCtx c k x s).out = s.out ∧ (putCtx c k x s).draws = s.draws ∧
    (putCtx c k x s).fields = s.fields ∧ (putCtx c k x s).waiting = s.waiting ∧ (putCtx c k x s).time = s.time ∧
    (putCtx c k x s).kcp = s.kcp ∧ (putCtx c k x s).bind = s.bind ∧ (putCtx c k x s).xlat = s.xlat ∧ (putCtx c k
    x s).coh = s.coh ∧ (putCtx c k x s).mem = s.mem ∧ (putCtx c k x s).belay = s.belay ∧ (putCtx c k x s).link =
    s.link ∧ (putCtx c k x s).sw = s.sw ∧ (putCtx c k x s).sec = s.sec ∧ (putCtx c k x s).boot = s.boot ∧
    (putCtx c k x s).err = s.err ∧ (putCtx c k x s).pair = s.pair ∧ (putCtx c k x s).halt = s.halt ∧ (putCtx c k
    x s).ctr = s.ctr ∧ (putCtx c k x s).intc = s.intc ∧ (putCtx c k x s).pwr = s.pwr ∧ (putCtx c k x s).shown =
    s.shown :=
  ⟨rfl, rfl, rfl, rfl, rfl, rfl, rfl, rfl, rfl, rfl, rfl, rfl, rfl, rfl, rfl, rfl, rfl, rfl, rfl, rfl, rfl, rfl, rfl⟩

@[simp] theorem mapCtxs_frame (f : Nat → Nat → Ctx → Ctx) (s : State) :
    (mapCtxs f s).pending = s.pending ∧ (mapCtxs f s).out = s.out ∧ (mapCtxs f s).draws = s.draws ∧ (mapCtxs f
    s).fields = s.fields ∧ (mapCtxs f s).waiting = s.waiting ∧ (mapCtxs f s).time = s.time ∧ (mapCtxs f s).kcp =
    s.kcp ∧ (mapCtxs f s).bind = s.bind ∧ (mapCtxs f s).xlat = s.xlat ∧ (mapCtxs f s).coh = s.coh ∧ (mapCtxs f
    s).mem = s.mem ∧ (mapCtxs f s).belay = s.belay ∧ (mapCtxs f s).link = s.link ∧ (mapCtxs f s).sw = s.sw ∧
    (mapCtxs f s).sec = s.sec ∧ (mapCtxs f s).boot = s.boot ∧ (mapCtxs f s).err = s.err ∧ (mapCtxs f s).pair =
    s.pair ∧ (mapCtxs f s).halt = s.halt ∧ (mapCtxs f s).ctr = s.ctr ∧ (mapCtxs f s).intc = s.intc ∧ (mapCtxs f
    s).pwr = s.pwr ∧ (mapCtxs f s).shown = s.shown :=
  ⟨rfl, rfl, rfl, rfl, rfl, rfl, rfl, rfl, rfl, rfl, rfl, rfl, rfl, rfl, rfl, rfl, rfl, rfl, rfl, rfl, rfl, rfl, rfl⟩

@[simp] theorem modGang_frame (g : Nat) (f : Gang → Gang) (s : State) :
    (modGang g f s).pending = s.pending ∧ (modGang g f s).out = s.out ∧ (modGang g f s).draws = s.draws ∧
    (modGang g f s).fields = s.fields ∧ (modGang g f s).waiting = s.waiting ∧ (modGang g f s).time = s.time ∧
    (modGang g f s).kcp = s.kcp ∧ (modGang g f s).bind = s.bind ∧ (modGang g f s).xlat = s.xlat ∧ (modGang g f
    s).coh = s.coh ∧ (modGang g f s).mem = s.mem ∧ (modGang g f s).belay = s.belay ∧ (modGang g f s).link =
    s.link ∧ (modGang g f s).sw = s.sw ∧ (modGang g f s).sec = s.sec ∧ (modGang g f s).boot = s.boot ∧ (modGang
    g f s).err = s.err ∧ (modGang g f s).pair = s.pair ∧ (modGang g f s).halt = s.halt ∧ (modGang g f s).ctr =
    s.ctr ∧ (modGang g f s).intc = s.intc ∧ (modGang g f s).pwr = s.pwr ∧ (modGang g f s).shown = s.shown :=
  ⟨rfl, rfl, rfl, rfl, rfl, rfl, rfl, rfl, rfl, rfl, rfl, rfl, rfl, rfl, rfl, rfl, rfl, rfl, rfl, rfl, rfl, rfl, rfl⟩

@[simp] theorem putKnot_frame (k : Nat) (x : Knot) (s : State) :
    (putKnot k x s).pending = s.pending ∧ (putKnot k x s).out = s.out ∧ (putKnot k x s).draws = s.draws ∧
    (putKnot k x s).fields = s.fields ∧ (putKnot k x s).waiting = s.waiting ∧ (putKnot k x s).time = s.time ∧
    (putKnot k x s).kcp = s.kcp ∧ (putKnot k x s).bind = s.bind ∧ (putKnot k x s).xlat = s.xlat ∧ (putKnot k x
    s).coh = s.coh ∧ (putKnot k x s).mem = s.mem ∧ (putKnot k x s).eng = s.eng ∧ (putKnot k x s).link = s.link ∧
    (putKnot k x s).sw = s.sw ∧ (putKnot k x s).sec = s.sec ∧ (putKnot k x s).boot = s.boot ∧ (putKnot k x
    s).err = s.err ∧ (putKnot k x s).pair = s.pair ∧ (putKnot k x s).halt = s.halt ∧ (putKnot k x s).ctr = s.ctr
    ∧ (putKnot k x s).intc = s.intc ∧ (putKnot k x s).pwr = s.pwr ∧ (putKnot k x s).shown = s.shown :=
  ⟨rfl, rfl, rfl, rfl, rfl, rfl, rfl, rfl, rfl, rfl, rfl, rfl, rfl, rfl, rfl, rfl, rfl, rfl, rfl, rfl, rfl, rfl, rfl⟩

@[simp] theorem modStrand_frame (k : Nat) (f : Strand → Strand) (s : State) :
    (modStrand k f s).pending = s.pending ∧ (modStrand k f s).out = s.out ∧ (modStrand k f s).draws = s.draws ∧
    (modStrand k f s).fields = s.fields ∧ (modStrand k f s).waiting = s.waiting ∧ (modStrand k f s).time =
    s.time ∧ (modStrand k f s).kcp = s.kcp ∧ (modStrand k f s).bind = s.bind ∧ (modStrand k f s).xlat = s.xlat ∧
    (modStrand k f s).coh = s.coh ∧ (modStrand k f s).eng = s.eng ∧ (modStrand k f s).belay = s.belay ∧
    (modStrand k f s).link = s.link ∧ (modStrand k f s).sw = s.sw ∧ (modStrand k f s).sec = s.sec ∧ (modStrand k
    f s).boot = s.boot ∧ (modStrand k f s).err = s.err ∧ (modStrand k f s).pair = s.pair ∧ (modStrand k f
    s).halt = s.halt ∧ (modStrand k f s).ctr = s.ctr ∧ (modStrand k f s).intc = s.intc ∧ (modStrand k f s).pwr =
    s.pwr ∧ (modStrand k f s).shown = s.shown :=
  ⟨rfl, rfl, rfl, rfl, rfl, rfl, rfl, rfl, rfl, rfl, rfl, rfl, rfl, rfl, rfl, rfl, rfl, rfl, rfl, rfl, rfl, rfl, rfl⟩

@[simp] theorem flipUsed_frame (k : Nat) (s : State) :
    (flipUsed k s).pending = s.pending ∧ (flipUsed k s).out = s.out ∧ (flipUsed k s).draws = s.draws ∧ (flipUsed
    k s).waiting = s.waiting ∧ (flipUsed k s).time = s.time ∧ (flipUsed k s).kcp = s.kcp ∧ (flipUsed k s).bind =
    s.bind ∧ (flipUsed k s).xlat = s.xlat ∧ (flipUsed k s).coh = s.coh ∧ (flipUsed k s).mem = s.mem ∧ (flipUsed
    k s).eng = s.eng ∧ (flipUsed k s).belay = s.belay ∧ (flipUsed k s).link = s.link ∧ (flipUsed k s).sw = s.sw
    ∧ (flipUsed k s).sec = s.sec ∧ (flipUsed k s).boot = s.boot ∧ (flipUsed k s).err = s.err ∧ (flipUsed k
    s).pair = s.pair ∧ (flipUsed k s).halt = s.halt ∧ (flipUsed k s).ctr = s.ctr ∧ (flipUsed k s).intc = s.intc
    ∧ (flipUsed k s).pwr = s.pwr ∧ (flipUsed k s).shown = s.shown :=
  ⟨rfl, rfl, rfl, rfl, rfl, rfl, rfl, rfl, rfl, rfl, rfl, rfl, rfl, rfl, rfl, rfl, rfl, rfl, rfl, rfl, rfl, rfl, rfl⟩

@[simp] theorem coilSet_frame (l : Nat) (c : Option CoilLine) (s : State) :
    (coilSet l c s).pending = s.pending ∧ (coilSet l c s).out = s.out ∧ (coilSet l c s).draws = s.draws ∧
    (coilSet l c s).fields = s.fields ∧ (coilSet l c s).waiting = s.waiting ∧ (coilSet l c s).time = s.time ∧
    (coilSet l c s).kcp = s.kcp ∧ (coilSet l c s).bind = s.bind ∧ (coilSet l c s).xlat = s.xlat ∧ (coilSet l c
    s).coh = s.coh ∧ (coilSet l c s).eng = s.eng ∧ (coilSet l c s).belay = s.belay ∧ (coilSet l c s).link =
    s.link ∧ (coilSet l c s).sw = s.sw ∧ (coilSet l c s).sec = s.sec ∧ (coilSet l c s).boot = s.boot ∧ (coilSet
    l c s).err = s.err ∧ (coilSet l c s).pair = s.pair ∧ (coilSet l c s).halt = s.halt ∧ (coilSet l c s).ctr =
    s.ctr ∧ (coilSet l c s).intc = s.intc ∧ (coilSet l c s).pwr = s.pwr ∧ (coilSet l c s).shown = s.shown :=
  ⟨rfl, rfl, rfl, rfl, rfl, rfl, rfl, rfl, rfl, rfl, rfl, rfl, rfl, rfl, rfl, rfl, rfl, rfl, rfl, rfl, rfl, rfl, rfl⟩

@[simp] theorem modCong_frame (p : Nat) (f : Congestion → Congestion) (s : State) :
    (modCong p f s).pending = s.pending ∧ (modCong p f s).out = s.out ∧ (modCong p f s).draws = s.draws ∧
    (modCong p f s).fields = s.fields ∧ (modCong p f s).waiting = s.waiting ∧ (modCong p f s).time = s.time ∧
    (modCong p f s).kcp = s.kcp ∧ (modCong p f s).bind = s.bind ∧ (modCong p f s).xlat = s.xlat ∧ (modCong p f
    s).coh = s.coh ∧ (modCong p f s).mem = s.mem ∧ (modCong p f s).eng = s.eng ∧ (modCong p f s).belay = s.belay
    ∧ (modCong p f s).link = s.link ∧ (modCong p f s).sec = s.sec ∧ (modCong p f s).boot = s.boot ∧ (modCong p f
    s).err = s.err ∧ (modCong p f s).pair = s.pair ∧ (modCong p f s).halt = s.halt ∧ (modCong p f s).ctr = s.ctr
    ∧ (modCong p f s).intc = s.intc ∧ (modCong p f s).pwr = s.pwr ∧ (modCong p f s).shown = s.shown :=
  ⟨rfl, rfl, rfl, rfl, rfl, rfl, rfl, rfl, rfl, rfl, rfl, rfl, rfl, rfl, rfl, rfl, rfl, rfl, rfl, rfl, rfl, rfl, rfl⟩

@[simp] theorem countDrop_frame (p : Nat) (s : State) :
    (countDrop p s).pending = s.pending ∧ (countDrop p s).out = s.out ∧ (countDrop p s).draws = s.draws ∧
    (countDrop p s).fields = s.fields ∧ (countDrop p s).waiting = s.waiting ∧ (countDrop p s).time = s.time ∧
    (countDrop p s).kcp = s.kcp ∧ (countDrop p s).bind = s.bind ∧ (countDrop p s).xlat = s.xlat ∧ (countDrop p
    s).coh = s.coh ∧ (countDrop p s).mem = s.mem ∧ (countDrop p s).eng = s.eng ∧ (countDrop p s).belay = s.belay
    ∧ (countDrop p s).link = s.link ∧ (countDrop p s).sec = s.sec ∧ (countDrop p s).boot = s.boot ∧ (countDrop p
    s).err = s.err ∧ (countDrop p s).pair = s.pair ∧ (countDrop p s).halt = s.halt ∧ (countDrop p s).ctr = s.ctr
    ∧ (countDrop p s).intc = s.intc ∧ (countDrop p s).pwr = s.pwr ∧ (countDrop p s).shown = s.shown :=
  ⟨rfl, rfl, rfl, rfl, rfl, rfl, rfl, rfl, rfl, rfl, rfl, rfl, rfl, rfl, rfl, rfl, rfl, rfl, rfl, rfl, rfl, rfl, rfl⟩

@[simp] theorem modExtent_frame (b : Nat) (f : Extent → Extent) (s : State) :
    (modExtent b f s).pending = s.pending ∧ (modExtent b f s).out = s.out ∧ (modExtent b f s).draws = s.draws ∧
    (modExtent b f s).fields = s.fields ∧ (modExtent b f s).waiting = s.waiting ∧ (modExtent b f s).time =
    s.time ∧ (modExtent b f s).kcp = s.kcp ∧ (modExtent b f s).xlat = s.xlat ∧ (modExtent b f s).coh = s.coh ∧
    (modExtent b f s).mem = s.mem ∧ (modExtent b f s).eng = s.eng ∧ (modExtent b f s).belay = s.belay ∧
    (modExtent b f s).link = s.link ∧ (modExtent b f s).sw = s.sw ∧ (modExtent b f s).sec = s.sec ∧ (modExtent b
    f s).boot = s.boot ∧ (modExtent b f s).err = s.err ∧ (modExtent b f s).pair = s.pair ∧ (modExtent b f
    s).halt = s.halt ∧ (modExtent b f s).ctr = s.ctr ∧ (modExtent b f s).intc = s.intc ∧ (modExtent b f s).pwr =
    s.pwr ∧ (modExtent b f s).shown = s.shown :=
  ⟨rfl, rfl, rfl, rfl, rfl, rfl, rfl, rfl, rfl, rfl, rfl, rfl, rfl, rfl, rfl, rfl, rfl, rfl, rfl, rfl, rfl, rfl, rfl⟩

@[simp] theorem setDir_frame (l : Nat) (d : Option DirEnt) (s : State) :
    (setDir l d s).pending = s.pending ∧ (setDir l d s).out = s.out ∧ (setDir l d s).draws = s.draws ∧ (setDir l
    d s).fields = s.fields ∧ (setDir l d s).waiting = s.waiting ∧ (setDir l d s).time = s.time ∧ (setDir l d
    s).kcp = s.kcp ∧ (setDir l d s).bind = s.bind ∧ (setDir l d s).xlat = s.xlat ∧ (setDir l d s).mem = s.mem ∧
    (setDir l d s).eng = s.eng ∧ (setDir l d s).belay = s.belay ∧ (setDir l d s).link = s.link ∧ (setDir l d
    s).sw = s.sw ∧ (setDir l d s).sec = s.sec ∧ (setDir l d s).boot = s.boot ∧ (setDir l d s).err = s.err ∧
    (setDir l d s).pair = s.pair ∧ (setDir l d s).halt = s.halt ∧ (setDir l d s).ctr = s.ctr ∧ (setDir l d
    s).intc = s.intc ∧ (setDir l d s).pwr = s.pwr ∧ (setDir l d s).shown = s.shown :=
  ⟨rfl, rfl, rfl, rfl, rfl, rfl, rfl, rfl, rfl, rfl, rfl, rfl, rfl, rfl, rfl, rfl, rfl, rfl, rfl, rfl, rfl, rfl, rfl⟩

@[simp] theorem putBusy_frame (b : BusyLine) (s : State) :
    (putBusy b s).pending = s.pending ∧ (putBusy b s).out = s.out ∧ (putBusy b s).draws = s.draws ∧ (putBusy b
    s).fields = s.fields ∧ (putBusy b s).waiting = s.waiting ∧ (putBusy b s).time = s.time ∧ (putBusy b s).kcp =
    s.kcp ∧ (putBusy b s).bind = s.bind ∧ (putBusy b s).xlat = s.xlat ∧ (putBusy b s).mem = s.mem ∧ (putBusy b
    s).eng = s.eng ∧ (putBusy b s).belay = s.belay ∧ (putBusy b s).link = s.link ∧ (putBusy b s).sw = s.sw ∧
    (putBusy b s).sec = s.sec ∧ (putBusy b s).boot = s.boot ∧ (putBusy b s).err = s.err ∧ (putBusy b s).pair =
    s.pair ∧ (putBusy b s).halt = s.halt ∧ (putBusy b s).ctr = s.ctr ∧ (putBusy b s).intc = s.intc ∧ (putBusy b
    s).pwr = s.pwr ∧ (putBusy b s).shown = s.shown := by
  unfold putBusy; (try dsimp only); split <;> simp

@[simp] theorem dropBusy_frame (l : Nat) (s : State) :
    (dropBusy l s).pending = s.pending ∧ (dropBusy l s).out = s.out ∧ (dropBusy l s).draws = s.draws ∧ (dropBusy
    l s).fields = s.fields ∧ (dropBusy l s).waiting = s.waiting ∧ (dropBusy l s).time = s.time ∧ (dropBusy l
    s).kcp = s.kcp ∧ (dropBusy l s).bind = s.bind ∧ (dropBusy l s).xlat = s.xlat ∧ (dropBusy l s).mem = s.mem ∧
    (dropBusy l s).eng = s.eng ∧ (dropBusy l s).belay = s.belay ∧ (dropBusy l s).link = s.link ∧ (dropBusy l
    s).sw = s.sw ∧ (dropBusy l s).sec = s.sec ∧ (dropBusy l s).boot = s.boot ∧ (dropBusy l s).err = s.err ∧
    (dropBusy l s).pair = s.pair ∧ (dropBusy l s).halt = s.halt ∧ (dropBusy l s).ctr = s.ctr ∧ (dropBusy l
    s).intc = s.intc ∧ (dropBusy l s).pwr = s.pwr ∧ (dropBusy l s).shown = s.shown :=
  ⟨rfl, rfl, rfl, rfl, rfl, rfl, rfl, rfl, rfl, rfl, rfl, rfl, rfl, rfl, rfl, rfl, rfl, rfl, rfl, rfl, rfl, rfl, rfl⟩

@[simp] theorem modTracker_frame (i : Nat) (f : Tracker → Tracker) (s : State) :
    (modTracker i f s).pending = s.pending ∧ (modTracker i f s).out = s.out ∧ (modTracker i f s).draws = s.draws
    ∧ (modTracker i f s).fields = s.fields ∧ (modTracker i f s).waiting = s.waiting ∧ (modTracker i f s).time =
    s.time ∧ (modTracker i f s).kcp = s.kcp ∧ (modTracker i f s).bind = s.bind ∧ (modTracker i f s).xlat =
    s.xlat ∧ (modTracker i f s).mem = s.mem ∧ (modTracker i f s).eng = s.eng ∧ (modTracker i f s).belay =
    s.belay ∧ (modTracker i f s).link = s.link ∧ (modTracker i f s).sw = s.sw ∧ (modTracker i f s).sec = s.sec ∧
    (modTracker i f s).boot = s.boot ∧ (modTracker i f s).err = s.err ∧ (modTracker i f s).pair = s.pair ∧
    (modTracker i f s).halt = s.halt ∧ (modTracker i f s).ctr = s.ctr ∧ (modTracker i f s).intc = s.intc ∧
    (modTracker i f s).pwr = s.pwr ∧ (modTracker i f s).shown = s.shown :=
  ⟨rfl, rfl, rfl, rfl, rfl, rfl, rfl, rfl, rfl, rfl, rfl, rfl, rfl, rfl, rfl, rfl, rfl, rfl, rfl, rfl, rfl, rfl, rfl⟩

@[simp] theorem dropTracker_frame (i : Nat) (s : State) :
    (dropTracker i s).pending = s.pending ∧ (dropTracker i s).out = s.out ∧ (dropTracker i s).draws = s.draws ∧
    (dropTracker i s).fields = s.fields ∧ (dropTracker i s).waiting = s.waiting ∧ (dropTracker i s).time =
    s.time ∧ (dropTracker i s).kcp = s.kcp ∧ (dropTracker i s).bind = s.bind ∧ (dropTracker i s).xlat = s.xlat ∧
    (dropTracker i s).mem = s.mem ∧ (dropTracker i s).eng = s.eng ∧ (dropTracker i s).belay = s.belay ∧
    (dropTracker i s).link = s.link ∧ (dropTracker i s).sw = s.sw ∧ (dropTracker i s).sec = s.sec ∧ (dropTracker
    i s).boot = s.boot ∧ (dropTracker i s).err = s.err ∧ (dropTracker i s).pair = s.pair ∧ (dropTracker i
    s).halt = s.halt ∧ (dropTracker i s).ctr = s.ctr ∧ (dropTracker i s).intc = s.intc ∧ (dropTracker i s).pwr =
    s.pwr ∧ (dropTracker i s).shown = s.shown :=
  ⟨rfl, rfl, rfl, rfl, rfl, rfl, rfl, rfl, rfl, rfl, rfl, rfl, rfl, rfl, rfl, rfl, rfl, rfl, rfl, rfl, rfl, rfl, rfl⟩

@[simp] theorem modTransfer_frame (i : Nat) (f : Transfer → Transfer) (s : State) :
    (modTransfer i f s).pending = s.pending ∧ (modTransfer i f s).out = s.out ∧ (modTransfer i f s).draws =
    s.draws ∧ (modTransfer i f s).fields = s.fields ∧ (modTransfer i f s).waiting = s.waiting ∧ (modTransfer i f
    s).time = s.time ∧ (modTransfer i f s).kcp = s.kcp ∧ (modTransfer i f s).bind = s.bind ∧ (modTransfer i f
    s).coh = s.coh ∧ (modTransfer i f s).mem = s.mem ∧ (modTransfer i f s).eng = s.eng ∧ (modTransfer i f
    s).belay = s.belay ∧ (modTransfer i f s).link = s.link ∧ (modTransfer i f s).sw = s.sw ∧ (modTransfer i f
    s).sec = s.sec ∧ (modTransfer i f s).boot = s.boot ∧ (modTransfer i f s).err = s.err ∧ (modTransfer i f
    s).pair = s.pair ∧ (modTransfer i f s).halt = s.halt ∧ (modTransfer i f s).ctr = s.ctr ∧ (modTransfer i f
    s).intc = s.intc ∧ (modTransfer i f s).pwr = s.pwr ∧ (modTransfer i f s).shown = s.shown :=
  ⟨rfl, rfl, rfl, rfl, rfl, rfl, rfl, rfl, rfl, rfl, rfl, rfl, rfl, rfl, rfl, rfl, rfl, rfl, rfl, rfl, rfl, rfl, rfl⟩

@[simp] theorem modTx_frame (p : Nat) (f : TxSt → TxSt) (s : State) :
    (modTx p f s).pending = s.pending ∧ (modTx p f s).out = s.out ∧ (modTx p f s).draws = s.draws ∧ (modTx p f
    s).fields = s.fields ∧ (modTx p f s).waiting = s.waiting ∧ (modTx p f s).time = s.time ∧ (modTx p f s).kcp =
    s.kcp ∧ (modTx p f s).bind = s.bind ∧ (modTx p f s).xlat = s.xlat ∧ (modTx p f s).coh = s.coh ∧ (modTx p f
    s).mem = s.mem ∧ (modTx p f s).eng = s.eng ∧ (modTx p f s).belay = s.belay ∧ (modTx p f s).sw = s.sw ∧
    (modTx p f s).sec = s.sec ∧ (modTx p f s).boot = s.boot ∧ (modTx p f s).err = s.err ∧ (modTx p f s).pair =
    s.pair ∧ (modTx p f s).halt = s.halt ∧ (modTx p f s).ctr = s.ctr ∧ (modTx p f s).intc = s.intc ∧ (modTx p f
    s).pwr = s.pwr ∧ (modTx p f s).shown = s.shown :=
  ⟨rfl, rfl, rfl, rfl, rfl, rfl, rfl, rfl, rfl, rfl, rfl, rfl, rfl, rfl, rfl, rfl, rfl, rfl, rfl, rfl, rfl, rfl, rfl⟩

@[simp] theorem modRx_frame (p : Nat) (f : RxSt → RxSt) (s : State) :
    (modRx p f s).pending = s.pending ∧ (modRx p f s).out = s.out ∧ (modRx p f s).draws = s.draws ∧ (modRx p f
    s).fields = s.fields ∧ (modRx p f s).waiting = s.waiting ∧ (modRx p f s).time = s.time ∧ (modRx p f s).kcp =
    s.kcp ∧ (modRx p f s).bind = s.bind ∧ (modRx p f s).xlat = s.xlat ∧ (modRx p f s).coh = s.coh ∧ (modRx p f
    s).mem = s.mem ∧ (modRx p f s).eng = s.eng ∧ (modRx p f s).belay = s.belay ∧ (modRx p f s).sw = s.sw ∧
    (modRx p f s).sec = s.sec ∧ (modRx p f s).boot = s.boot ∧ (modRx p f s).err = s.err ∧ (modRx p f s).pair =
    s.pair ∧ (modRx p f s).halt = s.halt ∧ (modRx p f s).ctr = s.ctr ∧ (modRx p f s).intc = s.intc ∧ (modRx p f
    s).pwr = s.pwr ∧ (modRx p f s).shown = s.shown :=
  ⟨rfl, rfl, rfl, rfl, rfl, rfl, rfl, rfl, rfl, rfl, rfl, rfl, rfl, rfl, rfl, rfl, rfl, rfl, rfl, rfl, rfl, rfl, rfl⟩

@[simp] theorem modLane_frame (l : Nat) (f : Lane → Lane) (s : State) :
    (modLane l f s).pending = s.pending ∧ (modLane l f s).out = s.out ∧ (modLane l f s).draws = s.draws ∧
    (modLane l f s).fields = s.fields ∧ (modLane l f s).waiting = s.waiting ∧ (modLane l f s).time = s.time ∧
    (modLane l f s).kcp = s.kcp ∧ (modLane l f s).bind = s.bind ∧ (modLane l f s).xlat = s.xlat ∧ (modLane l f
    s).coh = s.coh ∧ (modLane l f s).mem = s.mem ∧ (modLane l f s).eng = s.eng ∧ (modLane l f s).belay = s.belay
    ∧ (modLane l f s).sw = s.sw ∧ (modLane l f s).sec = s.sec ∧ (modLane l f s).boot = s.boot ∧ (modLane l f
    s).err = s.err ∧ (modLane l f s).pair = s.pair ∧ (modLane l f s).halt = s.halt ∧ (modLane l f s).ctr = s.ctr
    ∧ (modLane l f s).intc = s.intc ∧ (modLane l f s).pwr = s.pwr ∧ (modLane l f s).shown = s.shown :=
  ⟨rfl, rfl, rfl, rfl, rfl, rfl, rfl, rfl, rfl, rfl, rfl, rfl, rfl, rfl, rfl, rfl, rfl, rfl, rfl, rfl, rfl, rfl, rfl⟩

@[simp] theorem endHandling_frame (k u : Nat) (s : State) :
    (endHandling k u s).pending = s.pending ∧ (endHandling k u s).out = s.out ∧ (endHandling k u s).draws =
    s.draws ∧ (endHandling k u s).fields = s.fields ∧ (endHandling k u s).waiting = s.waiting ∧ (endHandling k u
    s).time = s.time ∧ (endHandling k u s).kcp = s.kcp ∧ (endHandling k u s).bind = s.bind ∧ (endHandling k u
    s).xlat = s.xlat ∧ (endHandling k u s).coh = s.coh ∧ (endHandling k u s).mem = s.mem ∧ (endHandling k u
    s).eng = s.eng ∧ (endHandling k u s).belay = s.belay ∧ (endHandling k u s).link = s.link ∧ (endHandling k u
    s).sw = s.sw ∧ (endHandling k u s).sec = s.sec ∧ (endHandling k u s).boot = s.boot ∧ (endHandling k u
    s).pair = s.pair ∧ (endHandling k u s).halt = s.halt ∧ (endHandling k u s).ctr = s.ctr ∧ (endHandling k u
    s).intc = s.intc ∧ (endHandling k u s).pwr = s.pwr ∧ (endHandling k u s).shown = s.shown :=
  ⟨rfl, rfl, rfl, rfl, rfl, rfl, rfl, rfl, rfl, rfl, rfl, rfl, rfl, rfl, rfl, rfl, rfl, rfl, rfl, rfl, rfl, rfl, rfl⟩

@[simp] theorem detect_frame (r : ErrRec) (n q u : Nat) (s : State) :
    (detect r n q u s).2.pending = s.pending ∧ (detect r n q u s).2.draws = s.draws ∧ (detect r n q u
    s).2.waiting = s.waiting ∧ (detect r n q u s).2.time = s.time ∧ (detect r n q u s).2.bind = s.bind ∧ (detect
    r n q u s).2.xlat = s.xlat ∧ (detect r n q u s).2.coh = s.coh ∧ (detect r n q u s).2.mem = s.mem ∧ (detect r
    n q u s).2.eng = s.eng ∧ (detect r n q u s).2.belay = s.belay ∧ (detect r n q u s).2.sw = s.sw ∧ (detect r n
    q u s).2.sec = s.sec ∧ (detect r n q u s).2.boot = s.boot ∧ (detect r n q u s).2.pair = s.pair ∧ (detect r n
    q u s).2.ctr = s.ctr ∧ (detect r n q u s).2.pwr = s.pwr ∧ (detect r n q u s).2.shown = s.shown := by
  simp only [detect]
  split_ifs <;> simp

@[simp] theorem enterPhase_frame (p : Nat) (ph : Phase) (s : State) :
    (enterPhase p ph s).pending = s.pending ∧ (enterPhase p ph s).out = s.out ∧ (enterPhase p ph s).draws =
    s.draws ∧ (enterPhase p ph s).waiting = s.waiting ∧ (enterPhase p ph s).time = s.time ∧ (enterPhase p ph
    s).kcp = s.kcp ∧ (enterPhase p ph s).bind = s.bind ∧ (enterPhase p ph s).xlat = s.xlat ∧ (enterPhase p ph
    s).coh = s.coh ∧ (enterPhase p ph s).mem = s.mem ∧ (enterPhase p ph s).eng = s.eng ∧ (enterPhase p ph
    s).belay = s.belay ∧ (enterPhase p ph s).sw = s.sw ∧ (enterPhase p ph s).sec = s.sec ∧ (enterPhase p ph
    s).boot = s.boot ∧ (enterPhase p ph s).err = s.err ∧ (enterPhase p ph s).pair = s.pair ∧ (enterPhase p ph
    s).halt = s.halt ∧ (enterPhase p ph s).ctr = s.ctr ∧ (enterPhase p ph s).pwr = s.pwr ∧ (enterPhase p ph
    s).shown = s.shown := by
  unfold enterPhase; (try dsimp only); split <;> simp

@[simp] theorem haltState_frame (h : HaltState) (s : State) :
    (haltState h s).pending = s.pending ∧ (haltState h s).out = s.out ∧ (haltState h s).draws = s.draws ∧
    (haltState h s).waiting = s.waiting ∧ (haltState h s).time = s.time ∧ (haltState h s).kcp = s.kcp ∧
    (haltState h s).bind = s.bind ∧ (haltState h s).xlat = s.xlat ∧ (haltState h s).coh = s.coh ∧ (haltState h
    s).mem = s.mem ∧ (haltState h s).eng = s.eng ∧ (haltState h s).belay = s.belay ∧ (haltState h s).link =
    s.link ∧ (haltState h s).sw = s.sw ∧ (haltState h s).sec = s.sec ∧ (haltState h s).boot = s.boot ∧
    (haltState h s).err = s.err ∧ (haltState h s).pair = s.pair ∧ (haltState h s).ctr = s.ctr ∧ (haltState h
    s).pwr = s.pwr ∧ (haltState h s).shown = s.shown := by
  unfold haltState; (try dsimp only); split <;> simp

@[simp] theorem resetPhase_frame (c t p : Nat) (s : State) :
    (resetPhase c t p s).pending = s.pending ∧ (resetPhase c t p s).out = s.out ∧ (resetPhase c t p s).draws =
    s.draws ∧ (resetPhase c t p s).waiting = s.waiting ∧ (resetPhase c t p s).time = s.time ∧ (resetPhase c t p
    s).kcp = s.kcp ∧ (resetPhase c t p s).bind = s.bind ∧ (resetPhase c t p s).xlat = s.xlat ∧ (resetPhase c t p
    s).coh = s.coh ∧ (resetPhase c t p s).mem = s.mem ∧ (resetPhase c t p s).eng = s.eng ∧ (resetPhase c t p
    s).belay = s.belay ∧ (resetPhase c t p s).link = s.link ∧ (resetPhase c t p s).sw = s.sw ∧ (resetPhase c t p
    s).sec = s.sec ∧ (resetPhase c t p s).err = s.err ∧ (resetPhase c t p s).pair = s.pair ∧ (resetPhase c t p
    s).halt = s.halt ∧ (resetPhase c t p s).ctr = s.ctr ∧ (resetPhase c t p s).pwr = s.pwr ∧ (resetPhase c t p
    s).shown = s.shown := by
  unfold resetPhase; split <;> simp

@[simp] theorem recordFailure_frame (k c p : Nat) (s : State) :
    (recordFailure k c p s).pending = s.pending ∧ (recordFailure k c p s).out = s.out ∧ (recordFailure k c p
    s).draws = s.draws ∧ (recordFailure k c p s).fields = s.fields ∧ (recordFailure k c p s).waiting = s.waiting
    ∧ (recordFailure k c p s).time = s.time ∧ (recordFailure k c p s).kcp = s.kcp ∧ (recordFailure k c p s).bind
    = s.bind ∧ (recordFailure k c p s).xlat = s.xlat ∧ (recordFailure k c p s).coh = s.coh ∧ (recordFailure k c
    p s).mem = s.mem ∧ (recordFailure k c p s).eng = s.eng ∧ (recordFailure k c p s).belay = s.belay ∧
    (recordFailure k c p s).link = s.link ∧ (recordFailure k c p s).sw = s.sw ∧ (recordFailure k c p s).sec =
    s.sec ∧ (recordFailure k c p s).err = s.err ∧ (recordFailure k c p s).pair = s.pair ∧ (recordFailure k c p
    s).halt = s.halt ∧ (recordFailure k c p s).ctr = s.ctr ∧ (recordFailure k c p s).intc = s.intc ∧
    (recordFailure k c p s).pwr = s.pwr ∧ (recordFailure k c p s).shown = s.shown :=
  ⟨rfl, rfl, rfl, rfl, rfl, rfl, rfl, rfl, rfl, rfl, rfl, rfl, rfl, rfl, rfl, rfl, rfl, rfl, rfl, rfl, rfl, rfl, rfl⟩

@[simp] theorem modLoad_frame (f : FwLoad → FwLoad) (s : State) :
    (modLoad f s).pending = s.pending ∧ (modLoad f s).out = s.out ∧ (modLoad f s).draws = s.draws ∧ (modLoad f
    s).fields = s.fields ∧ (modLoad f s).waiting = s.waiting ∧ (modLoad f s).time = s.time ∧ (modLoad f s).kcp =
    s.kcp ∧ (modLoad f s).bind = s.bind ∧ (modLoad f s).xlat = s.xlat ∧ (modLoad f s).coh = s.coh ∧ (modLoad f
    s).mem = s.mem ∧ (modLoad f s).eng = s.eng ∧ (modLoad f s).belay = s.belay ∧ (modLoad f s).link = s.link ∧
    (modLoad f s).sw = s.sw ∧ (modLoad f s).sec = s.sec ∧ (modLoad f s).err = s.err ∧ (modLoad f s).pair =
    s.pair ∧ (modLoad f s).halt = s.halt ∧ (modLoad f s).ctr = s.ctr ∧ (modLoad f s).intc = s.intc ∧ (modLoad f
    s).pwr = s.pwr ∧ (modLoad f s).shown = s.shown :=
  ⟨rfl, rfl, rfl, rfl, rfl, rfl, rfl, rfl, rfl, rfl, rfl, rfl, rfl, rfl, rfl, rfl, rfl, rfl, rfl, rfl, rfl, rfl, rfl⟩

@[simp] theorem putPart_frame (c : Nat) (p : CoreLoad) (s : State) :
    (putPart c p s).pending = s.pending ∧ (putPart c p s).out = s.out ∧ (putPart c p s).draws = s.draws ∧
    (putPart c p s).fields = s.fields ∧ (putPart c p s).waiting = s.waiting ∧ (putPart c p s).time = s.time ∧
    (putPart c p s).kcp = s.kcp ∧ (putPart c p s).bind = s.bind ∧ (putPart c p s).xlat = s.xlat ∧ (putPart c p
    s).coh = s.coh ∧ (putPart c p s).mem = s.mem ∧ (putPart c p s).eng = s.eng ∧ (putPart c p s).belay = s.belay
    ∧ (putPart c p s).link = s.link ∧ (putPart c p s).sw = s.sw ∧ (putPart c p s).sec = s.sec ∧ (putPart c p
    s).err = s.err ∧ (putPart c p s).pair = s.pair ∧ (putPart c p s).halt = s.halt ∧ (putPart c p s).ctr = s.ctr
    ∧ (putPart c p s).intc = s.intc ∧ (putPart c p s).pwr = s.pwr ∧ (putPart c p s).shown = s.shown :=
  ⟨rfl, rfl, rfl, rfl, rfl, rfl, rfl, rfl, rfl, rfl, rfl, rfl, rfl, rfl, rfl, rfl, rfl, rfl, rfl, rfl, rfl, rfl, rfl⟩

@[simp] theorem interruptsBack_frame (c : Nat) (p : Nat → Bool) (s : State) :
    (interruptsBack c p s).pending = s.pending ∧ (interruptsBack c p s).out = s.out ∧ (interruptsBack c p
    s).draws = s.draws ∧ (interruptsBack c p s).fields = s.fields ∧ (interruptsBack c p s).waiting = s.waiting ∧
    (interruptsBack c p s).time = s.time ∧ (interruptsBack c p s).kcp = s.kcp ∧ (interruptsBack c p s).bind =
    s.bind ∧ (interruptsBack c p s).xlat = s.xlat ∧ (interruptsBack c p s).coh = s.coh ∧ (interruptsBack c p
    s).mem = s.mem ∧ (interruptsBack c p s).eng = s.eng ∧ (interruptsBack c p s).belay = s.belay ∧
    (interruptsBack c p s).link = s.link ∧ (interruptsBack c p s).sw = s.sw ∧ (interruptsBack c p s).sec = s.sec
    ∧ (interruptsBack c p s).boot = s.boot ∧ (interruptsBack c p s).err = s.err ∧ (interruptsBack c p s).pair =
    s.pair ∧ (interruptsBack c p s).halt = s.halt ∧ (interruptsBack c p s).ctr = s.ctr ∧ (interruptsBack c p
    s).pwr = s.pwr ∧ (interruptsBack c p s).shown = s.shown :=
  ⟨rfl, rfl, rfl, rfl, rfl, rfl, rfl, rfl, rfl, rfl, rfl, rfl, rfl, rfl, rfl, rfl, rfl, rfl, rfl, rfl, rfl, rfl, rfl⟩

@[simp] theorem leaveService_frame (c : Nat) (s : State) :
    (leaveService c s).pending = s.pending ∧ (leaveService c s).out = s.out ∧ (leaveService c s).draws = s.draws
    ∧ (leaveService c s).fields = s.fields ∧ (leaveService c s).waiting = s.waiting ∧ (leaveService c s).time =
    s.time ∧ (leaveService c s).kcp = s.kcp ∧ (leaveService c s).bind = s.bind ∧ (leaveService c s).xlat =
    s.xlat ∧ (leaveService c s).coh = s.coh ∧ (leaveService c s).mem = s.mem ∧ (leaveService c s).eng = s.eng ∧
    (leaveService c s).belay = s.belay ∧ (leaveService c s).link = s.link ∧ (leaveService c s).sw = s.sw ∧
    (leaveService c s).sec = s.sec ∧ (leaveService c s).boot = s.boot ∧ (leaveService c s).err = s.err ∧
    (leaveService c s).pair = s.pair ∧ (leaveService c s).halt = s.halt ∧ (leaveService c s).ctr = s.ctr ∧
    (leaveService c s).pwr = s.pwr ∧ (leaveService c s).shown = s.shown :=
  ⟨rfl, rfl, rfl, rfl, rfl, rfl, rfl, rfl, rfl, rfl, rfl, rfl, rfl, rfl, rfl, rfl, rfl, rfl, rfl, rfl, rfl, rfl, rfl⟩

@[simp] theorem enterService_frame (c : Nat) (s : State) :
    (enterService c s).pending = s.pending ∧ (enterService c s).out = s.out ∧ (enterService c s).draws = s.draws
    ∧ (enterService c s).fields = s.fields ∧ (enterService c s).waiting = s.waiting ∧ (enterService c s).time =
    s.time ∧ (enterService c s).kcp = s.kcp ∧ (enterService c s).bind = s.bind ∧ (enterService c s).xlat =
    s.xlat ∧ (enterService c s).coh = s.coh ∧ (enterService c s).mem = s.mem ∧ (enterService c s).eng = s.eng ∧
    (enterService c s).belay = s.belay ∧ (enterService c s).link = s.link ∧ (enterService c s).sw = s.sw ∧
    (enterService c s).sec = s.sec ∧ (enterService c s).boot = s.boot ∧ (enterService c s).err = s.err ∧
    (enterService c s).pair = s.pair ∧ (enterService c s).halt = s.halt ∧ (enterService c s).ctr = s.ctr ∧
    (enterService c s).pwr = s.pwr ∧ (enterService c s).shown = s.shown :=
  ⟨rfl, rfl, rfl, rfl, rfl, rfl, rfl, rfl, rfl, rfl, rfl, rfl, rfl, rfl, rfl, rfl, rfl, rfl, rfl, rfl, rfl, rfl, rfl⟩

@[simp] theorem stageFrom_frame (n : Nat) (s : State) :
    (stageFrom n s).pending = s.pending ∧ (stageFrom n s).out = s.out ∧ (stageFrom n s).draws = s.draws ∧
    (stageFrom n s).fields = s.fields ∧ (stageFrom n s).waiting = s.waiting ∧ (stageFrom n s).time = s.time ∧
    (stageFrom n s).kcp = s.kcp ∧ (stageFrom n s).bind = s.bind ∧ (stageFrom n s).xlat = s.xlat ∧ (stageFrom n
    s).coh = s.coh ∧ (stageFrom n s).mem = s.mem ∧ (stageFrom n s).eng = s.eng ∧ (stageFrom n s).belay = s.belay
    ∧ (stageFrom n s).link = s.link ∧ (stageFrom n s).sw = s.sw ∧ (stageFrom n s).sec = s.sec ∧ (stageFrom n
    s).err = s.err ∧ (stageFrom n s).pair = s.pair ∧ (stageFrom n s).halt = s.halt ∧ (stageFrom n s).ctr = s.ctr
    ∧ (stageFrom n s).intc = s.intc ∧ (stageFrom n s).pwr = s.pwr ∧ (stageFrom n s).shown = s.shown := by
  unfold stageFrom; (try dsimp only); split <;> simp

@[simp] theorem deviceResetDue_frame (n : Nat) (s : State) :
    (deviceResetDue n s).pending = s.pending ∧ (deviceResetDue n s).out = s.out ∧ (deviceResetDue n s).draws =
    s.draws ∧ (deviceResetDue n s).fields = s.fields ∧ (deviceResetDue n s).waiting = s.waiting ∧
    (deviceResetDue n s).time = s.time ∧ (deviceResetDue n s).kcp = s.kcp ∧ (deviceResetDue n s).bind = s.bind ∧
    (deviceResetDue n s).xlat = s.xlat ∧ (deviceResetDue n s).coh = s.coh ∧ (deviceResetDue n s).mem = s.mem ∧
    (deviceResetDue n s).eng = s.eng ∧ (deviceResetDue n s).belay = s.belay ∧ (deviceResetDue n s).link = s.link
    ∧ (deviceResetDue n s).sw = s.sw ∧ (deviceResetDue n s).sec = s.sec ∧ (deviceResetDue n s).err = s.err ∧
    (deviceResetDue n s).pair = s.pair ∧ (deviceResetDue n s).halt = s.halt ∧ (deviceResetDue n s).ctr = s.ctr ∧
    (deviceResetDue n s).intc = s.intc ∧ (deviceResetDue n s).pwr = s.pwr ∧ (deviceResetDue n s).shown = s.shown :=
  ⟨rfl, rfl, rfl, rfl, rfl, rfl, rfl, rfl, rfl, rfl, rfl, rfl, rfl, rfl, rfl, rfl, rfl, rfl, rfl, rfl, rfl, rfl, rfl⟩

end Sys2Proof.Machine
end

