-- ==== Sys2Proof/Laws/Quiet.lean ====
section
/-! SUPPORT. What almost every operation leaves as it is, in one relation: the queue of commands, the clocks, the active
command processor, the bring-up stage, the credentials, and the canonical form of the pool and the coil. -/
namespace Sys2Proof.Machine

/-- The canonical form of the pool and the coil is kept. -/
def KeepsForm (m m' : MemSt) : Prop := Memory.wf m = true → Memory.wf m' = true

theorem KeepsForm.refl (m : MemSt) : KeepsForm m m := id

/-- From `s` to `t` nothing changed in the queue of commands, the clocks, the command processor in charge, the stage, the
credentials; and the memory kept its form. -/
structure Quiet (s t : State) : Prop where
  pending : t.pending = s.pending
  lmc : t.time.lmc = s.time.lmc
  pos : t.time.pos = s.time.pos
  stopped : t.time.stopped = s.time.stopped
  active : t.pair.active = s.pair.active
  stage : t.boot.stage = s.boot.stage
  inRom : t.boot.inRom = s.boot.inRom
  creds : t.sec.creds = s.sec.creds
  form : KeepsForm s.mem t.mem

theorem Quiet.refl (s : State) : Quiet s s := ⟨rfl, rfl, rfl, rfl, rfl, rfl, rfl, rfl, id⟩

theorem Quiet.trans {s t u : State} (h : Quiet s t) (k : Quiet t u) : Quiet s u :=
  ⟨k.pending.trans h.pending, k.lmc.trans h.lmc, k.pos.trans h.pos, k.stopped.trans h.stopped, k.active.trans h.active, k.stage.trans h.stage,
    k.inRom.trans h.inRom, k.creds.trans h.creds, fun w => k.form (h.form w)⟩

/-- A state that differs in other parts alone. -/
theorem Quiet.upd {s t : State} (a : List Out) (b : Nat) (c : Tbl Nat) (d : List WaitingWrite) (e : KcpSt) (f : BindSt) (g : XlatSt)
    (i : CohSt) (j : EngSt) (k : BelaySt) (l : LinkSt) (m : SwSt) (n : ErrSt) (o : HaltSt) (p : CtrSt) (q : IntSt) (r : PwrSt)
    (v : Shown) (h : Quiet s t) :
    Quiet s (State.mk t.pending a b c d t.time e f g i t.mem j k l m t.sec t.boot n t.pair o p q r v) :=
  ⟨h.pending, h.lmc, h.pos, h.stopped, h.active, h.stage, h.inRom, h.creds, h.form⟩

/-- A state that differs in other parts, and in parts of the pair, the security unit, the bring-up and the memory that do not
count here. -/
theorem Quiet.updAll {s t : State} {a : List Out} {b : Nat} {c : Tbl Nat} {d : List WaitingWrite} {e : KcpSt} {f : BindSt}
    {g : XlatSt} {i : CohSt} {j : EngSt} {k : BelaySt} {l : LinkSt} {m : SwSt} {n : ErrSt} {o : HaltSt} {p : CtrSt} {q : IntSt}
    {r : PwrSt} {v : Shown} {mem : MemSt} {sec : SecSt} {boot : BootSt} {pair : PairSt} {time : TimeSt}
    (hl : time.lmc = t.time.lmc) (hx : time.pos = t.time.pos) (hy : time.stopped = t.time.stopped) (hp : pair.active = t.pair.active)
    (hs : boot.stage = t.boot.stage) (hi : boot.inRom = t.boot.inRom) (hc : sec.creds = t.sec.creds)
    (hm : KeepsForm t.mem mem) (h : Quiet s t) :
    Quiet s (State.mk t.pending a b c d time e f g i mem j k l m sec boot n pair o p q r v) :=
  h.trans ⟨rfl, hl, hx, hy, hp, hs, hi, hc, hm⟩

theorem Quiet.ite {s t u : State} {c : Prop} [Decidable c] (h : Quiet s t) (k : Quiet s u) : Quiet s (if c then t else u) := by
  split <;> assumption

theorem Quiet.ite2 {α : Type} {s : State} {t u : α × State} {c : Prop} [Decidable c] (h : Quiet s t.2) (k : Quiet s u.2) :
    Quiet s (if c then t else u).2 := by
  split <;> assumption

theorem Quiet.foldl {β : Type} {s t : State} {g : State → β → State} {l : List β} (hg : ∀ u a, Quiet s u → Quiet s (g u a))
    (h : Quiet s t) : Quiet s (l.foldl g t) := by
  induction l generalizing t with
  | nil => exact h
  | cons a l ih => exact ih (hg t a h)

theorem Quiet.foldl2 {α β : Type} {s : State} {t : α × State} {g : α × State → β → α × State} {l : List β}
    (hg : ∀ (u : α × State) a, Quiet s u.2 → Quiet s (g u a).2) (h : Quiet s t.2) : Quiet s (l.foldl g t).2 := by
  induction l generalizing t with
  | nil => exact h
  | cons a l ih => exact ih (hg t a h)

/-! ### The memory -/

theorem wf_parts (m : MemSt) : Memory.wf m = true ↔ twf none m.lines = true ∧ twf none m.coil = true := by
  simp [Memory.wf]

/-- A memory that differs in its strands, temperatures and logs alone. -/
theorem KeepsForm.same {m m' : MemSt} (h : m'.lines = m.lines) (k : m'.coil = m.coil) : KeepsForm m m' := by
  intro w; rw [wf_parts] at w ⊢; rw [h, k]; exact w

theorem modStrand_quiet {b0 : State} {st : Nat} {f : Strand → Strand} {s : State} (h : Quiet b0 s) : Quiet b0 (modStrand st f s) :=
  h.trans ⟨rfl, rfl, rfl, rfl, rfl, rfl, rfl, rfl, .same rfl rfl⟩

theorem touchTimes_quiet {b0 : State} {n line : Nat} {s : State} (h : Quiet b0 s) : Quiet b0 (touchTimes n line s) :=
  modStrand_quiet h

theorem touch_quiet {b0 : State} {line : Nat} {s : State} (h : Quiet b0 s) : Quiet b0 (touch line s) := touchTimes_quiet h

theorem flipUsed_quiet {b0 : State} {st : Nat} {s : State} (h : Quiet b0 s) : Quiet b0 (flipUsed st s) := h.upd ..

/-- A line written at its strand keeps the canonical form. -/
theorem writeStrand_quiet {b0 : State} {line : Nat} {d : Line} {p : Bool} {s : State} (h : Quiet b0 s) :
    Quiet b0 (writeStrand line d p s) := by
  have k : Quiet b0 (touch line (if flipReady s (lineStrand line) 1 = true then flipUsed (lineStrand line) s else s)) :=
    touch_quiet (Quiet.ite (flipUsed_quiet h) h)
  unfold writeStrand; dsimp only
  refine k.trans ⟨rfl, rfl, rfl, rfl, rfl, rfl, rfl, rfl, fun w => ?_⟩
  rw [wf_parts] at w ⊢
  refine ⟨?_, w.2⟩
  dsimp only
  exact twf_tset _ _ _ w.1

/-- A change of one line of the coil keeps the canonical form. -/
theorem coilSet_quiet {b0 : State} {line : Nat} {c : Option CoilLine} {s : State} (h : Quiet b0 s) : Quiet b0 (coilSet line c s) := by
  refine h.trans ⟨rfl, rfl, rfl, rfl, rfl, rfl, rfl, rfl, fun w => ?_⟩
  rw [wf_parts] at w ⊢
  exact ⟨w.1, twf_tset _ _ _ w.2⟩

theorem logCured_quiet {b0 : State} {line source n : Nat} {s : State} (h : Quiet b0 s) : Quiet b0 (logCured line source n s) := by
  unfold logCured; dsimp only
  refine Quiet.trans (t := (if (tget none s.mem.ceLog (64 * strandStack (lineStrand line) +
    tget 0 s.mem.ceNext (strandStack (lineStrand line)))).isSome = true then
    sat (0x0006C000 + 4 * strandStack (lineStrand line)) 16 16 1 s else s)) (Quiet.ite (h.upd ..) h) ?_
  exact ⟨rfl, rfl, rfl, rfl, rfl, rfl, rfl, rfl, .same rfl rfl⟩

/-- The memory keeps its canonical form under every change that only takes lines out. -/
theorem KeepsForm.filter {m m' : MemSt} (f : Nat × Option StoredLine → Bool) (h : m'.lines = m.lines.filter f) (k : m'.coil = m.coil) :
    KeepsForm m m' := by
  intro w
  rw [wf_parts] at w ⊢
  rw [h, k]
  exact ⟨twf_filter _ _ w.1, w.2⟩

theorem dropRaw_quiet {b0 : State} {st : Nat} {s : State} (h : Quiet b0 s) : Quiet b0 (dropRaw st s) :=
  h.trans ⟨rfl, rfl, rfl, rfl, rfl, rfl, rfl, rfl, .filter _ rfl rfl⟩

theorem writePattern_quiet {b0 : State} {r : PatternRun} {s : State} (h : Quiet b0 s) : Quiet b0 (writePattern r s) :=
  h.trans ⟨rfl, rfl, rfl, rfl, rfl, rfl, rfl, rfl, .filter _ rfl rfl⟩

end Sys2Proof.Machine
end

