-- ==== Sys2Proof/Tests/Slice0.lean ====
section
/-! SUPPORT. Tests: ill-formed commands that well-formedness refuses; worked values of the spec; and for each statement with
hypotheses a state and operands that meet them. -/
namespace Sys2Proof.Tests
open Sys2Proof Sys2Proof.Machine
set_option Elab.async false

/-! ### Small states -/

/-- The operator's session 1 and tenant 9's session 9. -/
def opSession : Session := { id := 1, tenant := 0, cred := 1, tagKey := 5, wrapKey := 6, path := .eth 0 7 8 9, isOpen := true }
def t9Session : Session := { id := 9, tenant := 9, cred := 1, tagKey := 5, wrapKey := 6, path := .link 10 0x131, isOpen := true }

/-- A device at stage 6 with both sessions open, no unit bound and every port off. -/
def up : State :=
  { kcp := { sessions := [opSession, t9Session] },
    boot := { pwrGood := true, resetN := true, inRom := false, stage := 6, powerOk := 15, clocksOn := 15 },
    sec := { rngOk := true } }

/-- A command of the operator or of tenant 9, the first of its session. -/
def cmd (tenant : Nat) (params : List Byte := []) : Cmd :=
  { session := if tenant = 0 then 1 else 9, seq := 1, tenant := tenant, params := params }

/-- `Runs` as a test. -/
def runsB (op : Nat) (c : Cmd) (s : State) : Bool :=
  serving s && (match sessionOf s c.session with
    | some ss => !wasApplied ss c.seq && decide (c.seq ≤ ss.base + 63) && (c.unordered || orderedReady s ss c.seq) &&
        ringTurn s c.session c.seq ss.tenant && refusal s ss op c.tenant == none
    | none => false)

theorem runs_of {op : Nat} {c : Cmd} {s : State} (h : runsB op c s = true) : Runs op c s := by
  unfold runsB at h
  split at h
  · rename_i ss hs
    simp only [Bool.and_eq_true, Bool.not_eq_true', decide_eq_true_eq, Bool.or_eq_true, beq_iff_eq] at h
    exact ⟨h.1, ss, hs, h.2.1.1.1.1, h.2.1.1.1.2, h.2.1.1.2, h.2.1.2, h.2.2⟩
  · simp at h

/-! ### Well-formedness refuses what is out of range -/

theorem test_wf_refuses_a_quadrant : (Instr.linkrefStop 4).wf = false := by decide +kernel
theorem test_wf_refuses_a_rail : (Instr.railFault 28).wf = false := by decide +kernel
theorem test_wf_refuses_a_knot : (Instr.knotIncrement 65536 1).wf = false := by decide +kernel
theorem test_wf_refuses_a_line : (Instr.homeRequestResume 17179869184 false).wf = false := by decide +kernel
theorem test_wf_refuses_a_tenant_in_a_command : (Instr.nop { session := 1, seq := 1, tenant := 32 }).wf = false := by decide +kernel
theorem test_wf_refuses_long_parameters :
    (Instr.readRegs { session := 1, seq := 1, tenant := 0, params := List.replicate 973 0 }).wf = false := by decide +kernel
theorem test_wf_refuses_a_missing_payload :
    (Instr.store { port := 10, hdr := { code := 4, granules := 1, lines := 1 } }).wf = false := by decide +kernel
theorem test_wf_refuses_a_wide_header : (Instr.load { port := 10, hdr := { code := 1, dst := 4096 } }).wf = false := by decide +kernel
theorem test_wf_refuses_a_path : (Instr.openSession (.link 10 4096) { session := 0, seq := 1, tenant := 9 }).wf = false := by decide +kernel
theorem test_wf_takes_a_good_command : (Instr.load { port := 95, hdr := { code := 1, dst := 4095, lines := 32 } }).wf = true := by decide +kernel

/-! ### The block and the board: states that meet the hypotheses -/

/-- The device in its ROM with all rails in range; a device whose clocks have run a while with levels to rise and fall. -/
def inRom : State := { boot := { pwrGood := true, resetN := true }, pwr := { railsOk := 2 ^ 28 - 1 } }
def warm : State := { up with time := { lmc := 5000 }, pwr := { railsOk := 2 ^ 28 - 1, level := [(2, 1)] } }
def goodCopy : FlashCopy := { key := 5, bootImage := [1], bootSig := 6, controlImage := [2], controlSig := 7, version := 3 }

theorem test_reset_memory_is_canonical : Memory.wf State.reset.mem = true := by decide +kernel
theorem test_hyp_empty_queue :
    State.reset.pending = [] ∧ heldInReset State.reset = true ∧ up.pending = [] ∧ heldInReset up = false := by decide +kernel
theorem test_hyp_still : Still up ∧ (marked up).err.partitionDue = [] ∧ auditNow (marked up) = [] :=
  ⟨⟨by decide, rfl, by decide +kernel, rfl, by decide⟩, by decide +kernel, by decide +kernel⟩
theorem test_hyp_invariant : Machine.Inv State.reset ∧ ∃ t, step State.reset = .next t := ⟨by unfold Machine.Inv; decide +kernel, _, rfl⟩
theorem test_hyp_device_reset : (false && true) = false ∧ up.boot.pwrGood = true ∧ up.boot.resetN = true ∧
    ({ up with boot.deviceResetAt := some 0 } : State).boot.deviceResetAt = some 0 ∧ 0 ≤ lmc up := by decide +kernel
theorem test_hyp_rom (g : copyVerifies goodCopy = true) (b : copyVerifies { goodCopy with controlSig := 8 } = false) :
    heldInReset inRom = false ∧ inRom.boot.inRom = true ∧ inRom.boot.aFailed = false ∧
    bit inRom.pwr.railsOk 4 = true ∧ bit inRom.pwr.railsOk 27 = true ∧ copyVerifies goodCopy = true ∧
    copyVerifies { goodCopy with controlSig := 8 } = false :=
  ⟨by decide +kernel, by decide +kernel, by decide +kernel, by decide +kernel, by decide +kernel, g, b⟩
theorem test_hyp_rails : bit warm.pwr.railsOk 4 = true ∧ bit warm.pwr.railsOk 27 = true ∧ bit warm.pwr.railsOk 25 = true ∧
    bit warm.pwr.railsOk 0 = true ∧ serving warm = true ∧ lanesRun warm = true := by decide +kernel
theorem test_hyp_temperatures : warm.boot.pwrGood = true ∧ warm.pwr.thermTrip = false ∧ heldInReset warm = false ∧
    throttleLevel warm 0 < 3 ∧ tget 0 warm.pwr.levelAt 0 + 16 ≤ lmc warm ∧ throttleC warm ≤ 100 ∧
    (∀ q < 4, throttleLevel warm q < 3 ∧ tget 0 warm.pwr.levelAt q + 16 ≤ lmc warm) ∧ throttleLevel warm 2 ≠ 0 ∧
    tget 0 warm.pwr.levelAt 2 + 1024 ≤ lmc warm ∧ 40 + 5 ≤ throttleC warm ∧ 40 + 5 ≤ stackThrottleC warm ∧
    100 + 20 ≤ currentLimit warm := by decide +kernel
theorem test_hyp_smbus : smbusRegister up 9 = none ∧ (smbusRegister up 2).isSome = true ∧ up.boot.pwrGood = true ∧
    inRom.boot.inRom = true ∧ (locate ((smbusRegister up 2).getD 0)).isSome = true := by decide +kernel

/-! ### Sessions and packets -/

/-- A NOP of tenant 9 as a packet with the tag that its session's key gives it, and the frame it came in. -/
def nopBody : KcpPkt := { opcode := 1, session := 9, seq := 1, tenant := 9, paramLen := 0, params := [], got := 32, tag := 0 }
def nopPkt : KcpPkt := { nopBody with tag := tagOf 5 nopBody }
/-- The device with EID 0x131 and port 10 bound to tenant 9. -/
def joined : State :=
  { up with bind := { eid := [(0x131, { st := .bound, tenant := 9 })], port := [(10, { st := .bound, tenant := 9 })] } }
theorem test_hyp_packet_reaches : Reaches (.link 10 0x131) none nopPkt joined :=
  ⟨by decide +kernel, rfl, by decide, by decide +kernel⟩
theorem test_hyp_verified : ∃ ss, sessionOf joined nopPkt.session = some ss ∧ nopPkt.tag = tagOf ss.tagKey nopPkt ∧ nopPkt.type = 0 ∧
    wasApplied ss nopPkt.seq = false ∧ nopPkt.seq ≤ ss.base + 63 ∧
    joined.kcp.ring.any (fun e => e.pkt.session == ss.id && e.pkt.seq == nopPkt.seq) = false ∧
    ringHeld joined ss.tenant < ringLimit ss.tenant ∧ orderedReady joined ss nopPkt.seq = true :=
  ⟨t9Session, by rfl, rfl, rfl, by rfl, by decide, by rfl, by decide +kernel, by rfl⟩
/-- Tenant 9's session after its first command, whose reply it keeps, and one event not yet acknowledged. -/
def usedSession : Session := { t9Session with base := 2, replies := [(1, nopPkt)], unacked := [nopPkt] }
def used : State := { joined with kcp := { sessions := [opSession, usedSession] }, time := { lmc := 2 ^ 30 } }
theorem test_hyp_duplicates : Reaches (.link 10 0x131) none nopPkt used ∧ sessionOf used 9 = some usedSession ∧
    wasApplied usedSession 1 = true ∧ usedSession.replies.find? (fun r => r.1 == 1) = some (1, nopPkt) ∧
    sessionOf { used with kcp := { used.kcp with sessions := [{ usedSession with replies := [] }] } } 9 = some { usedSession with replies := [] } ∧
    used.kcp.running.any (fun r => r.session == 9 && r.seq == 1) = false :=
  ⟨⟨by decide +kernel, rfl, by decide, by decide +kernel⟩, rfl, by decide +kernel, rfl, rfl, by decide +kernel⟩
theorem test_hyp_duplicates_that_run_or_wait :
    [({ session := 9, seq := 1, tenant := 9, opcode := 0x102, ordered := true, echo := [], wait := .clocks 1 } : Running)].any
      (fun r => r.session == 9 && r.seq == 1) = true ∧
    [RingEntry.mk (.link 10 0x131) nopPkt 9 false].any (fun e => e.pkt.session == 9 && e.pkt.seq == 1) = true := by decide +kernel
theorem test_hyp_refused : wasApplied usedSession 1 = true ∧ wasApplied t9Session 1 = false ∧
    orderedReady up t9Session 1 = true ∧ ringTurn up 9 1 9 = true ∧ refusal up t9Session 1 12 = some stDENIED ∧
    refusal up t9Session 0x101 9 = some stDENIED := by decide +kernel
theorem test_hyp_events : Reaches (.link 10 0x131) none { nopPkt with type := 3 } used ∧ sessionOf used 9 = some usedSession ∧
    usedSession.unacked = nopPkt :: [] ∧ usedSession.resendAt + eventResendMarks used ≤ lmc used ∧
    t9Session.lastAt + idleMarks used ≤ lmc used ∧ ({ t9Session with isOpen := false } : Session).openedAt + watch ≤ lmc used :=
  ⟨⟨by decide +kernel, rfl, by decide, by decide +kernel⟩, rfl, rfl, by decide +kernel, by decide +kernel, by decide +kernel⟩
/-- A key of tenant 9 in its slot 1. -/
def enrolled : State := { up with sec := { rngOk := true, creds := [(37, some 77)] } }
/-- OPEN_SESSION of tenant 9 with its key 1. -/
def opening : Cmd := { cmd 9 [1] with session := 0 }
theorem test_hyp_open_session (h : onCurve (pnum opening.params 4 64) = true) : serving enrolled = true ∧ opening.session = 0 ∧
    enrolled.err.fatal = false ∧ enrolled.sec.rngOk = true ∧
    enrolled.kcp.sessions.countP (fun x => x.tenant == opening.tenant % 32) < sessionSlots (opening.tenant % 32) ∧
    credential enrolled 9 (min 3 (pnum opening.params 0 1)) = some 77 ∧ onCurve (pnum opening.params 4 64) = true :=
  ⟨by decide +kernel, rfl, by decide, by decide, by decide +kernel, by rfl, h⟩
theorem test_hyp_plain_commands : Runs 1 (cmd 9) up ∧ Runs 3 (cmd 9) up ∧ Runs 6 (cmd 9) up ∧ Runs 7 (cmd 9) up ∧
    implemented 0x999 = false ∧ Runs 0x999 (cmd 9) up :=
  ⟨runs_of (by decide +kernel), runs_of (by decide +kernel), runs_of (by decide +kernel), runs_of (by decide +kernel),
   by decide +kernel, runs_of (by decide +kernel)⟩
theorem test_hyp_ethernet : serving up = true ∧ ethUp up 1 = true ∧
    (let i : EthInfo := { port := 0, mac := 1, ip := 2, udp := 3, dstUdp := 0xBA07, v6 := true, dst := linkLocal (ethMac up 0), tagged := none }
     frameSound i = true ∧ addressed up i = true ∧ i.dstUdp = kcpUdpPort up 0 ∧ wrongPrio i = true) :=
  ⟨by decide +kernel, by decide +kernel, by decide, by simp [addressed, ethAddresses6, up, getField], by decide +kernel, by decide⟩

/-! ### Registers -/

/-- WRITE_REGS of one entry. -/
def writeOne (tenant off v m : Nat) : Cmd := cmd tenant (le 4 1 ++ le 4 off ++ le 4 v ++ le 4 m)
theorem test_hyp_registers : Runs 4 (cmd 0 (le 4 0x10 ++ le 4 1)) up ∧ unreadable (takeNumber (cmd 0) up) 0 0x10 = false ∧
    Runs 5 (writeOne 0 0x1000C 3 0xFFFFFFFF) up ∧ mayWrite (takeNumber (cmd 0) up) 0 0x1000C = true ∧
    mayWrite (takeNumber (cmd 9) up) 9 0x10000 = false :=
  ⟨runs_of (by decide +kernel), by decide +kernel, runs_of (by decide +kernel), by decide +kernel, by decide +kernel⟩
theorem test_hyp_register_write : locate 0xFFFFFFC = none ∧ locate 0x00020200 = some (.kcpCfg, 0) ∧
    ((fieldsOf .kcpCfg 0).filter (fun x => x.acc == .rw && covered 0xFF x)).map (·.lo) = [0] ∧
    ((fieldsOf .kcpCfg 0).filter (fun x => x.acc == .rw && covered 0x7F x)).map (·.lo) = [] := by decide +kernel
theorem test_hyp_waiting :
    let ws := [FClass.live, .edge, .held].map (fun k => ({ offset := 0x00020200, lo := 0, value := 3, cls := k, at_ := 0 } : WaitingWrite))
    fieldAt .kcpCfg 0 0 ≠ none ∧ (∀ k ∈ [FClass.live, .edge, .held],
      ws.find? (fun w => w.offset == 0x00020200 && w.lo == 0 && w.cls == k) ≠ none) ∧ blockIdle up .kcpCfg 0 = true := by decide +kernel
theorem test_hyp_busy_block : blockIdle { up with belay := { holders := [(3, 1)] } } .bightMap 3 = false ∧
    alwaysIdle .bightMap 31 = false := by decide +kernel

/-! ### Knots -/

/-- Knot 19,968 armed at 3 of 4, in latch mode. -/
def knotted : State := { up with belay := { knots := [(19968, { count := 3, armed := true, target := 4 })] },
                                 bind := { knots := [(78, { st := .bound, tenant := 9 })] } }
theorem test_hyp_knots : (knotOf knotted 19968).count ≤ 0xFFFFFFFF ∧ (knotOf knotted 19968).target ≠ 0 ∧
    Runs 0x501 (cmd 9 (le 2 19968 ++ le 1 1)) knotted ∧ knotTenant knotted 19968 = some 9 ∧ Runs 0x502 (cmd 0 (le 2 19968)) knotted ∧
    (knotOf knotted 19969).armed = false ∧ knotRuns knotted 19968 = true ∧ knotAbsent knotted 19968 = false ∧
    knotRuns { knotted with boot.resets := [{ scope := 2, target := knotHome 19968, phase := 2, byLadder := false, started := 0 }] } 19968 =
      false ∧ knotAbsent { knotted with bind.knots := [(78, { isLost := true })] } 19968 = true :=
  ⟨by decide +kernel, by decide +kernel, runs_of (by decide +kernel), by decide +kernel, runs_of (by decide +kernel), by decide +kernel⟩
theorem test_hyp_configure_barrier :
    let ch : Chain := { stages := [0], digest := 0, loadedAt := 0 }
    let s : State := { up with eng := { chains := [(storeKey 9 1, some ch)] } }
    Runs 0x503 (cmd 9 [1]) s ∧ min 5 (pbits (cmd 9 [1]).params 2 0 3) = 0 ∧ chainInUse s 9 1 = false ∧
    tget none s.eng.chains (storeKey 9 1) = some ch :=
  ⟨runs_of (by decide +kernel), by decide +kernel, by decide +kernel, rfl⟩
theorem test_hyp_lines : frozen up = false ∧ tget 0 [(3, 1)] 3 ≠ 0 ∧ ([] : List (Nat × Nat)).any (fun e => e.1 == 3) = false := by
  decide +kernel

/-! ### Binding and extents -/

/-- The extent of two granules at the start of strand 5, tenant 9's. -/
def ext : Extent := { base := 0x500000000, granules := 2, tenant := 9 }
/-- Tenant 9 holds strand 5 with an extent, core 7, EIDs 0x131 and 0x132 on ports 10 and 12, which are up, fault queue 3 and knot block 78;
EID 0 is the device's own. -/
def full : State := { up with
  bind := { strand := [(5, { st := .bound, tenant := 9 })], engine := [(7, { st := .bound, tenant := 9 })],
            port := [(10, { st := .bound, tenant := 9 }), (12, { st := .bound, tenant := 9 })],
            eid := [(0x131, { st := .bound, tenant := 9 }), (0x132, { st := .bound, tenant := 9 })],
            knots := [(78, { st := .bound, tenant := 9 })], faultQueue := [(3, { st := .bound, tenant := 9 })],
            extents := [ext] },
  mem := { strands := [(5, { gen := 1, keyed := true, power := .active, trained := true })] },
  eng := { cores := [(7, { map := .inService, physical := 7 })] },
  link := { ports := [
      (10, { phase := .up, rate := 4, width := 2, partnerEid := 0x131, partnerClass := 3 }),
      (12, { phase := .up, rate := 4, width := 2, partnerEid := 0x132, partnerClass := 3 })] },
  sw := { routes0 := [(0x131, 11), (0x132, 13)] } }

/-- The unit of a binding command, to tenant 9. -/
def bindOne (u : Nat) : Cmd := cmd 0 (le 2 u ++ le 2 1 ++ [9])
theorem test_hyp_bind : ∀ x ∈ [(UnitKind.strand, 0x201), (.engine, 0x202), (.coilWay, 0x203), (.port, 0x204), (.eid, 0x205),
    (.knots, 0x206), (.faultQueue, 0x207)], runsB x.2 (bindOne 3) up = true ∧
    (bindUnits x.1 (bindOne 3)).findSome? (fun u => bindRefusal (takeNumber (bindOne 3) up) x.1 u (bindTo x.1 (bindOne 3))
      (pbit (bindOne 3).params 4 5) (bindShares x.1 (bindOne 3)) (pbit (bindOne 3).params 4 6)) = none := by decide +kernel
theorem test_hyp_bind_step : ∀ k ∈ [UnitKind.strand, .engine, .coilWay, .port, .eid, .knots, .faultQueue],
    (bindEnt (beginStep k 9 false false 3 up) k 3).st = .stepping ∧ stepReady (beginStep k 9 false false 3 up) k 3 = true := by
  decide +kernel
theorem test_hyp_extents : Runs 0x208 (cmd 0 (le 8 0x500800000 ++ le 4 1 ++ [9])) full ∧
    strandTenant full (ppaStrand 0x500800000) = some 9 ∧
    full.bind.extents.any (fun e => e.base < 0x500800000 + 0x200000 && 0x500800000 < e.base + 0x200000 * e.granules) = false ∧
    full.bind.extents.length < extentLimit ∧ strandTenant full 6 ≠ some 9 ∧
    Runs 0x20C (cmd 9 (le 2 5)) full ∧ strandTenant full (min 511 (pnum (cmd 9 (le 2 5)).params 0 2)) = some 9 ∧
    Runs 0x209 (cmd 0 (le 8 0x500000000)) full ∧ extentAt full 0x500000000 = some ext ∧ ext.st = .granted :=
  ⟨runs_of (by decide +kernel), by decide +kernel, by decide +kernel, by decide +kernel, by decide +kernel,
   runs_of (by decide +kernel), by decide +kernel, runs_of (by decide +kernel), rfl, rfl⟩
/-- The extent under a graceful revocation whose deadlines are over. -/
def draining : Extent := { ext with st := .draining, revocation := some { graceful := true, drainAt := 64, finalAt := 2000 } }
def revoking : State := { full with time := { lmc := 3000 }, bind := { full.bind with extents := [draining] } }
theorem test_hyp_revocation : extentAt revoking 0x500000000 = some draining ∧
    draining.revocation = some { graceful := true, drainAt := 64, finalAt := 2000 } ∧ 64 ≤ plmc revoking ∧ 2000 ≤ plmc revoking ∧
    plmc full < 64 ∧ revoking.coh.busy.any (fun b => inExtent draining b.line) = false ∧
    (revokeAccesses draining true revoking).coh.dir.any (fun d => inExtent draining d.1) = false ∧
    (extentAt (revokeAccesses draining true revoking) 0x500000000).isSome = true :=
  ⟨rfl, rfl, by decide +kernel, by decide +kernel, by decide +kernel, by decide +kernel, by decide +kernel, by decide +kernel⟩
theorem test_hyp_sealing :
    tget (0, 0) (tset (0, 0) [] 9 (2, 5)) 9 = (2, 5) ∧ 5 ≤ lmc warm ∧ lmc up < 5 ∧ tget 0 (tset 0 [] 9 5) 9 = 5 ∧
    Runs 0x20A (cmd 0 [9, 1, 2]) up ∧ pbit (cmd 0 [9, 1, 2]).params 1 0 = true ∧
    min (clampTo 1 4 (pnum (cmd 0 [9, 1, 2]).params 2 1)) (4 - otherSlots up 9) ≠ 0 ∧
    (List.range 96).any (fun p => portShared up p && carriesTenant up p 9) = false :=
  ⟨by decide +kernel, by decide +kernel, by decide +kernel, by decide +kernel, runs_of (by decide +kernel), by decide +kernel,
   by decide +kernel, by decide +kernel⟩
theorem test_hyp_enroll_a_key (g : onCurve (pnum (cmd 0 [9, 1, 0]).params 4 64) = true) :
    Runs 0x20B (cmd 0 [9, 1, 0]) up ∧ onCurve (pnum (cmd 0 [9, 1, 0]).params 4 64) = true := ⟨runs_of (by decide +kernel), g⟩
theorem test_hyp_lost_strand : let s : State := { full with mem.strands := [(5, { lostUnit := true })] }
    (strandOf s 5).lostUnit = true ∧ strandTenant s 5 = some 9 ∧ extentAt s 0x500000000 = some ext ∧
    runsB 0x208 (cmd 0 (le 8 0x500800000 ++ le 4 1 ++ [9])) s = true ∧ runsB 0x702 (cmd 9 (le 8 0x500000000)) s = true := by decide +kernel
theorem test_hyp_enroll : Runs 0x20B (cmd 0 [9, 1, 1]) up ∧ pbit (cmd 0 [9, 1, 1]).params 2 0 = true ∧
    Runs 0x20B (cmd 0 [9, 1, 0]) up ∧ pbit (cmd 0 [9, 1, 0]).params 2 0 = false :=
  ⟨runs_of (by decide +kernel), by decide +kernel, runs_of (by decide +kernel), by decide +kernel⟩

/-! ### The pool and the switch -/

/-- What is settled about a packet at its arrival. -/
def settled (rx : RxPkt) (s : State) : Arrival := arrivalOf (stamped rx s).2 (atPort rx s)
/-- `Enters` and `Accepted` as tests, with the window entry and the state that then hold. -/
def entersB (rx : RxPkt) (s : State) : Bool :=
  serving s && receivable s rx && !frozen s && (settled rx s).carried && isOwnEid s rx.hdr.dst
theorem enters_of {rx : RxPkt} {s : State} (h : entersB rx s = true) : Enters rx (settled rx s) s := by
  simp only [entersB, Bool.and_eq_true, Bool.not_eq_true'] at h
  obtain ⟨⟨⟨⟨h1, h2⟩, h3⟩, h4⟩, h5⟩ := h
  exact ⟨h1, h2, h3, rfl, h4, h5⟩
def window0 (rx : RxPkt) (s : State) : Window :=
  window (atPort rx s) (bump (settled rx s).tenant 0 1 (takeArrived (atPort rx s) (crossed (atPort rx s) (settled rx s) (afterPort rx s))))
def held (rx : RxPkt) (s : State) : Option Nat × State :=
  match window0 rx s with
  | .held k t => (k, t)
  | .busy t => (none, t)
def acceptedB (rx : RxPkt) (s : State) : Bool :=
  entersB rx s && !malformed (atPort rx s).hdr && !rx.hdr.mcast && networkTurn (afterPort rx s) (atPort rx s) (settled rx s) &&
    (match window0 rx s with
    | .held _ _ => true
    | .busy _ => false)
theorem accepted_of {rx : RxPkt} {s : State} (h : acceptedB rx s = true) :
    Accepted rx (settled rx s) (held rx s).1 s (held rx s).2 := by
  simp only [acceptedB, Bool.and_eq_true, Bool.not_eq_true'] at h
  obtain ⟨⟨⟨⟨h1, h2⟩, h3⟩, h5⟩, h4⟩ := h
  refine ⟨enters_of h1, h2, h3, h5, ?_⟩
  show window0 rx s = _
  unfold held
  split at h4
  · rename_i e
    simp [e]
  · simp at h4

/-- A request of EID 0x131 for the first line of tenant 9's extent, and its line number. -/
def req (code : Nat) : RxPkt :=
  { port := 10, hdr := { code := code, atype := 1, src := 0x131, tag := 5, addr := 0x500000000, lines := if code = 1 then 1 else 0,
                         granules := if code = 4 || code = 5 || code = 6 || code = 8 || code = 9 then 1 else 0 },
    payload := if code = 4 || code = 5 || code = 6 || code = 8 || code = 9 then [0x1234] else [] }
def ppa0 : Nat := 0x500000000
def taken (code : Nat) : State := (held (withCode code (req code)) full).2
theorem test_hyp_pool_requests : ∀ code ∈ [1, 2, 3, 4, 5, 8],
    acceptedB (withCode code (req code)) full = true ∧ wellShaped (withCode code (req code)) = true ∧
    effClass (withCode code (req code)).hdr ≠ 1 ∧
    fabricOk (taken code) ppa0 (requestLines (withCode code (req code))) = true ∧
    refusedAt (taken code) 9 (ppaOfLine (lineOfPpa ppa0)) (requestLines (withCode code (req code))) (changesLine code) = none ∧
    (idemMatch (taken code) (lineQuadrant (lineOfPpa ppa0)) (withCode code (req code)).hdr).isNone = true ∧
    trackersUsed (taken code) (lineQuadrant (lineOfPpa ppa0)) false < 16384 ∧ (arrivalOf full (req code)).tenant = 9 := by
  decide +kernel
theorem test_hyp_load_taken : PoolTaken 1 (req 1) (arrivalOf full (req 1)) (held (req 1) full).1 (lineOfPpa ppa0) full (taken 1) :=
  ⟨accepted_of (rx := withCode 1 (req 1)) (by decide +kernel), by decide +kernel, by decide +kernel,
   ⟨ppa0, .inl ⟨rfl, by decide +kernel, by decide +kernel⟩, rfl⟩, by decide +kernel,
   Option.isNone_iff_eq_none.mp (by decide +kernel), by decide +kernel⟩
theorem test_hyp_releases : ∀ code ∈ [6, 7],
    acceptedB (withCode code (req code)) full = true ∧ wellShaped (withCode code (req code)) = true ∧
    fabricOk (taken code) ppa0 (requestLines (withCode code (req code))) = true ∧ trackersUsed (taken code) (ppaQuadrant ppa0) true < 4096 ∧
    ppaOffset (ppaOfLine (lineOfPpa ppa0)) + 128 ≤ 0xC0000000 ∧
    (idemMatch (taken code) (lineQuadrant (lineOfPpa ppa0)) (withCode code (req code)).hdr).isNone = true ∧
    extentAt (taken code) (ppaOfLine (lineOfPpa ppa0)) = some ext ∧ (arrivalOf full (req code)).tenant = 9 ∧
    (strandOf (taken code) 5).lostUnit = false ∧ (taken code).coh.silent.contains (0x131, lineOfPpa ppa0) = false ∧ crossing (taken code) (lineOfPpa ppa0) 0x131 = false := by
  decide +kernel
/-- Releases of an address in the quarter that is not populated. -/
def releaseAt (code addr : Nat) : RxPkt := withCode code { req code with hdr := { (req code).hdr with addr := addr } }
theorem test_hyp_unpopulated : ∀ code ∈ [6, 7], acceptedB (releaseAt code 0x5C0000000) full = true ∧
    wellShaped (releaseAt code 0x5C0000000) = true ∧
    fabricOk (held (releaseAt code 0x5C0000000) full).2 0x5C0000000 (requestLines (releaseAt code 0x5C0000000)) = true ∧
    trackersUsed (held (releaseAt code 0x5C0000000) full).2 (ppaQuadrant 0x5C0000000) true < 4096 ∧
    0xC0000000 < ppaOffset (ppaOfLine (lineOfPpa 0x5C0000000)) + 128 := by decide +kernel
/-- A translation of tenant 9 that leads to the same line. -/
def translated : State := { full with xlat := { cache := [{ quadrant := 0, tenant := 9, base := 0x40000000, size := 4096, level := 1, leaf := true, ppa := 0x500000000, writable := true }] } }
theorem test_hyp_means_by_translation : (cachedLeaf translated (portQuadrant 10) 9 0x40000000 true).map (fun x => leafPpa x 0x40000000) =
    some ppa0 := by decide +kernel
theorem test_hyp_denied_atomic : acceptedB (withCode 8 { req 8 with hdr := { (req 8).hdr with aop := 13 } }) full = true := by
  decide +kernel
theorem test_hyp_pool_lines : flipReady full 5 1 = false ∧ flipReady full 5 2 = false ∧ coilOf full 7 = none ∧ (8 : Nat) ≠ 7 := by
  decide +kernel
theorem test_hyp_old_keys : lineStrand (lineOfPpa ppa0) = 5 ∧
    ∀ x, tget none full.mem.lines (lineOfPpa ppa0) = some x → x.gen ≤ (strandOf full 5).gen :=
  ⟨by decide +kernel, fun x h => by simp [full] at h⟩
theorem test_hyp_signals : acceptedB (withCode 0x0A (req 10)) full = true ∧ (req 10).hdr.barrier = false ∧
    (idemMatch (taken 10) (knotHome 0) (withCode 0x0A (req 10)).hdr).isNone = true ∧ trackersUsed (taken 10) (knotHome 0) false < 16384 := by
  decide +kernel
def grouped : State := { full with sw := { full.sw with groups := [(6, { mask := 0x1400, assigned := true, tenant := 9, members := 2 })] } }
theorem test_hyp_fabric_barrier :
    let rx : RxPkt := { req 10 with hdr := { (req 10).hdr with barrier := true, group := 6 } }
    acceptedB rx grouped = true ∧ groupTenant (held rx grouped).2 6 = some (arrivalOf grouped rx).tenant := by decide +kernel
theorem test_hyp_answers : (∀ code ∈ [0x41, 0x42, 0x45, 0x4C, 0x4D], entersB (withCode code (req code)) full = true) ∧
    ∀ code ∈ [0x41, 0x42], ∃ k t, passBack 10 (withCode code (req code)).hdr (takenUp (withCode code (req code)) full) = .goes k t :=
  ⟨by decide +kernel, fun code h => by simp only [List.mem_cons, List.not_mem_nil, or_false] at h; rcases h with rfl | rfl <;> exact ⟨none, _, rfl⟩⟩

/-- The line granted to 0x131 under tag 5; the line while it is fetched for a LOAD, snooped, or free with a LOAD behind it. -/
def line0 : Nat := lineOfPpa ppa0
def job0 : Job := { tracker := 1, line := line0, op := .read }
def tracker0 : Tracker := { id := 1, who := .link 10 0x131 5, hdr := (req 1).hdr, tenant := 9, quadrant := 0, p1 := false, remaining := 1, firstLine := line0 }
def busyWith (ph : LinePhase) (j : Option Job) (q : List Job) : State :=
  { full with time := { lmc := 5000 }, coh := { trackers := [tracker0], busy := [{ line := line0, job := j, phase := ph, queue := q }] } }
/-- The line and the next one of its strand, both to be fetched; the other one is a line of a table walk, of class P0. -/
def contended : State :=
  let t := { tracker0 with id := 2, who := .walker, firstLine := line0 + 1 }
  { full with time := { lmc := 5000 }, coh := { trackers := [tracker0, t], busy := [{ line := line0, job := some job0, phase := .fetching },
      { line := line0 + 1, job := some { job0 with tracker := 2, line := line0 + 1 }, phase := .fetching }] } }
theorem test_hyp_granting : let s := busyWith (.granting 0x131 5 0) none []
    (s.coh.busy.find? (fun b => match b.phase with
      | .granting eid tag _ => eid = 0x131 && tag = 5
      | _ => false)).isSome = true ∧ (busyOf s line0).map (fun b => (b.queue, b.owed, b.recalls)) = some ([], [], []) ∧ 0 + 2048 ≤ plmc s := by
  decide +kernel
theorem test_hyp_busy_lines :
    ((busyOf (busyWith .fetching none []) line0).bind (·.job)).isNone = true ∧
    (busyOf (busyWith .fetching (some job0) []) line0).bind (·.job) = some job0 ∧
    trackerOf (busyWith .fetching (some job0) []) 1 = some tracker0 ∧ (∀ c x, ¬(tracker0.who = .engine c x ∧ tracker0.hdr.code = 1)) ∧
    lineTurn (busyWith .fetching (some job0) []) line0 = true ∧ onChipHeld (busyWith .fetching (some job0) []) line0 = false ∧
    lineTurn contended line0 = false ∧
    busyOf (busyWith (.recalling []) none [job0]) line0 = some { line := line0, job := none, phase := .recalling [], queue := [job0] } ∧
    frozen full = false ∧
    (let x : Snoop := { eid := 0x131, code := 0x4A, tag := 3, sentAt := 100 }
     busyOf (busyWith (.snooping [x]) (some job0) []) line0 = some { line := line0, job := some job0, phase := .snooping [x] } ∧
     x.complete = false ∧ 100 + 2048 ≤ plmc (busyWith (.snooping [x]) (some job0) [])) :=
  ⟨by decide +kernel, by decide +kernel, by decide +kernel, (fun _ _ h => nomatch h.1), by decide +kernel, by decide +kernel,
   by decide +kernel, by decide +kernel, by decide +kernel, by decide +kernel, by decide +kernel, by decide +kernel⟩

/-- Packets that wait at port 10: a request for 0x132, and multicast packets from another EV-M16. -/
def toPeer : RxPkt := { port := 10, hdr := { code := 1, src := 0x131, dst := 0x132, tag := 6, lines := 1 } }
def fromPeer (barrier : Bool) : RxPkt :=
  { port := 10, hdr := { code := if barrier then 0x0A else 4, src := 0x131, mcast := true, group := 6, barrier := barrier, tag := 6 } }
def waitingAt (rx : RxPkt) (cls : Nat) (s : State) : State :=
  modPort 10 (fun x => { x with partnerClass := cls, rx := { x.rx with arrived := [{ pkt := rx, info := arrivalNow s 10 rx.hdr }] } }) s
/-- `PacketWaits` as a test. -/
def waitsB (rx : RxPkt) (s : State) : Bool :=
  serving s && !frozen s && receiving s rx == none && (waitingPkt s rx).isSome && (arrivalOf s rx).carried && !malformed rx.hdr
theorem waits_of {rx : RxPkt} {s : State} (h : waitsB rx s = true) : PacketWaits rx (arrivalOf s rx) s := by
  simp only [waitsB, Bool.and_eq_true, Bool.not_eq_true', beq_iff_eq] at h
  obtain ⟨⟨⟨⟨⟨h1, h2⟩, h3⟩, h4⟩, h5⟩, h6⟩ := h
  obtain ⟨x, hx⟩ := Option.isSome_iff_exists.mp h4
  exact ⟨h1, h2, h3, ⟨x, hx, by simp [arrivalOf, hx]⟩, h5, h6⟩
theorem test_hyp_switched : let s := waitingAt toPeer 3 full
    waitsB toPeer s = true ∧ isOwnEid s 0x132 = false ∧ overtakes s toPeer (arrivalOf s toPeer) = false ∧ effClass toPeer.hdr ≠ 1 ∧ networkTurn s toPeer (arrivalOf s toPeer) = true ∧
    (arrivalOf s toPeer).route = some 12 ∧ (match window toPeer (bump (arrivalOf s toPeer).tenant 0 1 s) with
      | .held _ t => portUp t 12 && eidTenant t 0x132 = some 9
      | .busy _ => false) = true := by decide +kernel
theorem test_hyp_multicast : ∀ b ∈ [false, true], let s := waitingAt (fromPeer b) 2 grouped
    waitsB (fromPeer b) s = true ∧ mcastAccepted s (fromPeer b) = true ∧
    networkTurn s (fromPeer b) (arrivalOf s (fromPeer b)) = true := by decide +kernel

/-! ### Tables and images in the pool -/

/-- A line that holds 64-bit words. -/
def wordsLine (ws : List Nat) : Line := lineOf (ws.flatMap (le 8))
/-- Tenant 9's table maps the 2 MiB at 0x40000000 to its extent (R163, R164); the extent's first line holds the program
PUSH 1, RET. The command processor has read the lines. -/
def mapped : State :=
  let lines := [(0x500010000, [0x500011005]), (0x500011000, [0x500012005]), (0x500012000, [0, 0x500013005]),
    (0x500013000, [0x500000007]), (ppa0, [0x0000000100000004, 0x18])]
  { full with coh := { gathered := lines.map (fun e => (lineOfPpa e.1, wordsLine e.2, false)) },
              xlat := { roots := [(9, some { ppa := 0x500010000, enable := true, engineQueue := 3, linkQueue := 3 })] } }
/-- LOAD_PROGRAM and LOAD_CHAIN of the line at 0x40000000. -/
def program : Cmd := cmd 9 (le 8 0x40000000 ++ [1, 0] ++ le 2 3 ++ le 2 4)
def chain : Cmd := cmd 9 (le 8 0x40000000 ++ [1, 1])
theorem test_hyp_images : Runs 0x401 program mapped ∧ Runs 0x402 chain mapped ∧ frozen mapped = false ∧
    programInUse (takeNumber program mapped) 9 1 = false ∧ chainInUse (takeNumber chain mapped) 9 1 = false ∧
    (match readByTva 9 1 0x40000000 [] mapped with
      | (.wait, _) => false
      | _ => true) = true ∧
    (match readByTva 9 1 0x40000000 [] (takeNumber program mapped) with
      | (.bytes bs, _) => mergesFollow (clampStages 1 (imageLines 1 bs)) && (match checkProgram (wordsOf 4 3 bs) 4 with
        | .ok _ => true
        | .error _ => false)
      | _ => false) = true :=
  ⟨runs_of (by decide +kernel), runs_of (by decide +kernel), by decide +kernel, by decide +kernel, by decide +kernel,
   by decide +kernel, by decide +kernel⟩
theorem test_hyp_translations : Runs 0x301 (cmd 9 (le 8 0x500010000 ++ [1, 3, 3])) mapped ∧
    inExtents mapped 9 (pnum (le 8 0x500010000) 0 8 % 2 ^ 41 / 4096 * 4096) 4096 = true ∧ fqTenant mapped 3 = some 9 ∧
    Runs 0x302 (cmd 9 (le 8 0x40000000)) mapped ∧ frozen mapped = false ∧ mapped.xlat.cache = [] ∧
    Runs 0x304 (cmd 9 (le 8 0x40000000)) mapped ∧ Runs 0x303 (cmd 9 (le 8 0x40000000)) mapped ∧
    (let r := rangeParams (cmd 9 (le 8 0x40000000)).params
     ((rangeWaits 9 (r.1 + r.2) false (r.2 / 4096 + 1) r.1 mapped).findSome? (fun p => walkWaits 9 p.1 p.2 mapped)).isNone = true ∧
     (match walkRange 9 (r.1 + r.2) false (r.2 / 4096 + 1) r.1 [] (takeNumber (cmd 9) mapped) with
      | (.leaves ls, s) => ls.length == 1 && (quadrantsOf 1).all (fun q => decide ((s.xlat.cache.filter (fun x =>
          x.quadrant == q && x.tenant == 9 && x.pinned)).length + ls.length ≤ slicePins))
      | _ => false) = true) :=
  ⟨runs_of (by decide +kernel), by decide +kernel, by decide +kernel, runs_of (by decide +kernel), by decide +kernel, rfl,
   runs_of (by decide +kernel), runs_of (by decide +kernel), by decide +kernel, by decide +kernel⟩
def walking : State := { mapped with xlat := { mapped.xlat with walks := [{ quadrant := 0, tenant := 9, tva := 0x40000000, access := 0 }] } }
theorem test_hyp_walk :
    (walking.xlat.walks.find? (fun w => w.quadrant == 0 && w.tenant == 9 && w.tva / 4096 == 0x40000000 / 4096)).isSome = true ∧
    (match walkFor true 0 9 0x40000000 false walking with
      | (.wait, _) => false
      | _ => true) = true := by decide +kernel
/-- An open record of tenant 9, a fault that waits for one, and a queue with FAULT_POSTED due. -/
def record0 : FaultRec := { id := 1, cause := 1, source := 0, access := 0, level := 0, tva := 0, fmt := 0, entry := 0 }
def faulted : State :=
  let opened : OpenRec := { tenant := 9, queue := 3, record := record0, written := true, waiting := [] }
  let waits : WaitingFault := { tenant := 9, core := 7, ctx := 0, record := record0 }
  { mapped with xlat := { mapped.xlat with openRecs := [opened], waitingFaults := [waits], queues := [(3, { postedAt := some 4 })] } }
theorem test_hyp_fault_records : Runs 0x305 (cmd 9 (le 4 1)) faulted ∧
    (faulted.xlat.openRecs.find? (fun r => r.tenant == 9 && r.record.id == pnum (cmd 9 (le 4 1)).params 0 4)).isSome = true ∧
    (faulted.xlat.waitingFaults.find? (fun w => w.tenant == 9)).isSome = true ∧ openCount faulted 9 < openLimit ∧
    frozen faulted = false ∧ (queueState faulted 3).postedAt = some 4 :=
  ⟨runs_of (by decide +kernel), by decide +kernel, by decide +kernel, by decide +kernel, by decide +kernel, by decide +kernel⟩

/-- A page swap of 64 KiB to EID 0x131; one over Ethernet under way, long silent; and a swap frame of it. -/
def swap : Cmd := cmd 9 (le 8 0x40000000 ++ zeros 8 ++ le 8 (0x131 * 2 ^ 52))
def transfer0 : Transfer :=
  { id := 1, session := 9, seq := 1, tenant := 9, isOut := true, tva := 0x40000000, size := 0, ethernet := true, path := .eth 0 1 2 3,
    signal := false, knot := 0, hostUdp := 0, fabric := 0, cookie := 0, ppas := [] }
def swapping : State := { full with time := { lmc := 2 ^ 21 }, xlat := { transfers := [transfer0], nextTransfer := 2 } }
def swapBody : SwapFrm := { session := 9, transfer := 1, chunk := 0, type := 1, cookie := 0, data := [], tag := 0 }
theorem test_hyp_page_swaps : ∀ op ∈ [0x306, 0x307], runsB op swap mapped = true ∧
    ((rangeWaits 9 (0x40000000 + 0x10000) (op = 0x306) 17 0x40000000 mapped).findSome? (fun p => walkWaits 9 p.1 p.2 mapped)).isNone = true ∧
    eidTenant mapped (pnum swap.params 16 8 / 0x10000 * 0x10000 / 2 ^ 52) = some 9 ∧ pbit swap.params 9 1 = false ∧
    pbit swap.params 9 0 = false ∧ mapped.xlat.transfers.countP (fun t => t.tenant == 9) < 64 := by decide +kernel
/-- The frame's addresses as the port sees them. -/
def swapInfo : EthInfo :=
  { port := 0, mac := 1, ip := 2, udp := 3, dstUdp := 0xBA08, v6 := true, dst := linkLocal (ethMac swapping 0), tagged := none }
theorem swapInfo_addressed : addressed swapping swapInfo = true := by
  simp [addressed, swapInfo, ethAddresses6, swapping, full, up, getField]
theorem test_hyp_swap_frames : serving swapping = true ∧ swapSorted swapping swapInfo = true ∧ stopped swapping = false ∧
    swapping.err.fatal = false ∧ sessionOf swapping 9 = some t9Session ∧
    (∃ f : SwapFrm, f.session = 9 ∧ f.tag = hmacSm3 t9Session.tagKey (swapBytes f)) ∧
    (∃ f : SwapFrm, f.session = 9 ∧ f.tag ≠ hmacSm3 t9Session.tagKey (swapBytes f)) ∧
    (swapping.xlat.transfers.find? (fun t => t.session == 9 && t.id % 2 ^ 32 == 1 && t.ethernet)).isSome = true ∧
    (transferOf swapping 1).isSome = true ∧ transfer0.lastNew + swapResendMarks ≤ plmc swapping ∧
    transfer0.lastVerified + watch ≤ plmc swapping :=
  ⟨by decide +kernel, by simp [swapSorted, swapInfo_addressed]; decide +kernel, by decide +kernel, by decide, rfl,
   ⟨{ swapBody with tag := hmacSm3 5 (swapBytes swapBody) }, rfl, rfl⟩,
   ⟨{ swapBody with tag := hmacSm3 5 (swapBytes swapBody) + 1 }, rfl, Nat.succ_ne_self _⟩,
   by decide +kernel, by decide +kernel, by decide +kernel, by decide +kernel⟩

/-! ### Engines -/

/-- FILL of one line at 0x40000000, and a share of it on core 7. -/
def fillBytes : List Byte := [1] ++ zeros 15 ++ le 8 0x40000000 ++ le 8 128 ++ zeros 8 ++ [2] ++ zeros 87
def fill : Line := clampDesc 1 (lineOf fillBytes)
def share0 : Share :=
  { gang := 1, origin := { kind := 0, session := 9, seq := 1 }, tenant := 9, index := 0, size := 1, first := 7, chainId := none, stages := [fill] }
def ctx0 : Ctx := { share := share0, stage := 0, phase := .running, started := true }
def gang0 : Gang := { id := 1, tenant := 9, first := 7, count := 2, members := [7, 8] }
/-- The device with a context on core 7, its page in the translation cache or not. -/
def running (s : State) (x : Ctx) : State :=
  let core : Core := { map := .inService, physical := 7, ctxs := [(0, some x)] }
  { s with eng := { cores := [(7, core)], gangs := [gang0] }, time := { lmc := 10 ^ 6 } }
def submit0 : Cmd := cmd 9 (le 2 7 ++ le 2 1 ++ [0, 1] ++ zeros 10 ++ fillBytes)
theorem test_hyp_submit : Runs 0x403 submit0 full ∧ (submitStages full 9 (submitOf submit0.params)).map (·.1) = some [fill] ∧
    (submitOf submit0.params).first = 7 ∧ (submitOf submit0.params).count = 1 ∧ engineTenant full 7 = some 9 ∧
    badSignal full 9 [fill] = false ∧ coreGone full 7 = false ∧ queueFull full 7 = false ∧ bightLines [] 1 = [] :=
  ⟨runs_of (by decide +kernel), by decide +kernel, by decide +kernel, by decide +kernel, by decide +kernel, by decide +kernel,
   by decide +kernel, by decide +kernel, by decide +kernel⟩
/-- RESTART of the same, with the CHECK that the restart descriptor gives. -/
def restart0 : Cmd :=
  cmd 9 (zeros 24 ++ (digestBytes (sm3 (submitBytes (submitOf submit0.params) 0))).drop 24 ++ submit0.params)
theorem length_le (n v : Nat) : (le n v).length = n := by
  induction n generalizing v with
  | zero => rfl
  | succ n ih => simp [le, ih]
theorem length_be (n v : Nat) : (be n v).length = n := by simp [be, length_le]
theorem drop_restart : restart0.params.drop 32 = submit0.params := by
  simp [restart0, cmd, zeros, digestBytes, length_be]
theorem check_restart : pnum restart0.params 24 8 = submitCheck (submitOf submit0.params) := by
  simp [restart0, cmd, zeros, digestBytes, submitCheck, pnum, length_be]
theorem test_hyp_restart : Runs 0x405 restart0 full ∧ restart0.params.drop 32 = submit0.params ∧
    pnum restart0.params 24 8 = submitCheck (submitOf submit0.params) ∧ pnum restart0.params 8 1 < [fill].length ∧
    clampTo 7 7 (submitOf submit0.params).restartCore = 7 :=
  ⟨runs_of (by decide +kernel), drop_restart, check_restart, by decide +kernel, by decide +kernel⟩
def cancel0 : Cmd := cmd 9 (le 8 1 ++ le 2 7)
def writing : Ctx := { ctx0 with writes := [{ kind := 0, addr := 0x40000000, data := 0, mask := wholeMask, bytes := 128 }] }
theorem test_hyp_cancel : ∀ s ∈ [full, running full writing], runsB 0x404 cancel0 s = true ∧ pnum cancel0.params 8 2 = 7 ∧
    coreGone s 7 = false ∧ engineTenant s 7 = some 9 := by decide +kernel
theorem test_hyp_cancel_waits :
    (coreCtxs (tget {} (settleHome (cancelOn 9 1 7 (0, full)).2).eng.cores 7)).any (fun x => ofCommand 9 1 x.2.share.origin) = false ∧
    (cancelOn 9 1 7 (0, running full writing)).1 ≠ 0 ∧
    (coreCtxs (tget {} (settleHome (cancelOn 9 1 7 (0, running full writing)).2).eng.cores 7)).any
      (fun x => ofCommand 9 1 x.2.share.origin) = true := by decide +kernel
theorem test_hyp_bulk_copy : let rx : RxPkt := { req 9 with hdr := { (req 9).hdr with core := 7 }, payload := [2] }
    acceptedB (withCode 9 rx) full = true ∧ rx.hdr.any = false ∧ dOp (rx.payload.headD 0) = 2 ∧
    engineTenant (held (withCode 9 rx) full).2 7 = some 9 ∧ coreGone (held (withCode 9 rx) full).2 7 = false ∧
    queueFull (held (withCode 9 rx) full).2 7 = false := by decide +kernel
theorem test_hyp_cores : [7, 8].Nodup ∧ takesCommands full 7 = true ∧
    (tget {} [(7, ({ switchWait := true } : Core))] 7).switchWait = true ∧ runningCtxs full 7 = 0 ∧
    (let x : Ctx := { ctx0 with phase := .gate 0 }
     ctxOf (running full x) 7 0 = some x ∧ x.phase = .gate 0 ∧ 0 + 16 * (gateOf x).timeout ≤ plmc (running full x)) := by decide +kernel
theorem test_hyp_tiles : ∀ s ∈ [running translated ctx0, running mapped ctx0], frozen s = false ∧
    ctxOf s 7 0 = some ctx0 ∧ ctx0.phase = .running ∧ ctx0.started = true ∧ ctx0.tilesDone = false ∧ ctx0.tileLen = 0 ∧
    (myItems ctx0 fill).2 = 128 := by decide +kernel
theorem test_hyp_tile_pages :
    (let ops := (tileFrom (running translated ctx0) 7 ctx0 fill 0).2
     missingPages (running translated ctx0) 7 (keepTrans (running translated ctx0) 7 ctx0 (pagesOf ops)) (pagesOf ops) = []) ∧
    (let ops := (tileFrom (running mapped ctx0) 7 ctx0 fill 0).2
     missingPages (running mapped ctx0) 7 (keepTrans (running mapped ctx0) 7 ctx0 (pagesOf ops)) (pagesOf ops) ≠ []) := by
  decide +kernel
/-- The context reads the line, which is being fetched for it. -/
def read0 : EngRead := { kind := 0, addr := 0x40000000 }
def readCtx : Ctx := { ctx0 with reads := [read0] }
def reading : State :=
  let t : Tracker := { tracker0 with who := .engine 7 0, hdr := { code := 1, tag := readKey read0 } }
  { running translated readCtx with coh := { trackers := [t], busy := [{ line := line0, job := some job0, phase := .fetching }] } }
theorem test_hyp_contexts_advance : (readTracker reading 7 0 0).map (fun t => (t.id, t.firstLine)) = some (1, line0) ∧
    busyOf reading line0 = some { line := line0, job := some job0, phase := .fetching } ∧ job0.tracker = 1 ∧
    ctxOf (running full writing) 7 0 = some writing ∧
    ([({ kind := 0, addr := 0, data := 0, mask := 1, bytes := 1, ready := true } : EngWrite)].find? (fun w => w.ready)).isSome = true ∧
    dOp (stageLine { ctx0 with phase := .recompute 1 }) ≠ 6 := by decide +kernel
/-- The context with its tile in scratch; and a gang of two that merges. -/
def inScratch : Ctx := { ctx0 with tileLen := 128 }
/-- The context with a line of partial results that fails its check. -/
def spoilt : Ctx := { inScratch with held := [{ slot := 4095, data := 1, check := 0 }] }
def scan : Line := clampDesc 1 (lineOf ([5] ++ zeros 127))
def mergeLine : Line := clampDesc 1 (lineOf ([6] ++ zeros 127))
def merging (i r : Nat) : Ctx :=
  { share := { share0 with index := i, size := 2, stages := [scan, mergeLine] }, stage := 1, phase := .merging r, started := true }
def merges : State :=
  { full with eng := { cores := [(7, { map := .inService, ctxs := [(0, some (merging 0 1))] }), (8, { map := .inService, ctxs := [(0, some (merging 1 2))] })],
                       gangs := [gang0] } }
def mergedIn : State := { merges with eng := { merges.eng with gangs := [{ gang0 with merged := [(1, 1)] }] } }
theorem test_hyp_arithmetic : (nextReady (running full inScratch) 7).map (·.1) = some 0 ∧
    (∀ r, inScratch.phase ≠ .merging r) ∧
    ctxOf (running full inScratch) 7 (partitionWith (ctxLog (running full inScratch) 7) 0) = some inScratch ∧
    linesSound inScratch = true ∧ heldSound inScratch = true ∧ heldSound spoilt = false ∧
    (nextReady (running full spoilt) 7).map (·.1) = some 0 ∧ (merging 0 1).stage = (merging 1 2).stage ∧
    (nextReady mergedIn 7).map (·.1) = some 0 ∧
    ctxOf merges 7 0 = some (merging 0 1) ∧ gangOf merges 1 = some gang0 ∧ gangCtx merges 1 (7 + 1) = some (0, merging 1 2) ∧
    effParent gang0 12 1 = some 0 ∧ frozen merges = false ∧ (8, 0) ≠ (7, 0) :=
  ⟨by decide +kernel, nofun, by decide +kernel, by decide +kernel, by decide +kernel, by decide +kernel, by decide +kernel, rfl,
   by decide +kernel, by decide +kernel, by decide +kernel, by decide +kernel, by decide +kernel, by decide +kernel, by decide⟩
theorem test_hyp_multicast_timeout :
    let m : McastPkt := { tag := 1, group := 6, core := 7, ctx := 0, answers := 1, lastCopyAt := 0 }
    ([m].find? (fun m => m.tag == 1)) = some m ∧ ctxOf (running full ctx0) 7 0 = some ctx0 ∧
    m.lastCopyAt + 2048 ≤ plmc (running full ctx0) ∧ plmc full < m.lastCopyAt + 2048 := by decide +kernel

/-! ### Records, counters, interrupts, security -/

theorem test_hyp_errors : Runs 0x801 (cmd 0) up ∧ Runs 0x801 (cmd 9) up ∧ (cmd 9).tenant ≠ 0 ∧ Runs 0x802 (cmd 0) up :=
  ⟨runs_of (by decide +kernel), runs_of (by decide +kernel), by decide, runs_of (by decide +kernel)⟩
theorem test_hyp_counters : Runs 0x803 (cmd 9) up ∧ pbits (cmd 9).params 0 0 2 = 0 ∧ Runs 0x804 (cmd 9) up ∧
    (tget {} [(9, ({ entries := [(1, [])] } : Slice))] 9).entries = [(1, [])] ∧ Runs 0x805 (cmd 0) up ∧
    portUp full 10 = true ∧ beingHandled full 3 10 = false :=
  ⟨runs_of (by decide +kernel), by decide +kernel, runs_of (by decide +kernel), by decide +kernel, runs_of (by decide +kernel),
   by decide +kernel, by decide +kernel⟩
/-- Source 42 pending and enabled, with core 2 in service; and active on core 2. -/
def interrupted (st : IntState) : State :=
  { up with intc := { sources := [(42, { st := st, core := 2 })], outOfService := [0, 1, 3, 4, 5, 6, 7] },
            fields := (setField (0x000F0000 + 8 * 42) 31 0 1 (setField (0x000F0000 + 8 * 42) 0 0x100 4 up)).fields }
theorem test_hyp_interrupts : intReady (interrupted .pending) 42 = true ∧
    (interrupted .pending).intc.sources.any (fun e => intReady (interrupted .pending) e.1 && intBefore (interrupted .pending) e.1 42) = false ∧
    (intTarget 42 (interrupted .pending)).1 = some 2 ∧ (tget {} (interrupted .active).intc.sources 42).core = 2 ∧
    (tget {} (interrupted .activePending).intc.sources 42).st = .activePending := by decide +kernel
/-- The extent being sealed for tenant 9. -/
def sealed0 : Extent := { ext with sealing := some { session := 9, seq := 1, length := 128 } }
def sealing0 : State :=
  { mapped with bind := { mapped.bind with extents := [sealed0] }, mem := { mapped.mem with coil := [(lineOfPpa ppa0, some { data := 5, dirty := false, poison := false, way := 0 })] } }
theorem test_hyp_security : Runs 0x701 (cmd 9 (zeros 36 ++ [9])) up ∧ up.sec.rngOk = true ∧
    pbits (cmd 9 (zeros 36 ++ [9])).params 36 0 5 = 9 ∧ Runs 0x702 (cmd 9 (le 8 ppa0)) full ∧ extentAt full ppa0 = some ext ∧
    sealsOf full 9 < 1024 ∧ Runs 0x703 (cmd 0 (zeros 9 ++ [1])) up ∧ pbit (cmd 0 (zeros 9 ++ [1])).params 9 0 = true ∧
    Runs 0x704 (cmd 0) up ∧ sessionOf up 1 = some opSession ∧ beingHandled up 0 97 = false ∧ beingHandled up 0 98 = false ∧
    up.boot.deviceResetAt = none :=
  ⟨runs_of (by decide +kernel), by decide, by decide +kernel, runs_of (by decide +kernel), rfl, by decide +kernel,
   runs_of (by decide +kernel), by decide +kernel, runs_of (by decide +kernel), rfl, by decide +kernel, by decide +kernel, by decide⟩
theorem test_hyp_seals : extentAt full 0x900000000 = none ∧ extentAt sealing0 ppa0 = some sealed0 ∧ sealed0.sealing.isSome = true ∧
    sealed0.tenant = 9 ∧ ext.sealing = none ∧ runsB 0x702 (cmd 9 (le 8 0x900000000)) full = true ∧ runsB 0x702 (cmd 9 (le 8 ppa0)) sealing0 = true ∧
    sealWaits (recallOwned sealed0 { sealing0 with coh.busy := [{ line := lineOfPpa ppa0, job := none, phase := .recalling [] }] }) sealed0 = true := by
  decide +kernel
/-- The generator failed, and a fault of the measurement store is being handled. -/
def ailing : State := { full with err := { handled := [(6, 0, 97, 2), (6, 0, 98, 3)] } }
theorem test_hyp_generator : serving full = true ∧ serving inRom = false ∧ beingHandled full 0 (16 * 6 + 1) = false ∧
    beingHandled ailing 0 (16 * 6 + 1) = true ∧ beingHandled full 0 (16 * 6 + 2) = false ∧ beingHandled ailing 0 (16 * 6 + 2) = true ∧
    full.boot.deviceResetAt = none := by decide +kernel
theorem test_hyp_seal_hash : sealing0.bind.extents.find? (fun e => e.base == 0x500000000 && e.st == .granted) = some sealed0 ∧
    frozen sealing0 = false ∧ sealWaits (recallOwned sealed0 sealing0) sealed0 = false ∧
    (hashLines 9 1 (lineOfPpa sealed0.base) [] (recallOwned sealed0 sealing0)).1.isSome = true := by decide +kernel

/-! ### The stop, the pair, time -/

def halted (st : HaltState) : State := { up with halt := { st := st, mark := 5, landing := 20, resumeAt := 30 } }
def later (s : State) : State := { s with time := { s.time with lmc := 5000, pos := posUnit * 5000 } }
theorem test_hyp_stops : Runs 0x806 (cmd 0 (le 8 100)) up ∧ fmt (halted .armed) < 5 ∧ 5 ≤ fmt (later (halted .armed)) ∧
    20 ≤ fmt (later (halted .landing)) ∧ (∀ st ∈ [HaltState.halted, .landing, .resuming, .armed, .running],
      runsB 0x807 (cmd 0) (halted st) = true) ∧ 30 ≤ fmt (later (halted .resuming)) ∧ frozen up = false :=
  ⟨runs_of (by decide +kernel), by decide +kernel, by decide +kernel, by decide +kernel, by decide +kernel, by decide +kernel,
   by decide +kernel⟩
/-- Both paths of core 1, or one path of core 0, were heard long ago. -/
def quiet (st : Standby) : State := { later full with pair := { standby := st, heard := [(1, 4999)] } }
theorem test_hyp_pair : serving (quiet .ready) = true ∧ (quiet .ready).pair.active < 2 ∧
    tget 0 (quiet .ready).pair.heard (2 * 0 + 0) + 8 ≤ lmc (quiet .ready) ∧
    (∀ p < 2, tget 0 (quiet .ready).pair.heard (2 * (1 - (quiet .ready).pair.active) + p) + 8 ≤ lmc (quiet .ready)) ∧
    lmc up < 12 ∧ 12 ≤ lmc (quiet (.fenced 12)) ∧ Runs 0x808 (cmd 0) (quiet .ready) ∧ Runs 0x808 (cmd 0) (quiet .testing) ∧
    (quiet .ready).pair.testAt + 4096 ≤ lmc (quiet .ready) ∧ Runs 0x809 (cmd 0) up ∧
    (quiet .none).pair.journalAt + 64 ≤ lmc (quiet .none) ∧ [RingEntry.mk (.link 10 1) nopPkt 9 false] ≠ [] :=
  ⟨by decide +kernel, by decide +kernel, by decide +kernel, by decide +kernel, by decide +kernel, by decide +kernel,
   runs_of (by decide +kernel), runs_of (by decide +kernel), by decide +kernel, runs_of (by decide +kernel), by decide +kernel,
   by decide⟩
/-- A device that takes its time from port 10, locked, with the high word built; and one that takes it from Ethernet port 0,
has heard one master, and has an exchange with it under way. -/
def master7 : PtpAnn := { grandmaster := 7, identity := 7 }
def sync7 : PtpSync := { identity := 7, seq := 1, received := 100, origin := some 50 }
def timed (src : Nat) (st : TState) : State :=
  let p : PtpSt := { masters := [(master7, 0, 4000)], lastSync := some sync7, requestAt := some 100 }
  { later full with fields := (setField 0x00010000 30 0 src (setField 0x00010000 23 0 10 (setField 0x00010010 0 0 9 up))).fields,
                    time := { (later full).time with st := st, rxHigh := some 0, ptp := p } }
theorem test_hyp_time : timeSrc (timed 1 .locked) = 1 ∧ timeSrcPort (timed 1 .locked) = 10 ∧ serving (timed 1 .locked) = true ∧
    isType (timingWord 1 0 5001 0) typeTIMING = true ∧ readTiming (timingWord 1 0 5001 0) = { state := 1, fraction := 0, fmtLo := 5001, pieceSel := 0, piece := pieceOf 0 0 } ∧
    (timed 1 .locked).time.rxLo.getD 0 ≤ 5001 ∧ isType idleWord typeTIMING = false ∧
    ((fracUnit * (256 * 5001 + linkDelay (timed 1 .locked)) : Nat) - ((timed 1 .locked).time.pos : Int)).natAbs ≤
      posUnit * stepLimit (timed 1 .locked) ∧
    posUnit * stepLimit (timed 1 .locked) <
      ((fracUnit * (256 * 5100 + linkDelay (timed 1 .locked)) : Nat) - ((timed 1 .locked).time.pos : Int)).natAbs ∧
    carriesBlocks (timed 1 .locked) 10 = true ∧ carriesBlocks (timed 1 .locked) 11 = false ∧ ethUp (timed 2 .locked) 0 = true ∧
    (timed 1 .locked).time.lastAccept + 16 * gapLimit (timed 1 .locked) ≤ lmc (timed 1 .locked) ∧
    ({ up with time := { lmc := watch, st := .holdover } } : State).time.lastAccept + watch ≤
      lmc { up with time := { lmc := watch, st := .holdover } } ∧
    (timed 1 .locked).time.nextAt ≤ fmt (timed 1 .locked) ∧ fmt up < 5 ∧
    fmt (timed 1 .locked) / 1024 ≠ (timed 1 .locked).time.window := by decide +kernel
theorem test_hyp_ptp : let s := timed 2 .locked
    ptpTakes s 0 (ptpDomain s) (ptpTransport s) = true ∧ fromMaster s 0 (ptpDomain s) (ptpTransport s) 7 = true ∧
    ptpMaster s = some master7 ∧ mastersHeard s = [master7] ∧ 0 < ptpEpoch s ∧ (ptpTime s 9 64).isSome = true ∧
    s.time.ptp.lastSync = some sync7 ∧ sync7.origin = some 50 ∧ s.time.ptp.requestAt = some 100 := by decide +kernel

/-! ### Ports and lanes -/

def lost10 : State := modPort 10 (fun x => { x with phase := .lost, width := 0 }) full
/-- Quadrant 0 listed in the defects, and quadrant 0 in partition reset. -/
def listed0 : State :=
  { up with boot := { up.boot with quadrants := 14, defects := [{ kind := 3, cause := 1, physical := 0, start := 1 }] } }
def held0 : State :=
  { up with boot := { up.boot with resets := [{ scope := 2, target := 0, phase := 2, byLadder := false, started := 0 }] } }
theorem test_hyp_absent_ports : portAbsent listed0 20 = true ∧ portAbsent held0 20 = false ∧ portFree held0 20 = false ∧
    portAbsent full 10 = false ∧ portFree full 10 = true ∧ portFree lost10 10 = true ∧
    (∀ op ∈ [0x601, 0x602, 0x603], runsB op (cmd 0 [20, 1]) listed0 = true ∧ runsB op (cmd 0 [20, 1]) held0 = true) := by decide +kernel
theorem test_hyp_bring_up : Runs 0x601 (cmd 0 [20, 0xA0]) up ∧ overlapsOther up 20 (slotWidth 20 0) = false ∧
    lanesHeld up 20 (slotWidth 20 0) = false ∧ (portOf up 20).phase = .off ∧ sealEnable up 20 = false ∧
    Runs 0x601 (cmd 0 [10, 2]) full ∧ portUp full 10 = true ∧ overlapsOther full 10 (slotWidth 10 2) = false ∧
    lanesHeld full 10 (slotWidth 10 2) = false :=
  ⟨runs_of (by decide +kernel), by decide +kernel, by decide +kernel, by decide +kernel, by decide +kernel,
   runs_of (by decide +kernel), by decide +kernel, by decide +kernel, by decide +kernel⟩
theorem test_hyp_retrain : Runs 0x602 (cmd 0 [10]) full ∧ (portOf full 10).phase = .up ∧ (portOf full 10).change = none ∧
    (portOf full 10).backoffUntil = none ∧ (portOf full 10).widthChange = none ∧ Runs 0x602 (cmd 0 [10]) lost10 ∧
    (portOf lost10 10).phase = .lost ∧ sealEnable lost10 10 = false ∧ Runs 0x602 (cmd 0 [20]) full ∧ (portOf full 20).phase = .off ∧
    Runs 0x603 (cmd 0 [10, 1]) full ∧ slotWidth 10 1 < (portOf full 10).width ∧ Runs 0x603 (cmd 0 [10, 2]) full ∧
    slotWidth 10 2 = (portOf full 10).width :=
  ⟨runs_of (by decide +kernel), by decide +kernel, by decide +kernel, by decide +kernel, by decide +kernel,
   runs_of (by decide +kernel), by decide +kernel, by decide +kernel, runs_of (by decide +kernel), by decide +kernel,
   runs_of (by decide +kernel), by decide +kernel, runs_of (by decide +kernel), by decide +kernel⟩
/-- A PRBS test and a loopback test on lanes 40 and 41 whose time is over. -/
def testing (loop : Bool) : State :=
  let w : Wait := .test 40 2 4 10 (if loop then some 0 else none) true 9 []
  { later up with kcp := { up.kcp with running := [{ session := 1, seq := 1, tenant := 0, opcode := 0x605, ordered := true, echo := [], wait := w }] } }
/-- A LOOP block of the partner, with READY or without. -/
def loopWord (ready : Bool) : Blk := trainWord
  { type := typeLOOP, rate := 1, maxRate := 4, lane := 0, lanesOk := 0, width := 0, eid := 0x133, cls := 2, ready := ready }
theorem test_hyp_lane_tests : (∀ op ∈ [0x604, 0x605], runsB op (cmd 0 [40, 2]) up = true) ∧
    (∀ l < 192, portAbsent up (lanePort up l) = false ∧ portFree up (lanePort up l) = true ∧ laneServes up l = false ∧ (laneState up l).held = false ∧ (laneState up l).farLoop = false) ∧
    (∀ b ∈ [false, true], (testOn (testing b) b 40).isSome = true) ∧ 10 ≤ lmc (testing true) ∧ lanesRun up = true ∧
    (testOn up true 40).isNone = true ∧
    getField (portReg (lanePort up 40) 0) 25 0 { up with fields := (setField (portReg (lanePort up 40) 0) 25 0 1 up).fields } = 1 ∧
    laneServes up 40 = false := by decide +kernel
theorem test_hyp_loop_blocks : ∀ r ∈ [false, true], (readBlk typeLOOP (loopWord r)).map (·.ready) = some r := by decide +kernel

/-- Lane 40 powered with its locks, in no service; lane 20 in the service of port 10. -/
def laned : State :=
  let lane : Lane := { powered := true, rate := 4, cwLock := true, blockLock := true }
  { full with link := { full.link with lanes := [(20, lane), (40, lane)] } }
theorem test_hyp_locks : lanesRun laned = true ∧ (laneState laned 40).powered = true ∧ (laneState laned 40).cwLock = true ∧
    (laneState laned 40).blockLock = true ∧ laneInService laned 40 = false ∧ laneInService laned 20 = true ∧
    (laneState laned 20).cwLock = true ∧ (laneState laned 20).blockLock = true ∧ rawTest (laneState laned 40) = false := by decide +kernel
/-- A marker of count 5 on port lane 0 of port 20 and one that a wrong bit spoils; and lanes 40 and 41 behind their markers. -/
theorem test_hyp_markers : readMarker (markerWord 5 0) = some (5, 0) ∧ readMarker (markerWord 5 0 ^^^ 1024) = none ∧
    40 = laneId (lanePort laned 40) 0 ∧
    (let lane := fun (at_ : Nat) => ({ blockLock := true, marker := some (5, at_) } : Lane)
     (41, 160) ∈ markedLanes { laned with link := { laned.link with lanes := [(40, lane 30), (41, lane 160)] } } 20 5) := by
  decide +kernel
/-- Port 20 in training at rate 1 on lane 40, which is its lead and only lane, with seven good TRAIN blocks behind it. -/
def trainBlk : TrainBlk :=
  { type := 0x4B, rate := 1, maxRate := 4, lane := 0, lanesOk := 1, width := 0, eid := 0x133, cls := 3, ready := false }
def train0 : Train := { lead := 0, lanes := [0], bringUp := true, since := 0, began := 0, run := 7, last := some (blkKey trainBlk) }
def training (t : Train) : State :=
  let lane : Lane := { powered := true, rate := 1, cwLock := true, blockLock := true, deskewed := true }
  { later up with link := { ports := [(20, { phase := t.phase, width := 0, train := some t })], lanes := [(40, lane)] } }
theorem test_hyp_train_block : lanesRun (training train0) = true ∧
    readBlk typeTRAIN (trainWord trainBlk) = some trainBlk ∧ readBlk typeTRAIN idleWord = none ∧ (laneState (training train0) 40).powered = true ∧
    trainingOf (training train0) 40 = some (20, true, train0) ∧ train0.phase = .lock ∧
    train0.lead = 40 - portLane0 (lanePort (training train0) 40) ∧ train0.stepTo = none ∧ 40 = laneId 20 train0.lead ∧
    20 = lanePort (training train0) 40 ∧ laneLocked (training train0) 40 = true ∧ train0.last = some (blkKey trainBlk) ∧
    7 ≤ train0.run ∧ train0.rate = 1 := by decide +kernel
theorem test_hyp_verify : ({ train0 with phase := .verify } : Train).since + 1024 ≤ lmc (training { train0 with phase := .verify }) ∧
    (portOf (training { train0 with phase := .verify }) 20).train = some { train0 with phase := .verify } ∧
    train0.lanes.contains train0.lead = true ∧
    lanePasses (training { train0 with phase := .verify }) 20 0 1 true = true ∧
    lanePasses (modLane 40 (fun x => { x with uncorrectable := 1 }) (training { train0 with phase := .verify })) 20 0 1 true = false := by decide +kernel
theorem test_hyp_training_ends : portTraining (training train0) 20 = some (true, train0) ∧ phaseLimit train0 ≠ none ∧
    (phaseLimit { train0 with rate := 2 }).any (· ≤ lmc (training { train0 with rate := 2 })) = true ∧
    (portOf (training { train0 with stepTo := some (2, 100) }) 20).train = some { train0 with stepTo := some (2, 100) } ∧
    100 + 16 ≤ lmc (training train0) ∧ lmc up < 100 + 16 ∧ (portOf lost10 10).phase = .lost ∧
    (portOf lost10 10).lostAt + 16 ≤ lmc (later lost10) ∧
    getField (portReg 10 0) 26 0 { lost10 with fields := (setField (portReg 10 0) 26 0 1 up).fields } = 1 :=
  ⟨by decide +kernel, by decide +kernel, by decide +kernel, by decide +kernel, by decide +kernel,
   by decide +kernel, by decide +kernel, by decide +kernel, by decide +kernel⟩
/-- Port 10 with a CHANGE of its own sent, or a change of width under way. -/
def changing (ch : Option (Nat × Nat × Nat × Nat)) (b : Option Nat) (w : Option WidthChange) : State :=
  later (modPort 10 (fun x => { x with phase := .change, change := ch, backoffUntil := b, widthChange := w }) full)
/-- A CHANGE block of the partner. -/
def changeOf (eid : Nat) (ready : Bool) : TrainBlk :=
  { type := typeCHANGE, rate := 4, maxRate := 4, lane := 0, lanesOk := 0, width := 2, eid := eid, cls := 3, ready := ready }
theorem test_hyp_changes : lanesRun (changing (some (0, 2, 0, 0)) none none) = true ∧ portUp (changing (some (0, 2, 0, 0)) none none) 10 = true ∧
    (portOf (changing (some (0, 2, 0, 0)) none none) 10).change = some (0, 2, 0, 0) ∧
    0 + 64 ≤ lmc (changing (some (0, 2, 0, 0)) none none) ∧
    (portOf (changing (some (0, 2, 0, 0)) (some 70) none) 10).backoffUntil = some 70 ∧ 70 ≤ lmc (changing none none none) ∧
    (portOf (changing none none none) 10).change = none ∧
    (portOf (changing none none (some (.switching 1 3000 2 false [0]))) 10).widthChange = some (.switching 1 3000 2 false [0]) ∧
    (∀ e ∈ [0, 0x131, 0xFFF], readBlk typeCHANGE (trainWord (changeOf e true)) = some (changeOf e true)) ∧
    readBlk typeCHANGE (trainWord (changeOf 0 false)) = some (changeOf 0 false) ∧ localEid full 10 = 0 ∧
    localEid { full with fields := (setField (portReg 10 8) 0 0 0x131 up).fields } 10 = 0x131 ∧
    3000 + 1025 ≤ lmc (changing none none none) ∧ lmc (changing none none none) < 4000 + 1025 ∧
    0 + 12288 ≤ lmc ({ up with time := { lmc := 12288 } } : State) := by decide +kernel

/-! ### The link layer -/

/-- Port 10 with a receive and a transmit side of its own. -/
def linked (rx : RxSt) (tx : TxSt) : State := later (modPort 10 (fun x => { x with rx := rx, tx := tx }) full)
/-- The flits of a STORE of one line: its header and half a line, then the rest. -/
def storePkt : PktHdr := { code := 4, src := 0x131, tag := 5, granules := 2, lines := 2 }
def flit0 : Flit := mkFlit .packet 7 0 0 (pktBody storePkt [1, 2] 0)
def flit1 : Flit := mkFlit .packet 8 0 0 (pktBody { storePkt with granules := 4 } [1, 2, 3, 4] 1)
def flit9 : Flit := mkFlit .packet 9 0 0 0
def midPkt : RxSt := { expect := 8, partialPkt := [pktBody { storePkt with granules := 4 } [1, 2, 3, 4] 0], grants := 3 }
theorem flitCrc_congr (f g : Flit) (h1 : f.seq = g.seq) (h2 : f.credVc = g.credVc) (h3 : f.credN = g.credN) (h4 : f.body = g.body) :
    flitCrc f = flitCrc g := by unfold flitCrc trailer; rw [h1, h2, h3, h4]
theorem kindOf_crc (f : Flit) (k : FlitKind) (h : f.crc = flitCrc f ^^^ k.xor) : kindOf f = some k := by
  have e : ∀ c x y : Nat, (c ^^^ x == c ^^^ y) = (x == y) := fun c x y => by rw [Bool.eq_iff_iff]; simp
  unfold kindOf
  generalize flitCrc f = c at *
  simp only [h, e]
  cases k <;> decide
/-- A flit that `mkFlit` makes is of the kind that it was made of, and one bit off it is of none. -/
theorem kindOf_mkFlit (k : FlitKind) (seq v n : Nat) (b : FlitBody) : kindOf (mkFlit k seq v n b) = some k :=
  kindOf_crc _ _ (by
    rw [flitCrc_congr (mkFlit k seq v n b) { seq := seq, credVc := v, credN := n, crc := 0, body := b } rfl rfl rfl rfl]
    unfold mkFlit; with_reducible rfl)
theorem kindOf_bad (f : Flit) (x : Nat) (h : f.crc = flitCrc f ^^^ x)
    (hx : ∀ k ∈ [FlitKind.packet, .abort, .linkCtl, .sealTag], k.xor ≠ x) : kindOf f = none := by
  have e : ∀ c x y : Nat, (c ^^^ x == c ^^^ y) = (x == y) := fun c x y => by rw [Bool.eq_iff_iff]; simp
  unfold kindOf
  generalize flitCrc f = c at *
  simp only [h, e]
  exact List.find?_eq_none.mpr (fun k hk => by simpa using hx k hk)
theorem exists_bad_flit (v w x : Nat) (b : FlitBody) : ∃ f : Flit, kindOf f = none := by
  obtain ⟨c, hc⟩ : ∃ c, flitCrc ⟨v, w, x, 0, b⟩ = c := ⟨_, rfl⟩
  refine ⟨⟨v, w, x, c ^^^ 1, b⟩, kindOf_bad _ 1 ?_ (by decide)⟩
  rw [flitCrc_congr ⟨v, w, x, c ^^^ 1, b⟩ ⟨v, w, x, 0, b⟩ rfl rfl rfl rfl, hc]
theorem test_hyp_flits_received : linkRuns (linked {} {}) 10 = true ∧ (linked {} {}).err.fatal = false ∧ (∃ f : Flit, kindOf f = none) ∧
    kindOf flit1 = some .packet ∧ 511 < ahead 9 flit1.seq ∧ kindOf flit9 = some .packet ∧ ahead 8 flit9.seq ≤ 511 ∧
    (portOf (linked midPkt {}) 10).rx.splice.any (fun g => g.seq == flit9.seq) = false ∧
    (portOf (linked midPkt {}) 10).rx.splice.any (fun g => g.seq == 8) = false ∧ (portOf (linked midPkt {}) 10).sealActive = false ∧
    linkRuns (linked midPkt {}) 10 = true :=
  ⟨by decide +kernel, by decide +kernel, exists_bad_flit 0 0 0 0, kindOf_mkFlit .., by decide +kernel, kindOf_mkFlit .., by decide +kernel,
   by decide +kernel, by decide +kernel, by decide +kernel, by decide +kernel⟩
theorem test_hyp_flit_joins : flit1.seq = (portOf (linked midPkt {}) 10).rx.expect ∧
    (portOf (linked midPkt {}) 10).rx.partialPkt = [pktBody { storePkt with granules := 4 } [1, 2, 3, 4] 0] ∧
    [pktBody { storePkt with granules := 4 } [1, 2, 3, 4] 0].length + 1 <
      pktFlits (pktOf ([pktBody { storePkt with granules := 4 } [1, 2, 3, 4] 0] ++ [flit1.body])).1.granules :=
  ⟨by decide +kernel, rfl, by decide +kernel⟩
def sentTwo : State := linked { asked := [(9, 4000)], unacked := 32 } { replay := [⟨flit0, 1⟩, ⟨flit1, 1⟩] }
theorem test_hyp_acknowledged : let s := sentTwo
    linkRuns s 10 = true ∧ (portOf s 10).tx.replay = [⟨flit0, 1⟩, ⟨flit1, 1⟩] ∧ ahead flit0.seq (9 % 1048576) ≤ 2 ∧
    ahead flit0.seq 8 = 1 ∧ (9, 4000) ∈ (portOf s 10).rx.asked ∧ 4000 + nakWait s 10 ≤ lmc s ∧ (portOf s 10).rx.unacked ≠ 0 ∧
    (portOf s 10).rx.ackedAt + 1 ≤ lmc s ∧ (portOf s 10).tx.keepaliveAt + 16 ≤ lmc s ∧
    (portOf s 10).tx.ackProgressAt + ackTimeoutMarks s 10 ≤ lmc s ∧ (portOf s 10).rx.lastCtl + silenceMarks s 10 ≤ lmc s :=
  ⟨by decide +kernel, rfl, by decide +kernel, by decide +kernel, by decide +kernel, by decide +kernel, by decide +kernel,
   by decide +kernel, by decide +kernel, by decide +kernel, by decide +kernel⟩
/-- A response of one flit that waits in the CONTROL queue, with credits for it. -/
def respPkt : Nat × Nat × TxPkt := (0, 1, { hdr := { code := 0x42, dst := 0x131, tag := 5 }, payload := [], tenant := 9 })
def ready (tx : TxSt) (owed : Nat × Nat × Nat := (0, 0, 0)) : State :=
  linked { grants := 3, owed := owed } { tx with credits := (4, 4, 4), grantsSent := 3 }
theorem test_hyp_flits_sent : (portOf (linked {} { ctlDue := true }) 10).tx.ctlDue = true ∧
    (let s := linked {} { resend := [8], replay := [⟨flit0, 1⟩, ⟨flit1, 1⟩] }
     (portOf s 10).tx.resend = [8] ∧ (portOf s 10).tx.replay.find? (fun r => r.flit.seq == 8) = some ⟨flit1, 1⟩ ∧ 1 ≤ retryLimit s 10) ∧
    (let s := ready { queue := [respPkt] }
     linkRuns s 10 = true ∧ (portOf s 10).tx.inProgress = none ∧ 3 ≤ (portOf s 10).rx.grants ∧ 3 ≤ (portOf s 10).tx.grantsSent ∧
     (schedule 10 s).1 = some respPkt) ∧
    creditDue (portOf (ready {} (0, 5, 0)) 10) = (1 + 1, 5) ∧ (portOf (ready {} (0, 5, 0)) 10).sealActive = false ∧
    flitReady (ready {} (0, 5, 0)) 10 = false ∧ (portOf (ready {} (0, 5, 0)) 10).tx.ctlDue = false ∧ (schedule 10 (ready {})).1 = none :=
  ⟨by decide +kernel, ⟨by decide +kernel, rfl, by decide +kernel⟩, by decide +kernel, by decide +kernel, by decide +kernel, by decide +kernel, by decide +kernel, by decide +kernel⟩

/-! ### The switch's tables and strands -/

def fwd0 : FwdRec := { port := 10, src := 0x131, dst := 0x132, tag := 6, code := 1, since := 0 }
def switched : State := { later full with sw := { flipTo := some 1, drained := true, fwd := [fwd0] } }
theorem test_hyp_switch_tables : Runs 0x606 (cmd 0 [0, 0, 5, 0, 1, 0]) full ∧ pbits (cmd 0 [0, 0, 5, 0, 1, 0]).params 0 0 1 = full.sw.active ∧
    Runs 0x606 (cmd 0 [1, 0, 5, 0, 1, 0]) full ∧ pbits (cmd 0 [1, 0, 5, 0, 1, 0]).params 0 0 1 ≠ full.sw.active ∧
    full.sw.active < 2 ∧ full.sw.drained = true ∧ ({ full with sw.drained := false } : State).sw.drained = false ∧
    Runs 0x607 (cmd 0 [1]) full ∧ loadRuns full 1 = false ∧ switched.sw.flipAsked ≠ fmt switched ∧ switched.sw.flipAsked = fmt { up with sw := switched.sw } ∧
    fmt { up with time.pos := posUnit * 2048 } % mapInterval up = 0 ∧ up.sw.intervalEnd ≠ fmt { up with time.pos := posUnit * 2048 } ∧
    fmt { up with time.pos := posUnit * 2049 } % mapInterval up ≠ 0 ∧ switched.sw.flipTo = some 1 ∧
    switched.sw.lastOld + routeQuiet switched ≤ lmc switched ∧
    (switched.sw.everFlipped = true → switched.sw.lastFlipLmc + routeQuiet switched ≤ lmc switched) ∧
    Runs 0x608 (cmd 0 ([6, 0, 9, 0, 2, 0, 0, 0] ++ le 12 0x1400)) full ∧ Runs 0x609 (cmd 0 [0, 3]) full ∧
    switched.sw.fwd.find? (fun f => f.port == 10 && f.src == 0x131 && f.tag == 6) = some fwd0 ∧
    fwd0.since + fwdTimeout switched ≤ plmc switched ∧ plmc up < fwd0.since + fwdTimeout up ∧ fwd0.code ≠ 9 :=
  ⟨runs_of (by decide +kernel), by decide +kernel, runs_of (by decide +kernel), by decide +kernel, by decide +kernel, by decide +kernel,
   by decide +kernel, runs_of (by decide +kernel), by decide +kernel, by decide +kernel, by decide +kernel, by decide +kernel,
   by decide +kernel, by decide +kernel, by decide +kernel, by decide +kernel, by decide +kernel, runs_of (by decide +kernel), runs_of (by decide +kernel), by decide +kernel, by decide +kernel, by decide +kernel,
   by decide +kernel⟩
theorem test_hyp_group : let c := cmd 0 ([6, 0, 9, 0, 2, 0, 0, 0] ++ le 12 0x1400)
    min 4095 (pnum c.params 0 2) = 6 ∧ streamUses full 6 = false ∧ fbarArrived full 6 = 0 ∧ pbit c.params 2 5 = false ∧
    (tget {} full.sw.groups 6).assigned = false ∧ pbits c.params 2 0 5 = 9 ∧
    (∀ p < 96, bit (pnum c.params 8 12) p = true → portTenant full p = some 9 ∨ portTenant full p = none) ∧
    pbit (cmd 0 [6, 0, 0x29]).params 2 5 = true ∧ runsB 0x608 (cmd 0 [6, 0, 0x29]) full = true := by decide +kernel
/-- Strand 5 with a row of bank 0 that waits for its neighbours' refresh, and its scrubbing enabled. -/
def kept : State :=
  { full with fields := (setField 0x000600A0 27 1 1 up).fields,
              mem := { strands := [(5, { power := .active, gen := 1, keyed := true, banks := [(0, { waiting := [(77, 3)], table := [(77, 9)] })] })] } }
theorem test_hyp_refresh : (strandOf kept 5).power ≠ .selfRefresh ∧ (strandOf kept 6).power = .selfRefresh ∧
    (strandOf kept 5).refreshes < commandsPerMark kept 5 ∧ bankFree kept 5 0 = true ∧
    bankFree { kept with mem.strands := [(5, { banks := [(0, { freeAt := 9 })] })] } 5 0 = false := by decide +kernel
theorem test_hyp_row_guard : (tget {} (strandOf kept 5).banks 0).waiting.any (fun e => e.1 == 77) = true ∧
    (strandOf kept 5).neighbourAt ≤ lmc kept ∧ (tget {} (strandOf kept 5).banks 0).waiting.any (fun e => e.1 == 78) = false := by decide +kernel
theorem test_hyp_scrub : ScrubGoes 5 kept ∧ ¬ScrubGoes 5 up ∧ frozen (halted .halted) = true ∧
    lineStrand (5 * 33554432 + (strandOf kept 5).scrubNext) = 5 := by unfold ScrubGoes; decide +kernel

/-! ### Bring-up, resets, firmware -/

/-- The device at a stage of bring-up, all rails in range, with a command of the operator that waits. -/
def starting (stage : Nat) (w : List Wait := []) : State :=
  let r := fun (w : Wait) => ({ session := 1, seq := 1, tenant := 0, opcode := 0x103, ordered := true, echo := [], wait := w } : Running)
  { up with boot := { up.boot with stage := stage }, pwr := { railsOk := 2 ^ 28 - 1 }, kcp := { up.kcp with running := w.map r } }
theorem test_hyp_power_and_clocks : (∀ n ∈ [1, 3, 6], runsB 0x101 (cmd 0) (starting n) = true) ∧
    unitBits 4 (quadrantPower (starting 1)) ≠ 0 ∧ runsB 0x101 (cmd 0) up = true ∧ unitBits 4 (quadrantPower up) = 0 ∧
    (starting 1).pwr.railsOk % 2 ^ 28 = 2 ^ 28 - 1 ∧ unitBits 4 (quadrantPower { starting 1 with pwr.railsOk := 0xFFFFFFE }) ≠ 0xF ∧
    (∀ n ∈ [2, 3], runsB 0x102 (cmd 0) (starting n) = true) ∧ (starting 2).boot.stage = 2 ∧ 12 &&& 15 ≠ 0 ∧ 12 &&& 3 = 0 := by
  decide +kernel
theorem test_hyp_first_waiting : ∃ r, FirstWaiting (fun w => ∃ q, w = .clocks q) r (starting 2 [.clocks 15]) ∧ r.wait = .clocks 15 :=
  ⟨_, ⟨⟨15, rfl⟩, [], [], rfl, by simp⟩, rfl⟩
theorem test_hyp_training : runsB 0x103 (cmd 0 [0, 0, 2, 0]) (starting 3) = true ∧
    (∀ u < 512, strandBound (starting 3) u = false ∧ strandHeld (starting 3) u = false ∧ quickTraining (starting 3) u = false) ∧
    trainable (starting 3) 1 = true ∧
    quickTraining { full with mem.strands := [(5, { power := .training, trained := true })] } 5 = true ∧
    (∀ r ∈ full.kcp.running, ∀ a b c d, r.wait ≠ .train a b c d) :=
  ⟨by decide +kernel, by decide +kernel, by decide +kernel, by decide +kernel, fun r h => nomatch h⟩
theorem test_hyp_trained : ∃ r, FirstWaiting (fun w => ∃ a b c d, w = .train a b c d) r (starting 3 [.startup, .train 0 2 9 false]) ∧
    r.wait = .train 0 2 9 false :=
  ⟨_, ⟨⟨0, 2, 9, false, rfl⟩, [_], [], rfl, by simp⟩, rfl⟩
/-- A pattern of strand 6: its first row, all banks. -/
def run6 : PatternRun := patternRun [6, 0, 1]
theorem test_hyp_pattern : Runs 0x104 (cmd 0 [6, 0, 1]) { full with mem.strands := [(6, { trained := true })] } ∧
    (let s : State := { full with mem.strands := [(6, { trained := true })] }
     strandBound s 6 = false ∧ (strandOf s 6).trained = true ∧ (strandOf s 6).lostUnit = false ∧ strandHeld s 6 = false) ∧
    (∃ r, FirstWaiting (fun w => ∃ a b, w = .pattern a b) r (starting 4 [.pattern run6 1]) ∧ r.wait = .pattern run6 1) ∧
    run6.covers (33554432 * 6) = true :=
  ⟨runs_of (by decide +kernel), by decide +kernel, ⟨_, ⟨⟨run6, 1, rfl⟩, [], [], rfl, by simp⟩, rfl⟩, by decide +kernel⟩
theorem test_hyp_startup : Runs 0x105 (cmd 0) (starting 4) ∧ anyBound (starting 4) = false ∧ Runs 0x105 (cmd 0) full ∧
    anyBound full = true ∧ (∀ r ∈ (starting 4).kcp.running, r.wait ≠ .startup) ∧
    (∀ p < 96, (portOf (starting 4 [.startup]) p).phase = .off ∨ (portOf (starting 4 [.startup]) p).phase = .lost) ∧
    ∃ r, FirstWaiting (fun w => w = .startup) r (starting 4 [.startup]) :=
  ⟨runs_of (by decide +kernel), by decide +kernel, runs_of (by decide +kernel), by decide +kernel, by simp [starting],
   by decide +kernel, ⟨_, rfl, [], [], rfl, by simp⟩⟩
def resetting (scope target phase : Nat) : State :=
  { full with boot := { full.boot with resets := [{ scope := scope, target := target, phase := phase, byLadder := false, started := 0 }] } }
theorem test_hyp_resets : (∀ sc ∈ [0, 1, 2], runsB 0x108 (cmd 0 [sc, 0, 2, 0]) full = true ∧
      resetBars full sc.toNat 2 = false) ∧ (tget {} full.eng.cores 2).map ≠ .lost ∧
    runsB 0x108 (cmd 0 [3]) full = true ∧ full.boot.deviceResetAt = none ∧
    (∀ sc ∈ [0, 1, 2], ((resetting sc 2 1).boot.resets.find? (fun r => r.scope == sc && r.target == 2 && r.phase == 1)).isSome = true ∧
      stopped (resetting sc 2 1) = false ∧ lmc (resetting sc 2 1) < 0 + 2048 ∧ scopeQuiet (resetting sc 2 1) sc 2 = true ∧
      ((resetting sc 2 3).boot.resets.find? (fun r => r.scope == sc && r.target == 2 && r.phase == 3)).isSome = true) ∧
    stopped (settleHome (recallQuadrant 2 (resetting 2 2 1))) = false ∧
    scopeQuiet { resetting 0 2 1 with eng.cores := [(2, { queue := [share0] })] } 0 2 = false ∧
    quadrantPower (resetting 2 2 3) 2 = false := by decide +kernel
def rehoming : State :=
  { up with eng := { cores := [(7, { map := .rehoming, spare := some 128 })] }, boot := { up.boot with spares := [(0, 128)] } }
theorem test_hyp_rehoming : (tget {} rehoming.eng.cores 7).map = .rehoming ∧ (tget {} rehoming.eng.cores 7).spare = some 128 ∧
    freeSpare (recordFailure 0 4 (7 / 128 * 136 + 128) rehoming) (7 / 128) = some 129 := by decide +kernel
theorem test_hyp_logic_faults : (strandOf full 5).lostUnit = false ∧ beingHandled full 1 5 = false ∧ (strandOf full 5).power = .active ∧
    beingHandled full 2 7 = false ∧ beingHandled full 5 3 = false := by decide +kernel
/-- An image of one chunk at 0x40000000, and the device with its lines read and core 7 to take it. -/
def fwBytes : List Byte := le 128 1024 ++ List.replicate 1152 0
def fwState : State :=
  { up with xlat := { cache := [{ quadrant := 0, tenant := 0, base := 0x40000000, size := 4096, level := 1, leaf := true, ppa := ppa0, writable := false }] },
            bind := { extents := [{ ext with tenant := 0 }] },
            coh := { gathered := (List.range 10).map (fun i => (lineOfPpa ppa0 + i, lineOf (fwBytes.drop (128 * i)), false)) } }
def loadCmd : Cmd := cmd 0 (le 8 0x40000000 ++ le 2 7 ++ le 2 1)
def fwRead : State := (readByTva 0 10 0x40000000 [] (takeNumber loadCmd fwState)).2
def isBytes (r : BytesRead) (b : List Byte) : Bool := match r with
  | .bytes x => x == b
  | _ => false
theorem bytes_of {r : BytesRead} {b : List Byte} (h : isBytes r b = true) : r = .bytes b := by
  cases r <;> simp_all [isBytes]
theorem test_hyp_load_image (h : verifies Config.firmwareKey (sm3 (fwBytes.take (128 + 1024))) (pnum fwBytes (128 + 1024) 64) = true) :
    Runs 0x106 loadCmd fwState ∧ frozen fwState = false ∧ pnum loadCmd.params 0 8 % 2 ^ 57 / 128 * 128 = 0x40000000 ∧
    firmwareLength 0x40000000 fwState = (1024, 10) ∧ (readByTva 0 10 0x40000000 [] fwState).1 ≠ .wait ∧
    fwState.boot.fw.any (·.running) = false ∧
    readByTva 0 10 0x40000000 [] (takeNumber loadCmd fwState) = (.bytes fwBytes, fwRead) ∧ lengthOk 1024 = true ∧
    verifies Config.firmwareKey (sm3 (fwBytes.take (128 + 1024))) (pnum fwBytes (128 + 1024) 64) = true ∧
    loadTargets fwRead 7 1 ≠ [] :=
  ⟨runs_of (by decide +kernel), by decide +kernel, by decide +kernel, by decide +kernel,
   by rw [bytes_of (r := (readByTva 0 10 0x40000000 [] fwState).1) (b := fwBytes) (by decide +kernel)]; exact nofun,
   by decide +kernel, Prod.ext (bytes_of (by decide +kernel)) rfl, by decide +kernel, h, by decide +kernel⟩
def loading (running : Bool) (p : CoreLoad) : State :=
  { later up with boot := { up.boot with fw := some { length := 2048, digest := 1, payload := [], taken := 0, cores := [(7, some p)], running := running } } }
theorem test_hyp_commit_image : runsB 0x107 (cmd 0) (loading false { missing := 0, confirmed := true }) = true ∧
    (∀ e ∈ partsOf { length := 2048, digest := 1, payload := [], taken := 0, cores := [(7, some { missing := 0, confirmed := true })], running := false },
      e.2.confirmed = true ∧ e.2.excluded = false) ∧ runsB 0x107 (cmd 0) up = true ∧ up.boot.fw = none := by decide +kernel
def part0 : CoreLoad := { missing := 3 }
theorem test_hyp_frames : ∀ p ∈ [part0, { part0 with missing := 0 }, { part0 with verified := true }, { part0 with asked := true }],
    (partOf (loading true p) 7).map (·.2) = some p ∧ frozen (loading true p) = false ∧ p.confirmed = false ∧ p.excluded = false ∧
    p.since + 256 ≤ plmc (loading true p) ∧ 0 + watch ≤ plmc { loading true p with time.lmc := watch, time.pos := posUnit * watch } := by
  decide +kernel
theorem test_hyp_chunks : ({ core := 7, chunk := 0, data := [1], digest := sm3 [1] } : ImgChunk).digest = sm3 [1] ∧
    (0 : Nat) < 2048 / 1024 ∧ part0.missing.testBit 0 = true ∧ part0.missing ≠ 2 ^ 0 ∧ part0.verified = false ∧
    ({ core := 7, chunk := 0, data := [1], digest := sm3 [1] + 1 } : ImgChunk).digest ≠ sm3 [1] :=
  ⟨rfl, by decide, by decide, by decide, by decide, by simp⟩

/-! ### Worked values of the spec -/

/-- PPA 0xA7_4000_1280: strand 0x0A7 of stack s5 in quadrant 1, row 0x4000, bank 2, line index 0x80_0025 (after R28, after R426). -/
theorem test_ppa : ppaStrand 0xA740001280 = 0xA7 ∧ strandStack 0xA7 = 5 ∧ ppaQuadrant 0xA740001280 = 1 ∧ populated 0xA740001280 = true ∧
    ppaOffset 0xA740001280 / 128 = 0x800025 ∧ lineRow (lineOfPpa 0xA740001280) = 0x4000 ∧ lineBank (lineOfPpa 0xA740001280) = 2 ∧
    portQuadrant 10 = 0 ∧ portQuadrant 30 = 1 ∧ coreQuadrant 668 = 1 := by decide +kernel
/-- A 4 KiB response is 17 flits; an x2 port at 400 Gbit/s books 19 flits a mark, an x4 port 38 (R75). -/
theorem test_flits : pktFlits 32 = 17 ∧ bookable 1 4 = 19 ∧ bookable 2 4 = 38 ∧ 264 * pktFlits 32 = 4488 ∧ 30 * 19 / 38 = 15 := by
  decide +kernel
/-- Requests A and B of the example of R77. -/
def ledgers : State :=
  { full with fields := (setField (0x00011000 + 4 * (96 * 9 + 10)) 0 0 12 up).fields,
              coh := { strandLedger := [(strandKey 1003 0xA7, 30), (strandKey 1004 0xA7, 40), (strandKey 1005 0xA7, 25)],
                       egressLedger := [(egressKey 1009 10 9, 12), (egressKey 1010 10 9, 5), (egressKey 1012 10 9, 12),
                         (egressKey 1013 10 9, 12), (egressKey 1014 10 9, 12), (egressKey 1016 10 9, 9)] } }
def lines32 : List Nat := (List.range 32).map (lineOfPpa 0xA700000000 + ·)
theorem test_bookings : (bookLines ledgers 0xA7 64 lines32 1003 []).map List.reverse = some [(1003, 10), (1005, 15), (1006, 7)] ∧
    bookEgress ledgers 10 9 17 1009 1024 = some [(1010, 7), (1011, 10)] ∧
    (let s := enterBookings 0xA7 10 9 [(1003, 10), (1005, 15), (1006, 7)] [(1010, 7), (1011, 10)] ledgers
     bookLines s 0xA7 64 lines32 1003 [] = some [(1006, 32)] ∧
     bookEgress s 10 9 17 1009 1024 = some [(1011, 2), (1015, 12), (1016, 3)] ∧ bookEgress s 10 9 17 1009 1016 = none) := by
  decide +kernel
/-- 43 unordered, then 41: B goes from 41 to 42, and 43 stays applied (R103). -/
theorem test_session_base : let x := markApplied 43 { t9Session with base := 41 }
    x.base = 41 ∧ wasApplied x 43 = true ∧ (markApplied 41 x).base = 42 ∧ (markApplied 42 (markApplied 41 x)).base = 44 := by
  decide +kernel
/-- P1_BIND of tenant 5 written 0x8000_000A reads 0x8000_0010; a tenant's own write is refused (R85, R110). -/
theorem test_clamped_bound : (match exec (.writeRegs (writeOne 0 0x10114 0x8000000A 0xFFFFFFFF)) up with
    | .next t => ((readReg 0 0x10114 t).1.map (·.1)) == some 0x80000010
    | _ => false) = true ∧ mayWrite up 5 0x10114 = false := by decide +kernel
/-- Knot 20,000 armed with TARGET 256 by one register write (R307). -/
theorem test_knot_register : (match exec (.writeRegs (writeOne 0 0x167104 0xA0000100 0xFFFFFFFF)) up with
    | .next t => (knotOf t 20000).armed && (knotOf t 20000).target == 256 && (knotOf t 20000).count == 0
    | _ => false) = true := by decide +kernel
/-- The filter program of the example of R295: it is accepted unchanged; rows of category 7 within price and date pass. -/
def example17 : List Nat :=
  [0x00040002, 0x000D0413, 0x000A0017, 0x5, 0x3, 0xF, 0x14, 0x00050017, 0x00080003, 0x105, 0xF, 0x14, 0x18, 3, 7, 12, 40]
def exampleRow (price cat date : Nat) : List Byte := le 4 price ++ le 2 cat ++ le 2 0 ++ le 4 date ++ le 4 0
theorem test_filter_program : (match checkProgram example17 16 with
      | .ok ws => ws == example17
      | .error _ => false) = true ∧
    (let run := fun p c d => runProgram example17 (exampleRow p c d) (fun i => if i = 0 then 999 else 20000) 17 0 []
     run 999 7 20000 = true ∧ run 1000 7 20000 = false ∧ run 999 8 20000 = false ∧ run 999 40 19999 = false) := by decide +kernel
/-- The generator 1,100 bits on is where 1,100 bits leave it. -/
theorem test_prbs : prbsAfter false 1100 0x2BADCAFE = (prbsBits false 1100 0x2BADCAFE).2 ∧
    prbsAfter true 77 0x1A5A = (prbsBits true 77 0x1A5A).2 := by decide +kernel
/-- Tile lengths and passes of the examples of R251 and of SUM. -/
def sumDesc : Line := lineOf (padTo 128 (le 1 4 ++ le 1 0 ++ le 1 4 ++ le 1 4 ++ zeros 44 ++ le 2 48))
def bigScan : Line := lineOf (padTo 128 (le 1 5 ++ le 1 0 ++ le 1 4 ++ le 1 4 ++ zeros 64 ++ le 2 4096 ++ le 2 1024 ++ le 1 32))
theorem test_tiles : tileBytes sumDesc 524288 = 5248 ∧ tileBytes sumDesc 65536 = 640 ∧
    scanPasses bigScan 0 65536 = 11 ∧ scanPasses bigScan 0 524288 = 2 ∧ passQueries 32 11 0 = (0, 3) ∧ passQueries 32 11 10 = (30, 2) ∧
    scanFits bigScan 0 65536 3 = 8192 ∧ scanFits bigScan 0 65536 2 = 16384 ∧ scanFits bigScan 0 524288 16 = 16384 := by decide +kernel

end Sys2Proof.Tests
end

/-! PROOFS. The scope of the block (section 00): device reset and boot, register writes, and the boundaries at which the
waiting ones take effect. -/
namespace Sys2Proof.Machine

/-! ### Device reset (R14, R540, R548) -/

/-- Settles O3: a table that lists nothing reads its default at every key. -/
theorem resetLeavesTheSpecsValues : Obligations.ResetLeavesTheSpecsValues := by
  have unbound : ∀ k u, (bindEnt State.reset k u).st = .unbound := fun k _ => by cases k <;> rfl
  exact ⟨rfl, rfl, rfl, rfl, rfl, unbound, rfl, fun _ => ⟨rfl, rfl⟩, fun _ => rfl, fun _ => rfl, rfl, fun _ => rfl, rfl⟩

/-- What device reset keeps of the strands is the number of the old key, never a key. -/
theorem deviceReset_strands_keyless (s : State) : ∀ e ∈ (deviceReset s).mem.strands, e.2.keyed = false := by
  intro e he
  obtain ⟨old, -, hold⟩ := List.mem_filterMap.mp (show e ∈ s.mem.strands.filterMap _ from he)
  split at hold
  · cases hold
  · cases hold; rfl

theorem deviceReset_resetLeaves (s : State) : ResetLeaves s (deviceReset s) :=
  ⟨rfl, rfl, rfl, rfl, rfl, rfl, rfl, rfl, rfl, rfl, rfl, rfl, rfl, rfl, rfl, rfl, rfl,
    deviceReset_strands_keyless s, rfl, rfl, rfl, rfl, rfl, rfl⟩

theorem deviceReset_deviceResetAt (s : State) : (deviceReset s).boot.deviceResetAt = none := rfl

@[simp] theorem heldInReset_deviceReset (s : State) : heldInReset (deviceReset s) = heldInReset s := rfl

@[simp] theorem heldInReset_powerRemoved (s : State) : heldInReset (powerRemoved s) = heldInReset s := rfl

theorem heldInReset_of_sysref {s : State} (h : s.boot.sysref = false) : heldInReset s = true := by simp [heldInReset, h]

/-- The loss of power clears only what `ResetLeaves` is silent about. -/
theorem ResetLeaves.powerRemoved {s t : State} (h : ResetLeaves s t) : ResetLeaves s (powerRemoved t) := h

/-- `ResetLeaves` asks of the state before only what is in flash, the outputs and the queue. -/
theorem ResetLeaves.of_kept {s u t : State} (h : ResetLeaves u t) (starts : u.boot.startCount = s.boot.startCount)
    (defects : u.boot.defects = s.boot.defects) (out : u.out = s.out) (pending : u.pending = s.pending) : ResetLeaves s t := by
  simpa only [ResetLeaves, starts, defects, out, pending] using h

/-- The state that DEVICE_RESET_INPUT makes of the pins' levels before it resets anything (R540). -/
def withPins (pwrGood resetN : Bool) (s : State) : State :=
  if pwrGood == s.boot.pwrGood && resetN == s.boot.resetN then s
  else { s with boot.pwrGood := pwrGood, boot.resetN := resetN, boot.sysref := s.boot.sysref || (pwrGood && resetN),
                pwr.railsOk := if pwrGood && !s.boot.pwrGood then onesMask 28 else s.pwr.railsOk }

theorem withPins_levels (p r : Bool) (s : State) : (withPins p r s).boot.pwrGood = p ∧ (withPins p r s).boot.resetN = r := by
  unfold withPins
  split
  · next same =>
    simp only [Bool.and_eq_true, beq_iff_eq] at same
    exact ⟨same.1.symm, same.2.symm⟩
  · exact ⟨rfl, rfl⟩

theorem withPins_same (s : State) : withPins s.boot.pwrGood s.boot.resetN s = s := by simp [withPins]

theorem heldInReset_withPins {p r : Bool} (low : (p && r) = false) (s : State) : heldInReset (withPins p r s) = true := by
  obtain ⟨hp, hr⟩ := withPins_levels p r s
  rw [heldInReset, hp, hr, ← Bool.not_and, low]
  rfl

/-- A reset after the pins have moved is a reset of the state before. -/
theorem resetLeaves_of_withPins {p r : Bool} {s t : State} (h : ResetLeaves (withPins p r s) t) : ResetLeaves s t := by
  unfold withPins at h
  split at h
  · exact h
  · exact h.of_kept rfl rfl rfl rfl

theorem exec_deviceResetInput (p r : Bool) (s : State) : exec (.deviceResetInput p r) s = .next
    (if !p then powerRemoved (deviceReset (withPins p r s)) else if !r then deviceReset (withPins p r s) else withPins p r s) := rfl

theorem exec_sysrefStop (s : State) : exec .sysrefStop s = .next (deviceReset { s with boot.sysref := false }) := rfl

theorem exec_deviceScopeReset_of_due {s : State} {m : Nat} (reset : s.boot.deviceResetAt = some m) (due : m ≤ lmc s) :
    exec .deviceScopeReset s = .next (deviceReset s) := by
  simp only [exec, execDeviceScopeReset, reset, if_neg (Nat.not_lt.mpr due)]

/-- A pin that is low resets the device, whichever of the two it is. -/
theorem exec_deviceResetInput_low {p r : Bool} (low : (p && r) = false) (s : State) :
    ∃ t, exec (.deviceResetInput p r) s = .next t ∧ ResetLeaves s t ∧ heldInReset t = true := by
  have reset := deviceReset_resetLeaves (withPins p r s)
  have held := heldInReset_withPins low s
  refine ⟨_, exec_deviceResetInput p r s, ?_⟩
  cases p with
  | false => exact ⟨resetLeaves_of_withPins reset.powerRemoved, by simpa using held⟩
  | true =>
    obtain rfl : r = false := by simpa using low
    exact ⟨resetLeaves_of_withPins reset, by simpa using held⟩

theorem exec_deviceResetInput_high {s : State} (p : s.boot.pwrGood = true) (r : s.boot.resetN = true) :
    exec (.deviceResetInput true true) s = .next s := by
  have same := withPins_same s
  rw [p, r] at same
  rw [exec_deviceResetInput, same]
  rfl

theorem claimDeviceResetClearsEverything : ClaimDeviceResetClearsEverything := by
  refine ⟨fun p r s low => exec_deviceResetInput_low low s, fun s => ?_, fun s m reset due => ?_,
    fun s p r => exec_deviceResetInput_high p r⟩
  · exact ⟨_, exec_sysrefStop s, (deviceReset_resetLeaves _).of_kept rfl rfl rfl rfl, heldInReset_of_sysref rfl⟩
  · exact ⟨_, exec_deviceScopeReset_of_due reset due, deviceReset_resetLeaves s, deviceReset_deviceResetAt s⟩

/-! ### Boot (R431, R432, R456) -/

theorem bootVerifies_of_copyVerifies {a : FlashCopy} (h : copyVerifies a = true) : bootVerifies a = true :=
  (Bool.and_eq_true_iff.mp h).1

/-- Measuring a copy writes to the security unit alone. -/
theorem measureStages_eq_withSec (a : FlashCopy) (s : State) : measureStages a s = { s with sec := (measureStages a s).sec } := by
  unfold measureStages
  split
  · rfl
  · dsimp only; split <;> rfl

@[simp] theorem measureStages_frame (a : FlashCopy) (s : State) : (measureStages a s).boot = s.boot ∧
    (measureStages a s).fields = s.fields ∧ (measureStages a s).mem = s.mem := by
  rw [measureStages_eq_withSec]
  exact ⟨rfl, rfl, rfl⟩

@[simp] theorem measureStages_bootDigest (a : FlashCopy) (s : State) :
    (measureStages a s).sec.bootDigest = if bootVerifies a then sm3 a.bootImage else s.sec.bootDigest := by
  unfold measureStages
  cases bootVerifies a with
  | false => rfl
  | true => cases copyVerifies a <;> rfl

/-- The control firmware of a copy is measured with its boot stage or not at all. -/
theorem measureStages_control (a : FlashCopy) (s : State) :
    (measureStages a s).sec.controlDigest = (if copyVerifies a then sm3 a.controlImage else s.sec.controlDigest) ∧
    (measureStages a s).sec.controlVersion = (if copyVerifies a then a.version else s.sec.controlVersion) := by
  unfold measureStages
  cases copy : copyVerifies a with
  | false => cases bootVerifies a <;> exact ⟨rfl, rfl⟩
  | true => rw [bootVerifies_of_copyVerifies copy]; exact ⟨rfl, rfl⟩

/-- What the start of the control firmware says of the boot, and what it leaves as it is. -/
theorem startControl_eqs (slot : Nat) (s : State) : (startControl slot s).boot.stage = 1 ∧
    (startControl slot s).boot.inRom = false ∧ (startControl slot s).boot.slot = slot ∧
    (startControl slot s).boot.aFailed = s.boot.aFailed ∧ (startControl slot s).sec = s.sec ∧
    (startControl slot s).fields = s.fields ∧ (startControl slot s).mem = s.mem :=
  ⟨rfl, rfl, rfl, rfl, rfl, rfl, rfl⟩

/-- The state in which the ROM has read copy A, found it bad, and read copy B. -/
def copyBRead (a b : FlashCopy) (s : State) : State := measureStages b { measureStages a s with boot.aFailed := true }

@[simp] theorem copyBRead_parts (a b : FlashCopy) (s : State) : (copyBRead a b s).boot = { s.boot with aFailed := true } ∧
    (copyBRead a b s).fields = s.fields ∧ (copyBRead a b s).mem = s.mem := by
  simp [copyBRead]

/-- What both copies leave of the digests: copy B's where it was measured, else copy A's. -/
theorem copyBRead_digests (a b : FlashCopy) (s : State) : (copyBRead a b s).sec.bootDigest =
      (if bootVerifies b then sm3 b.bootImage else if bootVerifies a then sm3 a.bootImage else s.sec.bootDigest) ∧
    (copyBRead a b s).sec.controlDigest =
      (if copyVerifies b then sm3 b.controlImage else if copyVerifies a then sm3 a.controlImage else s.sec.controlDigest) := by
  simp [copyBRead, measureStages_control]

/-- The ROM reads both copies without touching anything but the boot and the security unit. -/
theorem copyBRead_frame (a b : FlashCopy) (s : State) : { copyBRead a b s with sec := s.sec, boot := s.boot } = s := by
  rw [copyBRead, measureStages_eq_withSec, measureStages_eq_withSec a]

/-- The ROM boots when the device is not held in reset, no copy has failed, and the control rails are in range. -/
structure RomBoots (s : State) : Prop where
  notHeld : heldInReset s = false
  inRom : s.boot.inRom = true
  aGood : s.boot.aFailed = false
  ctlRail : bit s.pwr.railsOk 4 = true
  ioRail : bit s.pwr.railsOk 27 = true

section
variable {a b : FlashCopy} {s : State}

/-- The ROM takes the first copy that verifies. -/
theorem exec_powerOnBoot (rom : RomBoots s) : exec (.powerOnBoot a b) s = .next
    (if copyVerifies a then startControl 0 (measureStages a s)
     else if copyVerifies b then startControl 1 (copyBRead a b s)
     else { copyBRead a b s with boot.bFailed := true }) := by
  obtain ⟨notHeld, inRom, aGood, ctlRail, ioRail⟩ := rom
  simp only [exec, execPowerOnBoot, notHeld, inRom, aGood, ctlRail, ioRail, Bool.not_true, Bool.false_and, Bool.or_self,
    Bool.false_eq_true, if_false, copyBRead]
  split <;> rfl

theorem exec_powerOnBoot_copyA (rom : RomBoots s) (goodA : copyVerifies a = true) :
    exec (.powerOnBoot a b) s = .next (startControl 0 (measureStages a s)) := by
  rw [exec_powerOnBoot rom, if_pos goodA]

theorem exec_powerOnBoot_copyB (rom : RomBoots s) (badA : copyVerifies a = false) (goodB : copyVerifies b = true) :
    exec (.powerOnBoot a b) s = .next (startControl 1 (copyBRead a b s)) := by
  rw [exec_powerOnBoot rom, badA, if_neg Bool.false_ne_true, if_pos goodB]

theorem exec_powerOnBoot_neither (rom : RomBoots s) (badA : copyVerifies a = false) (badB : copyVerifies b = false) :
    exec (.powerOnBoot a b) s = .next { copyBRead a b s with boot.bFailed := true } := by
  rw [exec_powerOnBoot rom, badA, badB, if_neg Bool.false_ne_true, if_neg Bool.false_ne_true]

end

theorem claimRomBootsAGoodCopy : ClaimRomBootsAGoodCopy := by
  intro a b s notHeld inRom aGood ctlRail ioRail
  have rom : RomBoots s := ⟨notHeld, inRom, aGood, ctlRail, ioRail⟩
  obtain ⟨bootDigestB, controlDigestB⟩ := copyBRead_digests a b s
  refine ⟨fun goodA => ⟨_, exec_powerOnBoot_copyA rom goodA, ?_⟩,
    fun badA goodB => ⟨_, exec_powerOnBoot_copyB rom badA goodB, ?_⟩,
    fun badA badB => ⟨_, exec_powerOnBoot_neither rom badA badB, ?_⟩⟩
  · simp [startControl_eqs, measureStages_control, goodA, bootVerifies_of_copyVerifies goodA]
  · simp [startControl_eqs, bootDigestB, controlDigestB, goodB, bootVerifies_of_copyVerifies goodB]
  · rw [badB, badA] at controlDigestB
    exact ⟨by simp, rfl, by simpa using inRom, by simp, bootDigestB, controlDigestB, copyBRead_frame a b s⟩

/-- Settles O6, from the resets and from the boot. -/
theorem deviceResetAndBoot : Obligations.DeviceResetAndBoot :=
  ⟨claimDeviceResetClearsEverything, claimRomBootsAGoodCopy⟩

/-! ### Register writes (R15, R17, R18, R112) -/

theorem exec_registerWrite (off v m : Nat) (s : State) :
    exec (.registerWrite off v m) s = .next (writeReg (off / 4 * 4) v m s) := rfl

section
variable {off i : Nat} {f : RegFam}

theorem writeReg_of_locate_none (h : locate off = none) (v m : Nat) (s : State) : writeReg off v m s = s := by
  rw [writeReg, h]

theorem writeReg_knot (h : locate off = some (.knotCfg, i)) (v m : Nat) (s : State) :
    writeReg off v m s = writeKnot i v m s := by
  rw [writeReg, h]

/-- A register other than a knot's accepts its covered fields, from the last of its map to the first, and LINK_VC_CFG and
LANE_TX_EQ are then fitted (R112, R349, R366). -/
theorem writeReg_fields (h : locate off = some (f, i)) (knot : f ≠ .knotCfg) (v m : Nat) (s : State) :
    writeReg off v m s =
      let t := ((fieldsOf f i).filter (fun x => x.acc == .rw && covered m x)).foldr
        (fun x s => acceptField f i off x (clampField s f i off x.lo (bits v x.lo x.w)) s) s
      if f = .vcCfg then fitPools i off t else if f = .laneEq then fitTaps i off t else t := by
  rw [writeReg, h]
  split
  · contradiction
  · next heq => cases heq; exact absurd rfl knot
  · next heq => cases heq; simp only [List.filter_reverse, List.foldl_reverse]

end

/-- The four cases of REGISTER_WRITE are those of `writeReg`: no register, the fields of one, a knot's register, no field. -/
theorem claimRegisterWriteAcceptsCoveredFields : ClaimRegisterWriteAcceptsCoveredFields := by
  refine ⟨fun off v m s unlocated => ?_, fun off v m i f x s reg only => ⟨fun knot vc lane => ?_, fun vc => ?_, fun lane => ?_⟩,
    fun off v m i s reg => ?_, fun off v m i f s reg knot vc lane nothing => ?_⟩ <;> rw [exec_registerWrite]
  · rw [writeReg_of_locate_none unlocated]
  · rw [writeReg_fields reg knot, only]; simp [vc, lane]
  · subst vc; rw [writeReg_fields reg (by decide), only]; simp
  · subst lane; rw [writeReg_fields reg (by decide), only]; simp
  · rw [writeReg_knot reg]
  · rw [writeReg_fields reg knot, nothing]; simp [vc, lane]

section
variable {f : RegFam} {i off v : Nat} {x : Fld} {s : State}

/-- A changed value of a LIVE field waits for the next mark (R15). -/
theorem acceptField_live (live : x.cls = .live) (new : v ≠ getField off x.lo x.reset s) :
    acceptField f i off x v s = { s with waiting := otherWrites s off x.lo ++
      [{ offset := off, lo := x.lo, value := v, cls := .live, at_ := lmc s + 1 }] } := by
  simp only [acceptField, live, if_neg new]

/-- An EDGE or HELD field asks whether its block is idle (R17). -/
theorem acceptField_of_not_live (live : x.cls ≠ .live) : acceptField f i off x v s =
    if alwaysIdle f x.lo || blockIdle s f i then applyField f i off x v { s with waiting := otherWrites s off x.lo }
    else if v = getField off x.lo x.reset s then { s with waiting := otherWrites s off x.lo }
    else { s with waiting := otherWrites s off x.lo ++
      [{ offset := off, lo := x.lo, value := v, cls := x.cls, at_ := lmc s + 1 }] } := by
  unfold acceptField
  split
  · contradiction
  · rfl

end

theorem claimFieldClasses : ClaimFieldClasses := by
  refine fun f i off v x s => ⟨acceptField_live, fun live idle => ?_, fun live busy always new => ?_⟩
  · rw [acceptField_of_not_live live, idle, Bool.or_true, if_pos rfl]
  · rw [acceptField_of_not_live live, busy, always, Bool.or_false, if_neg Bool.false_ne_true, if_neg new]

/-- Settles O19, from what a register write accepts and from how a field accepts a value. -/
theorem registerWritesAreAccepted : Obligations.RegisterWritesAreAccepted :=
  ⟨claimRegisterWriteAcceptsCoveredFields, claimFieldClasses⟩

/-! ### Boundaries (R15, R16) -/

theorem exec_liveWriteApply (off lo : Nat) (s : State) :
    exec (.liveWriteApply off lo) s = .next (applyWaiting off lo .live (fun _ _ w => w.at_ ≤ lmc s) s) := rfl

theorem exec_edgeWriteApply (off lo : Nat) (s : State) :
    exec (.edgeWriteApply off lo) s = .next (applyWaiting off lo .edge (fun _ _ _ => true) s) := rfl

theorem exec_heldWriteApply (off lo : Nat) (s : State) :
    exec (.heldWriteApply off lo) s = .next (applyWaiting off lo .held (fun f i _ => blockIdle s f i) s) := rfl

/-- A write that waits for a field takes effect when it is ready, and goes on waiting before. -/
theorem applyWaiting_of_waits {off lo i : Nat} {f : RegFam} {x : Fld} {w : WaitingWrite} {s : State} {cls : FClass}
    (reg : locate off = some (f, i)) (fld : fieldAt f i lo = some x)
    (waits : s.waiting.find? (fun w => w.offset == off && w.lo == lo && w.cls == cls) = some w)
    (ready : RegFam → Nat → WaitingWrite → Bool) : applyWaiting off lo cls ready s =
      if ready f i w then applyField f i off x w.value { s with waiting := otherWrites s off lo } else s := by
  simp only [applyWaiting, waits, reg, fld]

/-- Settles O20: the three commands differ in the class and in when its write is ready. -/
theorem waitingWritesTakeEffect : Obligations.WaitingWritesTakeEffect := by
  intro off lo i f x w s reg fld
  refine ⟨fun waits => ?_, fun waits => ?_, fun waits => ?_⟩
  · rw [exec_liveWriteApply, applyWaiting_of_waits reg fld waits]; simp only [decide_eq_true_eq]
  · rw [exec_edgeWriteApply, applyWaiting_of_waits reg fld waits, if_pos rfl]
  · rw [exec_heldWriteApply, applyWaiting_of_waits reg fld waits]

end Sys2Proof.Machine

/-! PROOFS. Fabric time (section 02): the mark that an idle device passes, the updates of the timing master, and the timing
states and windows. -/
namespace Sys2Proof.Machine

/-! ### The ports' counts and the loads, at a mark (R384, R399) -/

/-- Every port's running counts take in a mark. -/
def congested (s : State) : State := s.link.ports.foldl (fun s e => congestionMark e.1 e.2 s) s

theorem marked_eq (s : State) : marked s = slicesMark (clockMark (endLoads (congested s))) := rfl

/-- The ports' counts are all that it changes. -/
theorem congested_eq_withCong (s : State) : congested s = { s with sw.cong := (congested s).sw.cong } :=
  have kept : { congested s with sw.cong := s.sw.cong } = s :=
    foldl_keeps (fun u => { u with sw.cong := s.sw.cong }) (fun u (e : Nat × Port) => congestionMark e.1 e.2 u) (fun _ _ => rfl) _ s
  congrArg (fun u : State => { u with sw.cong := (congested s).sw.cong }) kept

theorem enqueue_haltSt (p q : Nat) (k : TxPkt) (s : State) : (enqueue p q k s).halt.st = s.halt.st := by
  unfold enqueue
  split <;> rfl

theorem sendKcp_haltSt (path : Path) (p : KcpPkt) (s : State) : (sendKcp path p s).halt.st = s.halt.st := by
  unfold sendKcp
  repeat' split
  all_goals simp only [emit_frame, enqueue_haltSt]

/-- A reply changes neither the commands that run nor the stop. -/
theorem reply_keeps_running_and_stop (i t q o : Nat) (c : Bool) (b : List Byte) (s : State) :
    (reply i t q o c b s).kcp.running = s.kcp.running ∧ (reply i t q o c b s).halt.st = s.halt.st := by
  simp only [reply]
  split
  · cases c <;> exact ⟨rfl, rfl⟩
  · cases c <;> simp [modSession, sendKcp_haltSt]

theorem finish_running (r : Running) (st : Nat) (b : List Byte) (s : State) : (finish r st b s).kcp.running =
    s.kcp.running.filter (fun x => !(x.session == r.session && x.seq == r.seq && x.opcode == r.opcode)) :=
  (reply_keeps_running_and_stop ..).1

theorem finish_haltSt (r : Running) (st : Nat) (b : List Byte) (s : State) : (finish r st b s).halt.st = s.halt.st :=
  (reply_keeps_running_and_stop ..).2

/-- What runs after commands have finished ran before and is none of them. -/
theorem of_mem_running_foldl_finish {x : Running} {st : Nat} {b : List Byte} : ∀ {l : List Running} {s : State},
    x ∈ (l.foldl (fun s r => finish r st b s) s).kcp.running → x ∈ s.kcp.running ∧ x ∉ l
  | [], _, h => ⟨h, List.not_mem_nil⟩
  | r :: l, s, h => by
    obtain ⟨runs, notLater⟩ := of_mem_running_foldl_finish (l := l) h
    rw [finish_running, List.mem_filter] at runs
    refine ⟨runs.1, fun hx => ?_⟩
    rcases List.mem_cons.mp hx with rfl | later
    · simp at runs
    · exact notLater later

/-- A load that runs ends at the mark. -/
theorem endLoads_running {s : State} {r : Running} (h : r ∈ (endLoads s).kcp.running) : r.wait ≠ .load 0 ∧ r.wait ≠ .load 1 := by
  obtain ⟨runs, notLoad⟩ := of_mem_running_foldl_finish h
  simpa [List.mem_filter, runs] using notLoad

theorem endLoads_time (s : State) : (endLoads s).time = s.time := foldl_keeps (·.time) _ (by simp) _ _

theorem endLoads_haltSt (s : State) : (endLoads s).halt.st = s.halt.st :=
  foldl_keeps (·.halt.st) _ (fun _ _ => finish_haltSt ..) _ _

theorem endLoads_of_no_load {s : State} (h : ∀ r ∈ s.kcp.running, r.wait ≠ .load 0 ∧ r.wait ≠ .load 1) : endLoads s = s := by
  have none : s.kcp.running.filter (fun r => r.wait == .load 0 || r.wait == .load 1) = [] := by
    simpa [List.filter_eq_nil_iff] using h
  rw [endLoads, none, List.foldl_nil]

theorem stopped_congr {s t : State} (h : t.halt.st = s.halt.st) : stopped t = stopped s := by
  simp only [stopped, h]

/-! ### The strand slices, at a mark (R407, R410) -/

theorem claimMarks_frame (st b : Nat) (s : State) :
    (claimMarks st b s).time = s.time ∧ (claimMarks st b s).kcp = s.kcp := by
  unfold claimMarks
  split <;> exact ⟨rfl, rfl⟩

theorem payOne_frame (st : Nat) (s : State) : (payOne st s).time = s.time ∧ (payOne st s).kcp = s.kcp := by
  unfold payOne
  dsimp only
  split <;> exact ⟨rfl, rfl⟩

/-- A slice's mark touches neither the time nor the commands. -/
theorem sliceMark_frame (st : Nat) (s : State) : (sliceMark st s).time = s.time ∧ (sliceMark st s).kcp = s.kcp := by
  unfold sliceMark
  dsimp only
  split
  · exact ⟨rfl, rfl⟩
  · simp only [payOne_frame]
    constructor
    · refine foldl_keeps (·.time) _ (fun u e => ?_) _ _
      split <;> simp only [claimMarks_frame]
    · refine foldl_keeps (·.kcp) _ (fun u e => ?_) _ _
      split <;> simp only [claimMarks_frame]

theorem slicesMark_frame (s : State) : (slicesMark s).time = s.time ∧ (slicesMark s).kcp = s.kcp :=
  ⟨foldl_keeps (·.time) _ (fun _ _ => (sliceMark_frame ..).1) _ _, foldl_keeps (·.kcp) _ (fun _ _ => (sliceMark_frame ..).2) _ _⟩

/-- What a table reads at a key is one of its entries, or the default. -/
theorem tget_mem_or_default {α : Type} (d : α) (i : Nat) : ∀ t : Tbl α, (i, tget d t i) ∈ t ∨ tget d t i = d
  | [] => .inr rfl
  | (k, v) :: t => by
    rw [tget]
    split
    · next same => subst same; exact .inl (List.mem_cons_self ..)
    · exact (tget_mem_or_default d i t).imp_left (List.mem_cons_of_mem _)

/-- No strand owes a refresh, and none waits. -/
def NothingOwed (s : State) : Prop := ∀ e ∈ s.mem.strands, ∀ b ∈ e.2.banks, b.2.lag = 0 ∧ b.2.waiting = []

theorem NothingOwed.bank {s : State} (h : NothingOwed s) (st : Nat) : ∀ b ∈ (strandOf s st).banks, b.2.lag = 0 ∧ b.2.waiting = [] := by
  rcases tget_mem_or_default {} st s.mem.strands with listed | unlisted
  · exact h _ listed
  · intro b hb
    rw [strandOf, unlisted] at hb
    cases hb

theorem payOne_of_nothingOwed {s : State} (h : NothingOwed s) (st : Nat) : payOne st s = s := by
  have none : (strandOf s st).banks.filter (fun e => e.2.lag != 0 && bankFree s st e.1) = [] :=
    List.filter_eq_nil_iff.mpr fun b hb => by simp [(h.bank st b hb).1]
  simp only [payOne, none, List.foldl_nil]

theorem foldl_of_fixed {α β : Type} {f : α → β → α} {a : α} : ∀ {l : List β}, (∀ b ∈ l, f a b = a) → l.foldl f a = a
  | [], _ => rfl
  | b :: l, h => by
    rw [List.foldl_cons, h b (List.mem_cons_self ..)]
    exact foldl_of_fixed fun c hc => h c (List.mem_cons_of_mem _ hc)

theorem sliceMark_of_nothingOwed {s : State} (h : NothingOwed s) (st : Nat) : sliceMark st s = s := by
  have claimed : (strandOf s st).banks.foldl
      (fun u e => if e.2.waiting.any (fun w => w.2 + 64 ≤ lmc u) then claimMarks st e.1 u else u) s = s :=
    foldl_of_fixed fun b hb => by simp [(h.bank st b hb).2]
  simp only [sliceMark, claimed, payOne_of_nothingOwed h, ite_self]

theorem slicesMark_of_nothingOwed {s : State} (h : NothingOwed s) (claims : s.coh.claims = []) : slicesMark s = s := by
  have dropped : dropClaims (fun c => c.2.2 < lmc s) s = s := by
    rw [dropClaims, claims, List.filter_nil, ← claims]
  rw [slicesMark, dropped]
  exact foldl_of_fixed fun e _ => sliceMark_of_nothingOwed h e.1

/-! ### The mark of an idle device (R39, R52, R495) -/

/-- The clocks are all that a mark's blocks change of the time. -/
theorem marked_time (s : State) : (marked s).time = { s.time with
    lmc := s.time.lmc + 1, pos := s.time.pos + markRate s.time,
    stopped := if stopped s then s.time.stopped + 1 else s.time.stopped } := by
  have time : (endLoads (congested s)).time = s.time := by rw [endLoads_time, congested_eq_withCong]
  have halt : stopped (endLoads (congested s)) = stopped s :=
    stopped_congr (by rw [endLoads_haltSt, congested_eq_withCong])
  rw [marked_eq, (slicesMark_frame _).1]
  simp only [clockMark, time, halt]

theorem marked_running {s : State} {r : Running} (h : r ∈ (marked s).kcp.running) : r.wait ≠ .load 0 ∧ r.wait ≠ .load 1 := by
  rw [marked_eq, (slicesMark_frame _).2] at h
  exact endLoads_running h

/-- In a still device the clocks and the ports' counts alone go on. -/
theorem marked_of_still {s : State} (still : Still s) :
    marked s = { s with time := (clockMark s).time, sw.cong := (congested s).sw.cong } := by
  obtain ⟨noLoad, -, -, claims, owed⟩ := still
  have loads : endLoads (congested s) = congested s := endLoads_of_no_load (by rw [congested_eq_withCong]; exact noLoad)
  rw [marked_eq, loads, congested_eq_withCong]
  exact slicesMark_of_nothingOwed owed claims

/-- A check that finds every invariant of R495 true forgets what it has found before. -/
theorem auditMark_of_sound {s : State} (sound : auditNow s = []) :
    auditMark s = { s with err.audited := [], err.auditDone := [] } := by
  have forgotten : s.err.auditDone.filter (fun x => ([] : List (Nat × Nat)).contains x) = [] := by simp
  simp only [auditMark, sound, List.filter_nil, List.foldl_nil, List.append_nil, forgotten]

theorem tick_of_held {s : State} (held : heldInReset s = true) : tick s = s := if_pos held

/-- An idle device that runs ends its mark with a boundary. -/
theorem tick_eq_boundary {s : State} (runs : heldInReset s = false) : tick s = boundary (auditMark
    ((marked s).err.partitionDue.foldl (fun s q => rung3 2 q s) { marked s with err.partitionDue := [] })) := by
  rw [tick, runs, if_neg Bool.false_ne_true]

theorem tick_of_nothingDue {s : State} (runs : heldInReset s = false) (due : (marked s).err.partitionDue = [])
    (sound : auditNow (marked s) = []) :
    tick s = boundary { marked s with err.audited := [], err.auditDone := [] } := by
  have undue : { marked s with err.partitionDue := [] } = marked s := by rw [← due]
  rw [tick_eq_boundary runs, due, List.foldl_nil, undue, auditMark_of_sound sound]

theorem boundary_boundary (s : State) : boundary (boundary s) = boundary s := rfl

/-- Settles O2: the mark of an idle device runs its blocks, checks the invariants, and shows what has changed. -/
theorem emptyQueuePassesOneMark : Obligations.EmptyQueuePassesOneMark := by
  intro s idle
  have mark : step s = .next (tick s) := by rw [step, idle]
  refine ⟨fun held => by rw [mark, tick_of_held held], fun runs => ⟨tick s, mark, ?_, fun due sound => ?_, fun still => ?_⟩⟩
  · rw [tick_eq_boundary runs, boundary_boundary]
  · rw [tick_of_nothingDue runs due sound]
    simp only [boundary, marked_time]
    refine ⟨trivial, rfl, ?_, fun r => marked_running⟩
    split <;> rfl
  · have clocked := marked_of_still still
    obtain ⟨-, due, sound, -, -⟩ := still
    rw [tick_of_nothingDue runs (by rw [clocked]; exact due) (by rw [clocked]; exact sound), clocked]
    rfl

/-! ### Updates by timing blocks (R54 to R59) -/

/-- A block that is not a sound timing block of the selected port moves nothing. -/
theorem exec_timingBlockReceived_ignored {port : Nat} {w : Blk} {bad : Bool} {s : State}
    (ignored : serving s = false ∨ timeSrc s ≠ 1 ∨ port ≠ timeSrcPort s ∨ bad = true ∨ isType w typeTIMING = false ∨
      carriesBlocks s port = false) : exec (.timingBlockReceived port w bad) s = .next s := by
  refine if_pos ?_
  rcases ignored with h | h | h | h | h | h <;> simp [h]

/-- A block whose piece fits the high word that has been built, from a source that is LOCKED, is an update. -/
theorem exec_timingBlockReceived_update {w : Blk} {s : State} {h : Nat} (serves : serving s = true) (src : timeSrc s = 1)
    (carries : carriesBlocks s (timeSrcPort s) = true) (timing : isType w typeTIMING = true) (high : s.time.rxHigh = some h)
    (noWrap : s.time.rxLo.getD 0 ≤ (readTiming w).fmtLo) (sel : (readTiming w).pieceSel < 3)
    (piece : (readTiming w).piece = pieceOf h (readTiming w).pieceSel) (state : (readTiming w).state = 1) :
    exec (.timingBlockReceived (timeSrcPort s) w false) s =
      .next (timeUpdate (256 * (h * 2 ^ 32 + (readTiming w).fmtLo) + (readTiming w).fraction + linkDelay s) false
        { s with time.rxLo := some (readTiming w).fmtLo, time.rxHigh := some h }) := by
  have known : (3 ≤ (readTiming w).pieceSel || (readTiming w).piece != pieceOf h (readTiming w).pieceSel) = false := by
    simp [piece, sel]
  simp only [exec, execTimingBlockReceived, serves, src, carries, timing, high, if_pos noWrap, known, state, Bool.not_true,
    bne_self_eq_false, Bool.or_self, Bool.false_and, Bool.false_eq_true, if_false]
  rfl

/-- An update is this far from FMT, in the units of its position. -/
def timeError (v : Nat) (s : State) : Nat := ((fracUnit * v : Nat) - (s.time.pos : Int)).natAbs

/-- The state in which an update is judged: it counts for the next one's prediction. -/
def updateSeen (v : Nat) (s : State) : State :=
  { s with time.prevUpd := some (v, lmc s), time.goodRun := if consistent s v then s.time.goodRun + 1 else 1 }

theorem decided_of_undecided {t : TimeSt} (undecided : t.next = none) : decided t = t.st := by rw [decided, undecided]; rfl

/-- In LOCKED an update is accepted or rejected by STEP_LIMIT alone (R55). -/
theorem timeUpdate_of_locked {s : State} (locked : decided s.time = .locked) (v : Nat) (holdover : Bool) :
    timeUpdate v holdover s = if timeError v s ≤ posUnit * stepLimit s then acceptUpdate holdover (updateSeen v s)
      else rejectUpdate (consistent s v) (updateSeen v s) := by
  simp only [decided] at locked
  simp only [timeUpdate, decided, locked]
  rfl

/-- The rate is trimmed by the draw, within the limits of R66. -/
theorem acceptUpdate_trim (holdover : Bool) (s : State) :
    -65 ≤ (acceptUpdate holdover s).time.trim ∧ (acceptUpdate holdover s).time.trim ≤ 65 := by
  have trim : (acceptUpdate holdover s).time.trim = (Config.free s.draws % 131 : Nat) - 65 := rfl
  omega

theorem rejectUpdate_eqs (like : Bool) (s : State) : (rejectUpdate like s).time.pos = s.time.pos ∧
    (rejectUpdate like s).time.st = s.time.st ∧ (rejectUpdate like s).time.lastAccept = s.time.lastAccept ∧
    (rejectUpdate like s).time.rejects = (s.time.rejects + 1) % 65536 ∧
    rejectUpdate like s = { s with time := (rejectUpdate like s).time } := by
  unfold rejectUpdate
  dsimp only
  generalize (if (like && s.time.badRun != 0) = true then s.time.badRun + 1 else 1) = n
  split <;> exact ⟨rfl, rfl, rfl, rfl, rfl⟩

/-- What an update in LOCKED does: within STEP_LIMIT it is accepted, beyond it it is counted and rejected. -/
theorem timeUpdate_locked_effect {s : State} (locked : s.time.st = .locked) (undecided : s.time.next = none) (v : Nat) :
    let t := timeUpdate v false s
    t.time.pos = s.time.pos ∧ t.time.st = .locked ∧
    (timeError v s ≤ posUnit * stepLimit s → t.time.lastAccept = lmc s ∧ t.time.badRun = 0 ∧
      t.time.rejects = s.time.rejects ∧ -65 ≤ t.time.trim ∧ t.time.trim ≤ 65 ∧ t.time.next = none) ∧
    (posUnit * stepLimit s < timeError v s →
      t.time.lastAccept = s.time.lastAccept ∧ t.time.rejects = (s.time.rejects + 1) % 65536) ∧
    t = { s with time := t.time, draws := t.draws } := by
  have holds : decided s.time = .locked := (decided_of_undecided undecided).trans locked
  dsimp only
  rw [timeUpdate_of_locked holds]
  split
  · next within =>
    obtain ⟨low, high⟩ := acceptUpdate_trim false (updateSeen v s)
    exact ⟨rfl, locked, fun _ => ⟨rfl, rfl, rfl, low, high, undecided⟩, fun beyond => absurd within (Nat.not_le.mpr beyond), rfl⟩
  · next beyond =>
    obtain ⟨pos, st, lastAccept, rejects, frame⟩ := rejectUpdate_eqs (consistent s v) (updateSeen v s)
    exact ⟨pos, st.trans locked, fun within => absurd within beyond, fun _ => ⟨lastAccept, rejects⟩, by rw [frame]; rfl⟩

theorem exec_timingBlockTransmit {port : Nat} {s : State} (serves : serving s = true) (carries : carriesBlocks s port = true) :
    exec (.timingBlockTransmit port) s = .next (sendControl port 0
      (timingWord (timeCode s.time.st) (fraction s) (fmt s) (tget 0 s.time.txPiece port))
      { s with time.txPiece := tset 0 s.time.txPiece port ((tget 0 s.time.txPiece port + 1) % 3) }) := by
  simp only [exec, execTimingBlockTransmit, serves, carries]
  rfl

/-! ### The best master (R60) -/

/-- The data set of a grandmaster, in the order of its comparison. -/
def masterRank (a : PtpAnn) : List Nat :=
  [a.priority1, a.clockClass, a.accuracy, a.variance, a.priority2, a.grandmaster]

/-- The better of two masters, the second where neither is. -/
def pickMaster (a b : PtpAnn) : PtpAnn := if betterMaster a b then a else b

/-- Lists are ordered by core Lean as by Mathlib: a model elaborated without Mathlib's order compares in the same way. -/
theorem coreLe_iff_le (x y : List Nat) : @LE.le (List Nat) List.instLE x y ↔ x ≤ y := not_lt

/-- Between masters of distinct grandmasters the grandmasters' data sets decide. -/
theorem betterMaster_iff_rank {a b : PtpAnn} (distinct : a.grandmaster = b.grandmaster → a = b) :
    betterMaster a b = true ↔ masterRank a ≤ masterRank b := by
  by_cases same : a.grandmaster = b.grandmaster
  · obtain rfl := distinct same
    simp [betterMaster]
  · simp [betterMaster, same, masterRank, coreLe_iff_le]

/-- No two masters announce the same grandmaster. -/
def DistinctGrandmasters (l : List PtpAnn) : Prop := ∀ x ∈ l, ∀ y ∈ l, x.grandmaster = y.grandmaster → x = y

theorem pickMaster_mem (a b : PtpAnn) : pickMaster a b = a ∨ pickMaster a b = b := by
  unfold pickMaster
  split
  · exact .inl rfl
  · exact .inr rfl

theorem pickMaster_rank_le {a b : PtpAnn} (distinct : a.grandmaster = b.grandmaster → a = b) :
    masterRank (pickMaster a b) ≤ masterRank a ∧ masterRank (pickMaster a b) ≤ masterRank b := by
  have better := betterMaster_iff_rank distinct
  unfold pickMaster
  split
  · next h => exact ⟨le_refl _, better.mp h⟩
  · next h => exact ⟨(le_total _ _).resolve_left (fun le => h (better.mpr le)), le_refl _⟩

theorem foldl_pickMaster_mem : ∀ (r : List PtpAnn) (a : PtpAnn), r.foldl pickMaster a ∈ a :: r
  | [], a => List.mem_cons_self ..
  | c :: r, a => by
    rw [List.foldl_cons]
    rcases List.mem_cons.mp (foldl_pickMaster_mem r (pickMaster a c)) with first | later
    · rw [first]
      rcases pickMaster_mem a c with pick | pick <;> simp [pick]
    · exact List.mem_cons_of_mem _ (List.mem_cons_of_mem _ later)

theorem foldl_pickMaster_rank_le : ∀ {r : List PtpAnn} {a : PtpAnn}, DistinctGrandmasters (a :: r) →
    ∀ b ∈ a :: r, masterRank (r.foldl pickMaster a) ≤ masterRank b
  | [], a, _, b, hb => by rw [List.mem_singleton.mp hb]; exact le_refl _
  | c :: r, a, distinct, b, hb => by
    obtain ⟨leA, leC⟩ := pickMaster_rank_le (distinct a (by simp) c (by simp))
    have among : ∀ x ∈ pickMaster a c :: r, x ∈ a :: c :: r := by
      rcases pickMaster_mem a c with pick | pick <;> simp +contextual [pick]
    have later := foldl_pickMaster_rank_le (r := r) (a := pickMaster a c) fun x hx y hy => distinct x (among x hx) y (among y hy)
    have first := later _ (List.mem_cons_self ..)
    rcases List.mem_cons.mp hb with rfl | hb
    · exact first.trans leA
    · rcases List.mem_cons.mp hb with rfl | hb
      · exact first.trans leC
      · exact later b (List.mem_cons_of_mem _ hb)

/-- The selected master is one of those heard, and where their grandmasters differ none of them is better (R60). -/
theorem ptpMaster_best {s : State} {a : PtpAnn} (selected : ptpMaster s = some a) : a ∈ mastersHeard s ∧
    (DistinctGrandmasters (mastersHeard s) → ∀ b ∈ mastersHeard s, betterMaster a b = true) := by
  obtain ⟨x, r, heard, rfl⟩ : ∃ x r, mastersHeard s = x :: r ∧ r.foldl pickMaster x = a := by
    unfold ptpMaster at selected
    split at selected
    · cases selected
    · next x r heard => exact ⟨x, r, heard, Option.some.inj selected⟩
  rw [heard]
  have listed := foldl_pickMaster_mem r x
  exact ⟨listed, fun distinct b hb => (betterMaster_iff_rank (distinct _ listed b hb)).mpr (foldl_pickMaster_rank_le distinct b hb)⟩

/-! ### PTP (R60 to R63) -/

/-- A field of an interrupt source, which no other register's field shares, is the only one that a firing writes. -/
theorem getField_fire {off lo r src : Nat} (other : lo % 32 ≠ 16) (s : State) : getField off lo r (fire src s) = getField off lo r s := by
  have key : fkey off lo ≠ fkey (0x000F4000 + 4 * src) 16 := by unfold fkey; omega
  have fired : (fire src s).fields = (sat (0x000F4000 + 4 * src) 16 16 1 s).fields := rfl
  rw [getField, getField, fired, sat, setField]
  dsimp only
  unfold tset
  split
  · exact tget_tdel_ne _ _ _ _ key
  · exact tget_tput_ne _ _ _ _ _ key

section
variable (src port : Nat) (s : State)

/-- The interrupt of a PTP message changes none of the fields that select its source. -/
theorem timeSource_fire : timeSrc (fire src s) = timeSrc s ∧ ptpDomain (fire src s) = ptpDomain s ∧
    ptpTransport (fire src s) = ptpTransport s ∧ ptpEpoch (fire src s) = ptpEpoch s :=
  ⟨getField_fire (by decide) s, getField_fire (by decide) s, getField_fire (by decide) s,
    congrArg₂ (· + 0x100000000 * ·) (getField_fire (by decide) s) (getField_fire (by decide) s)⟩

theorem mastersHeard_fire : mastersHeard (fire src s) = mastersHeard s := by
  simp only [mastersHeard, timeSource_fire, lmc, fire_frame]
  rfl

theorem fromMaster_fire (domain transport identity : Nat) :
    fromMaster (fire src s) port domain transport identity = fromMaster s port domain transport identity := by
  simp only [fromMaster, ptpTakes, ptpMaster, timeSource_fire, mastersHeard_fire]

theorem ethMac_fire : ethMac (fire src s) port = ethMac s port := by
  simp (disch := decide) only [ethMac, getField_fire]

theorem ptpFrame_fire (mac ip : Nat) : ptpFrame (fire src s) port mac ip = ptpFrame s port mac ip := by
  simp (disch := decide) only [ptpFrame, ethFrame, sourceIp, ethIpv6, ethVid, timeSource_fire, ethMac_fire, getField_fire]
  rfl

end

/-- What the client keeps of a Sync that has just arrived. -/
def syncSeen (identity seq : Nat) (s : State) : PtpSync := { identity := identity, seq := seq, received := ptpClock s }

/-- The state in which a Sync has been answered with a Delay_Req to its sender. -/
def delayAsked (port identity seq mac ip : Nat) (s : State) : State :=
  emit (.ptpDelayReq port (ethMac s port) mac ((s.time.ptp.requestSeq + 1) % 65536) (ptpFrame s port mac ip))
    { s with time.ptp.requestSeq := (s.time.ptp.requestSeq + 1) % 65536, time.ptp.requestAt := some (ptpClock s),
             time.ptp.lastSync := some (syncSeen identity seq s) }

theorem ptpTime_before_epoch {s : State} {sec : Nat} (before : sec < ptpEpoch s) (ns : Nat) : ptpTime s sec ns = none :=
  if_pos before

theorem ptpUpdate_before_epoch {s : State} {sec : Nat} (before : sec < ptpEpoch s) (y : PtpSync) (ns : Nat) :
    ptpUpdate y sec ns s = { s with time.rejects := (s.time.rejects + 1) % 65536 } := by
  simp only [ptpUpdate, ptpTime_before_epoch before]

theorem ptpDelay_before_epoch {s : State} {sec : Nat} (before : sec < ptpEpoch s) (ns : Nat) :
    ptpDelay sec ns s = { s with time.rejects := (s.time.rejects + 1) % 65536 } := by
  simp only [ptpDelay, ptpTime_before_epoch before]

section
variable {port d tr idn : Nat} {s : State} (serves : serving s = true) (up : ethUp s port = true)
include serves up

theorem exec_ptpMessage_announce (takes : ptpTakes s port d tr = true) (a : PtpAnn) :
    exec (.ptpMessage port (.announce d tr a)) s =
      let old := s.time.ptp.masters.filter (fun x => x.1.identity != a.identity || x.1.portNumber != a.portNumber || x.2.1 != port)
      .next { s with time.ptp.masters := old ++ [(a, port, lmc s)] } := by
  simp only [exec, execPtpMessage, serves, up, takes, Bool.not_true, Bool.or_self, Bool.false_eq_true, if_false]

/-- A one-step Sync of the master fires the port's source, is answered, and becomes an update. -/
theorem exec_ptpMessage_sync (master : fromMaster s port d tr idn = true) (q sec ns mac ip : Nat) :
    exec (.ptpMessage port (.sync d tr idn q false sec ns mac ip)) s =
      let u := fire (if port = 0 then 43 else 555) s
      .next (ptpUpdate (syncSeen idn q u) sec ns (delayAsked port idn q mac ip u)) := by
  simp only [exec, execPtpMessage, serves, up, fromMaster_fire, master, Bool.not_true, Bool.or_self, Bool.false_eq_true, if_false]
  rfl

/-- A Delay_Resp to the last Delay_Req, from the sender of the last Sync, is taken. -/
theorem exec_ptpMessage_delayResp (master : fromMaster s port d tr idn = true) {y : PtpSync} (sync : s.time.ptp.lastSync = some y)
    (sender : y.identity = idn) (sec ns : Nat) :
    exec (.ptpMessage port (.delayResp d tr idn s.time.ptp.requestSeq sec ns)) s = .next (ptpDelay sec ns s) := by
  simp only [exec, execPtpMessage, serves, up, master, sync, sender, Bool.not_true, Bool.or_self, Bool.false_eq_true, if_false,
    Option.map_some, beq_self_eq_true, decide_true, Bool.and_self, if_true]

end

/-- A Sync from before the epoch is answered, rejected and counted (R63). -/
theorem sync_before_epoch_effect {s : State} {sec : Nat} (before : sec < ptpEpoch s) (src port idn q ns mac ip : Nat) :
    let t := ptpUpdate (syncSeen idn q (fire src s)) sec ns (delayAsked port idn q mac ip (fire src s))
    t.time.rejects = (s.time.rejects + 1) % 65536 ∧ t.time.pos = s.time.pos ∧ t.time.lastAccept = s.time.lastAccept ∧
    t.out = .ptpDelayReq port (ethMac s port) mac ((s.time.ptp.requestSeq + 1) % 65536) (ptpFrame s port mac ip) :: s.out := by
  have early : sec < ptpEpoch (delayAsked port idn q mac ip (fire src s)) := (timeSource_fire src s).2.2.2.symm ▸ before
  dsimp only
  rw [ptpUpdate_before_epoch early, ← ethMac_fire src, ← ptpFrame_fire src]
  exact ⟨rfl, rfl, rfl, rfl⟩

/-- A complete exchange gives the path delay from its master (R61). -/
theorem ptpDelay_of_exchange {s : State} {y : PtpSync} {t1 t4 left sec ns : Nat} (sync : s.time.ptp.lastSync = some y)
    (origin : y.origin = some t1) (asked : s.time.ptp.requestAt = some left) (arrived : ptpTime s sec ns = some t4) :
    ptpDelay sec ns s = { s with time.ptp.delay := some (y.identity, (t4 - t1 - (left - y.received)) / 2),
                                 time.ptp.requestAt := none } := by
  simp only [ptpDelay, sync, asked, arrived, origin]

/-! ### The timing states (R66, R68) -/

theorem exec_holdoverEntry {s : State} (locked : s.time.st = .locked) (undecided : s.time.next = none) :
    exec .holdoverEntry s = .next
      (if s.time.lastAccept + 16 * gapLimit s ≤ lmc s then timeoutDecides .holdover s else s) := by
  simp only [exec, execHoldoverEntry, decided_of_undecided undecided, locked, decide_true, Bool.true_and, decide_eq_true_eq]

theorem exec_holdoverExpiry {s : State} (holdover : s.time.st = .holdover) (undecided : s.time.next = none)
    (expired : s.time.lastAccept + watch ≤ lmc s) :
    exec .holdoverExpiry s = .next (timeoutDecides .lost { s with time.goodRun := 0, time.badRun := 0 }) := by
  simp only [exec, execHoldoverExpiry, decided_of_undecided undecided, holdover, decide_true, Bool.true_and, expired, if_true]

/-- What a change of state makes of the time itself (R68): admission is to open at the next window boundary, or closes. -/
def stateEntered (n : TState) (t : TimeSt) : TimeSt :=
  match n with
  | .locked => { t with st := n, openAtWindow := if t.st = .unset ∨ t.st = .lost then true else t.openAtWindow }
  | .holdover => { t with st := n, srcHoldover := false }
  | .lost => { t with st := n, srcHoldover := false, openAtWindow := false, admitOpen := false }
  | .unset => { t with st := n }

theorem stateEntered_eqs (n : TState) (t : TimeSt) : (stateEntered n t).st = n ∧ (stateEntered n t).next = t.next ∧
    (stateEntered n t).pos = t.pos ∧ (stateEntered n t).admitOpen = (if n = .lost then false else t.admitOpen) := by
  cases n <;> exact ⟨rfl, rfl, rfl, rfl⟩

theorem stateEntered_locked_openAtWindow {t : TimeSt} (noTime : t.st = .unset ∨ t.st = .lost) :
    (stateEntered .locked t).openAtWindow = true := if_pos noTime

/-- The interrupt, the event and the record of a change of state touch neither the time nor the memory. -/
theorem enterTime_frame (n : TState) (s : State) : (enterTime n s).time = stateEntered n s.time ∧ (enterTime n s).mem = s.mem := by
  cases n with
  | locked =>
    by_cases noTime : s.time.st = .unset ∨ s.time.st = .lost <;> simp [enterTime, stateEntered, noTime]
  | unset | holdover | lost => simp [enterTime, stateEntered, recordError]

theorem exec_timeStateChange_early {s : State} {n : TState} (next : s.time.next = some n) (early : fmt s < s.time.nextAt) :
    exec .timeStateChange s = .next s := by
  simp only [exec, execTimeStateChange, next, early, if_true]

theorem exec_timeStateChange_due {s : State} {n : TState} (next : s.time.next = some n) (change : n ≠ s.time.st)
    (due : s.time.nextAt ≤ fmt s) :
    exec .timeStateChange s = .next (boundary (enterTime n { s with time.next := none })) := by
  simp only [exec, execTimeStateChange, next, if_neg (Nat.not_lt.mpr due), if_neg change]

/-- At its boundary what has been decided takes effect (R68). -/
theorem enterTime_effect (n : TState) (s : State) :
    let t := boundary (enterTime n { s with time.next := none })
    t.time.st = n ∧ t.time.next = none ∧ t.time.pos = s.time.pos ∧ t.mem = s.mem ∧
    t.time.admitOpen = (if n = .lost then false else s.time.admitOpen) ∧
    (n = .locked → (s.time.st = .unset ∨ s.time.st = .lost) → t.time.openAtWindow = true) := by
  obtain ⟨time, mem⟩ := enterTime_frame n { s with time.next := none }
  obtain ⟨st, next, pos, admission⟩ := stateEntered_eqs n { s.time with next := none }
  simp only [boundary, time]
  refine ⟨st, next, pos, mem, admission, fun locked noTime => ?_⟩
  subst locked
  exact stateEntered_locked_openAtWindow noTime

/-! ### Admission windows (R68, R85) -/

/-- Folding operations that write fields alone writes fields alone. -/
theorem foldl_writes_fields {β : Type} (g : State → β → State) (h : ∀ s a, g s a = { s with fields := (g s a).fields })
    (l : List β) (s : State) : l.foldl g s = { s with fields := (l.foldl g s).fields } :=
  have kept : { l.foldl g s with fields := s.fields } = s :=
    foldl_keeps (fun v => { v with fields := s.fields }) g (fun v a => by rw [h]) l s
  congrArg (fun v : State => { v with fields := (l.foldl g s).fields }) kept

/-- The end of a window changes the tenants' P1_STATS, its counts and its number alone. -/
theorem endWindow_eq (s : State) : ∃ f, endWindow s = { s with
    fields := f
    time := { s.time with winRefused := [], winAdmitted := [], window := fmt s / windowMarks } } := by
  refine ⟨(endWindow s).fields, ?_⟩
  unfold endWindow
  generalize List.range 32 = tenants
  rw [foldl_writes_fields _ (by intros; rfl)]
  rfl

/-- At a window boundary the counts begin anew, and an admission that has waited for it opens. -/
theorem windowFires_effect (s : State) :
    let t := boundary (windowFires s)
    t.time.window = fmt s / 1024 ∧ t.time.winAdmitted = [] ∧ t.time.winRefused = [] ∧
    t.time.admitOpen = (s.time.admitOpen || s.time.openAtWindow) ∧
    { t with time := s.time, fields := s.fields, shown := s.shown } = s := by
  obtain ⟨f, ended⟩ := endWindow_eq s
  simp only [windowFires, ended]
  cases waits : s.time.openAtWindow with
  | false => exact ⟨rfl, rfl, rfl, (Bool.or_false _).symm, rfl⟩
  | true => exact ⟨rfl, rfl, rfl, (Bool.or_true _).symm, rfl⟩

theorem exec_admissionWindowBoundary {s : State} (passed : fmt s / 1024 ≠ s.time.window) :
    exec .admissionWindowBoundary s = .next (boundary (windowFires s)) :=
  congrArg Host.Outcome.next (if_neg passed)

/-! ### The leader among the mark counters (R39) -/

/-- A quadrant that may lead: it is out of reset and has followed for a mark. -/
def mayLead (s : State) (q : Nat) : Bool := quadrantRuns s q && !stillFollows s q

/-- The leader is the lowest-numbered quadrant that may lead, or 4 where none may. -/
def nextLeader (s : State) : Nat := ((List.range 4).find? (mayLead s)).getD 4

theorem nextLeader_lowest (s : State) : (nextLeader s < 4 → mayLead s (nextLeader s) = true) ∧
    (∀ p, p < nextLeader s → p < 4 → mayLead s p = false) ∧ nextLeader s ≤ 4 := by
  unfold nextLeader
  cases found : (List.range 4).find? (mayLead s) with
  | none =>
    rw [List.find?_range_eq_none] at found
    exact ⟨fun h => absurd h (Nat.lt_irrefl 4), fun p _ hp => by simpa using found p hp, le_refl 4⟩
  | some q =>
    obtain ⟨leads, member, lower⟩ := List.find?_range_eq_some.mp found
    exact ⟨fun _ => leads, fun p hp _ => by simpa using lower p hp, Nat.le_of_lt (List.mem_range.mp member)⟩

theorem exec_markLeaderChange (s : State) : exec .markLeaderChange s = .next (boundary { s with
    time.leader := nextLeader s, time.following := s.time.following.filter (fun f => lmc s < f.2 + 2) }) := rfl

/-- Settles O52: each command by what it does to the time. -/
theorem fabricTimeIsKept : Obligations.FabricTimeIsKept := by
  refine ⟨fun _ _ _ _ => exec_timingBlockReceived_ignored, ?block, fun _ _ => exec_timingBlockTransmit,
    fun _ _ _ a _ serves up takes => exec_ptpMessage_announce serves up takes a, fun _ _ => ptpMaster_best, ?sync, ?delayResp, ?early,
    fun _ => exec_holdoverEntry, fun _ => exec_holdoverExpiry, ?change, ?window, ?leader⟩
  case block =>
    intro w s h serves src carries timing high noWrap sel piece state locked undecided v
    obtain ⟨pos, st, accepted, rejected, frame⟩ := timeUpdate_locked_effect
      (s := { s with time.rxLo := some (readTiming w).fmtLo, time.rxHigh := some h }) locked undecided v
    refine ⟨_, exec_timingBlockReceived_update serves src carries timing high noWrap sel piece state, pos, st, accepted, rejected, ?_⟩
    rw [frame]
  case sync =>
    intro port d tr idn q sec ns mac ip s serves up master before
    exact ⟨_, exec_ptpMessage_sync serves up master q sec ns mac ip, sync_before_epoch_effect before ..⟩
  case delayResp =>
    intro port d tr idn sec ns t1 t4 left y s serves up master sync sender origin asked arrived
    rw [exec_ptpMessage_delayResp serves up master sync sender, ptpDelay_of_exchange sync origin asked arrived, sender]
  case early =>
    intro port d tr idn sec ns y s serves up master sync sender before
    rw [exec_ptpMessage_delayResp serves up master sync sender, ptpDelay_before_epoch before]
  case change =>
    intro n s next change
    exact ⟨exec_timeStateChange_early next, fun due => ⟨_, exec_timeStateChange_due next change due, enterTime_effect n s⟩⟩
  case window =>
    intro s passed
    exact ⟨_, exec_admissionWindowBoundary passed, windowFires_effect s⟩
  case leader =>
    intro s
    obtain ⟨leads, lower, atMost⟩ := nextLeader_lowest s
    refine ⟨nextLeader s, _, exec_markLeaderChange s, fun h => ?_, fun p hp four => ?_, atMost, fun e => ?_⟩
    · simpa [mayLead] using leads h
    · simpa [mayLead, or_iff_not_imp_left] using lower p hp four
    · simp [List.mem_filter]

end Sys2Proof.Machine

/-! PROOFS. The Keakin command protocol (section 03): packets and events at their sessions, how a command is taken, sessions that
open and close, the Ethernet ports' housekeeping, and the commands that read and write registers. -/
namespace Sys2Proof.Machine

/-! ### A session by its ID (R98) -/

theorem sessionOf_id {s : State} {id : Nat} {ss : Session} (h : sessionOf s id = some ss) : ss.id = id := by
  simpa using List.find?_some h

theorem sessionOf_eq_none_iff {s : State} {id : Nat} : sessionOf s id = none ↔ id ∉ s.kcp.sessions.map (·.id) := by
  simp [sessionOf]

section
variable {f : Session → Session} (keepsId : ∀ x, (f x).id = x.id)
include keepsId

theorem modSession_ids {id : Nat} {s : State} : (modSession id f s).kcp.sessions.map (·.id) = s.kcp.sessions.map (·.id) := by
  simp only [modSession, List.map_map]
  refine List.map_congr_left fun x _ => ?_
  simp only [Function.comp_apply]
  split
  · exact keepsId x
  · rfl

/-- A change of one session shows at its ID alone. -/
theorem sessionOf_modSession (id j : Nat) (s : State) :
    sessionOf (modSession id f s) j = (sessionOf s j).map (fun x => if j = id then f x else x) := by
  have sameId : ∀ x : Session, (if x.id = id then f x else x).id = x.id := fun x => by
    split
    · exact keepsId x
    · rfl
  have found : sessionOf (modSession id f s) j = (sessionOf s j).map (fun x => if x.id = id then f x else x) := by
    simp only [sessionOf, modSession, List.find?_map, Function.comp_def, sameId]
  rw [found]
  cases known : sessionOf s j with
  | none => rfl
  | some x => simp only [Option.map_some, sessionOf_id known]

theorem sessionOf_modSession_self {s : State} {id : Nat} {ss : Session} (known : sessionOf s id = some ss) :
    sessionOf (modSession id f s) id = some (f ss) := by
  rw [sessionOf_modSession keepsId, known, Option.map_some, if_pos rfl]

end

/-! ### A packet reaches its session (R89, R95, R100, R122) -/

/-- What a verified packet makes of its session at a mark: it has taken the packet's path and its idle time begins. -/
def hears (path : Path) (p : KcpPkt) (now : Nat) (x : Session) : Session :=
  { x with path := path, lastAt := now, isOpen := x.isOpen || p.type = 0 }

section
variable (path : Path) (p : KcpPkt) (s : State)

/-- The port's interrupt source and the session are all that a verified packet has changed before it is sorted. -/
theorem heard_frame : (heard path p s).kcp = (modSession p.session (hears path p (lmc s)) s).kcp ∧
    (heard path p s).out = s.out ∧ (heard path p s).mem = s.mem ∧ (heard path p s).bind = s.bind ∧
    (heard path p s).eng = s.eng := by
  cases path <;> exact ⟨rfl, rfl, rfl, rfl, rfl⟩

theorem heard_ring : (heard path p s).kcp.ring = s.kcp.ring ∧ (heard path p s).kcp.running = s.kcp.running := by
  rw [(heard_frame path p s).1]
  exact ⟨rfl, rfl⟩

theorem sessionOf_heard (j : Nat) : sessionOf (heard path p s) j =
    (sessionOf s j).map (fun x => if j = p.session then hears path p (lmc s) x else x) := by
  rw [← sessionOf_modSession (f := hears path p (lmc s)) (fun _ => rfl), sessionOf, (heard_frame path p s).1, sessionOf]

theorem sessionOf_heard_self {ss : Session} (known : sessionOf s p.session = some ss) :
    sessionOf (heard path p s) p.session = some (hears path p (lmc s) ss) := by
  rw [sessionOf_heard, known, Option.map_some, if_pos rfl]

theorem orderedReady_heard (x : Session) (n : Nat) : orderedReady (heard path p s) x n = orderedReady s x n := by
  simp only [orderedReady, heard_ring]

theorem ringHeld_heard (t : Nat) : ringHeld (heard path p s) t = ringHeld s t := by
  simp only [ringHeld, heard_ring]

/-- An entry is ready by its session's ID and next number, which a packet does not change. -/
theorem entryReady_heard (e : RingEntry) : entryReady (heard path p s) e = entryReady s e := by
  simp only [entryReady, sessionOf_heard]
  cases sessionOf s e.pkt.session with
  | none => rfl
  | some x =>
    simp only [Option.map_some, orderedReady_heard]
    split <;> rfl

theorem parkedOf_heard (id : Nat) : parkedOf (heard path p s) id = parkedOf s id := by
  simp only [parkedOf, heard_ring, entryReady_heard]

end

section
variable {path : Path} {info : Option EthInfo} {p : KcpPkt} {s : State} {ss : Session}

/-- A packet that reaches the device with its session's tag is an acknowledgement of events or a command. -/
theorem receiveKcp_of_reaches (reaches : Reaches path info p s) (known : sessionOf s p.session = some ss)
    (tag : p.tag = tagOf ss.tagKey p) : receiveKcp path info p s =
      if p.type = 3 then ackEvents p.session p.seq (heard path p s) else receiveCommand path p ss (heard path p s) := by
  obtain ⟨serves, sound, notOpen, arrives⟩ := reaches
  have command : (decide (p.opcode = 2) && decide (p.type = 0) && decide (p.session = 0)) = false := by
    simpa [and_assoc] using notOpen
  have sameId := sessionOf_id known
  cases path with
  | eth port mac ip udp =>
    cases info with
    | none => simp [receiveKcp, serves, sound, command, known, sameId, ← tag, heard, show ethUp s port = true from arrives]
    | some i =>
      obtain ⟨atPort, up, frame, addr, udpPort, prio⟩ := arrives
      simp [receiveKcp, serves, sound, command, known, sameId, ← tag, heard, atPort, up, frame, addr, udpPort, prio]
  | link port e =>
    cases info with
    | none => simp [receiveKcp, serves, sound, command, known, sameId, ← tag, heard, show linkCarries s port e = true from arrives]
    | some i => exact arrives.elim

theorem exec_kcpPacketReceived_command (reaches : Reaches path info p s) (known : sessionOf s p.session = some ss)
    (tag : p.tag = tagOf ss.tagKey p) (command : p.type = 0) :
    exec (.kcpPacketReceived path info p) s = .next (receiveCommand path p ss (heard path p s)) := by
  refine congrArg Host.Outcome.next ((receiveKcp_of_reaches reaches known tag).trans (if_neg ?_))
  omega

/-! ### A verified command at the ring (R102 to R106) -/

/-- A number that was applied is answered from the session's replies, with BUSY while it runs, or not at all. -/
theorem receiveCommand_applied (applied : wasApplied ss p.seq = true) : receiveCommand path p ss s =
    (ss.replies.find? (fun r => r.1 == p.seq)).elim
      (if s.kcp.running.any (fun r => r.session == ss.id && r.seq == p.seq) then
        reply ss.id p.tenant p.seq p.opcode false (le 4 stBUSY) s else s)
      (fun r => sendKcp path r.2 s) := by
  rw [receiveCommand, if_pos applied]
  cases ss.replies.find? (fun r => r.1 == p.seq) <;> rfl

/-- A number that waits on the ring is not placed again. -/
theorem receiveCommand_waiting (unapplied : wasApplied ss p.seq = false)
    (waits : s.kcp.ring.any (fun e => e.pkt.session == ss.id && e.pkt.seq == p.seq) = true) :
    receiveCommand path p ss s = reply ss.id p.tenant p.seq p.opcode false (le 4 stBUSY) s := by
  simp only [receiveCommand, unapplied, waits, Bool.false_eq_true, if_false, if_true]

/-- A new number in the window is placed where its tenant has room on the ring, parked where it must wait and may. -/
theorem receiveCommand_new (unapplied : wasApplied ss p.seq = false) (inWindow : p.seq ≤ ss.base + 63)
    (new : s.kcp.ring.any (fun e => e.pkt.session == ss.id && e.pkt.seq == p.seq) = false)
    (room : ringHeld s ss.tenant < ringLimit ss.tenant)
    (placeable : p.unordered = true ∨ orderedReady s ss p.seq = true ∨ parkedOf s ss.id < 16) :
    receiveCommand path p ss s = ringPlace path p ss.tenant (!(p.unordered || orderedReady s ss p.seq)) s := by
  simp only [receiveCommand, unapplied, new, Nat.not_lt.mpr inWindow, Nat.not_le.mpr room, Bool.false_eq_true, if_false]
  cases ready : p.unordered || orderedReady s ss p.seq with
  | true => rfl
  | false =>
    obtain ⟨ordered, early⟩ := Bool.or_eq_false_iff.mp ready
    have fits : parkedOf s ss.id < 16 := by simpa [ordered, early] using placeable
    simp only [Bool.false_eq_true, if_false, Nat.not_le.mpr fits, Bool.not_false]

end

theorem ringPlace_kcp (path : Path) (p : KcpPkt) (tenant : Nat) (parked : Bool) (s : State) :
    (ringPlace path p tenant parked s).kcp =
      { s.kcp with ring := s.kcp.ring ++ [{ path := path, pkt := p, tenant := tenant, parked := parked }] } := by
  unfold ringPlace
  dsimp only
  split <;> rfl

/-- Settles O10: the ring and the session are as the packet's checks found them, but for its path. -/
theorem verifiedCommandIsPlaced : Obligations.VerifiedCommandIsPlaced := by
  intro path info p s ss reaches known tag command unapplied inWindow new room placeable
  obtain ⟨-, -, mem, bind, eng⟩ := heard_frame path p s
  have placed : receiveCommand path p ss (heard path p s) =
      ringPlace path p ss.tenant (!(p.unordered || orderedReady s ss p.seq)) (heard path p s) := by
    rw [← orderedReady_heard path p]
    exact receiveCommand_new unapplied inWindow (by rwa [(heard_ring path p s).1]) (by rwa [ringHeld_heard])
      (by rwa [orderedReady_heard, parkedOf_heard])
  refine ⟨_, exec_kcpPacketReceived_command reaches known tag command, ?_⟩
  rw [placed]
  refine ⟨by rw [ringPlace_kcp, (heard_ring path p s).1],
    ⟨hears path p (lmc s) ss, ?_, rfl, by simp [hears, command], rfl, rfl, rfl⟩, by simp [mem], by simp [bind], by simp [eng]⟩
  rw [sessionOf, ringPlace_kcp]
  exact sessionOf_heard_self path p s known

/-- Settles O11: the receive hardware sorts duplicates by what is left of the first one. -/
theorem duplicatesNeverRunAgain : Obligations.DuplicatesNeverRunAgain := by
  intro path info p s ss reaches known tag command
  have received := exec_kcpPacketReceived_command reaches known tag command
  obtain ⟨ring, running⟩ := heard_ring path p s
  refine ⟨fun r applied kept => ?_, fun applied gone runs => ?_, fun applied gone ended => ?_, fun unapplied waits => ?_⟩ <;>
    rw [received]
  · rw [receiveCommand_applied applied, kept, Option.elim_some]
  · rw [receiveCommand_applied applied, gone, Option.elim_none, running, if_pos runs]
  · rw [receiveCommand_applied applied, gone, Option.elim_none, running, ended, if_neg Bool.false_ne_true]
  · rw [receiveCommand_waiting unapplied (by rwa [ring])]

/-! ### Events are acknowledged and sent again (R122) -/

theorem sessionOf_ackEvents {s : State} {id : Nat} {ss : Session} (known : sessionOf s id = some ss) (n : Nat) :
    sessionOf (ackEvents id n s) id = some { ss with unacked := ss.unacked.filter (fun q => n < q.seq) } :=
  sessionOf_modSession_self (f := fun x => { x with unacked := x.unacked.filter (fun q => n < q.seq) }) (fun _ => rfl) known

theorem exec_eventAcknowledgement {path : Path} {p : KcpPkt} {s : State} {ss : Session}
    (reaches : Reaches path none { p with type := 3 } s) (known : sessionOf s p.session = some ss)
    (tag : p.tag = tagOf ss.tagKey { p with type := 3 }) :
    exec (.eventAcknowledgement path p) s = .next (ackEvents p.session p.seq (heard path { p with type := 3 } s)) :=
  congrArg Host.Outcome.next ((receiveKcp_of_reaches reaches known tag).trans (if_pos rfl))

theorem exec_eventResend_due {id : Nat} {s : State} {ss : Session} {p : KcpPkt} {l : List KcpPkt}
    (known : sessionOf s id = some ss) (held : ss.unacked = p :: l) (due : ss.resendAt + eventResendMarks s ≤ lmc s) :
    exec (.eventResend id) s = .next (modSession id (fun x => { x with resendAt := lmc s }) (sendKcp ss.path p s)) := by
  simp only [exec, execEventResend, known, held, due, if_true]

/-- Settles O13: an acknowledgement is a packet of its session that changes what is held. -/
theorem eventsAreHeldUntilAcknowledged : Obligations.EventsAreHeldUntilAcknowledged := by
  refine ⟨fun path p s ss reaches known tag => ?_, fun id s ss p l => exec_eventResend_due⟩
  refine ⟨_, exec_eventAcknowledgement reaches known tag, (heard_ring path { p with type := 3 } s).1,
    (heard_frame path { p with type := 3 } s).2.1, _,
    sessionOf_ackEvents (sessionOf_heard_self path { p with type := 3 } s known) _, rfl, ?_⟩
  simp [hears]

/-! ### A command is taken (R96, R101 to R103, R107, R117, R119) -/

/-- A command processor takes a command's number: the device serves, the number is new and in the window, what must come
before it is done, and it is its tenant's turn. -/
structure Taken (c : Cmd) (s : State) (ss : Session) : Prop where
  serves : serving s = true
  known : sessionOf s c.session = some ss
  unapplied : wasApplied ss c.seq = false
  inWindow : c.seq ≤ ss.base + 63
  ready : c.unordered = true ∨ orderedReady s ss c.seq = true
  turn : ringTurn s c.session c.seq ss.tenant = true

theorem runs_iff {op : Nat} {c : Cmd} {s : State} : Runs op c s ↔ ∃ ss, Taken c s ss ∧ refusal s ss op c.tenant = none :=
  ⟨fun ⟨serves, ss, known, unapplied, inWindow, ready, turn, allowed⟩ =>
    ⟨ss, ⟨serves, known, unapplied, inWindow, ready, turn⟩, allowed⟩,
   fun ⟨ss, h, allowed⟩ => ⟨h.serves, ss, h.known, h.unapplied, h.inWindow, h.ready, h.turn, allowed⟩⟩

/-- The refusals before a command's own checks ask nothing of what the taking of its number changes. -/
theorem refusal_takeNumber (c : Cmd) (s : State) (ss : Session) (op tenant : Nat) :
    refusal (takeNumber c s) ss op tenant = refusal s ss op tenant := by
  have stop : stopped (takeNumber c s) = stopped s := stopped_congr (by rw [show (takeNumber c s).halt = s.halt by simp])
  simp only [refusal, stop, takeNumber_frame]

section
variable {op : Nat} {c : Cmd} {echo : List Byte} {s : State} {ss : Session}

theorem kcpTake_applied {body : State → Answer × State} (serves : serving s = true) (known : sessionOf s c.session = some ss)
    (applied : wasApplied ss c.seq = true) : kcpTake op c echo body s = ringDrop c.session c.seq s := by
  simp only [kcpTake, serves, known, applied, Bool.not_true, Bool.false_eq_true, if_false, Bool.true_or, if_true]

/-- A command that is taken is refused, or its body runs. -/
theorem kcpTake_of_taken (h : Taken c s ss) (body : State → Answer × State) : kcpTake op c echo body s =
    (refusal s ss op c.tenant).elim (answer op c echo (body (takeNumber c s)).1 (body (takeNumber c s)).2)
      (fun st => answer op c echo (.done st []) (takeNumber c s)) := by
  have noWait : (!c.unordered && !orderedReady s ss c.seq) = false := by
    rcases h.ready with done | done <;> simp [done]
  simp only [kcpTake, h.serves, h.known, h.unapplied, Nat.not_lt.mpr h.inWindow, noWait, h.turn, refusal_takeNumber,
    Bool.not_true, Bool.false_or, decide_false, Bool.false_eq_true, if_false]
  cases refusal s ss op c.tenant <;> rfl

theorem kcpTake_of_runs (runs : Runs op c s) (body : State → Answer × State) :
    kcpTake op c echo body s = answer op c echo (body (takeNumber c s)).1 (body (takeNumber c s)).2 := by
  obtain ⟨ss, taken, allowed⟩ := runs_iff.mp runs
  rw [kcpTake_of_taken taken, allowed, Option.elim_none]

theorem kcpNow_of_runs (runs : Runs op c s) (body : State → Nat × List Byte × State) : kcpNow op c echo body s =
    answer op c echo (.done (body (takeNumber c s)).1 (body (takeNumber c s)).2.1) (body (takeNumber c s)).2.2 :=
  kcpTake_of_runs runs _

end

/-- Settles O12: every command passes the one gate. -/
theorem refusedCommandsTakeNoEffect : Obligations.RefusedCommandsTakeNoEffect := by
  intro op st c echo body s ss serves known
  refine ⟨kcpTake_applied serves known, fun unapplied inWindow ready turn refused => ?_⟩
  rw [kcpTake_of_taken ⟨serves, known, unapplied, inWindow, ready, turn⟩, refused, Option.elim_some]

/-! ### Fresh session IDs (R99, R100) -/

/-- A number that may become a session's ID: not zero, never used. -/
def FreeId (used : List Nat) (n : Nat) : Prop := n ≠ 0 ∧ n ∉ used

/-- The search from a number on finds a free ID where it passes one. -/
theorem freshId_free {used : List Nat} : ∀ {n c : Nat}, (∃ k < n, FreeId used ((c + k) % 2 ^ 32)) →
    FreeId used (freshId used n c) ∧ freshId used n c < 2 ^ 32
  | 0, _, ⟨_, within, _⟩ => absurd within (Nat.not_lt_zero _)
  | n + 1, c, ⟨k, within, free⟩ => by
    rw [freshId]
    split
    · next taken =>
      have taken : c % 2 ^ 32 = 0 ∨ c % 2 ^ 32 ∈ used := by simpa using taken
      match k, within, free with
      | 0, _, ⟨nonzero, unused⟩ => exact (taken.elim nonzero unused).elim
      | k + 1, within, free =>
        refine freshId_free ⟨k, Nat.lt_of_succ_lt_succ within, ?_⟩
        rwa [show (c % 2 ^ 32 + 1 + k) % 2 ^ 32 = (c + (k + 1)) % 2 ^ 32 by omega]
    · next free => exact ⟨by simpa [FreeId] using free, Nat.mod_lt _ (by decide)⟩

/-- Among more consecutive numbers than are zero or used, one is free. -/
theorem exists_freeId {used : List Nat} (room : used.length + 2 ≤ 2 ^ 32) (c : Nat) :
    ∃ k < used.length + 2, FreeId used ((c + k) % 2 ^ 32) := by
  have distinct : Set.InjOn (fun k => (c + k) % 2 ^ 32) (Finset.range (used.length + 2)) := by
    intro j hj k hk same
    simp only [Finset.coe_range, Set.mem_Iio] at hj hk
    dsimp only at same
    omega
  have fewer : (insert 0 used.toFinset).card < ((Finset.range (used.length + 2)).image (fun k => (c + k) % 2 ^ 32)).card := by
    rw [Finset.card_image_of_injOn distinct, Finset.card_range]
    calc (insert 0 used.toFinset).card ≤ used.toFinset.card + 1 := Finset.card_insert_le ..
      _ ≤ used.length + 1 := Nat.succ_le_succ used.toFinset_card_le
      _ < used.length + 2 := Nat.lt_succ_self _
  obtain ⟨n, seen, free⟩ := Finset.exists_mem_notMem_of_card_lt_card fewer
  obtain ⟨k, within, rfl⟩ := Finset.mem_image.mp seen
  exact ⟨k, Finset.mem_range.mp within, by simpa [FreeId] using free⟩

/-- Settles O14: the search is one longer than the IDs that it must pass over. -/
theorem sessionIdsAreNeverReused : Obligations.SessionIdsAreNeverReused := by
  intro used c room
  obtain ⟨⟨nonzero, unused⟩, small⟩ := freshId_free (exists_freeId room (c % 2 ^ 32))
  exact ⟨nonzero, unused, small⟩

/-! ### OPEN_SESSION (R98, R99, R446) -/

@[simp] theorem le_length : ∀ n x : Nat, (le n x).length = n
  | 0, _ => rfl
  | n + 1, x => congrArg (· + 1) (le_length n (x / 256))

section
variable (path : Path) (c : Cmd) (s : State) (key : Nat)

/-- The ID that OPEN_SESSION gives out. -/
def openedId : Nat := freshId s.kcp.usedIds (s.kcp.usedIds.length + 2) (Config.free s.draws % 2 ^ 32)

/-- The key exchange of OPEN_SESSION under a credential. -/
def openedExchange : Exchange := exchange key (pnum c.params 4 64) (Config.free (s.draws + 1))

/-- The session that OPEN_SESSION adds. -/
def openedSession : Session :=
  { id := openedId s, tenant := c.tenant % 32, cred := min 3 (pnum c.params 0 1), path := path, openedAt := lmc s, lastAt := lmc s,
    tagKey := tagKeyOf (openedExchange c s key) (pnum c.params 68 16) (openedId s),
    wrapKey := wrapKeyOf (openedExchange c s key) (pnum c.params 68 16) (openedId s) }

/-- The state in which OPEN_SESSION has left the ring and its session stands. -/
def openedState : State :=
  { s with kcp.ring := s.kcp.ring.eraseP (openEntry path c), kcp.lastTenant := lastServed (c.tenant % 32) s,
           pair.journalAt := lmc s, draws := s.draws + 2, kcp.sessions := s.kcp.sessions ++ [openedSession path c s key],
           kcp.usedIds := openedId s :: s.kcp.usedIds }

/-- The body of the reply: the status, the parameters as they count, the ID, the device's key and its confirmation. -/
def openedBody : List Byte :=
  le 4 stOK ++ (le 1 (min 3 (pnum c.params 0 1)) ++ zeros 3 ++ le 64 (pnum c.params 4 64) ++ le 16 (pnum c.params 68 16)) ++
    (le 4 (openedId s) ++ pairBytes (openedExchange c s key).devEph ++ confirmation (openedExchange c s key))

/-- The reply to OPEN_SESSION, without session and tag. -/
def openedReply : KcpPkt :=
  { type := 1, opcode := 2, session := 0, seq := c.seq, tenant := c.tenant % 32, paramLen := (openedBody c s key).length,
    params := openedBody c s key, got := (openedBody c s key).length + 32, tag := 0 }

theorem openedReply_status : (openedReply c s key).params.take 4 = le 4 stOK := by
  simp only [openedReply, openedBody, List.append_assoc]
  exact List.take_left' (le_length 4 stOK)

end

/-- With a usable credential and a point of the curve a session opens. -/
theorem exec_openSession_opens {path : Path} {c : Cmd} {s : State} {key : Nat} (serves : serving s = true)
    (alive : s.err.fatal = false) (rng : s.sec.rngOk = true)
    (slot : s.kcp.sessions.countP (fun x => x.tenant == c.tenant % 32) < sessionSlots (c.tenant % 32))
    (cred : credential s (c.tenant % 32) (min 3 (pnum c.params 0 1)) = some key) (point : onCurve (pnum c.params 4 64) = true)
    (noSession : c.session = 0) (turn : turnOf s (openEntry path c) (c.tenant % 32) = true) :
    exec (.openSession path c) s = .next (sendKcp path (openedReply c s key) (openedState path c s key)) := by
  rw [credential] at cred
  simp only [exec, execOpenSession, noSession, serves, turn, alive, rng, Nat.not_le.mpr slot, credential, cred, point,
    bne_self_eq_false, Bool.not_true, Bool.or_self, Bool.false_eq_true, if_false]
  rfl

theorem sendKcp_eth_up {port : Nat} {s : State} (up : ethUp s port = true) (mac ip udp : Nat) (p : KcpPkt) :
    sendKcp (.eth port mac ip udp) p s = emit (.kcp (.eth port mac ip udp) (some (kcpFrame s port mac ip udp)) p) s :=
  if_pos up

theorem claimOpenSessionAddsASession : ClaimOpenSessionAddsASession := by
  intro path c s key serves alive rng slot cred point noSession turn
  refine ⟨_, openedSession path c s key, openedReply c s key,
    exec_openSession_opens serves alive rng slot cred point noSession turn, ?_⟩
  simp only [sendKcp_frame]
  refine ⟨rfl, rfl, rfl, rfl, rfl, rfl, rfl, rfl, rfl, rfl, rfl, rfl, fun port mac ip udp eth up => ?_⟩
  subst eth
  rw [sendKcp_eth_up (s := openedState _ c s key) up]
  exact ⟨rfl, rfl, rfl, rfl, openedReply_status c s key⟩

/-! ### A session closes (R100, R447, R557) -/

/-- A session is gone with its ring entries and its page swaps, and every other session stays. -/
def SessionClosed (id : Nat) (s t : State) : Prop := sessionOf t id = none ∧
  (∀ e ∈ t.kcp.ring, e.pkt.session ≠ id) ∧ (∀ x ∈ t.xlat.transfers, x.session ≠ id) ∧
  (t.kcp.sessions.map (·.id) = (s.kcp.sessions.map (·.id)).filter (· != id)) ∧ t.mem = s.mem ∧ t.bind = s.bind

/-- An event leaves the ring as it is, and the sessions that there are. -/
theorem eventTo_keeps_ring_and_ids (ss : Session) (code subject fmt' frac : Nat) (detail : List Byte) (s : State) :
    (eventTo ss code subject fmt' frac detail s).kcp.ring = s.kcp.ring ∧
    (eventTo ss code subject fmt' frac detail s).kcp.sessions.map (·.id) = s.kcp.sessions.map (·.id) := by
  unfold eventTo
  dsimp only
  split
  · exact ⟨rfl, modSession_ids fun _ => by rfl⟩
  · simp only [sendKcp_frame]
    exact ⟨rfl, modSession_ids fun _ => by rfl⟩

theorem event_keeps_ring_and_ids (code subject : Nat) (to? : Nat → Bool) (detail : List Byte) (s : State) :
    (event code subject to? detail s).kcp.ring = s.kcp.ring ∧
    (event code subject to? detail s).kcp.sessions.map (·.id) = s.kcp.sessions.map (·.id) :=
  ⟨foldl_keeps (·.kcp.ring) _ (fun _ _ => (eventTo_keeps_ring_and_ids ..).1) _ _,
    foldl_keeps (·.kcp.sessions.map (·.id)) _ (fun _ _ => (eventTo_keeps_ring_and_ids ..).2) _ _⟩

/-- What closing a session leaves, part by part. -/
theorem closeSession_parts {id : Nat} {s : State} (known : id ∈ s.kcp.sessions.map (·.id)) (cause : Nat) :
    (closeSession id cause s).kcp.ring = s.kcp.ring.filter (fun e => e.pkt.session != id) ∧
    (closeSession id cause s).kcp.sessions.map (·.id) = (s.kcp.sessions.map (·.id)).filter (· != id) ∧
    (closeSession id cause s).xlat.transfers = s.xlat.transfers.filter (fun x => x.session != id) ∧
    (closeSession id cause s).mem = s.mem ∧ (closeSession id cause s).bind = s.bind := by
  have fold {γ : Type} (f : State → γ) (fireKeeps : ∀ i u, f (fire i u) = f u) (l : List Transfer) (u : State) :=
    foldl_keeps f (fun u (x : Transfer) => fire (256 * ppaQuadrant (x.ppas.headD 0) + 40) u) (fun u _ => fireKeeps _ u) l u
  cases h : sessionOf s id with
  | none => exact absurd known (sessionOf_eq_none_iff.mp h)
  | some ss =>
    simp only [closeSession, h, event_keeps_ring_and_ids, event_frame, fold (·.kcp) (by simp), fold (·.xlat) (by simp),
      fold (·.mem) (by simp), fold (·.bind) (by simp), List.filter_map, Function.comp_def, and_self]

theorem closeSession_sessionClosed {id : Nat} {s : State} (known : id ∈ s.kcp.sessions.map (·.id)) (cause : Nat) :
    SessionClosed id s (closeSession id cause s) := by
  obtain ⟨ring, ids, transfers, mem, bind⟩ := closeSession_parts known cause
  refine ⟨?_, ?_, ?_, ids, mem, bind⟩
  · rw [sessionOf_eq_none_iff, ids]; simp
  · rw [ring]; simp
  · rw [transfers]; simp

/-- Only the sessions' IDs, the memory and the bindings of the state before matter. -/
theorem SessionClosed.of_kept {id : Nat} {s u t : State} (h : SessionClosed id u t)
    (ids : u.kcp.sessions.map (·.id) = s.kcp.sessions.map (·.id)) (mem : u.mem = s.mem) (bind : u.bind = s.bind) :
    SessionClosed id s t := by
  simpa only [SessionClosed, ids, mem, bind] using h

theorem mem_ids_of_sessionOf {s : State} {id : Nat} {ss : Session} (known : sessionOf s id = some ss) :
    id ∈ s.kcp.sessions.map (·.id) :=
  List.mem_map.mpr ⟨ss, List.mem_of_find?_eq_some known, sessionOf_id known⟩

theorem advanceBase_id (n : Nat) (x : Session) : (advanceBase n x).id = x.id := by
  induction n generalizing x with
  | zero => rfl
  | succ n ih =>
    rw [advanceBase]
    split
    · exact ih _
    · rfl

theorem takeNumber_ids (c : Cmd) (s : State) :
    (takeNumber c s).kcp.sessions.map (·.id) = s.kcp.sessions.map (·.id) :=
  modSession_ids fun _ => by apply advanceBase_id

theorem reply_ids (session tenant seq opcode : Nat) (cache : Bool) (body : List Byte) (s : State) :
    (reply session tenant seq opcode cache body s).kcp.sessions.map (·.id) = s.kcp.sessions.map (·.id) := by
  simp only [reply]
  split
  · cases cache <;> rfl
  · cases cache with
    | false => simp only [Bool.false_eq_true, if_false, sendKcp_frame]
    | true =>
      refine (modSession_ids fun _ => by rfl).trans ?_
      simp only [sendKcp_frame, if_true]

/-- CLOSE_SESSION that runs replies, then closes its session. -/
theorem exec_closeSession_of_runs {c : Cmd} {s : State} (runs : Runs 3 c s) :
    exec (.closeSession c) s = .next (closeSession c.session 0 (answer 3 c [] (.done stOK []) (takeNumber c s))) := by
  have replied : kcpNow 3 c [] (fun s => (stOK, [], s)) s = answer 3 c [] (.done stOK []) (takeNumber c s) :=
    kcpNow_of_runs runs _
  obtain ⟨ss, taken, allowed⟩ := runs_iff.mp runs
  have ready : (c.unordered || orderedReady s ss c.seq) = true := by simpa using taken.ready
  simp only [exec, execCloseSession, replied, taken.known, taken.serves, taken.unapplied, taken.inWindow, ready, taken.turn, allowed,
    Bool.not_false, decide_true, Option.isNone_none, Bool.and_self, if_true]

theorem exec_sessionIdleTimeout_due {id : Nat} {s : State} {ss : Session} (known : sessionOf s id = some ss)
    (isOpen : ss.isOpen = true) (due : ss.lastAt + idleMarks s ≤ lmc s) :
    exec (.sessionIdleTimeout id) s = .next (closeSession id 1 s) := by
  simp only [exec, execSessionIdleTimeout, known, isOpen, due, decide_true, Bool.and_self, if_true]

theorem exec_sessionOpenTimeout_due {id : Nat} {s : State} {ss : Session} (known : sessionOf s id = some ss)
    (notOpen : ss.isOpen = false) (due : ss.openedAt + watch ≤ lmc s) :
    exec (.sessionOpenTimeout id) s = .next (closeSession id 2 s) := by
  simp only [exec, execSessionOpenTimeout, known, notOpen, due, decide_true, Bool.not_false, Bool.and_self, if_true]

theorem claimSessionsClose : ClaimSessionsClose := by
  refine ⟨fun c s runs => ⟨_, exec_closeSession_of_runs runs, ?_⟩, fun id s ss known isOpen due =>
    ⟨_, exec_sessionIdleTimeout_due known isOpen due, closeSession_sessionClosed (mem_ids_of_sessionOf known) 1⟩,
    fun id s ss known notOpen due =>
    ⟨_, exec_sessionOpenTimeout_due known notOpen due, closeSession_sessionClosed (mem_ids_of_sessionOf known) 2⟩⟩
  obtain ⟨ss, taken, -⟩ := runs_iff.mp runs
  have ids : (answer 3 c [] (.done stOK []) (takeNumber c s)).kcp.sessions.map (·.id) = s.kcp.sessions.map (·.id) :=
    (reply_ids ..).trans (takeNumber_ids c s)
  refine SessionClosed.of_kept (closeSession_sessionClosed ?_ 0) ids (by simp) (by simp)
  rw [ids]
  exact mem_ids_of_sessionOf taken.known

/-- Settles O15, from how sessions open and from how they close. -/
theorem sessionsOpenAndClose : Obligations.SessionsOpenAndClose :=
  ⟨claimOpenSessionAddsASession, claimSessionsClose⟩

/-! ### The Ethernet ports (R89, R91) -/

section
variable {port : Nat} {s : State} (serves : serving s = true) (up : ethUp s port = true)
include serves up

theorem exec_arpRequest (a m : Nat) : exec (.arpRequest port a m) s =
    .next (if (ethAddresses4 s port).contains a then emit (.arpReply port a (ethMac s port) m) s else s) := by
  simp only [exec, execArpRequest, serves, up, Bool.and_self, Bool.true_and]
  split <;> rfl

theorem exec_neighbourSolicitation (a m : Nat) : exec (.neighbourSolicitation port a m) s =
    .next (if (ethAddresses6 s port).contains a then emit (.neighbourAdvertisement port a (ethMac s port) m) s else s) := by
  simp only [exec, execNeighbourSolicitation, serves, up, Bool.and_self, Bool.true_and]
  split <;> rfl

end

theorem exec_ethFrameDiscard_wrongPrio {i : EthInfo} {s : State} (serves : serving s = true) (up : ethUp s i.port = true)
    (sound : frameSound i = true) (addr : addressed s i = true) (udp : i.dstUdp = kcpUdpPort s i.port)
    (prio : wrongPrio i = true) : exec (.ethFrameDiscard i) s = .next (sat (0x00020034 + 0x100 * i.port) 16 16 1 s) := by
  simp only [exec, execEthFrameDiscard, serves, up, sound, addr, udp, prio, decide_true, Bool.and_self, if_true]

/-- Settles O16: what each of the three does at a port that is up. -/
theorem ethernetHousekeeping : Obligations.EthernetHousekeeping :=
  ⟨fun _ a m _ serves up => exec_arpRequest serves up a m, fun _ a m _ serves up => exec_neighbourSolicitation serves up a m,
    fun _ _ serves up sound addr udp prio =>
      ⟨_, exec_ethFrameDiscard_wrongPrio serves up sound addr udp prio, getField_setField_self .., rfl⟩⟩

/-! ### Commands that touch no register (R117, R120, R121) -/

@[simp] theorem discoverRecord_length (s : State) (t p : Nat) : (discoverRecord s t p).length = 16 := by
  unfold discoverRecord
  dsimp only
  split <;> simp [zeros]

theorem exec_unknownOpcode_of_runs {c : Cmd} {op : Nat} {s : State} (unknown : implemented op = false) (runs : Runs op c s) :
    exec (.unknownOpcode c op) s = .next (answer op c [] (.bare stUNKNOWN) (takeNumber c s)) := by
  simp only [exec, execUnknownOpcode, unknown, Bool.false_eq_true, if_false, kcpTake_of_runs runs]

/-- The ports that DISCOVER reports. -/
def discovered (c : Cmd) : List Nat :=
  (List.range (min (clampTo 1 60 (pnum c.params 1 1)) (96 - min 95 (pnum c.params 0 1)))).map (min 95 (pnum c.params 0 1) + ·)

theorem exec_discover_of_runs {c : Cmd} {s : State} (runs : Runs 6 c s) : RepliesWith 6 c stOK
    ((discovered c).flatMap (discoverRecord (takeNumber c s) c.tenant)) (takeNumber c s) (exec (.discover c) s) := by
  rw [discovered, List.flatMap_map]
  exact ⟨_, congrArg Host.Outcome.next (kcpNow_of_runs runs _)⟩

/-- Settles O17: each command by the body that it runs. -/
theorem plainCommands : Obligations.PlainCommands := by
  refine ⟨fun c s runs => congrArg Host.Outcome.next (kcpNow_of_runs runs _), fun c op s => exec_unknownOpcode_of_runs,
    fun c s runs => ⟨_, exec_discover_of_runs runs, ?_⟩, fun c s runs => ⟨_, congrArg Host.Outcome.next (kcpNow_of_runs runs _)⟩⟩
  simp [discovered, List.length_flatMap, Function.comp_def, Nat.mul_comm]

/-! ### READ_REGS and WRITE_REGS (R101, R111, R112) -/

/-- The offsets that READ_REGS names. -/
def readOffsets (c : Cmd) : List Nat :=
  (List.range (clampTo 1 64 (pnum c.params 4 1))).map (fun i => pnum c.params 0 4 / 4 * 4 + 4 * i)

/-- The entries of WRITE_REGS: offset, value and mask. -/
def writeEntries (c : Cmd) : List (Nat × Nat × Nat) :=
  (List.range (clampTo 1 64 (pnum c.params 0 4))).map (fun i => (pnum c.params (4 + 12 * i) 4 / 4 * 4,
    pnum c.params (8 + 12 * i) 4, pnum c.params (12 + 12 * i) 4))

/-- The body of READ_REGS: it is refused where the caller may not read a register of the range. -/
def readBody (c : Cmd) (s : State) : Nat × List Byte × State :=
  if (readOffsets c).any (unreadable s c.tenant) then (stDENIED, [], s)
  else
    let read := readRange c (readOffsets c) s
    (stOK, read.1.flatMap (fun v => le 4 v.1) ++ le 8 (maskOf (read.1.map (·.2))), read.2)

/-- The body of WRITE_REGS: it is refused where the caller may not write a register that it names. -/
def writeBody (c : Cmd) (s : State) : Answer × State :=
  if (writeEntries c).any (fun e => !mayWrite s c.tenant e.1) then (.done stDENIED [], s)
  else
    let written := writeAll c 0 (writeEntries c) s
    (.whole stOK (le 4 (clampTo 1 64 (pnum c.params 0 4)) ++ written.1.1 ++ le 8 (maskOf written.1.2)), written.2)

theorem exec_readRegs (c : Cmd) (s : State) : exec (.readRegs c) s = .next (kcpNow 4 c
    (le 4 (pnum c.params 0 4 / 4 * 4) ++ le 1 (clampTo 1 64 (pnum c.params 4 1)) ++ zeros 3) (readBody c) s) := rfl

theorem exec_writeRegs (c : Cmd) (s : State) : exec (.writeRegs c) s = .next (kcpTake 5 c
    (le 4 (clampTo 1 64 (pnum c.params 0 4)) ++ (writeEntries c).flatMap (fun e => le 4 e.1 ++ le 4 e.2.1 ++ le 4 e.2.2))
    (writeBody c) s) := rfl

theorem exec_readRegs_readable {c : Cmd} {s : State} (runs : Runs 4 c s)
    (readable : (readOffsets c).any (unreadable (takeNumber c s) c.tenant) = false) :
    ∃ res, RepliesWith 4 c stOK res (readRange c (readOffsets c) (takeNumber c s)).2 (exec (.readRegs c) s) := by
  rw [exec_readRegs, kcpNow_of_runs runs, readBody, readable]
  exact ⟨_, _, rfl⟩

section
variable {c : Cmd} {s : State} (runs : Runs 5 c s)
include runs

theorem exec_writeRegs_writable
    (writable : (writeEntries c).any (fun e => !mayWrite (takeNumber c s) c.tenant e.1) = false) : ∃ echo body,
      exec (.writeRegs c) s = .next (answer 5 c echo (.whole stOK body) (writeAll c 0 (writeEntries c) (takeNumber c s)).2) := by
  rw [exec_writeRegs, kcpTake_of_runs runs, writeBody, writable]
  exact ⟨_, _, rfl⟩

theorem exec_writeRegs_denied
    (denied : (writeEntries c).any (fun e => !mayWrite (takeNumber c s) c.tenant e.1) = true) :
    RepliesWith 5 c stDENIED [] (takeNumber c s) (exec (.writeRegs c) s) := by
  rw [exec_writeRegs, kcpTake_of_runs runs, writeBody, denied]
  exact ⟨_, rfl⟩

end

/-- Settles O18: the rights are asked before anything is read or written. -/
theorem registerCommands : Obligations.RegisterCommands := by
  refine ⟨fun c s runs readable => exec_readRegs_readable runs readable, fun c s es runs entries => ?_⟩
  subst entries
  exact ⟨exec_writeRegs_writable runs, exec_writeRegs_denied runs⟩

end Sys2Proof.Machine

/-! PROOFS. What leaves the binding tables as they are: the operations by which a unit is emptied of its old tenant reach far into
the home and the engines, and none of them touches a binding. -/
namespace Sys2Proof.Machine

/-! ### What leaves the binding tables as they are: the memory (R31, R32, R416 to R420) -/

section
variable (line n source : Nat) (d : Line) (p : Bool) (f : Fetches) (s : State)

@[simp] theorem touchTimes_bind : (touchTimes n line s).bind = s.bind := rfl

@[simp] theorem writeStrand_bind : (writeStrand line d p s).bind = s.bind := by
  simp only [writeStrand, touch, touchTimes_bind]
  split <;> simp

@[simp] theorem coilEvict_bind : (coilEvict line s).bind = s.bind := by
  simp only [coilEvict]
  repeat' split
  all_goals simp

@[simp] theorem coilAllocate_bind (t : Nat) (dirty : Bool) : (coilAllocate t line d dirty p s).bind = s.bind := by
  simp only [coilAllocate]
  repeat' split
  all_goals simp

@[simp] theorem homeWrite_bind (t : Nat) (link : Bool) : (homeWrite t line d p link s).bind = s.bind := by
  simp only [homeWrite]
  repeat' split
  all_goals simp

@[simp] theorem recordError_bind (r : ErrRec) (q sub : Nat) : (recordError r q sub s).bind = s.bind := by simp [recordError]

@[simp] theorem logCured_bind (refetches : Nat) : (logCured line source refetches s).bind = s.bind := by
  simp only [logCured]
  split <;> simp

@[simp] theorem uncured_bind : (uncured line f s).bind = s.bind := by
  simp only [uncured, memRecord, recordError_bind, sat_frame, writeStrand_bind]
  repeat' split
  all_goals simp

@[simp] theorem readStrand_bind (scrub : Bool) : (readStrand line source scrub f s).2.bind = s.bind := by
  simp only [readStrand]
  repeat' split
  all_goals simp

@[simp] theorem drawFetches_bind : (drawFetches s).2.bind = s.bind := rfl

@[simp] theorem poisonHome_bind : (poisonHome line s).bind = s.bind := by
  unfold poisonHome
  split
  · simp
  · dsimp only
    split <;> simp

@[simp] theorem emptyWay_bind (w : Nat) : (emptyWay w s).bind = s.bind := foldl_keeps (·.bind) _ (by simp) _ _

end

/-! ### What leaves the binding tables as they are: the home's snoops and answers (R217, R223, R224) -/

@[simp] theorem releaseEgress_bind (p t : Nat) (book : List (Nat × Nat)) (s : State) : (releaseEgress p t book s).bind = s.bind := by
  refine foldl_keeps (·.bind) _ (fun u b => ?_) _ _
  split <;> rfl

@[simp] theorem releaseBookings_bind (t : Tracker) (s : State) : (releaseBookings t s).bind = s.bind := by
  simp only [releaseBookings, releaseEgress_bind]
  refine foldl_keeps (·.bind) _ (fun u b => ?_) _ _
  split <;> rfl

@[simp] theorem goesOutside_bind (id : Nat) (s : State) : (goesOutside id s).bind = s.bind := by
  unfold goesOutside
  repeat' split
  all_goals simp

@[simp] theorem queueOutside_bind (line : Nat) (s : State) : (queueOutside line s).bind = s.bind := by
  unfold queueOutside
  split
  · exact foldl_keeps (·.bind) _ (by simp) _ _
  · rfl

@[simp] theorem countLostPkt_bind (p : Nat) (s : State) : (countLostPkt p s).bind = s.bind := rfl

@[simp] theorem respond_bind (rq : PktHdr) (t : Nat) (pair promised line : Option Nat) (due : Nat × List (Nat × Nat)) (h : PktHdr)
    (l : List Line) (s : State) : (respond rq t pair promised line due h l s).bind = s.bind := by
  simp only [respond]
  repeat' split
  all_goals simp

@[simp] theorem countStatus_bind (t st : Nat) (s : State) : (countStatus t st s).bind = s.bind := by
  unfold countStatus
  repeat' split
  all_goals simp

@[simp] theorem answerTracker_bind (t : Tracker) (st : Nat) (s : State) : (answerTracker t st s).bind = s.bind := by
  simp only [answerTracker]
  repeat' split
  all_goals simp

@[simp] theorem absorbRelease_bind (line : Nat) (j : Job) (s : State) : (absorbRelease line j s).bind = s.bind := by
  simp only [absorbRelease, homeTake, countLate]
  repeat' split
  all_goals simp

@[simp] theorem absorbReleases_bind (line : Nat) (s : State) : (absorbReleases line s).bind = s.bind := by
  unfold absorbReleases
  split
  · exact foldl_keeps (·.bind) _ (by simp) _ _
  · rfl

@[simp] theorem sendSnoop_bind (line eid code : Nat) (fwd : Bool) (reqEid reqTag t : Nat) (s : State) :
    (sendSnoop line eid code fwd reqEid reqTag t s).2.bind = s.bind := by simp [sendSnoop, newTag]

@[simp] theorem sendSnoops_bind (line code : Nat) (fwd : Bool) (reqEid reqTag t : Nat) : ∀ (l : List Nat) (s : State),
    (sendSnoops line code fwd reqEid reqTag t l s).2.bind = s.bind
  | [], _ => rfl
  | _ :: l, _ => by simp [sendSnoops, sendSnoops_bind line code fwd reqEid reqTag t l]

@[simp] theorem countBroadcast_bind (d : DirEnt) (n : Nat) (s : State) : (countBroadcast d n s).bind = s.bind := by
  unfold countBroadcast
  split <;> simp

@[simp] theorem recallBad_bind (line : Nat) (s : State) : (recallBad line s).bind = s.bind := by
  simp only [recallBad]
  split <;> simp

@[simp] theorem sliceHandled_bind (q : Nat) (s : State) : (sliceHandled q s).bind = s.bind := by
  unfold sliceHandled
  repeat' split
  all_goals simp

@[simp] theorem badEntry_bind (line : Nat) (s : State) : (badEntry line s).bind = s.bind := by
  have each (l : List Nat) (u : State) : (l.foldl (fun s l => recallBad l s) u).bind = u.bind :=
    foldl_keeps (·.bind) _ (by simp) _ _
  simp only [badEntry]
  repeat' split
  all_goals simp [each]

@[simp] theorem recallFrom_bind (line eid : Nat) (d : DirEnt) (s : State) : (recallFrom line eid d s).bind = s.bind := by
  simp only [recallFrom]
  repeat' split
  all_goals simp

@[simp] theorem recallEid_bind (eid : Nat) (s : State) : (recallEid eid s).bind = s.bind := by
  refine foldl_keeps (·.bind) _ (fun u e => ?_) _ _
  repeat' split
  all_goals simp

/-! ### What leaves the binding tables as they are: shares that end (R244, R245, R247, R322) -/

@[simp] theorem commandRecord_bind (core k : Nat) (x : Ctx) (st : Nat) (s : State) :
    (commandRecord core k x st s).2.bind = s.bind := rfl

@[simp] theorem keepRecord_bind (core : Nat) (r : List Byte) (s : State) : (keepRecord core r s).bind = s.bind := by
  simp only [keepRecord, modCore_frame]
  split <;> simp

@[simp] theorem traceEntry_bind (kind st core k stage : Nat) (x : Ctx) (s : State) :
    (traceEntry kind st core k stage x s).bind = s.bind := by
  simp only [traceEntry]
  split <;> simp

@[simp] theorem breakBarriers_bind (core : Nat) (x : Ctx) (st : Nat) (s : State) : (breakBarriers core x st s).bind = s.bind := by
  simp only [breakBarriers]
  repeat' split
  all_goals simp

@[simp] theorem leaveGang_bind (core gang : Nat) (s : State) : (leaveGang core gang s).bind = s.bind := by
  simp only [leaveGang, releaseLists]
  repeat' split
  all_goals simp

@[simp] theorem reportShare_bind (core : Nat) (x : Ctx) (st : Nat) (s : State) : (reportShare core x st s).bind = s.bind := by
  simp only [reportShare, complete]
  split <;> simp

@[simp] theorem cancelProgress_bind (core : Nat) (o : Origin) (s : State) : (cancelProgress core o s).bind = s.bind := by
  refine foldl_keeps (·.bind) _ (fun u r => ?_) _ _
  dsimp only
  repeat' split
  all_goals simp

@[simp] theorem endShare_bind (core k st : Nat) (s : State) : (endShare core k st s).bind = s.bind := by
  simp only [endShare]
  repeat' split
  all_goals simp

@[simp] theorem settleStops_bind : ∀ (n : Nat) (s : State), (settleStops n s).bind = s.bind
  | 0, _ => rfl
  | n + 1, s => by
    rw [settleStops]
    split
    · rw [settleStops_bind n, endShare_bind]
    · rfl

@[simp] theorem dropEngineReads_bind (core k : Nat) (s : State) : (dropEngineReads core k s).bind = s.bind := by
  simp only [dropEngineReads]
  split <;> rfl

@[simp] theorem leaveWaits_bind (core k : Nat) (s : State) : (leaveWaits core k s).bind = s.bind := rfl

@[simp] theorem stopCtx_bind (core k st : Nat) (s : State) : (stopCtx core k st s).bind = s.bind := by
  unfold stopCtx
  split <;> simp

@[simp] theorem stopAll_bind (l : List (Nat × Nat)) (st : Nat) (s : State) : (stopAll l st s).bind = s.bind :=
  foldl_keeps (·.bind) _ (by simp) _ _

@[simp] theorem endQueued_bind (core : Nat) (sh : Share) (st : Nat) (s : State) : (endQueued core sh st s).bind = s.bind := by
  simp only [endQueued]
  split <;> simp

end Sys2Proof.Machine

/-! PROOFS. Tenancy, binding and isolation (section 04): the steps of the units that the binding commands name, extents, and
sealing. -/
namespace Sys2Proof.Machine

/-! ### An entry of the binding tables (R130, R139) -/

theorem bindEnt_congr {s t : State} (same : t.bind = s.bind) (k : UnitKind) (u : Nat) : bindEnt t k u = bindEnt s k u := by
  cases k <;> simp only [bindEnt, bindTable, same]

section
variable (k : UnitKind) (u : Nat) (f : BindEnt → BindEnt) (s : State)

theorem bindEnt_modBind_self : bindEnt (modBind k u f s) k u = f (bindEnt s k u) := by
  cases k <;> exact tget_tmod_self ..

theorem bindEnt_modBind_ne {v : Nat} (other : v ≠ u) : bindEnt (modBind k u f s) k v = bindEnt s k v := by
  cases k <;> exact tget_tmod_ne _ _ _ _ _ other

/-- A change of an entry leaves the units themselves as they are. -/
@[simp] theorem modBind_frame : (modBind k u f s).mem = s.mem ∧ (modBind k u f s).eng = s.eng ∧
    (modBind k u f s).belay = s.belay ∧ (modBind k u f s).kcp = s.kcp := by
  cases k <;> exact ⟨rfl, rfl, rfl, rfl⟩

end

/-! ### A binding command begins its units' steps (R131 to R134, R139, R430) -/

section
variable (u : Nat) (s : State)

@[simp] theorem emptyCore_bind : (emptyCore u s).bind = s.bind := by
  simp only [emptyCore, stopAll_bind]
  exact foldl_keeps (·.bind) _ (by simp) _ _

@[simp] theorem endWaits_bind : (endWaits u s).bind = s.bind := stopAll_bind ..

@[simp] theorem discardRecords_bind : (discardRecords u s).bind = s.bind := stopAll_bind ..

@[simp] theorem dropShares_bind (keep : Nat → Bool) : (dropShares u keep s).bind = s.bind :=
  foldl_keeps (·.bind) (fun s t => forceField (0x00011000 + 4 * (96 * t + u)) 0 0 0 s) (fun _ _ => rfl) _ _

end

/-- What the beginning of a step does to its unit, before the unit's entry shows the step. -/
def stepCleared (k : UnitKind) (tenant : Nat) (unbind shared : Bool) (u : Nat) (s : State) : State :=
  match k with
  | .engine => emptyCore u s
  | .eid => recallEid u s
  | .knots => endWaits u s
  | .faultQueue => if queueBusy s u then discardRecords u s else s
  | .port => dropShares u (fun t => !unbind && (shared || t == tenant)) s
  | .coilWay => emptyWay u s
  | .strand => s

section
variable (k : UnitKind) (tenant u : Nat) (unbind shared : Bool) (s : State)

theorem stepCleared_bind : (stepCleared k tenant unbind shared u s).bind = s.bind := by
  cases k with
  | faultQueue => simp only [stepCleared]; split <;> simp
  | strand | engine | coilWay | port | eid | knots => simp [stepCleared]

theorem beginStep_eq : beginStep k tenant unbind shared u s =
    modBind k u (fun e => { e with st := .stepping, newTenant := tenant, unbind := unbind, newShared := shared })
      (stepCleared k tenant unbind shared u s) := by
  cases k <;> rfl

theorem bindEnt_beginStep_self : bindEnt (beginStep k tenant unbind shared u s) k u =
    { bindEnt s k u with st := .stepping, newTenant := tenant, unbind := unbind, newShared := shared } := by
  rw [beginStep_eq, bindEnt_modBind_self, bindEnt_congr (stepCleared_bind ..)]

theorem bindEnt_beginStep_ne {v : Nat} (other : v ≠ u) :
    bindEnt (beginStep k tenant unbind shared u s) k v = bindEnt s k v := by
  rw [beginStep_eq, bindEnt_modBind_ne k u _ _ other, bindEnt_congr (stepCleared_bind ..)]

end

theorem claimAUnitInItsStep : ClaimAUnitInItsStep := by
  intro k tenant u unbind shared s
  rw [bindEnt_beginStep_self]
  exact ⟨rfl, rfl, rfl, rfl, fun v other => bindEnt_beginStep_ne k tenant u unbind shared s other⟩

/-- The status that the first unit of a binding command to refuse gives, if one does (R132, R134). -/
def firstRefusal (k : UnitKind) (c : Cmd) (s : State) : Option Nat :=
  (bindUnits k c).findSome? (fun u => bindRefusal s k u (bindTo k c) (pbit c.params 4 5) (bindShares k c) (pbit c.params 4 6))

/-- Every unit of a binding command begins its step. -/
def beginSteps (k : UnitKind) (c : Cmd) (s : State) : State :=
  (bindUnits k c).foldl (fun s u => beginStep k (bindTo k c) (pbit c.params 4 5) (bindShares k c) u s) s

/-- The body of a binding command. -/
def bindBody (k : UnitKind) (c : Cmd) (s : State) : Answer × State :=
  if k == .strand && !s.sec.rngOk then (.done stBUSY [], s)
  else match firstRefusal k c s with
    | some st => (.done st [], s)
    | none => (.later (.bind k (bindUnits k c) 0 false), beginSteps k c s)

theorem bindCmd_eq (op : Nat) (k : UnitKind) (c : Cmd) (s : State) : ∃ echo, bindCmd op k c s = kcpTake op c echo (bindBody k c) s :=
  ⟨_, rfl⟩

/-- Where no unit refuses and the keys that strands need can be had, every unit begins its step. -/
theorem bindBody_of_allowed {k : UnitKind} {c : Cmd} {s : State} (rng : k = .strand → s.sec.rngOk = true)
    (allowed : firstRefusal k c s = none) :
    bindBody k c s = (.later (.bind k (bindUnits k c) 0 false), beginSteps k c s) := by
  have keysServe : (k == .strand && !s.sec.rngOk) = false := by
    by_cases strand : k = .strand
    · simp [rng strand]
    · simp [strand]
  simp only [bindBody, keysServe, allowed, Bool.false_eq_true, if_false]

theorem claimBindingBeginsSteps : ClaimBindingBeginsSteps := by
  intro k op i c s listed runs rng allowed
  have command : exec (i c) s = .next (bindCmd op k c s) := by
    simp only [List.mem_cons, List.not_mem_nil, or_false, Prod.mk.injEq] at listed
    rcases listed with ⟨rfl, rfl, rfl⟩ | ⟨rfl, rfl, rfl⟩ | ⟨rfl, rfl, rfl⟩ | ⟨rfl, rfl, rfl⟩ | ⟨rfl, rfl, rfl⟩ | ⟨rfl, rfl, rfl⟩ |
      ⟨rfl, rfl, rfl⟩ <;> rfl
  obtain ⟨echo, gate⟩ := bindCmd_eq op k c s
  refine ⟨echo, ?_⟩
  rw [command, gate, kcpTake_of_runs runs, bindBody_of_allowed (s := takeNumber c s) (by simpa using rng) allowed]
  rfl

/-- Settles O24: a binding command passes the one gate, and a step that begins changes its own entry. -/
theorem bindingStepsBegin : Obligations.BindingStepsBegin := ⟨claimBindingBeginsSteps, claimAUnitInItsStep⟩

/-! ### A strand's step (R134, R137, R409, R442) -/

/-- A strand's slice as its step finds it: no line of the strand is in the coil, and what is owed is paid or the schedule starts
again. -/
def sliceStepped (st : Nat) (unbind : Bool) (s : State) : State :=
  let s := { s with mem.coil := s.mem.coil.filter (fun e => lineStrand e.1 != st) }
  if unbind then slicePaid st s else if (strandOf s st).power = .selfRefresh then sliceRestarts st s else s

/-- The strand under its new keys. -/
def rekeyed (unbind : Bool) (n : Nat) (old x : Strand) : Strand :=
  { x with gen := x.gen + 1, keyed := true, dataKey := BitVec.ofNat 128 (Config.free n),
           tweakKey := BitVec.ofNat 128 (Config.free (n + 1)),
           power := if old.lostUnit then old.power else if unbind then .selfRefresh else .active }

section
variable (st : Nat) (unbind : Bool) (s : State)

theorem sliceStepped_frame : (sliceStepped st unbind s).bind = s.bind ∧ (sliceStepped st unbind s).draws = s.draws ∧
    (sliceStepped st unbind s).mem.lines = s.mem.lines ∧ (sliceStepped st unbind s).mem.patterns = s.mem.patterns ∧
    (sliceStepped st unbind s).mem.coil = s.mem.coil.filter (fun e => lineStrand e.1 != st) := by
  unfold sliceStepped
  dsimp only
  repeat' split
  all_goals exact ⟨rfl, rfl, rfl, rfl, rfl⟩

theorem sliceStepped_gen : (strandOf (sliceStepped st unbind s) st).gen = (strandOf s st).gen := by
  unfold sliceStepped
  dsimp only
  repeat' split
  · simp only [slicePaid, dropClaims, modStrand, strandOf, tget_tmod_self]
  · simp only [sliceRestarts, dropClaims, modStrand, strandOf, tget_tmod_self]
  · rfl

theorem rekeyStrand_eq : rekeyStrand st unbind s = modBind .strand st (fun e => { e with epoch := (e.epoch + 1) % 65536 })
    (modStrand st (rekeyed unbind (sliceStepped st unbind s).draws (strandOf s st))
      { sliceStepped st unbind s with draws := (sliceStepped st unbind s).draws + 2 }) := rfl

/-- The keys are the next two draws, under the next number (R442). -/
theorem rekeyStrand_keys : (strandOf (rekeyStrand st unbind s) st).gen = (strandOf s st).gen + 1 ∧
    (strandOf (rekeyStrand st unbind s) st).keyed = true ∧
    (strandOf (rekeyStrand st unbind s) st).dataKey = BitVec.ofNat 128 (Config.free s.draws) ∧
    (strandOf (rekeyStrand st unbind s) st).tweakKey = BitVec.ofNat 128 (Config.free (s.draws + 1)) := by
  have strand : strandOf (rekeyStrand st unbind s) st =
      rekeyed unbind (sliceStepped st unbind s).draws (strandOf s st) (strandOf (sliceStepped st unbind s) st) := by
    rw [rekeyStrand_eq, strandOf, (modBind_frame ..).1]
    exact strandOf_modStrand_self ..
  rw [strand, (sliceStepped_frame st unbind s).2.1]
  exact ⟨congrArg (· + 1) (sliceStepped_gen st unbind s), rfl, rfl, rfl⟩

theorem rekeyStrand_bindEnt : bindEnt (rekeyStrand st unbind s) .strand st =
    { bindEnt s .strand st with epoch := ((bindEnt s .strand st).epoch + 1) % 65536 } := by
  have same : ∀ draws f, (modStrand st f { sliceStepped st unbind s with draws := draws }).bind = s.bind :=
    fun _ _ => (sliceStepped_frame st unbind s).1
  rw [rekeyStrand_eq, bindEnt_modBind_self, bindEnt_congr (same ..)]

theorem rekeyStrand_stored : (rekeyStrand st unbind s).mem.lines = s.mem.lines ∧
    (rekeyStrand st unbind s).mem.patterns = s.mem.patterns ∧
    (rekeyStrand st unbind s).mem.coil = s.mem.coil.filter (fun e => lineStrand e.1 != st) := by
  obtain ⟨-, -, lines, patterns, coil⟩ := sliceStepped_frame st unbind s
  rw [rekeyStrand_eq, (modBind_frame ..).1]
  exact ⟨lines, patterns, coil⟩

end

/-! ### Fetches after a change of keys (R137, R416, R417) -/

section
variable {s : State} {line : Nat}

/-- A line written under other keys than the present ones reads as what the present ones make of its bits, where its CHECK fits. -/
theorem matching_of_oldKey {x : StoredLine} (stored : tget none s.mem.lines line = some x)
    (old : x.gen ≠ (strandOf s (lineStrand line)).gen) : matching s line =
      let d := decryptLine (strandOf s (lineStrand line)) line x.raw
      if x.check = checkOf line d (epochOf s (lineStrand line)) x.mark ∧ (x.mark = 0 ∨ x.mark = markPoison) then some (d, x.mark)
      else none := by
  simp only [matching, fetched, stored, if_neg old, Bool.and_eq_true, Bool.or_eq_true, decide_eq_true_eq]

theorem matching_of_nothing (nothing : tget none s.mem.lines line = none)
    (uncovered : s.mem.patterns.any (fun r => r.covers line) = false) : matching s line =
      if Config.strayPass line (strandOf s (lineStrand line)).gen then
        some (Config.strayData line (strandOf s (lineStrand line)).gen, 0) else none := by
  have unknown : s.mem.patterns.find? (fun r => r.covers line) = none := by simpa using uncovered
  simp only [matching, fetched, rawAt, nothing, unknown, Option.map_none]

end

/-- Settles O31: a strand's step changes its keys, their number and its epoch, and nothing that it stores. -/
theorem oldKeysOpenNothing : Obligations.OldKeysOpenNothing := by
  intro st line unbind s here
  obtain ⟨gen, keyed, dataKey, tweakKey⟩ := rekeyStrand_keys st unbind s
  obtain ⟨lines, patterns, -⟩ := rekeyStrand_stored st unbind s
  refine ⟨⟨gen, keyed, dataKey, tweakKey, congrArg BindEnt.epoch (rekeyStrand_bindEnt st unbind s)⟩, fun x stored old => ?_,
    fun nothing uncovered => ?_⟩
  · have notPresent : x.gen ≠ (strandOf (rekeyStrand st unbind s) st).gen := by omega
    rw [matching_of_oldKey (by rw [lines, stored]) (by rwa [here]), here]
  · rw [matching_of_nothing (by rw [lines, nothing]) (by rw [patterns, uncovered]), here]

/-! ### A bind step ends (R130 to R134, R137, R139, R442) -/

theorem journalBind_frame (k : UnitKind) (u : Nat) (s : State) : (journalBind k u s).bind = s.bind ∧
    (journalBind k u s).mem = s.mem := by
  refine Prod.mk.inj (foldl_keeps (fun t : State => (t.bind, t.mem)) _ (fun t r => ?_) _ s)
  repeat' split
  all_goals rfl

theorem stepEffect_bind {k : UnitKind} (keyless : k ≠ .strand) (u : Nat) (unbind : Bool) (s : State) :
    (stepEffect k u unbind s).bind = s.bind := by
  cases k with
  | strand => exact absurd rfl keyless
  | coilWay => exact emptyWay_bind s u
  | engine | port | eid | knots | faultQueue => rfl

/-- A unit's own part of its step changes nothing of its entry but the epoch. -/
theorem stepEffect_bindEnt (k : UnitKind) (u : Nat) (unbind : Bool) (s : State) : bindEnt (stepEffect k u unbind s) k u =
    { bindEnt s k u with epoch := (bindEnt (stepEffect k u unbind s) k u).epoch } := by
  by_cases strand : k = .strand
  · subst strand
    rw [show stepEffect .strand u unbind s = rekeyStrand u unbind s from rfl, rekeyStrand_bindEnt]
  · rw [bindEnt_congr (stepEffect_bind strand u unbind s)]

/-- The entry of a unit whose step has ended. -/
def stepEnded (e : BindEnt) : BindEnt :=
  { e with st := if e.unbind then .unbound else .bound, tenant := if e.unbind then 0 else e.newTenant,
           shared := !e.unbind && e.newShared, newTenant := 0, unbind := false, newShared := false }

/-- The state in which a unit's step has ended, and the command that named the unit has yet to learn of it. -/
def unitStepped (k : UnitKind) (u : Nat) (s : State) : State :=
  modBind k u stepEnded (stepEffect k u (bindEnt s k u).unbind (journalBind k u s))

theorem exec_bindStepComplete_of_ready {k : UnitKind} {u : Nat} {s : State} (stepping : (bindEnt s k u).st = .stepping)
    (ready : stepReady s k u = true) :
    exec (.bindStepComplete k u) s = .next (stepDone k u (bindEnt s k u).isLost (unitStepped k u s)) := by
  simp only [exec, execBindStepComplete, stepping, ready, bne_self_eq_false, Bool.not_true, Bool.or_self, Bool.false_eq_true,
    if_false]
  rfl

section
variable (u : Nat) (s : State)

theorem unitStepped_entry (k : UnitKind) :
    (bindEnt (unitStepped k u s) k u).st = (if (bindEnt s k u).unbind then .unbound else .bound) ∧
    (bindEnt (unitStepped k u s) k u).tenant = (if (bindEnt s k u).unbind then 0 else (bindEnt s k u).newTenant) := by
  rw [unitStepped, bindEnt_modBind_self, stepEffect_bindEnt, bindEnt_congr (journalBind_frame k u s).1]
  exact ⟨rfl, rfl⟩

theorem unitStepped_frame (k : UnitKind) :
    (unitStepped k u s).mem = (stepEffect k u (bindEnt s k u).unbind (journalBind k u s)).mem ∧
    (unitStepped k u s).eng = (stepEffect k u (bindEnt s k u).unbind (journalBind k u s)).eng ∧
    (unitStepped k u s).belay = (stepEffect k u (bindEnt s k u).unbind (journalBind k u s)).belay := by
  simp [unitStepped]

/-- A strand is under a new key and in a new epoch, and no line of it is in the coil. -/
theorem unitStepped_strand : (strandOf (unitStepped .strand u s) u).gen = (strandOf s u).gen + 1 ∧
    (strandOf (unitStepped .strand u s) u).keyed = true ∧
    (bindEnt (unitStepped .strand u s) .strand u).epoch = ((bindEnt s .strand u).epoch + 1) % 65536 ∧
    ∀ e ∈ (unitStepped .strand u s).mem.coil, lineStrand e.1 ≠ u := by
  obtain ⟨bind, mem⟩ := journalBind_frame .strand u s
  have stepped : (unitStepped .strand u s).mem = (rekeyStrand u (bindEnt s .strand u).unbind (journalBind .strand u s)).mem :=
    (unitStepped_frame u s .strand).1
  obtain ⟨gen, keyed, -, -⟩ := rekeyStrand_keys u (bindEnt s .strand u).unbind (journalBind .strand u s)
  obtain ⟨-, -, coil⟩ := rekeyStrand_stored u (bindEnt s .strand u).unbind (journalBind .strand u s)
  refine ⟨?_, ?_, ?_, fun e listed => ?_⟩
  · rw [strandOf, stepped, strandOf, ← mem]; exact gen
  · rw [strandOf, stepped]; exact keyed
  · rw [unitStepped, bindEnt_modBind_self, ← bindEnt_congr bind]
    exact congrArg BindEnt.epoch (rekeyStrand_bindEnt u _ _)
  · rw [stepped, coil] at listed
    simpa using (List.mem_filter.mp listed).2

theorem unitStepped_engine : (tget {} (unitStepped .engine u s).eng.cores u).flags = 0 ∧
    (tget {} (unitStepped .engine u s).eng.cores u).ctxs = [] := by
  rw [(unitStepped_frame u s .engine).2.1]
  simp only [stepEffect, modCore, tget_tmod_self, and_self]

theorem unitStepped_knots : ∀ e ∈ (unitStepped .knots u s).belay.knots, e.1 / 256 ≠ u := by
  rw [(unitStepped_frame u s .knots).2.2]
  simp [stepEffect]

end

/-- Settles O25: the entry of any unit, and what the step is to each kind that has something of its tenant to lose. -/
theorem bindStepCompletes : Obligations.BindStepCompletes := by
  intro k u s stepping ready
  obtain ⟨st, tenant⟩ := unitStepped_entry u s k
  refine ⟨unitStepped k u s, exec_bindStepComplete_of_ready stepping ready, st, tenant, ?strand, ?engine, ?knots⟩
  case strand => rintro rfl; exact unitStepped_strand u s
  case engine => rintro rfl; exact unitStepped_engine u s
  case knots => rintro rfl; exact unitStepped_knots u s

/-! ### Extents are granted and read (R140, R141, R143, R476) -/

theorem mem_insertExtent {e x : Extent} : ∀ {l : List Extent}, x ∈ insertExtent e l ↔ x = e ∨ x ∈ l
  | [] => by simp [insertExtent]
  | y :: l => by
    rw [insertExtent]
    split
    · simp
    · simp [mem_insertExtent (l := l), or_left_comm]

/-- A search that no extent of the list meets finds the one that is inserted. -/
theorem find?_insertExtent {p : Extent → Bool} {e : Extent} (meets : p e = true) : ∀ {l : List Extent}, (∀ x ∈ l, p x = false) →
    (insertExtent e l).find? p = some e
  | [], _ => by simp [insertExtent, meets]
  | y :: l, others => by
    obtain ⟨first, rest⟩ := List.forall_mem_cons.mp others
    rw [insertExtent]
    split
    · simp [meets]
    · simp [first, find?_insertExtent meets rest]

theorem one_le_clampTo {hi : Nat} (some : 1 ≤ hi) (x : Nat) : 1 ≤ clampTo 1 hi x := by
  unfold clampTo
  split
  · exact le_refl 1
  · split <;> omega

/-- An extent of the device overlaps the granules from a base on. -/
def clashes (base n : Nat) (s : State) : Bool :=
  s.bind.extents.any (fun e => e.base < base + 0x200000 * n && base < e.base + 0x200000 * e.granules)

/-- The device with one extent more. -/
def extentGranted (e : Extent) (s : State) : State := { s with bind.extents := insertExtent e s.bind.extents }

/-- An extent that clashes with none is the one found at its base. -/
theorem extentAt_extentGranted {e : Extent} {s : State} (nonempty : 1 ≤ e.granules) (clear : clashes e.base e.granules s = false) :
    extentAt (extentGranted e s) e.base = some e := by
  refine find?_insertExtent (by simp; omega) fun x listed => ?_
  have apart := List.any_eq_false.mp clear x listed
  simp only [Bool.and_eq_true, decide_eq_true_eq, not_and, not_lt] at apart
  simp only [Bool.and_eq_false_iff, decide_eq_false_iff_not, not_le, not_lt]
  omega

/-- The body of GRANT_EXTENT. -/
def grantBody (st : Nat) (e : Extent) (s : State) : Nat × List Byte × State :=
  if strandTenant s st != some e.tenant then (stDENIED, [], s)
  else if (strandOf s st).lostUnit then (stDEGRADED, [], s)
  else if clashes e.base e.granules s || extentLimit ≤ s.bind.extents.length then (stDENIED, [], s)
  else (stOK, [], extentGranted e s)

/-- The extent that GRANT_EXTENT names. -/
def grantedExtent (c : Cmd) : Extent :=
  let raw := pnum c.params 0 8 % 2 ^ 41
  let g := min (strandGranules - 1) (ppaOffset raw / 0x200000)
  { base := ppaStrand raw * 0x100000000 + 0x200000 * g,
    granules := min (clampTo 1 strandGranules (pnum c.params 8 4)) (strandGranules - g),
    tenant := pbits c.params 12 0 5 }

theorem grantedExtent_nonempty (c : Cmd) : 1 ≤ (grantedExtent c).granules := by
  have clamped : 1 ≤ clampTo 1 1536 (pnum c.params 8 4) := one_le_clampTo (by decide) _
  simp only [grantedExtent, strandGranules]
  omega

theorem strandState_takeNumber (c : Cmd) (s : State) (st : Nat) :
    strandTenant (takeNumber c s) st = strandTenant s st ∧ strandOf (takeNumber c s) st = strandOf s st := by
  simp [strandTenant, strandOf]

theorem exec_grantExtent_of_runs {c : Cmd} {s : State} (runs : Runs 0x208 c s) :
    let done := grantBody (ppaStrand (pnum c.params 0 8 % 2 ^ 41)) (grantedExtent c) (takeNumber c s)
    ∃ echo, exec (.grantExtent c) s = .next (answer 0x208 c echo (.done done.1 done.2.1) done.2.2) :=
  ⟨_, congrArg Host.Outcome.next (kcpNow_of_runs runs _)⟩

section
variable {st : Nat} {e : Extent} {s : State}

theorem grantBody_of_foreign (foreign : strandTenant s st ≠ some e.tenant) : grantBody st e s = (stDENIED, [], s) := by
  simp [grantBody, foreign]

variable (own : strandTenant s st = some e.tenant)
include own

theorem grantBody_of_lost (lost : (strandOf s st).lostUnit = true) : grantBody st e s = (stDEGRADED, [], s) := by
  simp [grantBody, own, lost]

variable (serves : (strandOf s st).lostUnit = false)
include serves

theorem grantBody_of_noRoom (noRoom : clashes e.base e.granules s = true ∨ extentLimit ≤ s.bind.extents.length) :
    grantBody st e s = (stDENIED, [], s) := by
  have full : (clashes e.base e.granules s || decide (extentLimit ≤ s.bind.extents.length)) = true := by simpa using noRoom
  simp only [grantBody, own, serves, full, bne_self_eq_false, Bool.false_eq_true, if_false, if_true]

theorem grantBody_of_room (clear : clashes e.base e.granules s = false) (room : s.bind.extents.length < extentLimit) :
    grantBody st e s = (stOK, [], extentGranted e s) := by
  simp only [grantBody, own, serves, clear, Nat.not_le.mpr room, bne_self_eq_false, Bool.false_eq_true, if_false, decide_false,
    Bool.or_self]

end

/-- READ_EXTENTS answers the operator and the tenant of the strand. -/
theorem exec_readExtents_allowed {c : Cmd} {s : State} (runs : Runs 0x20C c s)
    (mine : c.tenant = 0 ∨ strandTenant s (min 511 (pnum c.params 0 2)) = some c.tenant) : ∃ res, RepliesWith 0x20C c
      (if (strandOf s (min 511 (pnum c.params 0 2))).lostUnit then stDEGRADED else stOK) res (takeNumber c s)
      (exec (.readExtents c) s) := by
  have asked : (decide (c.tenant = 0) || decide (strandTenant s (min 511 (pnum c.params 0 2)) = some c.tenant)) = true := by
    simpa using mine
  simp only [exec, execReadExtents, kcpNow_of_runs runs, asked, Bool.not_true, Bool.false_eq_true, if_false, if_true,
    (strandState_takeNumber c s _).2]
  exact ⟨_, _, rfl⟩

theorem exec_readExtents_denied {c : Cmd} {s : State} (runs : Runs 0x20C c s) (notOperator : c.tenant ≠ 0)
    (foreign : strandTenant s (min 511 (pnum c.params 0 2)) ≠ some c.tenant) :
    RepliesWith 0x20C c stDENIED [] (takeNumber c s) (exec (.readExtents c) s) := by
  have asked : (decide (c.tenant = 0) || decide (strandTenant s (min 511 (pnum c.params 0 2)) = some c.tenant)) = false := by
    simp [notOperator, foreign]
  simp only [exec, execReadExtents, kcpNow_of_runs runs, asked, Bool.not_false, if_true]
  exact ⟨_, rfl⟩

theorem claimExtentsAreGranted : ClaimExtentsAreGranted := by
  refine ⟨fun c s runs => ?_, fun c s runs => ⟨exec_readExtents_allowed runs, exec_readExtents_denied runs⟩⟩
  obtain ⟨echo, replied⟩ := exec_grantExtent_of_runs runs
  obtain ⟨tenant, strand⟩ := strandState_takeNumber c s (ppaStrand (pnum c.params 0 8 % 2 ^ 41))
  have bind : (takeNumber c s).bind = s.bind := by simp
  refine ⟨fun own lost => ?_, fun own serves clear room => ?_, fun refused => ?_⟩
  · rw [grantBody_of_lost (tenant.trans own) (by rw [strand, lost])] at replied
    exact ⟨echo, replied⟩
  · have clear : clashes (grantedExtent c).base (grantedExtent c).granules (takeNumber c s) = false := by
      rw [clashes, bind]; exact clear
    rw [grantBody_of_room (tenant.trans own) (by rw [strand, serves]) clear (by rwa [bind])] at replied
    refine ⟨_, ⟨echo, replied⟩, rfl, extentAt_extentGranted (grantedExtent_nonempty c) clear, fun e listed => ?_⟩
    exact mem_insertExtent.mpr (.inr (by rwa [bind]))
  · have denied : grantBody (ppaStrand (pnum c.params 0 8 % 2 ^ 41)) (grantedExtent c) (takeNumber c s) =
        (stDENIED, [], takeNumber c s) := by
      by_cases own : strandTenant s (ppaStrand (pnum c.params 0 8 % 2 ^ 41)) = some (grantedExtent c).tenant
      · obtain ⟨serves, noRoom⟩ := refused.resolve_left (not_not_intro own)
        refine grantBody_of_noRoom (tenant.trans own) (by rw [strand, serves]) ?_
        rw [clashes, bind]
        exact noRoom
      · exact grantBody_of_foreign (by rwa [tenant])
    rw [denied] at replied
    exact ⟨echo, replied⟩

/-! ### Extents are revoked (R144 to R148) -/

/-- The revocation of an extent as REVOKE_EXTENT begins it. -/
def revocationBegun (abrupt : Bool) (e : Extent) (s : State) : State :=
  if abrupt then revokeAbrupt e (dropRecords e (endSeal e stREVOKED s)) else revokeGraceful e (dropRecords e (endSeal e stREVOKED s))

theorem revocationBegun_eq (abrupt : Bool) (e : Extent) (s : State) : revocationBegun abrupt e s =
    (if abrupt then revokeAbrupt e else revokeGraceful e) (dropRecords e (endSeal e stREVOKED s)) := by
  cases abrupt <;> rfl

/-- The body of REVOKE_EXTENT. -/
def revokeBody (c : Cmd) (s : State) : Answer × State :=
  match extentAt s (pnum c.params 0 8) with
  | none => (.done stDENIED [], s)
  | some e =>
    if e.st = .dropping || (e.st = .draining && !pbit c.params 8 0) then (.done stBUSY [], s)
    else (.later (.revoke e.base), revocationBegun (pbit c.params 8 0) e s)

theorem revokeBody_of_granted {c : Cmd} {s : State} {e : Extent} (found : extentAt s (pnum c.params 0 8) = some e)
    (granted : e.st = .granted) : revokeBody c s = (.later (.revoke e.base), revocationBegun (pbit c.params 8 0) e s) := by
  simp [revokeBody, found, granted]

/-- Where the command changes the extents, what follows at the home follows at once. -/
theorem exec_revokeExtent (c : Cmd) (s : State) : ∃ echo, exec (.revokeExtent c) s = .next
    (if (kcpTake 0x209 c echo (revokeBody c) s).bind.extents = s.bind.extents then kcpTake 0x209 c echo (revokeBody c) s
     else settleHome (kcpTake 0x209 c echo (revokeBody c) s)) := ⟨_, rfl⟩

theorem claimRevocationStarts : ClaimRevocationStarts := by
  intro c s e runs found granted
  obtain ⟨echo, command⟩ := exec_revokeExtent c s
  have same : extentAt (takeNumber c s) (pnum c.params 0 8) = some e := by rw [← found]; simp [extentAt]
  rw [kcpTake_of_runs runs, revokeBody_of_granted same granted, revocationBegun_eq] at command
  exact ⟨echo, _, command, ite_eq_or_eq ..⟩

section
variable {base : Nat} {s : State} {e : Extent} {r : Revocation} (found : extentAt s base = some e) (revoked : e.revocation = some r)
include found revoked

theorem exec_revokeDrainDeadline_early (early : e.st ≠ .draining ∨ r.drained = true ∨ plmc s < r.drainAt) :
    exec (.revokeDrainDeadline base) s = .next s := by
  have waits : (e.st != .draining || r.drained || decide (plmc s < r.drainAt)) = true := by simpa [or_assoc] using early
  simp only [exec, execRevokeDrainDeadline, found, revoked, waits, if_true]

theorem exec_revokeDrainDeadline_due (draining : e.st = .draining) (first : r.drained = false) (due : r.drainAt ≤ plmc s) :
    exec (.revokeDrainDeadline base) s = .next (settleHome (revokeAccesses e false
      (modExtent e.base (fun e => { e with revocation := some { r with drained := true } }) s))) := by
  simp only [exec, execRevokeDrainDeadline, found, revoked, draining, first, Nat.not_lt.mpr due, bne_self_eq_false, Bool.or_self,
    decide_false, Bool.false_eq_true, if_false]

/-- At T nothing is left to poison where no line of the extent is busy or in the directory. -/
theorem exec_revokeFinalDeadline_quiet {e' : Extent} (revoking : e.st ≠ .granted) (due : r.finalAt ≤ plmc s)
    (noBusy : s.coh.busy.any (fun b => inExtent e b.line) = false)
    (noEntry : (revokeAccesses e true s).coh.dir.any (fun d => inExtent e d.1) = false)
    (left : extentAt (revokeAccesses e true s) base = some e') :
    exec (.revokeFinalDeadline base) s = .next (settleHome (freeExtent e' (revokeAccesses e true s))) := by
  have noOpen : s.coh.busy.filter (fun b => inExtent e b.line) = [] := by simpa [List.filter_eq_nil_iff] using noBusy
  have noListed : (revokeAccesses e true s).coh.dir.filter (fun d => inExtent e d.1) = [] := by
    simpa [List.filter_eq_nil_iff] using noEntry
  simp only [exec, execRevokeFinalDeadline, found, revoked, revoking, Nat.not_lt.mpr due, decide_false, Bool.or_self,
    Bool.false_eq_true, if_false, noOpen, List.foldl_nil, noListed, left]

end

/-- An extent that is FREE leaves the table, and with it nothing else. -/
theorem freeExtent_frame (e : Extent) (s : State) :
    (freeExtent e s).bind.extents = s.bind.extents.filter (fun x => x.base != e.base) ∧ (freeExtent e s).mem = s.mem :=
  ⟨foldl_keeps (·.bind.extents) _ (by simp) _ _, foldl_keeps (·.mem) _ (by simp) _ _⟩

theorem claimRevocationEnds : ClaimRevocationEnds := by
  refine ⟨fun base s e r found revoked => ⟨exec_revokeDrainDeadline_early found revoked, exec_revokeDrainDeadline_due found revoked⟩,
    fun base s e e' r found revoked => exec_revokeFinalDeadline_quiet found revoked, fun e s => ?_⟩
  obtain ⟨extents, mem⟩ := freeExtent_frame e s
  rw [extents]
  exact ⟨fun x listed => by simpa using (List.mem_filter.mp listed).2,
    fun x listed other => List.mem_filter.mpr ⟨listed, by simpa using other⟩, mem⟩

/-- Settles O26, from how an extent is granted, how its revocation starts, and how it ends. -/
theorem extentsAreGrantedAndRevoked : Obligations.ExtentsAreGrantedAndRevoked :=
  ⟨claimExtentsAreGranted, claimRevocationStarts, claimRevocationEnds⟩

/-! ### Sealing and unsealing (R155 to R158) -/

/-- A tenant's sealing is in force. -/
def withSealInForce (t n : Nat) (s : State) : State :=
  { s with bind.sealSlots := tset 0 s.bind.sealSlots t n, bind.sealPending := tset (0, 0) s.bind.sealPending t (0, 0) }

/-- A tenant's sealing has ended. -/
def withSealEnded (t : Nat) (s : State) : State :=
  { s with bind.sealSlots := tset 0 s.bind.sealSlots t 0, bind.unsealPending := tset 0 s.bind.unsealPending t 0 }

section
variable {t a n : Nat} {s : State}

theorem exec_sealingEffective_due (asked : tget (0, 0) s.bind.sealPending t = (n, a)) (slots : n ≠ 0) (due : a ≤ lmc s) :
    exec (.sealingEffective t) s = .next (withSealInForce t n s) := by
  simp only [exec, execSealingEffective, asked, slots, Nat.not_lt.mpr due, decide_false, Bool.or_self, Bool.false_eq_true, if_false]
  rfl

theorem exec_sealingEffective_early (asked : tget (0, 0) s.bind.sealPending t = (n, a)) (early : lmc s < a) :
    exec (.sealingEffective t) s = .next s := by
  simp only [exec, execSealingEffective, asked, early, decide_true, Bool.or_true, if_true]

theorem exec_unsealingEffective_due (asked : tget 0 s.bind.unsealPending t = a) (waits : a ≠ 0) (due : a ≤ lmc s) :
    exec (.unsealingEffective t) s = .next (withSealEnded t s) := by
  simp only [exec, execUnsealingEffective, asked, waits, Nat.not_lt.mpr due, decide_false, Bool.or_self, Bool.false_eq_true, if_false]
  rfl

end

/-- Scaling the shares of a quadrant writes registers alone (R158). -/
theorem scaleQuadrant_frame (t limit q : Nat) (s : State) :
    (scaleQuadrant t limit q s).bind = s.bind ∧ (scaleQuadrant t limit q s).time = s.time := by
  unfold scaleQuadrant
  dsimp only
  split
  · exact ⟨rfl, rfl⟩
  · generalize (List.range 24).map (24 * q + ·) = ports
    exact ⟨foldl_keeps (·.bind) (fun s p => forceField _ 0 0 _ s) (fun _ _ => rfl) _ _,
      foldl_keeps (·.time) (fun s p => forceField _ 0 0 _ s) (fun _ _ => rfl) _ _⟩

/-- The tenant that SET_SEALED names. -/
def sealTenant (c : Cmd) : Nat := max 1 (pbits c.params 0 0 5)

/-- The slots that SET_SEALED asks for, within what the other tenants leave (R155). -/
def sealSlots (c : Cmd) (s : State) : Nat := min (clampTo 1 4 (pnum c.params 2 1)) (4 - otherSlots s (sealTenant c))

/-- A sealing is accepted: its shares are scaled, and it waits for its mark (R157, R158). -/
def sealAccepted (t slots : Nat) (s : State) : State :=
  let x := (List.range 4).foldl (fun s q => scaleQuadrant t (44 * slots) q s) s
  { x with bind.sealPending := tset (0, 0) x.bind.sealPending t (slots, max (lmc s) (lastBooking s t) + 1),
           bind.unsealPending := tset 0 x.bind.unsealPending t 0 }

/-- The sealing that is accepted waits for a mark to come, with the slots asked for. -/
theorem sealAccepted_pending (t slots : Nat) (s : State) : tget (0, 0) (sealAccepted t slots s).bind.sealPending t =
    (slots, max (lmc s) (lastBooking s t) + 1) := tget_tset_self ..

/-- A shared port carries an EID of the tenant. -/
def sharesPort (t : Nat) (s : State) : Bool := (List.range 96).any (fun p => portShared s p && carriesTenant s p t)

theorem sharesPort_takeNumber (t : Nat) (c : Cmd) (s : State) : sharesPort t (takeNumber c s) = sharesPort t s := by
  have carries : carriesEid (takeNumber c s) = carriesEid s := by
    funext p eid
    simp only [carriesEid, portUp, portOf, routeOf, routeIn, takeNumber_frame]
  simp only [sharesPort, portShared, carriesTenant, tenantEids, eidTenant, carries, takeNumber_frame]

/-- The end of a tenant's sealing is asked for: one that is not yet in force is given up, one that is ends at the next mark. -/
def unsealAccepted (t : Nat) (s : State) : State :=
  { s with bind.sealPending := tset (0, 0) s.bind.sealPending t (0, 0),
           bind.unsealPending := if sealedTenant s t then tset 0 s.bind.unsealPending t (lmc s + 1) else s.bind.unsealPending }

/-- The body of SET_SEALED (R155 to R158). -/
def setSealedBody (c : Cmd) (slots : Nat) (s : State) : Nat × List Byte × State :=
  if slots = 0 then (stDENIED, [], s)
  else if !pbit c.params 1 0 then (stOK, [], unsealAccepted (sealTenant c) s)
  else if sharesPort (sealTenant c) s then (stDENIED, [], s)
  else (stOK, [], sealAccepted (sealTenant c) slots s)

theorem exec_setSealed (c : Cmd) (s : State) :
    ∃ echo, exec (.setSealed c) s = .next (kcpNow 0x20A c echo (setSealedBody c (sealSlots c s)) s) := by
  unfold setSealedBody sealAccepted sealSlots sealTenant sharesPort unsealAccepted
  exact ⟨_, rfl⟩

/-- A sealing is accepted at once for a tenant with room whose EIDs are on no shared port (R156; log entry 64). -/
theorem exec_setSealed_accepted {c : Cmd} {s : State} (runs : Runs 0x20A c s) (enable : pbit c.params 1 0 = true)
    (room : sealSlots c s ≠ 0) (apart : sharesPort (sealTenant c) s = false) :
    RepliesWith 0x20A c stOK [] (sealAccepted (sealTenant c) (sealSlots c s) (takeNumber c s)) (exec (.setSealed c) s) := by
  have accepted : setSealedBody c (sealSlots c s) (takeNumber c s) =
      (stOK, [], sealAccepted (sealTenant c) (sealSlots c s) (takeNumber c s)) := by
    simp only [setSealedBody, if_neg room, enable, sharesPort_takeNumber, apart, Bool.not_true, Bool.false_eq_true, if_false]
  obtain ⟨echo, command⟩ := exec_setSealed c s
  rw [kcpNow_of_runs runs, accepted] at command
  exact ⟨echo, command⟩

/-- Settles O27: a sealing is asked for, takes effect at its mark, and ends at another. -/
theorem sealingTakesEffect : Obligations.SealingTakesEffect := by
  refine ⟨fun t a n s asked slots due => ?_, fun t a n s asked early => exec_sealingEffective_early asked early,
    fun t a s asked waits due => ?_, fun c s runs enable room apart => ?_⟩
  · have held : tget 0 (withSealInForce t n s).bind.sealSlots t = n := tget_tset_self ..
    exact ⟨_, exec_sealingEffective_due asked slots due, held, by simpa [sealedTenant, held] using slots, rfl⟩
  · exact ⟨_, exec_unsealingEffective_due asked waits due, tget_tset_self 0 s.bind.sealSlots t 0, rfl⟩
  · have now : lmc (takeNumber c s) = lmc s := by simp [lmc]
    have pending := sealAccepted_pending (sealTenant c) (sealSlots c s) (takeNumber c s)
    refine ⟨_, exec_setSealed_accepted runs enable room apart, ?_, congrArg Prod.fst pending⟩
    rw [show max 1 (pbits c.params 0 0 5) = sealTenant c from rfl, pending]
    omega

end Sys2Proof.Machine

/-! PROOFS. Translation and page swaps (section 05): the commands over the table roots and the translation caches, walks that
end, fault records, and the transfers of the swap unit. -/
namespace Sys2Proof.Machine

/-! ### Removed translations (R174) -/

theorem dropEngineReads_frame (core k : Nat) (s : State) :
    (dropEngineReads core k s).xlat = s.xlat ∧ (dropEngineReads core k s).mem = s.mem := by
  simp only [dropEngineReads]
  split <;> exact ⟨rfl, rfl⟩

/-- Taking tiles up afresh touches the contexts and their reads alone. -/
@[simp] theorem dropTiles_frame (t : Nat) (s : State) : (dropTiles t s).xlat = s.xlat ∧ (dropTiles t s).mem = s.mem := by
  constructor
  · refine foldl_keeps (·.xlat) _ (fun u e => ?_) _ _
    split <;> simp [dropEngineReads_frame]
  · refine foldl_keeps (·.mem) _ (fun u e => ?_) _ _
    split <;> simp [dropEngineReads_frame]

/-! ### A command's body (R101, R117) -/

theorem takeNumber_xlat (c : Cmd) (s : State) : (takeNumber c s).xlat = s.xlat := by simp

theorem Runs.serves {op : Nat} {c : Cmd} {s : State} (runs : Runs op c s) : serving s = true := runs.1

/-- A command that runs and replies at once answers with what its body makes of the state in which its number is taken. -/
theorem kcpNow_of_body {op st : Nat} {c : Cmd} {echo res : List Byte} {s t : State} {body : State → Nat × List Byte × State}
    (runs : Runs op c s) (does : body (takeNumber c s) = (st, res, t)) : kcpNow op c echo body s =
    answer op c echo (.done st res) t := by
  rw [kcpNow_of_runs runs, does]

/-! ### Table roots (R169) -/

/-- The root that SET_TABLE_ROOT names. -/
def namedRoot (ps : List Byte) : Root :=
  { ppa := pnum ps 0 8 % 2 ^ 41 / 4096 * 4096, enable := pbit ps 8 0, engineQueue := min 63 (pnum ps 9 1),
    linkQueue := min 63 (pnum ps 10 1) }

/-- A tenant walks from another root, and nothing translated from the old one is left. -/
def rooted (t : Nat) (r : Root) (s : State) : State :=
  dropTiles t { s with xlat.roots := tset none s.xlat.roots t (some r),
                       xlat.cache := s.xlat.cache.filter (fun x => !(x.tenant == t)) }

theorem fqTenant_takeNumber (c : Cmd) (s : State) (q : Nat) : fqTenant (takeNumber c s) q = fqTenant s q := by
  simp only [fqTenant, takeNumber_frame]

theorem inExtents_takeNumber (c : Cmd) (s : State) (t ppa size : Nat) :
    inExtents (takeNumber c s) t ppa size = inExtents s t ppa size := by
  simp only [inExtents, extentAt, takeNumber_frame]

theorem exec_setTableRoot_own {c : Cmd} {s : State} (runs : Runs 0x301 c s)
    (table : (namedRoot c.params).enable = false ∨ inExtents s c.tenant (namedRoot c.params).ppa 4096 = true)
    (engineQueue : fqTenant s (namedRoot c.params).engineQueue = some c.tenant)
    (linkQueue : fqTenant s (namedRoot c.params).linkQueue = some c.tenant) :
    ∃ n, RepliesWith 0x301 c stOK (le 4 n) (rooted c.tenant (namedRoot c.params) (takeNumber c s))
      (exec (.setTableRoot c) s) := by
  have own : ((namedRoot c.params).enable && !inExtents (takeNumber c s) c.tenant (namedRoot c.params).ppa 4096 ||
      fqTenant (takeNumber c s) (namedRoot c.params).engineQueue != some c.tenant ||
      fqTenant (takeNumber c s) (namedRoot c.params).linkQueue != some c.tenant) = false := by
    rw [inExtents_takeNumber, fqTenant_takeNumber, fqTenant_takeNumber, engineQueue, linkQueue]
    rcases table with table | table <;> simp [table]
  simp only [namedRoot] at own
  exact ⟨_, _, congrArg Host.Outcome.next (kcpNow_of_body runs (if_neg (ne_true_of_eq_false own)))⟩

theorem rooted_effect (t : Nat) (r : Root) (s : State) : rootOf (rooted t r s) t = some r ∧
    (∀ x ∈ (rooted t r s).xlat.cache, x.tenant ≠ t) ∧
    (∀ x ∈ s.xlat.cache, x.tenant ≠ t → x ∈ (rooted t r s).xlat.cache) ∧ (rooted t r s).mem = s.mem := by
  simp only [rooted, rootOf, dropTiles_frame, tget_tset_self, List.mem_filter, Bool.not_eq_true', beq_eq_false_iff_ne]
  exact ⟨trivial, fun x hx => hx.2, fun x hx other => ⟨hx, other⟩, trivial⟩

/-! ### Commands that walk tables (R168, R173, R176, R189) -/

/-- Where no table line has to be fetched, a command over tables runs, and what was gathered for it is forgotten. -/
theorem whenTables_of_ready {t : Nat} {pages : List (Nat × Bool)} {s : State} (serves : serving s = true)
    (thawed : frozen s = false) (ready : pages.findSome? (fun p => walkWaits t p.1 p.2 s) = none) (f : State → State) :
    whenTables t pages f s = clearGathered t (f s) := by
  simp only [whenTables, serves, thawed, ready, Bool.not_true, Bool.or_self, Bool.false_eq_true, if_false]

/-! ### INVALIDATE and UNPIN_TRANSLATION (R173, R174, R176) -/

/-- INVALIDATE names a cache entry: one of the caller's, in its range where it has one. -/
def invalidates (c : Cmd) (x : CacheEnt) : Bool :=
  x.tenant == c.tenant && (pbit c.params 16 0 || overlaps x (rangeParams c.params).1 (rangeParams c.params).2)

/-- Entries that INVALIDATE names are gone unless they are pinned, and walks under way enter nothing. -/
def invalidated (c : Cmd) (s : State) : State :=
  dropTiles c.tenant { s with
    xlat.cache := s.xlat.cache.filter (fun x => !(invalidates c x && !x.pinned)),
    xlat.walks := s.xlat.walks.map (fun w => if w.tenant = c.tenant then { w with noFill := true } else w) }

/-- Nothing is pinned again where nothing of the caller's is pinned. -/
theorem exec_invalidate_unpinned {c : Cmd} {s : State} (runs : Runs 0x302 c s) (thawed : frozen s = false)
    (unpinned : ∀ x ∈ s.xlat.cache, x.tenant = c.tenant → x.pinned = false) : ∃ echo, exec (.invalidate c) s =
      .next (clearGathered c.tenant (answer 0x302 c echo
        (.done stOK (le 4 (s.xlat.cache.countP (fun x => invalidates c x && !x.pinned)) ++ le 4 0 ++ le 4 0))
        (invalidated c (takeNumber c s)))) := by
  have pins : s.xlat.cache.filter (fun x => invalidates c x && x.pinned) = [] :=
    List.filter_eq_nil_iff.mpr fun x hx => by
      by_cases mine : x.tenant = c.tenant <;> simp [invalidates, mine, unpinned x hx]
  simp only [invalidates] at pins
  refine ⟨_, congrArg Host.Outcome.next ((whenTables_of_ready runs.serves thawed (by rw [pins]; rfl) _).trans
    (congrArg _ (kcpNow_of_body runs ?_)))⟩
  simp only [takeNumber_xlat, pins, invalidated, invalidates, List.foldl_nil]

theorem invalidated_effect {c : Cmd} {s : State} (unpinned : ∀ x ∈ s.xlat.cache, x.tenant = c.tenant → x.pinned = false) :
    (∀ x ∈ (invalidated c s).xlat.cache, x.tenant = c.tenant → pbit c.params 16 0 = false ∧
      overlaps x (rangeParams c.params).1 (rangeParams c.params).2 = false) ∧
    (∀ x ∈ s.xlat.cache, x.tenant ≠ c.tenant → x ∈ (invalidated c s).xlat.cache) ∧
    (∀ w ∈ (invalidated c s).xlat.walks, w.tenant = c.tenant → w.noFill = true) ∧ (invalidated c s).mem = s.mem := by
  simp only [invalidated, dropTiles_frame, List.mem_filter, List.mem_map]
  refine ⟨fun x ⟨cached, kept⟩ mine => ?_, fun x cached other => ⟨cached, ?_⟩, ?_, trivial⟩
  · simpa [invalidates, mine, unpinned x cached mine] using kept
  · simp [invalidates, other]
  · rintro w ⟨v, -, rfl⟩ mine
    by_cases own : v.tenant = c.tenant
    · rw [if_pos own]
    · rw [if_neg own] at mine
      exact absurd mine own

/-- The quadrants that PIN_TRANSLATION and UNPIN_TRANSLATION select: quadrant 0 where they name none. -/
def selectedQuadrants (c : Cmd) : Nat := if pbits c.params 16 0 4 = 0 then 1 else pbits c.params 16 0 4

/-- UNPIN_TRANSLATION names a pinned entry of the caller's. -/
def unpins (c : Cmd) (x : CacheEnt) : Bool :=
  x.tenant == c.tenant && x.pinned && bit (selectedQuadrants c) x.quadrant &&
    overlaps x (rangeParams c.params).1 (rangeParams c.params).2

/-- The caches in which the entries that UNPIN_TRANSLATION names are pinned no more. -/
def pinsRemoved (c : Cmd) (s : State) : State :=
  { s with xlat.cache := s.xlat.cache.map (fun x => if unpins c x then { x with pinned := false } else x) }

theorem exec_unpinTranslation_of_runs {c : Cmd} {s : State} (runs : Runs 0x304 c s) :
    RepliesWith 0x304 c stOK (le 4 ((takeNumber c s).xlat.cache.countP (unpins c))) (pinsRemoved c (takeNumber c s))
      (exec (.unpinTranslation c) s) :=
  ⟨_, congrArg Host.Outcome.next (kcpNow_of_body runs rfl)⟩

theorem pinsRemoved_effect (c : Cmd) (s : State) :
    (∀ x ∈ (pinsRemoved c s).xlat.cache, x.tenant = c.tenant → bit (selectedQuadrants c) x.quadrant = true →
      overlaps x (rangeParams c.params).1 (rangeParams c.params).2 = true → x.pinned = false) ∧
    (pinsRemoved c s).xlat.cache.length = s.xlat.cache.length ∧ (pinsRemoved c s).mem = s.mem := by
  refine ⟨fun x hx mine selected inRange => ?_, List.length_map .., rfl⟩
  obtain ⟨y, -, rfl⟩ := List.mem_map.mp hx
  by_cases named : unpins c y = true
  · rw [if_pos named]
  · rw [if_neg named] at mine selected inRange ⊢
    simpa [unpins, mine, selected, inRange] using named

/-! ### PIN_TRANSLATION (R176) -/

/-- Every leaf of a list is entered in a quadrant's caches, pinned. -/
def pinLeaves (ls : List CacheEnt) (s : State) (q : Nat) : State :=
  ls.foldl (fun s x => fillOne { x with quadrant := q, pinned := true } s) s

theorem exec_pinTranslation_room {c : Cmd} {s s' : State} {ls : List CacheEnt} (runs : Runs 0x303 c s)
    (thawed : frozen s = false)
    (ready : (rangeWaits c.tenant ((rangeParams c.params).1 + (rangeParams c.params).2) false
      ((rangeParams c.params).2 / 4096 + 1) (rangeParams c.params).1 s).findSome? (fun p => walkWaits c.tenant p.1 p.2 s) = none)
    (walked : walkRange c.tenant ((rangeParams c.params).1 + (rangeParams c.params).2) false
      ((rangeParams c.params).2 / 4096 + 1) (rangeParams c.params).1 [] (takeNumber c s) = (.leaves ls, s'))
    (room : ∀ q ∈ quadrantsOf (selectedQuadrants c),
      (s'.xlat.cache.filter (fun x => x.quadrant == q && x.tenant == c.tenant && x.pinned)).length + ls.length ≤ slicePins) :
    ∃ echo, exec (.pinTranslation c) s = .next (clearGathered c.tenant (answer 0x303 c echo (.done stOK (le 4 ls.length))
      ((quadrantsOf (selectedQuadrants c)).foldl (pinLeaves ls) s'))) := by
  refine ⟨_, congrArg Host.Outcome.next ((whenTables_of_ready runs.serves thawed ready _).trans
    (congrArg _ (kcpNow_of_body runs ?_)))⟩
  simp only [walked]
  refine if_neg ?_
  rw [List.any_eq_true]
  rintro ⟨q, selected, exceeds⟩
  refine Nat.not_lt.mpr ((Nat.add_le_add_left ?_ _).trans (room q selected)) (of_decide_eq_true exceeds)
  exact List.length_filter_le ..

/-! ### Walks that end (R166, R171, R174) -/

theorem dropOne_walks (l : List CacheEnt) (s : State) : (dropOne l s).xlat.walks = s.xlat.walks := by
  simp only [dropOne]
  split <;> rfl

theorem fillOne_walks (x : CacheEnt) (s : State) : (fillOne x s).xlat.walks = s.xlat.walks := by
  simp only [fillOne]
  split
  · simp only [dropOne_walks]
  · split
    · simp only [dropOne_walks]
    · rfl

theorem fillWalk_walks (x : CacheEnt) (path : List CacheEnt) (s : State) : (fillWalk x path s).xlat.walks = s.xlat.walks := by
  rw [fillWalk, fillOne_walks]
  exact foldl_keeps (·.xlat.walks) _ (fun _ _ => fillOne_walks ..) _ _

/-- A walk that ends with a translation enters it, unless INVALIDATE was taken meanwhile. -/
def walkEntered (w : Walk) : Walked → State → State
  | .leaf x path, s => if w.noFill then s else fillWalk x path s
  | _, s => s

theorem walkEntered_walks (w : Walk) (r : Walked) (s : State) : (walkEntered w r s).xlat.walks = s.xlat.walks := by
  cases r with
  | leaf x path =>
    rw [walkEntered]
    split
    · rfl
    · exact fillWalk_walks ..
  | fault | wait => rfl

theorem exec_tableWalkComplete_ends {q t tva : Nat} {s s' : State} {w : Walk} {r : Walked}
    (found : s.xlat.walks.find? (fun w => w.quadrant == q && w.tenant == t && w.tva / 4096 == tva / 4096) = some w)
    (thawed : frozen s = false) (walked : walkFor true q t w.tva (w.access != 0) s = (r, s')) (ended : r ≠ .wait) :
    exec (.tableWalkComplete q t tva) s = .next (w.waiters.foldl (fun s x => wakeWaiter w r x s)
      (walkEntered w r (clearGathered t { s' with xlat.walks := s'.xlat.walks.erase w }))) := by
  simp only [exec, execTableWalkComplete, found, thawed, walked, Bool.false_eq_true, if_false]
  cases r with
  | leaf | fault => rfl
  | wait => exact absurd rfl ended

/-- Settles O43: each command by what it does to the roots, the caches and the walks. -/
theorem translationsAreManaged : Obligations.TranslationsAreManaged := by
  refine ⟨?root, ?invalidate, ?unpin, ?pin, ?walk⟩
  case root =>
    intro c s runs table engineQueue linkQueue
    obtain ⟨n, replies⟩ := exec_setTableRoot_own runs table engineQueue linkQueue
    obtain ⟨root, gone, kept, mem⟩ := rooted_effect c.tenant (namedRoot c.params) (takeNumber c s)
    exact ⟨_, n, replies, root, gone, by simpa using kept, by simpa using mem⟩
  case invalidate =>
    intro c s runs thawed unpinned
    obtain ⟨echo, command⟩ := exec_invalidate_unpinned runs thawed unpinned
    obtain ⟨gone, kept, noFill, mem⟩ := invalidated_effect (c := c) (s := takeNumber c s) (by simpa using unpinned)
    exact ⟨_, _, echo, command, gone, by simpa using kept, noFill, by simpa using mem⟩
  case unpin =>
    intro c s runs
    obtain ⟨gone, length, mem⟩ := pinsRemoved_effect c (takeNumber c s)
    exact ⟨_, _, exec_unpinTranslation_of_runs runs, gone, by simpa using length, by simpa using mem⟩
  case pin =>
    intro c s s' ls runs thawed r m ready walked room
    exact exec_pinTranslation_room runs thawed ready walked
      fun q selected => of_decide_eq_true (List.all_eq_true.mp room q selected)
  case walk =>
    intro q t tva s s' w r found thawed walked ended
    refine ⟨_, exec_tableWalkComplete_ends found thawed walked ended, walkEntered_walks .., ?_⟩
    rintro x p rfl fills
    exact .inl (if_neg (by simp [fills]))

/-! ### Fault records (R180, R182, R183, R186) -/

/-- An open record is closed: an abort forgets how often its fault was recorded before (R186). -/
def recordClosed (t : Nat) (o : OpenRec) (abort : Bool) (s : State) : State :=
  { s with xlat.openRecs := s.xlat.openRecs.erase o,
           xlat.retries := if abort then tset 0 s.xlat.retries (retryKey t o.record.tva o.record.cause) 0 else s.xlat.retries }

theorem exec_resumeFault_open {c : Cmd} {s : State} {o : OpenRec} (runs : Runs 0x305 c s)
    (found : s.xlat.openRecs.find? (fun r => r.tenant == c.tenant && r.record.id == pnum c.params 0 4) = some o) :
    RepliesWith 0x305 c stOK (le 4 o.waiting.length)
      (if pbit c.params 4 0 then stopAll o.waiting stFAULT (recordClosed c.tenant o (pbit c.params 4 0) (takeNumber c s))
       else o.waiting.foldl (fun s w => retryCtx w.1 w.2 s) (recordClosed c.tenant o (pbit c.params 4 0) (takeNumber c s)))
      (exec (.resumeFault c) s) := by
  refine ⟨_, congrArg Host.Outcome.next (kcpNow_of_body runs ?_)⟩
  simp only [takeNumber_xlat, found, recordClosed]
  cases pbit c.params 4 0 <;> rfl

theorem exec_faultRecordAllocate_free {t : Nat} {s : State} {w : WaitingFault}
    (first : s.xlat.waitingFaults.find? (fun w => w.tenant == t) = some w) (free : openCount s t < openLimit) :
    exec (.faultRecordAllocate t) s = .next (giveRecord t w.core w.ctx w.record
      { s with xlat.waitingFaults := s.xlat.waitingFaults.erase w }) := by
  simp only [exec, execFaultRecordAllocate, allocateRecord, first, if_neg (Nat.not_le.mpr free)]

theorem exec_faultRecordDrain_thawed {s : State} (thawed : frozen s = false) (q : Nat) :
    exec (.faultRecordDrain q) s = .next (drainQueue q 2048 s) := by
  simp only [exec, execFaultRecordDrain, thawed, Bool.false_eq_true, if_false]

/-- The state in which a queue's posting has been told, and is not told again. -/
def postingTold (q : Nat) (s : State) : State :=
  { s with xlat.queues := tmod {} s.xlat.queues q (fun x => { x with postedAt := none }) }

theorem exec_faultPostedEvent_posted {q a : Nat} {s : State} (posted : (queueState s q).postedAt = some a) :
    exec (.faultPostedEvent q) s =
      .next (eventAt 3 q a (fraction s) (fun t => fqTenant s q == some t) [] (postingTold q s)) := by
  simp only [exec, execFaultPostedEvent, posted]
  rfl

theorem postingTold_postedAt (q : Nat) (s : State) : (queueState (postingTold q s) q).postedAt = none := by
  simp only [queueState, postingTold, tget_tmod_self]

/-- Settles O44: each command by what it does to the records and the queues. -/
theorem faultRecordsMove : Obligations.FaultRecordsMove := by
  refine ⟨fun c s o runs found => ?_, fun t s w => exec_faultRecordAllocate_free,
    fun q s thawed => exec_faultRecordDrain_thawed thawed q,
    fun q a s posted => ⟨_, exec_faultPostedEvent_posted posted, postingTold_postedAt q s, rfl⟩⟩
  exact ⟨recordClosed c.tenant o (pbit c.params 4 0) (takeNumber c s), by simp [recordClosed], by simp [recordClosed],
    exec_resumeFault_open runs found⟩

/-! ### Page swaps begin (R188, R189) -/

theorem advanceBase_path (n : Nat) (x : Session) : (advanceBase n x).path = x.path := by
  induction n generalizing x with
  | zero => rfl
  | succ n ih =>
    rw [advanceBase]
    split
    · exact ih _
    · rfl

/-- A command's session keeps its path as the command is taken. -/
theorem sessionOf_takeNumber_path {c : Cmd} {s : State} {ss : Session} (known : sessionOf s c.session = some ss) :
    ∃ x, sessionOf (takeNumber c s) c.session = some x ∧ x.path = ss.path :=
  ⟨_, sessionOf_modSession_self (fun _ => by apply advanceBase_id) known, advanceBase_path ..⟩

/-- A path leads over a link, where no page moves by Ethernet. -/
def onLink : Path → Bool
  | .link _ _ => true
  | .eth _ _ _ _ => false

theorem not_onLink {path : Path} (notLink : ∀ p e, path ≠ .link p e) : onLink path = false := by
  cases path with
  | eth => rfl
  | link p e => exact absurd rfl (notLink p e)

/-- The bytes of the page that PAGE_OUT and PAGE_IN name. -/
def pageBytes (c : Cmd) : Nat := if b2n (pbit c.params 8 0) = 0 then 0x10000 else 0x200000

theorem pageBytes_eq (c : Cmd) : pageBytes c = if pbit c.params 8 0 then 0x200000 else 0x10000 := by
  unfold pageBytes
  cases pbit c.params 8 0 <;> rfl

/-- The first address of the page. -/
def pageTva (c : Cmd) : Nat := pnum c.params 0 8 % 2 ^ 57 / pageBytes c * pageBytes c

/-- The transfer that PAGE_OUT or PAGE_IN asks for, by its number, on a path. -/
def askedTransfer (op : Nat) (c : Cmd) (id : Nat) (path : Path) : Transfer :=
  { id := id, session := c.session, seq := c.seq, tenant := c.tenant, isOut := op = 0x306, tva := pageTva c,
    size := b2n (pbit c.params 8 0), ethernet := pbit c.params 9 0, path := path, signal := pbit c.params 9 1,
    knot := pnum c.params 10 2, hostUdp := max 1 (pnum c.params 12 2),
    fabric := pnum c.params 16 8 / pageBytes c * pageBytes c, cookie := pnum c.params 24 8, ppas := [] }

/-- A transfer is entered under its number. -/
def transferAdded (t : Transfer) (s : State) : State :=
  { s with xlat.transfers := s.xlat.transfers ++ [t], xlat.nextTransfer := t.id + 1 }

/-- A transfer is denied: the EID or the knot is not its tenant's, or it would move by Ethernet on a link's session (R188). -/
def swapDenied (t : Transfer) (s : State) : Bool :=
  (!t.ethernet && eidTenant s (t.fabric / 2 ^ 52) != some t.tenant) || (t.signal && knotTenant s t.knot != some t.tenant) ||
    (t.ethernet && onLink t.path)

theorem swapDenied_eq_false {t : Transfer} {s : State}
    (eid : t.ethernet = true ∨ eidTenant s (t.fabric / 2 ^ 52) = some t.tenant)
    (knot : t.signal = true → knotTenant s t.knot = some t.tenant) (path : t.ethernet = true → onLink t.path = false) :
    swapDenied t s = false := by
  simp only [swapDenied, Bool.or_eq_false_iff, Bool.and_eq_false_imp, Bool.not_eq_true', bne_eq_false_iff_eq]
  exact ⟨⟨fun link => eid.resolve_left (by simp [link]), knot⟩, path⟩

/-- The body of PAGE_OUT and PAGE_IN, for the transfer that they ask for. -/
def swapBody (op : Nat) (c : Cmd) (id : Nat) (s : State) : Nat × List Byte × State :=
  let t := askedTransfer op c id (((sessionOf s c.session).map (·.path)).getD (.link 0 0))
  if swapDenied t s then (stDENIED, zeros 8, s)
  else if 64 ≤ s.xlat.transfers.countP (fun t => t.tenant == c.tenant) then (stBUSY, zeros 8, s)
  else (stOK, le 4 (id % 2 ^ 32) ++ zeros 4, transferAdded t s)

/-- PAGE_OUT and PAGE_IN are one command but for their opcodes. -/
theorem exec_pageSwap {op : Nat} {i : Cmd → Instr} (swap : (op, i) ∈ [(0x306, Instr.pageOut), (0x307, Instr.pageIn)])
    (c : Cmd) (s : State) : exec (i c) s = .next (pageSwap op c s) := by
  simp only [List.mem_cons, Prod.mk.injEq, List.not_mem_nil, or_false] at swap
  rcases swap with ⟨rfl, rfl⟩ | ⟨rfl, rfl⟩ <;> rfl

/-- A page swap that has been accepted begins at once. -/
theorem pageSwap_eq (op : Nat) (c : Cmd) (s : State) : ∃ echo, pageSwap op c s =
    whenTables c.tenant
      (rangeWaits c.tenant (pageTva c + pageBytes c) (op = 0x306) (pageBytes c / 4096 + 1) (pageTva c) s)
      (fun s' => if (kcpNow op c echo (swapBody op c s.xlat.nextTransfer) s').xlat.nextTransfer = s.xlat.nextTransfer
        then kcpNow op c echo (swapBody op c s.xlat.nextTransfer) s'
        else startTransfer s.xlat.nextTransfer (kcpNow op c echo (swapBody op c s.xlat.nextTransfer) s')) s :=
  ⟨_, rfl⟩

theorem swapDenied_takeNumber (t : Transfer) (c : Cmd) (s : State) : swapDenied t (takeNumber c s) = swapDenied t s := by
  simp only [swapDenied, eidTenant, knotTenant, takeNumber_frame]

theorem swapBody_of_allowed {op id : Nat} {c : Cmd} {s : State} {ss : Session} (known : sessionOf s c.session = some ss)
    (allowed : swapDenied (askedTransfer op c id ss.path) s = false)
    (room : s.xlat.transfers.countP (fun t => t.tenant == c.tenant) < 64) : swapBody op c id (takeNumber c s) =
    (stOK, le 4 (id % 2 ^ 32) ++ zeros 4, transferAdded (askedTransfer op c id ss.path) (takeNumber c s)) := by
  obtain ⟨x, taken, path⟩ := sessionOf_takeNumber_path known
  simp only [swapBody, taken, Option.map_some, Option.getD_some, path, swapDenied_takeNumber, allowed, takeNumber_frame,
    Nat.not_le.mpr room, Bool.false_eq_true, if_false]

/-- A page swap of a caller that may ask for it is a transfer, and the transfer begins. -/
theorem pageSwap_of_allowed {op : Nat} {c : Cmd} {s : State} {ss : Session} (runs : Runs op c s) (thawed : frozen s = false)
    (ready : (rangeWaits c.tenant (pageTva c + pageBytes c) (op = 0x306) (pageBytes c / 4096 + 1) (pageTva c) s).findSome?
      (fun p => walkWaits c.tenant p.1 p.2 s) = none)
    (known : sessionOf s c.session = some ss)
    (allowed : swapDenied (askedTransfer op c s.xlat.nextTransfer ss.path) s = false)
    (room : s.xlat.transfers.countP (fun t => t.tenant == c.tenant) < 64) : ∃ echo,
    pageSwap op c s = clearGathered c.tenant (startTransfer s.xlat.nextTransfer
      (answer op c echo (.done stOK (le 4 (s.xlat.nextTransfer % 2 ^ 32) ++ zeros 4))
        (transferAdded (askedTransfer op c s.xlat.nextTransfer ss.path) (takeNumber c s)))) := by
  obtain ⟨echo, command⟩ := pageSwap_eq op c s
  refine ⟨echo, ?_⟩
  rw [command, whenTables_of_ready runs.serves thawed ready, kcpNow_of_body runs (swapBody_of_allowed known allowed room)]
  refine congrArg _ (if_neg ?_)
  simp [transferAdded, askedTransfer]

/-! ### Frames and timers of the swap unit (R191 to R193, R506) -/

section
variable {i : EthInfo} {f : SwapFrm} {s : State} {ss : Session} {t : Transfer} (serves : serving s = true)
  (sorted : swapSorted s i = true) (unstopped : stopped s = false) (noFatal : s.err.fatal = false)
  (known : sessionOf s f.session = some ss)
include serves sorted unstopped noFatal known

theorem exec_swapFrame_verified (tag : f.tag = hmacSm3 ss.tagKey (swapBytes f))
    (found : s.xlat.transfers.find? (fun t => t.session == f.session && t.id % 2 ^ 32 == f.transfer && t.ethernet) = some t) :
    exec (.swapFrame i f) s = .next (settleHome (swapFrameIn t f s)) := by
  have verified : (f.tag != hmacSm3 ss.tagKey (swapBytes f)) = false := by simp [tag]
  simp only [exec, execSwapFrame, serves, sorted, unstopped, noFatal, known, verified, found, Bool.not_true, Bool.or_self,
    Bool.false_eq_true, if_false]

/-- A frame whose tag fails is counted. -/
theorem exec_swapFrame_forged (tag : f.tag ≠ hmacSm3 ss.tagKey (swapBytes f)) :
    exec (.swapFrame i f) s = .next (sat (0x00020030 + 0x100 * i.port) 16 16 1 s) := by
  have forged : (f.tag != hmacSm3 ss.tagKey (swapBytes f)) = true := by simpa using tag
  simp only [exec, execSwapFrame, serves, sorted, unstopped, noFatal, known, forged, Bool.not_true, Bool.or_self,
    Bool.false_eq_true, if_false, if_true]
  rfl

end

section
variable {id : Nat} {s : State} {t : Transfer} (found : transferOf s id = some t) (ethernet : t.ethernet = true)
include found ethernet

theorem exec_swapResendTimer_quiet_out (thawed : frozen s = false) (out : t.isOut = true)
    (quiet : t.lastNew + swapResendMarks ≤ plmc s) : exec (.swapResendTimer id) s =
      .next (swapFrameOut t 0 2 (heldBitmap t) (modTransfer id (fun x => { x with lastNew := plmc s }) s)) := by
  simp only [exec, execSwapResendTimer, found, ethernet, thawed, out, Nat.not_lt.mpr quiet, decide_false, Bool.not_true,
    Bool.or_self, Bool.false_eq_true, if_false, if_true]

theorem exec_swapTransferTimeout_due (due : t.lastVerified + watch ≤ plmc s) :
    exec (.swapTransferTimeout id) s = .next (endTransfer id (lostTransfer t) s) := by
  simp only [exec, execSwapTransferTimeout, found, ethernet, due, decide_true, Bool.and_self, if_true]

end

/-- Settles O45: a page swap is a transfer, and what its frames and timers do to it. -/
theorem pageSwapsRun : Obligations.PageSwapsRun := by
  refine ⟨?swap, fun _ _ _ _ _ => exec_swapFrame_verified,
    fun _ _ _ _ serves sorted unstopped noFatal known tag =>
      ⟨_, exec_swapFrame_forged serves sorted unstopped noFatal known tag, rfl⟩,
    fun _ _ _ => exec_swapResendTimer_quiet_out, fun _ _ _ => exec_swapTransferTimeout_due⟩
  intro op i c s swap runs thawed bytes tva ready fabric knot ethernet room
  obtain ⟨ss, taken, -⟩ := runs_iff.mp runs
  have size : bytes = pageBytes c := (pageBytes_eq c).symm
  have first : tva = pageTva c := by simp only [tva, size, pageTva]
  rw [first, size] at ready
  rw [size] at fabric
  have allowed : swapDenied (askedTransfer op c s.xlat.nextTransfer ss.path) s = false :=
    swapDenied_eq_false fabric knot fun eth => not_onLink fun p e => ethernet eth ss p e taken.known
  obtain ⟨echo, begins⟩ := pageSwap_of_allowed runs thawed ready taken.known allowed room
  refine ⟨askedTransfer op c s.xlat.nextTransfer ss.path, echo, rfl, rfl, rfl, rfl, rfl, first.symm, rfl, rfl, rfl, ?_⟩
  rw [exec_pageSwap swap, begins, transferAdded, takeNumber_xlat]
  rfl

end Sys2Proof.Machine

/-! PROOFS. Transactions and coherence (section 06): how a packet reaches its home, what the home takes of it, the bytes that
atomics and masked stores leave, the answers of holders and endpoints, and what moves a busy line on. -/
namespace Sys2Proof.Machine

/-! ### A packet at its port (R135, R363, R382) -/

/-- A port's stamp changes the EPOCH and the CLASS of a header alone. -/
theorem atPort_eq (rx : RxPkt) (s : State) :
    ∃ e c, atPort rx s = { rx with hdr := { rx.hdr with epoch := e, cls := c } } := by
  unfold atPort stamped
  split
  · exact ⟨_, _, rfl⟩
  · simp only [stampEpoch, stampedHdr]
    split <;> exact ⟨_, _, rfl⟩

@[simp] theorem atPort_frame (rx : RxPkt) (s : State) :
    (atPort rx s).port = rx.port ∧ (atPort rx s).payload = rx.payload ∧ (atPort rx s).hdr.code = rx.hdr.code ∧
    (atPort rx s).hdr.src = rx.hdr.src ∧ (atPort rx s).hdr.dst = rx.hdr.dst ∧ (atPort rx s).hdr.tag = rx.hdr.tag ∧
    (atPort rx s).hdr.addr = rx.hdr.addr ∧ (atPort rx s).hdr.atype = rx.hdr.atype ∧ (atPort rx s).hdr.aop = rx.hdr.aop ∧
    (atPort rx s).hdr.mcast = rx.hdr.mcast ∧ (atPort rx s).hdr.knot = rx.hdr.knot ∧
    (atPort rx s).hdr.barrier = rx.hdr.barrier ∧ (atPort rx s).hdr.group = rx.hdr.group := by
  obtain ⟨e, c, same⟩ := atPort_eq rx s
  rw [same]
  exact ⟨rfl, rfl, rfl, rfl, rfl, rfl, rfl, rfl, rfl, rfl, rfl, rfl, rfl⟩

/-- A command puts its packet to its home under its own code. -/
theorem asTaken_code (code : Nat) (rx : RxPkt) (s : State) : (asTaken code rx s).hdr.code = code := by
  simp [asTaken, withCode]

theorem stamped_frame (rx : RxPkt) (s : State) : (stamped rx s).2.fields = s.fields ∧ (stamped rx s).2.coh = s.coh ∧
    (stamped rx s).2.xlat = s.xlat ∧ (stamped rx s).2.halt = s.halt := by
  unfold stamped stampEpoch
  dsimp only
  split_ifs <;> exact ⟨rfl, rfl, rfl, rfl⟩

theorem afterPort_frame (rx : RxPkt) (s : State) : (afterPort rx s).fields = s.fields ∧ (afterPort rx s).coh = s.coh ∧
    (afterPort rx s).xlat = s.xlat := by
  obtain ⟨fields, coh, xlat, -⟩ := stamped_frame rx s
  unfold afterPort arrive
  dsimp only
  split <;> exact ⟨fields, coh, xlat⟩

theorem isOwnEid_congr {s t : State} (same : t.fields = s.fields) (e : Nat) : isOwnEid t e = isOwnEid s e := by
  have valid : ownEidValid t = ownEidValid s := by funext i; unfold ownEidValid getField; rw [same]
  have own : ownEid t = ownEid s := by funext i; unfold ownEid getField; rw [same]
  simp only [isOwnEid, ownEids, valid, own]

theorem isOwnEid_afterPort (rx : RxPkt) (s : State) (e : Nat) : isOwnEid (afterPort rx s) e = isOwnEid s e :=
  isOwnEid_congr (afterPort_frame rx s).1 e

section
variable {rx : RxPkt} {a : Arrival} {s s' : State} {pair : Option Nat}

/-- A packet that enters goes on from its port. -/
theorem Enters.goes (enters : Enters rx a s) : ingress rx s = .goes (atPort rx s) a (afterPort rx s) := by
  obtain ⟨serves, comes, thawed, settled, carried, -⟩ := enters
  obtain ⟨unstopped, noFatal⟩ : stopped s = false ∧ s.err.fatal = false := by simpa [frozen] using thawed
  have unstopped' : stopped (stamped rx s).2 = false := by
    obtain ⟨-, -, -, sameHalt⟩ := stamped_frame rx s
    rw [← unstopped]
    simp only [stopped, sameHalt]
  have arrives : (arrive (stamped rx s).1 (stamped rx s).2).1 = a := settled
  simp only [ingress, serves, comes, noFatal, unstopped', arrives, carried, atPort, afterPort, Bool.not_true, Bool.or_self,
    Bool.false_eq_true, if_false]

/-- It goes to this device. -/
theorem Enters.own (enters : Enters rx a s) : isOwnEid (afterPort rx s) (atPort rx s).hdr.dst = true := by
  obtain ⟨-, -, -, -, -, own⟩ := enters
  simpa only [isOwnEid_afterPort, atPort_frame] using own

/-! ### A request is accepted (R36, R371, R390) -/

theorem takeArrived_frame (rx : RxPkt) (s : State) : (takeArrived rx s).fields = s.fields ∧ (takeArrived rx s).coh = s.coh ∧
    (takeArrived rx s).xlat = s.xlat := by
  simp only [takeArrived, oweCredits, oweRest, oweFlits]
  split
  · split_ifs <;> simp
  · exact ⟨rfl, rfl, rfl⟩

theorem passCrosser_frame (x y : Nat) (me : Crosser) (s : State) : (passCrosser x y me s).fields = s.fields ∧
    (passCrosser x y me s).coh = s.coh ∧ (passCrosser x y me s).xlat = s.xlat := by
  unfold passCrosser
  split <;> exact ⟨rfl, rfl, rfl⟩

theorem crossed_frame (rx : RxPkt) (a : Arrival) (s : State) : (crossed rx a s).fields = s.fields ∧
    (crossed rx a s).coh = s.coh ∧ (crossed rx a s).xlat = s.xlat :=
  ⟨foldl_keeps (·.fields) _ (fun _ _ => (passCrosser_frame ..).1) _ _,
    foldl_keeps (·.coh) _ (fun _ _ => (passCrosser_frame ..).2.1) _ _,
    foldl_keeps (·.xlat) _ (fun _ _ => (passCrosser_frame ..).2.2) _ _⟩

theorem window_frame (held : window rx s = .held pair s') : s'.fields = s.fields ∧ s'.coh = s.coh ∧ s'.xlat = s.xlat := by
  unfold window at held
  dsimp only at held
  split_ifs at held
  all_goals
    cases held
    exact ⟨rfl, rfl, rfl⟩

/-- An accepted request is none that is discarded unseen. -/
theorem Accepted.kept (accepted : Accepted rx a pair s s') :
    (!isOwnEid (afterPort rx s) (atPort rx s).hdr.dst || malformed (atPort rx s).hdr || (atPort rx s).hdr.mcast) = false := by
  obtain ⟨enters, sound, unicast, -⟩ := accepted
  have unicast' : (atPort rx s).hdr.mcast = false := by simpa only [atPort_frame] using unicast
  simp only [enters.own, sound, unicast', Bool.not_true, Bool.or_self]

/-- Acceptance touches neither the registers, nor the home, nor the translations. -/
theorem Accepted.frame (accepted : Accepted rx a pair s s') : s'.fields = (afterPort rx s).fields ∧
    s'.coh = (afterPort rx s).coh ∧ s'.xlat = (afterPort rx s).xlat := by
  obtain ⟨-, -, -, -, held⟩ := accepted
  obtain ⟨fields, coh, xlat⟩ := window_frame held
  rw [fields, coh, xlat]
  simp only [bump_frame, takeArrived_frame, crossed_frame, and_self]

theorem Accepted.acceptRequest (accepted : Accepted rx a pair s s') (f : Option Nat → State → State) :
    acceptRequest (atPort rx s) a.tenant (crossed (atPort rx s) a (afterPort rx s)) f = f pair s' := by
  obtain ⟨-, -, -, -, held⟩ := accepted
  simp only [Machine.acceptRequest, held]

/-- What an own EID's packet of no home quadrant passes is its port alone. -/
theorem Accepted.crossed_eq (accepted : Accepted rx a pair s s') (stays : homeOf (afterPort rx s) (atPort rx s) a.tenant = []) :
    crossed (atPort rx s) a (afterPort rx s) = afterPort rx s := by
  obtain ⟨enters, -, unicast, -⟩ := accepted
  have unicast' : (atPort rx s).hdr.mcast = false := by simpa only [atPort_frame] using unicast
  have nowhere : goesTo (afterPort rx s) (atPort rx s) a = [] := by
    simp only [goesTo, unicast', enters.own, stays, if_true, Bool.false_eq_true, if_false, ite_self]
  rw [crossed, nowhere]
  rfl

end

/-! ### Bytes of a line under a mask (R199) -/

/-- The ones of `maskLine` below byte `n`. -/
def maskBelow (m n : Nat) : Nat := (List.range n).foldl (fun a i => if m.testBit i then a + 255 * 256 ^ i else a) 0

theorem maskLine_eq (m : Nat) : maskLine m = BitVec.ofNat 1024 (maskBelow m 128) := rfl

theorem maskBelow_succ (m n : Nat) : maskBelow m (n + 1) = 2 ^ (8 * n) * (if m.testBit n then 255 else 0) + maskBelow m n := by
  have pow : 2 ^ (8 * n) = 256 ^ n := by rw [Nat.pow_mul]
  simp only [maskBelow, List.range_succ, List.foldl_append, List.foldl_cons, List.foldl_nil, pow]
  split <;> ring

theorem maskBelow_lt (m : Nat) : ∀ n, maskBelow m n < 2 ^ (8 * n)
  | 0 => by simp [maskBelow]
  | n + 1 => by
    have below := maskBelow_lt m n
    have pow : 2 ^ (8 * (n + 1)) = 2 ^ (8 * n) * 256 := by rw [Nat.mul_succ, Nat.pow_add]
    rw [maskBelow_succ, pow]
    split <;> omega

/-- Every bit of a byte is the byte's bit of the mask. -/
theorem testBit_maskBelow (m k : Nat) : ∀ n, (maskBelow m n).testBit k = (decide (k < 8 * n) && m.testBit (k / 8))
  | 0 => by simp [maskBelow]
  | n + 1 => by
    rw [maskBelow_succ, Nat.testBit_two_pow_mul_add _ (maskBelow_lt m n), testBit_maskBelow m k n]
    split
    · next below => simp [below, show k < 8 * (n + 1) by omega]
    · next above =>
      have ones : (255 : Nat).testBit (k - 8 * n) = decide (k - 8 * n < 8) := Nat.testBit_two_pow_sub_one 8 _
      by_cases last : k < 8 * (n + 1)
      · have byte : k / 8 = n := by omega
        have inByte : k - 8 * n < 8 := by omega
        split <;> simp_all
      · have outside : ¬ k - 8 * n < 8 := by omega
        split <;> simp_all

theorem getLsbD_mergeLine (old new : Line) (m k : Nat) :
    (mergeLine old new m).getLsbD k = if m.testBit (k / 8) then new.getLsbD k else old.getLsbD k := by
  by_cases inside : k < 1024
  · have mask : (maskLine m).getLsbD k = m.testBit (k / 8) := by
      rw [maskLine_eq, BitVec.getLsbD_ofNat, testBit_maskBelow]
      simp [inside]
    simp only [mergeLine, BitVec.getLsbD_or, BitVec.getLsbD_and, BitVec.getLsbD_not, mask, inside, decide_true, Bool.true_and]
    cases m.testBit (k / 8) <;> simp
  · simp [BitVec.getLsbD_of_ge _ k (by omega : 1024 ≤ k)]

theorem getLsbD_lineByte (l : Line) (j i : Nat) (inByte : i < 8) : (lineByte l j).getLsbD i = l.getLsbD (8 * j + i) := by
  simp [lineByte, inByte]

/-- A merged line, byte by byte. -/
theorem lineByte_mergeLine (old new : Line) (m j : Nat) :
    lineByte (mergeLine old new m) j = if m.testBit j then lineByte new j else lineByte old j := by
  refine BitVec.eq_of_getLsbD_eq fun i inByte => ?_
  have byte : (8 * j + i) / 8 = j := by omega
  rw [getLsbD_lineByte _ _ _ inByte, getLsbD_mergeLine, byte]
  split <;> rw [getLsbD_lineByte _ _ _ inByte]

theorem claimMaskedStoresMerge : ClaimMaskedStoresMerge := fun old new m j _ => lineByte_mergeLine old new m j

/-! ### The bytes of an atomic (R201) -/

theorem testBit_lineNat (l : Line) (off w k : Nat) :
    (lineNat l off w).testBit k = (decide (k < 8 * w) && l.getLsbD (8 * off + k)) := by
  simp [lineNat, Nat.testBit_mod_two_pow, BitVec.getLsbD]

/-- The mask of `w` bytes from byte `off`. -/
theorem testBit_bytesMask (off w j : Nat) : ((2 ^ w - 1) <<< off).testBit j = (decide (off ≤ j) && decide (j - off < w)) := by
  simp [Nat.testBit_shiftLeft, Nat.testBit_two_pow_sub_one]

theorem lineNat_putBytes (l : Line) (off w v : Nat) (inside : off + w ≤ 128) :
    lineNat (putBytes l off w v) off w = v % 2 ^ (8 * w) := by
  refine Nat.eq_of_testBit_eq fun k => ?_
  rw [testBit_lineNat]
  by_cases own : k < 8 * w
  · have byte : (8 * off + k) / 8 = off + k / 8 := by omega
    have masked : ((2 ^ w - 1) <<< off).testBit ((8 * off + k) / 8) = true := by
      rw [testBit_bytesMask, byte]
      simp
      omega
    rw [putBytes, getLsbD_mergeLine, masked, if_pos rfl, BitVec.getLsbD_ofNat, Nat.testBit_shiftLeft]
    simp [own, show 8 * off + k < 1024 by omega]
  · simp [Nat.testBit_mod_two_pow, own]

theorem lineByte_putBytes_other (l : Line) (off w v j : Nat) (other : j < off ∨ off + w ≤ j) :
    lineByte (putBytes l off w v) j = lineByte l j := by
  have unmasked : ((2 ^ w - 1) <<< off).testBit j = false := by
    rw [testBit_bytesMask]
    simp
    omega
  rw [putBytes, lineByte_mergeLine, unmasked, if_neg Bool.false_ne_true]

theorem claimAtomicsTouchTheirBytes : ClaimAtomicsTouchTheirBytes := fun l off w v inside =>
  ⟨lineNat_putBytes l off w v inside, fun j _ other => lineByte_putBytes_other l off w v j other⟩

/-! ### What an atomic leaves (R201) -/

/-- The lesser of two words as signed numbers, as `atomicNew` chooses it. -/
theorem toInt_signedMin (x y : Nat) :
    (BitVec.ofNat 32 (if (BitVec.ofNat 32 y).slt (BitVec.ofNat 32 x) then y else x)).toInt =
      min (BitVec.ofNat 32 x).toInt (BitVec.ofNat 32 y).toInt := by
  rw [BitVec.slt_eq_decide]
  split
  · next less => exact (min_eq_right (of_decide_eq_true less).le).symm
  · next notLess => exact (min_eq_left (not_lt.mp (of_decide_eq_false (eq_false_of_ne_true notLess)))).symm

theorem toInt_signedMax (x y : Nat) :
    (BitVec.ofNat 32 (if (BitVec.ofNat 32 x).slt (BitVec.ofNat 32 y) then y else x)).toInt =
      max (BitVec.ofNat 32 x).toInt (BitVec.ofNat 32 y).toInt := by
  rw [BitVec.slt_eq_decide]
  split
  · next less => exact (max_eq_right (of_decide_eq_true less).le).symm
  · next notLess => exact (max_eq_left (not_lt.mp (of_decide_eq_false (eq_false_of_ne_true notLess)))).symm

theorem claimAtomicOperations : ClaimAtomicOperations := by
  refine ⟨?add, ?words, ?doubles, ?quads⟩
  case add =>
    intro old a c
    simp [atomicNew]
  case words =>
    intro old a c _ word
    have low : a % 2 ^ 32 = a := Nat.mod_eq_of_lt word
    simp only [atomicNew, low, toInt_signedMin, toInt_signedMax, and_self]
  case doubles | quads =>
    intro old a c _ operand compare
    simp only [atomicNew, Nat.mod_eq_of_lt operand, Nat.mod_eq_of_lt compare, true_and]
    exact ⟨fun same => if_pos same, fun differs => if_neg differs⟩

/-! ### A pool request goes to its home (R196, R198, R200, R221) -/

section
variable {rx : RxPkt} {a : Arrival} {s s' : State} {pair : Option Nat} {ppa : Nat}

/-- A translated request that does not ask for a promised bound goes to the home of the address that it means. -/
theorem translateRequest_of_means (means : Means rx a.tenant s ppa)
    (noPromise : (effClass rx.hdr = 1 && !(rx.hdr.code = 6 || rx.hdr.code = 7)) = false) :
    translateRequest rx a pair s = homeRequest rx a ppa pair s := by
  rcases means with ⟨fabric, allowed, rfl⟩ | ⟨virtual, x, cached, rfl⟩
  · simp only [translateRequest, fabric, allowed, noPromise, if_true, Bool.not_true, Bool.false_eq_true, if_false]
  · simp only [translateRequest, virtual, noPromise, cached, Bool.false_eq_true, if_false]

theorem homeRequest_taken (plain : (rx.hdr.code = 6 || rx.hdr.code = 7) = false) (noPromise : effClass rx.hdr ≠ 1)
    (allowed : refusedAt s a.tenant (ppaOfLine (lineOfPpa ppa)) (requestLines rx) (changesLine rx.hdr.code) = none)
    (fresh : idemMatch s (lineQuadrant (lineOfPpa ppa)) rx.hdr = none)
    (room : trackersUsed s (lineQuadrant (lineOfPpa ppa)) false < 16384) :
    homeRequest rx a ppa pair s = atItsHome rx a pair (lineOfPpa ppa) s := by
  simp only [homeRequest, plain, noPromise, allowed, fresh, Nat.not_le.mpr room, atItsHome, Bool.false_eq_true, if_false]

theorem poolRequest_plain {code : Nat} (plain : code ≠ 6 ∧ code ≠ 7) (accepted : Accepted (withCode code rx) a pair s s') :
    poolRequest code rx s = if !wellShaped (asTaken code rx s) then complete (asTaken code rx s).hdr a.tenant pair stDENIED s'
      else translateRequest (asTaken code rx s) a pair s' := by
  have goes : ingress { rx with hdr := { rx.hdr with code := code } } s = _ := accepted.1.goes
  have kept := accepted.kept
  have taken := fun f => accepted.acceptRequest f
  obtain ⟨-, -, -, turn, -⟩ := accepted
  obtain ⟨notWriteback, notEvict⟩ := plain
  simp only [poolRequest, goes, kept, notWriteback, notEvict, turn, takeIn, taken, asTaken, Bool.or_self, Bool.false_eq_true,
    decide_false, if_false, if_true]
  rfl

/-- A pool request that its home takes is put there. -/
theorem poolRequest_of_taken {code line : Nat} (plain : code ≠ 6 ∧ code ≠ 7) (taken : PoolTaken code rx a pair line s s') :
    poolRequest code rx s = atItsHome (asTaken code rx s) a pair line s' := by
  obtain ⟨accepted, shaped, noPromise, ⟨ppa, means, rfl⟩, allowed, fresh, room⟩ := taken
  have sameCode := asTaken_code code rx s
  rw [poolRequest_plain plain accepted, shaped, Bool.not_true, if_neg Bool.false_ne_true,
    translateRequest_of_means means (by simp [noPromise])]
  exact homeRequest_taken (by simpa [sameCode] using plain) noPromise (by rwa [sameCode]) fresh room

theorem claimPoolRequestsAreTaken : ClaimPoolRequestsAreTaken := by
  intro rx a s s' pair line
  have put : ∀ {code : Nat}, code ≠ 6 ∧ code ≠ 7 → PoolTaken code rx a pair line s s' →
      (.next (poolRequest code rx s) : Host.Outcome State Fault Refusal) = .next (atItsHome (asTaken code rx s) a pair line s') :=
    fun plain taken => congrArg _ (poolRequest_of_taken plain taken)
  exact ⟨put (by decide), put (by decide), put (by decide), put (by decide), put (by decide), put (by decide)⟩

/-! ### Releases (R29, R200, R217, R224) -/

theorem trackersUsed_congr {t : State} (same : t.coh = s.coh) (q : Nat) (release : Bool) :
    trackersUsed t q release = trackersUsed s q release := by
  simp only [trackersUsed, same]

theorem takeInRelease_of_means {t : State} (means : Means rx a.tenant t ppa) (sameXlat : t.xlat = s.xlat)
    (reads : translatesAsWrite rx.hdr.code = false) (room : trackersUsed s (ppaQuadrant ppa) true < 4096) :
    takeInRelease rx a s = takeIn rx a s := by
  rcases means with ⟨fabric, -, rfl⟩ | ⟨virtual, x, cached, rfl⟩
  · simp only [takeInRelease, fabric, Nat.not_le.mpr room, if_true, if_false, ite_self]
  · have cached' : cachedLeaf s (portQuadrant rx.port) a.tenant (rx.hdr.addr % 2 ^ 57) false = some x := by
      rw [← cached, reads]
      simp only [cachedLeaf, sameXlat]
    simp only [takeInRelease, virtual, cached', Nat.not_le.mpr room, if_false, ite_self]

/-- An accepted release of an address in the pool reaches the home of its line. -/
theorem poolRequest_release {code : Nat} (release : code = 6 ∨ code = 7) (accepted : Accepted (withCode code rx) a pair s s')
    (shaped : wellShaped (asTaken code rx s) = true) (means : Means (asTaken code rx s) a.tenant s' ppa)
    (room : trackersUsed s' (ppaQuadrant ppa) true < 4096) :
    poolRequest code rx s = takeRelease (asTaken code rx s) a (lineOfPpa ppa) s' := by
  have sameCode := asTaken_code code rx s
  obtain ⟨-, sameCoh, sameXlat⟩ := accepted.frame
  have goes : ingress { rx with hdr := { rx.hdr with code := code } } s = _ := accepted.1.goes
  have kept := accepted.kept
  have homeless : homeOf (afterPort (withCode code rx) s) (asTaken code rx s) a.tenant = [] := by
    rcases release with rfl | rfl <;> simp [homeOf, sameCode]
  have taken : ∀ f, acceptRequest (asTaken code rx s) a.tenant (afterPort (withCode code rx) s) f = f pair s' := fun f => by
    rw [← accepted.acceptRequest f, accepted.crossed_eq homeless, asTaken]
  have isRelease : (decide (code = 6) || decide (code = 7)) = true := by simpa using release
  have reads : translatesAsWrite (asTaken code rx s).hdr.code = false := by
    rw [sameCode]; rcases release with rfl | rfl <;> rfl
  have into := takeInRelease_of_means means sameXlat reads (trackersUsed_congr sameCoh _ _ ▸ room)
  calc poolRequest code rx s
      = takeInRelease (asTaken code rx s) a (afterPort (withCode code rx) s) := by
        simp only [poolRequest, goes, kept, isRelease, asTaken, Bool.false_eq_true, if_false, if_true]
    _ = translateRequest (asTaken code rx s) a pair s' := by
        rw [into, takeIn, taken, shaped]
        rfl
    _ = homeRequest (asTaken code rx s) a ppa pair s' :=
        translateRequest_of_means means (by simp [sameCode, isRelease])
    _ = takeRelease (asTaken code rx s) a (lineOfPpa ppa) s' := by
        simp only [homeRequest, sameCode, isRelease, if_true]

theorem poolRequest_of_releaseTaken {code line : Nat} (release : code = 6 ∨ code = 7)
    (taken : ReleaseTaken code rx a pair line s s') :
    poolRequest code rx s = settleHome (takeRequest (asTaken code rx s) a line 1 none none s') := by
  obtain ⟨accepted, shaped, ⟨ppa, means, rfl, room⟩, populated, fresh, ⟨e, extent, own⟩, kept, heard, apart⟩ := taken
  have sameSrc : (asTaken code rx s).hdr.src = rx.hdr.src := by simp [asTaken, withCode]
  have ownExtent : (e.tenant != a.tenant) = false := by simp [own]
  rw [poolRequest_release release accepted shaped means room]
  simp only [takeRelease, Nat.not_lt.mpr populated, fresh, extent, ownExtent, sameSrc, heard, kept, apart,
    Bool.false_eq_true, if_false]

theorem claimReleasesAreTaken : ClaimReleasesAreTaken := by
  intro rx a s s' pair line
  refine ⟨fun taken => congrArg Host.Outcome.next (poolRequest_of_releaseTaken (.inl rfl) taken),
    fun taken => congrArg Host.Outcome.next (poolRequest_of_releaseTaken (.inr rfl) taken), ?_⟩
  intro code ppa release accepted shaped means room unpopulated
  have denied : poolRequest code rx s = complete (asTaken code rx s).hdr a.tenant none stDENIED (countDenied a.tenant s') := by
    rw [poolRequest_release release accepted shaped means room]
    simp only [takeRelease, unpopulated, if_true]
  rw [← denied]
  rcases release with rfl | rfl <;> rfl

end

/-- Settles O33: what its port accepts is translated and put to its home, a release at once to its line. -/
theorem poolRequestsReachTheHome : Obligations.PoolRequestsReachTheHome :=
  ⟨claimPoolRequestsAreTaken, claimReleasesAreTaken⟩

/-! ### Atomics at their home (R201) -/

theorem claimAtomicsAreServed : ClaimAtomicsAreServed := by
  refine ⟨fun _ _ => rfl, ?served, ?denied⟩
  case served =>
    intro j t data s aop off a c op
    simp only [serve, op, Bool.false_eq_true, if_false]
  case denied =>
    intro rx a s s' pair accepted bad
    have sameAop : (asTaken 8 rx s).hdr.aop = rx.hdr.aop := by simp [asTaken, withCode]
    have sameAddr : (asTaken 8 rx s).hdr.addr = rx.hdr.addr := by simp [asTaken, withCode]
    have misshaped : wellShaped (asTaken 8 rx s) = false := by
      simp only [wellShaped, asTaken_code, sameAop, sameAddr]
      rcases bad with code | aligned
      · simp [Nat.not_le.mpr code]
      · simp [aligned]
    have denied := poolRequest_plain (by decide) accepted
    rw [misshaped, Bool.not_false, if_pos rfl] at denied
    exact congrArg Host.Outcome.next denied

/-- Settles O32: a merged line, byte by byte, gives both the atomics' bytes and the masked stores. -/
theorem atomicsAndMasks : Obligations.AtomicsAndMasks :=
  ⟨claimAtomicOperations, claimAtomicsTouchTheirBytes, claimAtomicsAreServed, claimMaskedStoresMerge⟩

/-! ### Signals (R206, R321, R372) -/

theorem evictIdem_frame (q : Nat) (s : State) : (evictIdem q s).coh.trackers = s.coh.trackers ∧
    (evictIdem q s).coh.signals = s.coh.signals ∧ (evictIdem q s).mem = s.mem ∧ (evictIdem q s).belay = s.belay := by
  unfold evictIdem
  split <;> simp

theorem recordIdem_frame (q : Nat) (h : PktHdr) (id : Nat) (s : State) : (recordIdem q h id s).coh.trackers = s.coh.trackers ∧
    (recordIdem q h id s).coh.signals = s.coh.signals ∧ (recordIdem q h id s).mem = s.mem ∧
    (recordIdem q h id s).belay = s.belay := by
  unfold recordIdem
  dsimp only
  split_ifs <;> simp [evictIdem_frame]

section
variable {rx : RxPkt} {a : Arrival} {s s' : State} {pair : Option Nat}

/-- The tracker of a signal that its knot's home takes, and its place behind its source's earlier writes. -/
def signalTracker (rx : RxPkt) (a : Arrival) (pair : Option Nat) (s : State) : Tracker :=
  { id := s.coh.nextTracker, order := a.place, who := .link rx.port rx.hdr.src rx.hdr.tag, hdr := rx.hdr, tenant := a.tenant,
    quadrant := knotHome rx.hdr.knot, p1 := false, remaining := 0, pair := pair, firstLine := noLine, arrived := a.mark }
def waitingSignal (rx : RxPkt) (a : Arrival) (s : State) : PendingSig :=
  { order := a.place, src := rx.hdr.src, cls := effClass rx.hdr, knot := rx.hdr.knot, tenant := a.tenant,
    tracker := some s.coh.nextTracker }

/-- The state with both entered. -/
def signalEntered (rx : RxPkt) (a : Arrival) (pair : Option Nat) (s : State) : State :=
  recordIdem (knotHome rx.hdr.knot) rx.hdr s.coh.nextTracker
    { s with coh.trackers := s.coh.trackers ++ [signalTracker rx a pair s], coh.nextTracker := s.coh.nextTracker + 1,
             coh.signals := s.coh.signals ++ [waitingSignal rx a s] }

theorem signalEntered_frame (rx : RxPkt) (a : Arrival) (pair : Option Nat) (s : State) :
    (signalEntered rx a pair s).coh.trackers = s.coh.trackers ++ [signalTracker rx a pair s] ∧
    (signalEntered rx a pair s).coh.signals = s.coh.signals ++ [waitingSignal rx a s] ∧
    (signalEntered rx a pair s).mem = s.mem ∧ (signalEntered rx a pair s).belay = s.belay :=
  recordIdem_frame ..

theorem takeSignal_fresh (fresh : idemMatch s (knotHome rx.hdr.knot) rx.hdr = none)
    (room : trackersUsed s (knotHome rx.hdr.knot) false < 16384) :
    takeSignal rx a pair s = settleHome (signalEntered rx a pair s) := by
  simp only [takeSignal, fresh, Nat.not_le.mpr room, if_false]
  rfl

theorem exec_signal_accepted (accepted : Accepted (withCode 0x0A rx) a pair s s') (plain : rx.hdr.barrier = false) :
    exec (.signal rx) s = .next (takeSignal (asTaken 0x0A rx s) a pair s') := by
  have goes : ingress { rx with hdr := { rx.hdr with code := 0x0A } } s = _ := accepted.1.goes
  have kept := accepted.kept
  have taken := fun f => accepted.acceptRequest f
  obtain ⟨-, -, -, turn, -⟩ := accepted
  have plain' : (atPort (withCode 0x0A rx) s).hdr.barrier = false := by rw [← plain]; simp [withCode]
  simp only [exec, execSignal, goes, kept, plain', turn, taken, asTaken, Bool.not_true, Bool.false_eq_true, if_false]

theorem exec_fbarArrival_accepted
    (accepted : Accepted { rx with hdr := { rx.hdr with code := 0x0A, barrier := true } } a pair s s') :
    exec (.fbarArrival rx) s =
      .next (takeArrival (atPort { rx with hdr := { rx.hdr with code := 0x0A, barrier := true } } s) a.tenant pair s') := by
  have goes := accepted.1.goes
  have kept := accepted.kept
  have taken := fun f => accepted.acceptRequest f
  rw [accepted.crossed_eq (by simp [homeOf])] at taken
  simp only [exec, execFbarArrival, goes, kept, taken, Bool.false_eq_true, if_false]

end

/-- Settles O34: a signal gets a tracker and its place in line, an arrival is counted at once. -/
theorem signalsAreTaken : Obligations.SignalsAreTaken := by
  refine ⟨?signal, ?arrival⟩
  case signal =>
    intro rx a s s' pair accepted plain fresh room
    have sameKnot : (asTaken 0x0A rx s).hdr.knot = rx.hdr.knot := by simp [asTaken, withCode]
    rw [← sameKnot] at fresh room
    obtain ⟨trackers, signals, mem, belay⟩ := signalEntered_frame (asTaken 0x0A rx s) a pair s'
    refine ⟨signalEntered (asTaken 0x0A rx s) a pair s', _, _,
      ?_, trackers, signals, sameKnot, ?_, rfl, rfl, rfl, ?_, rfl, mem, belay⟩
    · rw [exec_signal_accepted accepted plain, takeSignal_fresh fresh room]
    · simp [waitingSignal, asTaken, withCode]
    · simp [signalTracker, asTaken, withCode]
  case arrival =>
    intro rx a s s' pair accepted group
    have sameGroup : (atPort { rx with hdr := { rx.hdr with code := 0x0A, barrier := true } } s).hdr.group = rx.hdr.group := by
      simp
    rw [exec_fbarArrival_accepted accepted]
    simp only [takeArrival, sameGroup, group, bne_self_eq_false, Bool.false_eq_true, if_false]

/-! ### Answers of holders and endpoints (R212, R219, R362) -/

theorem homeAnswer_of_enters {rx : RxPkt} {a : Arrival} {s : State} (enters : Enters rx a s) (f : Nat → State → State) :
    homeAnswer rx f s = settleHome (f a.tenant (takenUp rx s)) := by
  simp only [homeAnswer, enters.goes, enters.own, takenUp, if_true]

theorem claimHomeAnswersArrive : ClaimHomeAnswersArrive := fun _ _ _ enters =>
  ⟨congrArg Host.Outcome.next (homeAnswer_of_enters enters _), congrArg Host.Outcome.next (homeAnswer_of_enters enters _),
    congrArg Host.Outcome.next (homeAnswer_of_enters enters _)⟩

theorem busyOf_dropBusy_self (line : Nat) (s : State) : busyOf (dropBusy line s) line = none := by
  simp [busyOf, dropBusy]

/-- A line that nothing waits for comes to rest. -/
theorem freeLine_idle {line : Nat} {s : State} {b : BusyLine} (busy : busyOf s line = some b) (queue : b.queue = [])
    (owed : b.owed = []) : freeLine line s = dropBusy line { s with coh.evicting := s.coh.evicting.erase line } := by
  simp only [freeLine, busy, queue, owed, decide_true, Bool.and_self, if_true]

/-- The line was granted to a packet's source under its tag. -/
def awaitsAck (h : PktHdr) (b : BusyLine) : Bool :=
  match b.phase with
  | .granting eid tag _ => eid = h.src && tag = h.tag
  | _ => false

theorem awaitsAck_iff (h : PktHdr) (b : BusyLine) : awaitsAck h b = true ↔ ∃ since, b.phase = .granting h.src h.tag since := by
  unfold awaitsAck
  split
  · next eid tag since phase => simp [phase]
  · next other => simpa using fun since phase => other _ _ since phase

theorem grantAcked_eq (h : PktHdr) (t : Nat) (s : State) : grantAcked h t s = match s.coh.busy.find? (awaitsAck h) with
    | some b => b.recalls.foldl (fun s e => recallHeld b.line e s) (freeLine b.line s)
    | none => countLate t s := rfl

theorem claimGrantAcksFreeTheLine : ClaimGrantAcksFreeTheLine := by
  constructor
  · intro h t s b granted entry queue owed recalls
    have found : s.coh.busy.find? (awaitsAck h) = some b := granted
    have busy : busyOf s b.line = some b := by
      obtain ⟨x, listed⟩ : ∃ x, busyOf s b.line = some x := by
        rw [← Option.isSome_iff_exists, busyOf, List.find?_isSome]
        exact ⟨b, List.mem_of_find?_eq_some found, by simp⟩
      rw [listed] at entry ⊢
      exact congrArg some entry.symm
    rw [grantAcked_eq, found]
    simp only [recalls, List.foldl_nil, freeLine_idle busy queue owed, busyOf_dropBusy_self]
  · intro h t s other
    have unawaited : s.coh.busy.find? (awaitsAck h) = none := by
      refine List.find?_eq_none.mpr fun b listed awaited => ?_
      obtain ⟨since, phase⟩ := (awaitsAck_iff h b).mp awaited
      exact other b listed since phase
    rw [grantAcked_eq, unawaited]
    exact ⟨rfl, rfl⟩

theorem answerArrives_of_enters {rx : RxPkt} {a : Arrival} {s s' : State} {pair : Option Nat} (enters : Enters rx a s)
    (passes : passBack rx.port (atPort rx s).hdr (takenUp rx s) = .goes pair s') :
    answerArrives rx s =
      settleHome (issueWaiting (takeAnswer (atPort rx s).hdr rx.payload (freePair pair s'))) := by
  obtain ⟨port, payload, -⟩ := atPort_frame rx s
  rw [← port, takenUp] at passes
  simp only [answerArrives, enters.goes, enters.own, passes, payload, Bool.not_true, Bool.false_eq_true, if_false]

theorem claimAnswersReachTheirUnit : ClaimAnswersReachTheirUnit := fun _ _ _ _ _ =>
  ⟨fun enters passes => congrArg Host.Outcome.next (answerArrives_of_enters enters passes),
    fun enters passes => congrArg Host.Outcome.next (answerArrives_of_enters enters passes)⟩

/-- Settles O35: an answer goes through its port to the line or the unit that waits for it. -/
theorem answersArrive : Obligations.AnswersArrive :=
  ⟨claimHomeAnswersArrive, claimGrantAcksFreeTheLine, claimAnswersReachTheirUnit⟩

/-! ### Busy lines move on (R27, R212, R225, R226, R506) -/

section
variable {line eid : Nat} {s : State} {b : BusyLine}

theorem exec_lineFetchComplete_jobless (f : Fetches) (jobless : (busyOf s line).bind (·.job) = none) :
    exec (.lineFetchComplete line f) s = .next (settleHome (fetchDone line f s)) := by
  simp only [exec, execLineFetchComplete, jobless]

/-- The line of a request that is no engine's read is taken in its turn, but for what a global stop holds. -/
theorem exec_lineFetchComplete_job (f : Fetches) {j : Job} {t : Tracker} (job : (busyOf s line).bind (·.job) = some j)
    (tracker : trackerOf s j.tracker = some t) (notEngineRead : ∀ c x, ¬(t.who = .engine c x ∧ t.hdr.code = 1)) :
    exec (.lineFetchComplete line f) s = .next (settleHome (takeLine line f s)) := by
  simp only [exec, execLineFetchComplete, job, tracker, Option.map_some]
  split
  · next core ctx reads =>
    simp only [Option.some.injEq, Prod.mk.injEq] at reads
    exact absurd reads (notEngineRead core ctx)
  · rfl

theorem takeLine_inTurn (f : Fetches) (turn : lineTurn s line = true) (free : onChipHeld s line = false) :
    takeLine line f s = fetchDone line f (lineTaken line s) := by
  simp only [takeLine, turn, free, Bool.not_false, Bool.and_self, if_true]

theorem takeLine_waits (f : Fetches) (waits : lineTurn s line = false ∨ onChipHeld s line = true) : takeLine line f s = s := by
  rcases waits with waits | waits <;> simp [takeLine, waits]

theorem exec_homeRequestResume_next (upset : Bool) {j : Job} {q : List Job} (busy : busyOf s line = some b)
    (jobless : b.job = none) (idle : b.phase = .recalling []) (owed : b.owed = []) (thawed : frozen s = false)
    (queue : b.queue = j :: q) :
    exec (.homeRequestResume line upset) s = .next (settleHome (startJob j (putBusy { b with queue := q } (if upset then
      setDir line ((dirOf s line).map (fun d => { d with bad := true })) s else s)))) := by
  have same : ∀ d, busyOf (setDir line d s) line = some b ∧ frozen (setDir line d s) = false := fun _ => ⟨busy, thawed⟩
  cases upset <;>
    simp only [exec, execHomeRequestResume, same, busy, thawed, jobless, idle, owed, queue, Option.isSome_none, bne_self_eq_false,
      Bool.or_self, Bool.false_eq_true, if_true, if_false]

theorem exec_snoopTimeout_silent {x : Snoop} {l : List Snoop} (busy : busyOf s line = some b) (snooping : b.phase = .snooping l)
    (out : x ∈ l) (unanswered : x.complete = false) (due : x.sentAt + 2048 ≤ plmc s) :
    exec (.snoopTimeout line x.eid) s = .next (settleHome (silentSnoop line x.eid s)) := by
  have silent : (snoopsOut b).any (fun y => y.eid == x.eid && !y.complete && y.sentAt + snoopLimit ≤ plmc s) = true :=
    List.any_eq_true.mpr ⟨x, by simp [snoopsOut, snooping, out], by simp [unanswered, due]⟩
  simp only [exec, execSnoopTimeout, busy, silent, if_true]

theorem exec_grantAckTimeout_silent {tag since : Nat} (busy : busyOf s line = some b)
    (granted : b.phase = .granting eid tag since) (due : since + 2048 ≤ plmc s) :
    exec (.grantAckTimeout line) s = .next (settleHome
      (b.recalls.foldl (fun s e => recallHeld line e s) (freeLine line (silentHolder line eid s)))) := by
  simp only [exec, execGrantAckTimeout, busy, granted, due, if_true]

end

/-- Settles O36: each event acts on what it finds due, and an idempotency record's expiry is a filter. -/
theorem busyLinesMoveOn : Obligations.BusyLinesMoveOn := by
  refine ⟨fun _ f _ => exec_lineFetchComplete_jobless f, ?taken, fun _ upset _ _ _ _ => exec_homeRequestResume_next upset,
    ?silent, fun _ _ _ _ _ _ => exec_grantAckTimeout_silent, ?expiry⟩
  case taken =>
    intro line f s j t job tracker notEngineRead
    rw [exec_lineFetchComplete_job f job tracker notEngineRead]
    exact ⟨fun turn free => by rw [takeLine_inTurn f turn free], fun waits => by rw [takeLine_waits f waits]⟩
  case silent =>
    rintro line _ s b x l busy snooping out rfl unanswered due
    exact exec_snoopTimeout_silent busy snooping out unanswered due
  case expiry =>
    intro q e g s
    have expires : ∀ r : Idem, (r.quadrant == q && r.eid == e && r.tag == g && r.tracker.isNone &&
        decide (r.doneAt + idemHold s ≤ lmc s)) = true ↔
        r.quadrant = q ∧ r.eid = e ∧ r.tag = g ∧ r.tracker = none ∧ r.doneAt + idemHold s ≤ lmc s := fun r => by
      simp only [Bool.and_eq_true, beq_iff_eq, Option.isNone_iff_eq_none, decide_eq_true_eq, and_assoc]
    refine ⟨_, rfl, rfl, fun r listed => ?_, fun r stays => ?_⟩
    · rw [← expires, or_iff_not_imp_right]
      exact fun kept => List.mem_filter.mpr ⟨listed, (Bool.not_eq_true' _).mpr (eq_false_of_ne_true kept)⟩
    · obtain ⟨listed, kept⟩ := List.mem_filter.mp stays
      exact ⟨listed, mt (expires r).mpr (ne_true_of_eq_false ((Bool.not_eq_true' _).mp kept))⟩

end Sys2Proof.Machine

/-! PROOFS. Engine cores and arithmetic (section 07): images and the commands that queue shares, the contexts that take the shares
and go on with them, and the slices of the arithmetic unit. -/
namespace Sys2Proof.Machine

/-! ### A core and its contexts (R230, R237) -/

section
variable (c k : Nat) (x : Option Ctx) (f : Core → Core) (s : State)

@[simp] theorem core_modCore_self : tget {} (modCore c f s).eng.cores c = f (tget {} s.eng.cores c) := tget_tmod_self ..

theorem core_modCore_ne {d : Nat} (other : d ≠ c) : tget {} (modCore c f s).eng.cores d = tget {} s.eng.cores d :=
  tget_tmod_ne _ _ _ _ _ other

@[simp] theorem ctxOf_putCtx_self : ctxOf (putCtx c k x s) c k = x := by
  rw [ctxOf, putCtx, core_modCore_self, tget_tset_self]

theorem ctxOf_putCtx_ne {d j : Nat} (other : (d, j) ≠ (c, k)) : ctxOf (putCtx c k x s) d j = ctxOf s d j := by
  by_cases core : d = c
  · subst core
    have ctx : j ≠ k := fun same => other (by rw [same])
    rw [ctxOf, putCtx, core_modCore_self, tget_tset_ne _ _ _ _ _ ctx, ctxOf]
  · rw [ctxOf, putCtx, core_modCore_ne _ _ _ core, ctxOf]

end

theorem ctxOf_congr {s t : State} (same : t.eng = s.eng) (c k : Nat) : ctxOf t c k = ctxOf s c k := by
  rw [ctxOf, same, ctxOf]

/-! ### What the taking of a command's number leaves of the engines (R101) -/

section
variable (c : Cmd) (s : State) (t : Nat)

@[simp] theorem submitStages_takeNumber (p : Submit) : submitStages (takeNumber c s) t p = submitStages s t p := by
  simp only [submitStages, takeNumber_frame]

@[simp] theorem engineTenant_takeNumber : engineTenant (takeNumber c s) = engineTenant s := by
  funext core
  simp only [engineTenant, takeNumber_frame]

@[simp] theorem badSignal_takeNumber (stages : List Line) : badSignal (takeNumber c s) t stages = badSignal s t stages := by
  simp only [badSignal, knotTenant, takeNumber_frame]

@[simp] theorem coreGone_takeNumber : coreGone (takeNumber c s) = coreGone s := by
  funext core
  simp only [coreGone, takeNumber_frame]

@[simp] theorem queueFull_takeNumber : queueFull (takeNumber c s) = queueFull s := by
  funext core
  simp only [queueFull, takeNumber_frame]

end

/-! ### LOAD_PROGRAM and LOAD_CHAIN (R240, R292 to R294, R433) -/

/-- Where no line has to be fetched from an owner, a command over an image runs, and what was gathered for it is forgotten. -/
theorem whenReadable_of_ready {t n tva : Nat} {s : State} (serves : serving s = true) (thawed : frozen s = false)
    (ready : (readByTva t n tva [] s).1 ≠ .wait) (f : State → State) : whenReadable t n tva f s = clearGathered t (f s) := by
  simp only [whenReadable, serves, thawed, Bool.not_true, Bool.or_self, Bool.false_eq_true, if_false]
  split
  · next waits => exact absurd (congrArg Prod.fst waits) ready
  · rfl

theorem le_zero : ∀ n : Nat, le n 0 = zeros n
  | 0 => rfl
  | n + 1 => congrArg (0#8 :: ·) (le_zero n)

theorem zeros_append (m n : Nat) : zeros m ++ zeros n = zeros (m + n) := List.replicate_append_replicate

/-- The program that LOAD_PROGRAM stores, measured over its words and the bytes of its rows (log entry 103). -/
def measuredProgram (ws : List Nat) (r : Nat) (s : State) : Program :=
  { words := ws, rowBytes := r, digest := sm3 (ws.flatMap (le 4) ++ le 2 r), loadedAt := fmt s }

/-- The chain that LOAD_CHAIN stores, measured over its stages. -/
def measuredChain (stages : List Line) (s : State) : Chain :=
  { stages := stages, digest := sm3 (stages.flatMap lineBytes), loadedAt := fmt s }

/-- A tenant's programs and chains with an image that has been loaded. -/
def programStored (t id : Nat) (p : Program) (s : State) : State :=
  { s with eng.programs := tset none s.eng.programs (storeKey t id) (some p) }
def chainStored (t id : Nat) (ch : Chain) (s : State) : State :=
  { s with eng.chains := tset none s.eng.chains (storeKey t id) (some ch) }

/-- The address of an image and the ID that it is loaded under; the words of a program and the bytes of its rows; the lines of a
chain. -/
def imageTva (c : Cmd) : Nat := pnum c.params 0 8 % 2 ^ 57 / 128 * 128
def imageId (c : Cmd) : Nat := min 63 (pnum c.params 8 1)
def programWords (c : Cmd) : Nat := clampTo 1 768 (pnum c.params 10 2)
def programRow (c : Cmd) : Nat := clampTo 4 256 (pnum c.params 12 2 / 4 * 4)
def chainLines (c : Cmd) : Nat := clampTo 1 16 (pnum c.params 9 1)

section
variable {c : Cmd} {s s' : State} {bs : List Byte}

theorem exec_loadProgram_sound {ws : List Nat} (runs : Runs 0x401 c s) (thawed : frozen s = false)
    (ready : (readByTva c.tenant ((programWords c + 31) / 32) (imageTva c) [] s).1 ≠ .wait)
    (unused : programInUse (takeNumber c s) c.tenant (imageId c) = false)
    (read : readByTva c.tenant ((programWords c + 31) / 32) (imageTva c) [] (takeNumber c s) = (.bytes bs, s'))
    (sound : checkProgram (wordsOf 4 (programWords c) bs) (programRow c) = .ok ws) :
    let p := measuredProgram ws (programRow c) s'
    ∃ echo, exec (.loadProgram c) s = .next (clearGathered c.tenant
      (answer 0x401 c echo (.done stOK (digestBytes p.digest ++ zeros 12)) (programStored c.tenant (imageId c) p s'))) := by
  refine ⟨_, congrArg Host.Outcome.next ((whenReadable_of_ready runs.serves thawed ready _).trans
    (congrArg _ (kcpNow_of_body runs ?_)))⟩
  simp only [programWords, programRow, imageTva, imageId] at unused read sound ⊢
  simp only [unused, read, sound, Bool.false_eq_true, if_false, le_zero, List.append_assoc, zeros_append, programStored,
    measuredProgram]

theorem exec_loadChain_sound (runs : Runs 0x402 c s) (thawed : frozen s = false)
    (ready : (readByTva c.tenant (chainLines c) (imageTva c) [] s).1 ≠ .wait)
    (unused : chainInUse (takeNumber c s) c.tenant (imageId c) = false)
    (read : readByTva c.tenant (chainLines c) (imageTva c) [] (takeNumber c s) = (.bytes bs, s'))
    (sound : mergesFollow (clampStages 1 (imageLines (chainLines c) bs)) = true) :
    let ch := measuredChain (clampStages 1 (imageLines (chainLines c) bs)) s'
    ∃ echo, exec (.loadChain c) s = .next (clearGathered c.tenant
      (answer 0x402 c echo (.done stOK (digestBytes ch.digest ++ zeros 8)) (chainStored c.tenant (imageId c) ch s'))) := by
  refine ⟨_, congrArg Host.Outcome.next ((whenReadable_of_ready runs.serves thawed ready _).trans
    (congrArg _ (kcpNow_of_body runs ?_)))⟩
  simp only [chainLines, imageTva, imageId] at unused read sound ⊢
  simp only [unused, read, sound, Bool.not_true, Bool.false_eq_true, if_false, le_zero, chainStored, measuredChain]

end

/-- Settles O38: the image is read once none of its lines has to be fetched, and what it reads is stored and measured. -/
theorem imagesAreLoaded : Obligations.ImagesAreLoaded := by
  refine ⟨fun c s s' bs ws runs thawed ready unused read sound => ?_,
    fun c s s' bs runs thawed ready unused read sound => ?_⟩
  · obtain ⟨echo, loads⟩ := exec_loadProgram_sound runs thawed ready unused read sound
    exact ⟨echo, _, loads, rfl, rfl, rfl⟩
  · obtain ⟨echo, loads⟩ := exec_loadChain_sound runs thawed ready unused read sound
    exact ⟨echo, _, loads, rfl, rfl, rfl⟩

/-! ### A gang takes its places (R237, R243) -/

/-- A core's share stands at the end of its queue. -/
def shareQueued (share : Nat → Share) (s : State) (c : Nat) : State :=
  modCore c (fun y => { y with queue := y.queue ++ [share c] }) s

/-- The share of a gang for one of its cores. -/
def gangShare (first size gang : Nat) (base : Share) (c : Nat) : Share :=
  { base with gang := gang, index := c - first, size := size }

/-- A gang takes its number and its bight lines, and then its shares are queued. -/
theorem queueGang_eq_foldl (first size : Nat) (cores : List Nat) (base : Share) (s : State) : ∃ u,
    queueGang first size cores base s = cores.foldl (shareQueued (gangShare first size s.eng.nextGang base)) u ∧
    u.eng.cores = s.eng.cores ∧ u.eng.nextGang = s.eng.nextGang + 1 ∧ u.mem = s.mem ∧ u.kcp = s.kcp ∧
    u.bind = s.bind ∧ u.fields = s.fields :=
  ⟨_, rfl, rfl, rfl, rfl, rfl, rfl, rfl⟩

section
variable {share : Nat → Share} {k : Nat}

theorem core_foldl_shareQueued_of_notMem {cores : List Nat} (absent : k ∉ cores) (s : State) :
    tget {} (cores.foldl (shareQueued share) s).eng.cores k = tget {} s.eng.cores k := by
  induction cores generalizing s with
  | nil => rfl
  | cons c cores ih =>
    obtain ⟨other, later⟩ := not_or.mp (mt List.mem_cons.mpr absent)
    rw [List.foldl_cons, ih later, shareQueued, core_modCore_ne _ _ _ other]

/-- Cores that are named once get one share each. -/
theorem core_foldl_shareQueued_of_mem {cores : List Nat} (nodup : cores.Nodup) (listed : k ∈ cores) (s : State) :
    tget {} (cores.foldl (shareQueued share) s).eng.cores k =
      { tget {} s.eng.cores k with queue := (tget {} s.eng.cores k).queue ++ [share k] } := by
  induction cores generalizing s with
  | nil => cases listed
  | cons c cores ih =>
    obtain ⟨once, nodup⟩ := List.nodup_cons.mp nodup
    rw [List.foldl_cons]
    rcases List.mem_cons.mp listed with rfl | later
    · rw [core_foldl_shareQueued_of_notMem once, shareQueued, core_modCore_self]
    · have other : k ≠ c := fun same => once (same ▸ later)
      rw [ih nodup later, shareQueued, core_modCore_ne _ _ _ other]

/-- Queueing shares changes the cores alone. -/
theorem foldl_shareQueued_frame (cores : List Nat) (s : State) :
    (cores.foldl (shareQueued share) s).eng.nextGang = s.eng.nextGang ∧ (cores.foldl (shareQueued share) s).mem = s.mem ∧
    (cores.foldl (shareQueued share) s).kcp = s.kcp ∧ (cores.foldl (shareQueued share) s).bind = s.bind ∧
    (cores.foldl (shareQueued share) s).fields = s.fields :=
  have keeps {γ : Type} (f : State → γ) (same : ∀ u c, f (shareQueued share u c) = f u) := foldl_keeps f _ same cores s
  ⟨keeps (·.eng.nextGang) fun _ _ => rfl, keeps (·.mem) fun _ _ => rfl, keeps (·.kcp) fun _ _ => rfl,
    keeps (·.bind) fun _ _ => rfl, keeps (·.fields) fun _ _ => rfl⟩

end

/-- Settles O39: the gang is entered, then each of its cores gets its one share. -/
theorem gangsTakeTheirPlaces : Obligations.GangsTakeTheirPlaces := by
  intro first size cores sh s nodup
  obtain ⟨u, queued, sameCores, number, sameMem, sameKcp, sameBind, sameFields⟩ := queueGang_eq_foldl first size cores sh s
  simp only [queued, foldl_shareQueued_frame]
  refine ⟨fun k listed => ?_, fun k absent => ?_, number, sameMem, sameKcp, sameBind, sameFields⟩
  · rw [core_foldl_shareQueued_of_mem nodup listed, sameCores]
    exact ⟨rfl, rfl⟩
  · rw [core_foldl_shareQueued_of_notMem absent, sameCores]

/-! ### SUBMIT and RESTART (R187, R242, R243, R246) -/

/-- The cores that a SUBMIT names. -/
def submitCores (p : Submit) : List Nat := (List.range p.count).map (p.first + ·)

/-- The share of a SUBMIT before its gang has its number. -/
def submittedShare (c : Cmd) (p : Submit) (stages : List Line) (gates : Tbl Gate) : Share :=
  { gang := 0, origin := { kind := 0, session := c.session, seq := c.seq }, tenant := c.tenant, index := 0, size := p.count,
    first := p.first, chainId := if p.inl then none else some p.chain, stages := stages, gates := gates, check := submitCheck p,
    origSeq := c.seq }

/-- The share of a RESTART goes on from the stage and the progress of its restart descriptor. -/
def restartedShare (c : Cmd) (p : Submit) (stages : List Line) (gates : Tbl Gate) : Share :=
  { submittedShare c p stages gates with
    origin := { kind := 1, session := c.session, seq := c.seq }, startStage := pnum c.params 8 1,
    startProgress := pnum c.params 16 8, check := pnum c.params 24 8, origSeq := pnum c.params 0 8 }

/-- The core that a RESTART names, of those of the original SUBMIT. -/
def restartCoreOf (p : Submit) : Nat := clampTo p.first (p.first + p.count - 1) p.restartCore

/-- No bight line that the gates of some stages need is held. -/
def LinesFree (s : State) (gates : Tbl Gate) (stages : List Line) : Prop :=
  (bightLines gates stages.length).all (fun l => tget 0 s.belay.holders l == 0) = true

theorem LinesFree.none_held {s : State} {gates : Tbl Gate} {stages : List Line} (free : LinesFree s gates stages) :
    (bightLines gates stages.length).any (fun l => tget 0 s.belay.holders l != 0) = false := by
  simpa [LinesFree] using free

section
variable {c : Cmd} {p : Submit} {s : State} {stages : List Line} {gates : Tbl Gate}

theorem exec_submit_room (named : submitOf c.params = p) (runs : Runs 0x403 c s)
    (known : submitStages s c.tenant p = some (stages, gates))
    (own : (submitCores p).all (fun k => engineTenant s k == some c.tenant) = true)
    (signals : badSignal s c.tenant stages = false) (there : (submitCores p).any (coreGone s) = false)
    (room : (submitCores p).any (queueFull s) = false) (free : LinesFree s gates stages) :
    RepliesWith 0x403 c stOK (le 2 p.count ++ zeros 2)
      (queueGang p.first p.count (submitCores p) (submittedShare c p stages gates)
        (journalQueue c (submitCores p) (takeNumber c s)))
      (exec (.submit c) s) := by
  subst named
  have mine : (submitCores (submitOf c.params)).any (fun k => engineTenant s k != some c.tenant && !coreGone s k) = false := by
    rw [List.any_eq_false]
    intro k listed
    simp [beq_iff_eq.mp (List.all_eq_true.mp own k listed)]
  have unheld := free.none_held
  refine ⟨_, congrArg Host.Outcome.next (kcpNow_of_body runs ?_)⟩
  simp only [submitCores] at mine there room ⊢
  simp only [submitStages_takeNumber, engineTenant_takeNumber, badSignal_takeNumber, coreGone_takeNumber, queueFull_takeNumber,
    takeNumber_frame, known, mine, signals, there, room, unheld, Bool.or_self, Bool.false_eq_true, if_false, submittedShare]

theorem exec_restart_room (named : submitOf (c.params.drop 32) = p) (runs : Runs 0x405 c s)
    (known : submitStages s c.tenant p = some (stages, gates)) (check : pnum c.params 24 8 = submitCheck p)
    (stage : pnum c.params 8 1 < stages.length) (own : engineTenant s (restartCoreOf p) = some c.tenant)
    (signals : badSignal s c.tenant stages = false)
    (there : (List.range p.count).any (fun i => coreGone s (p.first + i)) = false)
    (room : queueFull s (restartCoreOf p) = false) (free : LinesFree s gates stages) :
    RepliesWith 0x405 c stOK [] (queueGang p.first p.count [restartCoreOf p] (restartedShare c p stages gates)
      (journalQueue c [restartCoreOf p] (takeNumber c s))) (exec (.restart c) s) := by
  subst named
  have unheld := free.none_held
  have valid : (pnum c.params 24 8 != submitCheck (submitOf (c.params.drop 32)) ||
      decide (stages.length ≤ pnum c.params 8 1)) = false := by
    simp [check, stage]
  refine ⟨_, congrArg Host.Outcome.next (kcpNow_of_body runs ?_)⟩
  simp only [restartCoreOf] at own room ⊢
  simp only [submitStages_takeNumber, engineTenant_takeNumber, badSignal_takeNumber, coreGone_takeNumber, queueFull_takeNumber,
    takeNumber_frame, known, valid, own, signals, there, room, unheld, bne_self_eq_false, Bool.false_and, Bool.or_self,
    Bool.false_eq_true, if_false, restartedShare, submittedShare]

end

/-! ### CANCEL (R247) -/

/-- A context of a core still holds a share of a command. -/
def stillRuns (s : State) (session seq core : Nat) : Bool :=
  (coreCtxs (tget {} s.eng.cores core)).any (fun x => ofCommand session seq x.2.share.origin)

/-- The reply to a CANCEL waits where it has ended something of the command whose writes are out still. -/
def cancelAnswer (session seq core : Nat) (r : Nat × State) : Answer :=
  if r.1 ≠ 0 ∧ stillRuns (settleHome r.2) session seq core = true then .later (.cancel seq [core] r.1)
  else .done stOK (le 2 r.1 ++ zeros 2)

/-- A command that runs answers with what its body makes of the state in which its number is taken. -/
theorem kcpTake_of_body {op : Nat} {c : Cmd} {echo : List Byte} {s t : State} {a : Answer} {body : State → Answer × State}
    (runs : Runs op c s) (does : body (takeNumber c s) = (a, t)) : kcpTake op c echo body s = answer op c echo a t := by
  rw [kcpTake_of_runs runs, does]

theorem exec_cancel_ofOneCore {c : Cmd} {s : State} (runs : Runs 0x404 c s) (one : pnum c.params 8 2 ≠ 0xFFFF)
    (there : coreGone s (min 2047 (pnum c.params 8 2)) = false)
    (own : engineTenant s (min 2047 (pnum c.params 8 2)) = some c.tenant) :
    let core := min 2047 (pnum c.params 8 2)
    let r := cancelOn c.session (pnum c.params 0 8) core (0, takeNumber c s)
    ∃ echo, exec (.cancel c) s =
      .next (answer 0x404 c echo (cancelAnswer c.session (pnum c.params 0 8) core r) (settleHome r.2)) := by
  have named : min 2047 (pnum c.params 8 2) ≠ 0xFFFF := by omega
  refine ⟨_, congrArg Host.Outcome.next (kcpTake_of_body runs ?_)⟩
  simp only [if_neg one, if_neg named, coreGone_takeNumber, engineTenant_takeNumber, there, own, bne_self_eq_false, Bool.and_false,
    Bool.false_eq_true, if_false, List.foldl_cons, List.foldl_nil, cancelAnswer]
  generalize cancelOn c.session (pnum c.params 0 8) (min 2047 (pnum c.params 8 2)) (0, takeNumber c s) = r
  by_cases nothing : r.1 = 0
  · simp [nothing]
  · cases left : stillRuns (settleHome r.2) c.session (pnum c.params 0 8) (min 2047 (pnum c.params 8 2)) <;>
      rw [stillRuns] at left <;> simp [nothing, left]

theorem cancelAnswer_of_left {session seq core : Nat} {r : Nat × State} (ended : r.1 ≠ 0)
    (left : stillRuns (settleHome r.2) session seq core = true) :
    cancelAnswer session seq core r = .later (.cancel seq [core] r.1) := if_pos ⟨ended, left⟩

theorem cancelAnswer_of_nothing_left {session seq core : Nat} {r : Nat × State}
    (left : stillRuns (settleHome r.2) session seq core = false) :
    cancelAnswer session seq core r = .done stOK (le 2 r.1 ++ zeros 2) := if_neg fun waits => by simp [left] at waits

theorem claimCommandsQueueShares : ClaimCommandsQueueShares := by
  refine ⟨?submit, ?restart, ?cancel⟩
  case submit =>
    intro c s stages gates runs p cores known own signals there room free
    exact ⟨_, exec_submit_room rfl runs known own signals there room free, rfl, rfl, rfl, rfl, rfl, rfl, rfl, rfl⟩
  case restart =>
    intro c s stages gates runs p core known check stage own signals there room free
    exact ⟨_, exec_restart_room rfl runs known check stage own signals there room free, rfl, rfl, rfl, rfl, rfl⟩
  case cancel =>
    intro c s runs one core there own r
    obtain ⟨echo, cancels⟩ := exec_cancel_ofOneCore runs one there own
    refine ⟨fun left => ⟨echo, ?_⟩, fun ended left => ⟨echo, ?_⟩⟩ <;> rw [cancels]
    · rw [cancelAnswer_of_nothing_left left]
    · rw [cancelAnswer_of_left ended left]

/-! ### BULK_COPY (R276) -/

theorem boundCore_of_engineTenant {s : State} {core t : Nat} (own : engineTenant s core = some t) : boundCore s core t = true := by
  simp only [engineTenant, served] at own
  split at own
  · next bound => simp [boundCore, bound, Option.some.inj own]
  · simp at own
  · cases own

/-- The share of a BULK_COPY that its port has let through. -/
def bulkShare (rx : RxPkt) (t : Nat) (pair : Option Nat) : Share :=
  { gang := 0, origin := { kind := 2, session := rx.hdr.src, seq := rx.hdr.dst, tag := rx.hdr.tag,
                           port := (pair.map (· + 1)).getD 0 },
    tenant := t, index := 0, size := 1, first := rx.hdr.core, chainId := none, stages := [clampDesc 1 (rx.payload.headD 0)] }

theorem takeBulkCopy_room {rx : RxPkt} {t : Nat} {s : State} (pair : Option Nat) (named : rx.hdr.any = false)
    (copy : dOp (rx.payload.headD 0) = 2) (own : engineTenant s rx.hdr.core = some t) (there : coreGone s rx.hdr.core = false)
    (room : queueFull s rx.hdr.core = false) :
    takeBulkCopy rx t pair s = queueGang rx.hdr.core 1 [rx.hdr.core] (bulkShare rx t pair) s := by
  simp only [takeBulkCopy, named, copy, boundCore_of_engineTenant own, there, room, bne_self_eq_false, Bool.false_eq_true, if_false,
    if_true, bulkShare]

theorem exec_bulkCopy_accepted {rx : RxPkt} {a : Arrival} {pair : Option Nat} {s s' : State}
    (accepted : Accepted (withCode 9 rx) a pair s s') :
    exec (.bulkCopy rx) s = .next (takeBulkCopy (asTaken 9 rx s) a.tenant pair s') := by
  have goes : ingress { rx with hdr := { rx.hdr with code := 0x09 } } s = _ := accepted.1.goes
  have stays : homeOf (afterPort (withCode 9 rx) s) (atPort (withCode 9 rx) s) a.tenant = [] := by simp [homeOf, withCode]
  have taken := fun f => accepted.acceptRequest f
  rw [accepted.crossed_eq stays] at taken
  simp only [exec, execBulkCopy, goes, accepted.kept, taken, asTaken, Bool.false_eq_true, if_false]

/-- What a port's stamp leaves of a BULK_COPY. -/
theorem asTaken_bulk (code : Nat) (rx : RxPkt) (s : State) : (asTaken code rx s).hdr.any = rx.hdr.any ∧
    (asTaken code rx s).hdr.core = rx.hdr.core ∧ (asTaken code rx s).hdr.src = rx.hdr.src ∧
    (asTaken code rx s).hdr.tag = rx.hdr.tag ∧ (asTaken code rx s).payload = rx.payload := by
  obtain ⟨e, cls, same⟩ := atPort_eq (withCode code rx) s
  rw [asTaken, same]
  exact ⟨rfl, rfl, rfl, rfl, rfl⟩

theorem claimBulkCopiesAreQueued : ClaimBulkCopiesAreQueued := by
  intro rx a s s' pair accepted named copy own there room
  obtain ⟨sameAny, sameCore, sameSrc, sameTag, samePayload⟩ := asTaken_bulk 9 rx s
  rw [← sameAny] at named
  rw [← samePayload] at copy
  rw [← sameCore] at own there room
  refine ⟨bulkShare (asTaken 9 rx s) a.tenant pair, ?_, ?_, rfl, rfl, sameSrc, sameTag⟩
  · rw [exec_bulkCopy_accepted accepted, takeBulkCopy_room pair named copy own there room, sameCore]
  · rw [← samePayload]; rfl

/-- Settles O40, from the commands of sessions and from those of endpoints. -/
theorem engineCommandsAreQueued : Obligations.EngineCommandsAreQueued :=
  ⟨claimCommandsQueueShares, claimBulkCopiesAreQueued⟩

/-! ### Shares take contexts (R237, R241, R472) -/

theorem exec_shareTakesContext_taking {core : Nat} {s : State} (takes : takesCommands s core = true) :
    exec (.shareTakesContext core) s = .next (settleHome (settleStops allContexts (takeContext core s))) :=
  congrArg Host.Outcome.next (if_pos takes)

/-- A core that has switched its firmware bank. -/
def bankSwitched (core : Nat) (s : State) : State := modCore core (fun y => { y with switchWait := false }) s

theorem exec_engineBankSwitch_idle {core : Nat} {s : State} (waits : (tget {} s.eng.cores core).switchWait = true)
    (idle : runningCtxs s core = 0) : exec (.engineBankSwitch core) s = .next (bankSwitched core s) :=
  congrArg Host.Outcome.next (if_pos (by simp [waits, idle]))

/-! ### A gate that is waited for too long (R323) -/

/-- An error record takes the next number of its domain. -/
theorem errWrite_nextSeq (r : ErrRec) (q sub : Nat) (s : State) : (errWrite r q sub s).err.nextSeq =
    tset 1 s.err.nextSeq r.domain ((tget 1 s.err.nextSeq r.domain + 1) % 2 ^ 32) := by
  simp only [errWrite]
  -- R483, R484: the first-error register holds a record or takes this one; the queue is full or takes it.
  split
  all_goals
    split
    · rfl
    · simp only [eventAt_frame]
      cases errSource r.domain q sub <;> simp

/-- A record of no rung starts no handling. -/
theorem recordError_eq (r : ErrRec) (q sub : Nat) (s : State) : ∃ inside,
    recordError r q sub s = errWrite { r with rung := 0, escalated := inside } q sub s := by
  refine ⟨beingHandled s r.unitKind (handledUnit { r with rung := 0 }), ?_⟩
  simp only [recordError, detect, ite_self, if_true]

theorem recordError_frame (r : ErrRec) (q sub : Nat) (s : State) : (recordError r q sub s).eng = s.eng ∧
    (recordError r q sub s).mem = s.mem ∧ (recordError r q sub s).belay = s.belay := by
  simp [recordError]

theorem recordError_nextSeq (r : ErrRec) (q sub : Nat) (s : State) : (recordError r q sub s).err.nextSeq =
    tset 1 s.err.nextSeq r.domain ((tget 1 s.err.nextSeq r.domain + 1) % 2 ^ 32) := by
  obtain ⟨inside, same⟩ := recordError_eq r q sub s
  rw [same, errWrite_nextSeq]

/-- The record of a gate's timeout (R323). -/
def gateTimeoutRecord (core k : Nat) (x : Ctx) : ErrRec :=
  { seq := 0, domain := 5, source := 1, rung := 0, tenant := some x.share.tenant, unitKind := 2, unit := core, detail0 := k }

/-- The timeout of a gate is recorded, and its tenant's count rises. -/
def gateTimeoutRecorded (core k : Nat) (x : Ctx) (s : State) : State :=
  sat (0x000E0100 + 4 * x.share.tenant) 16 16 1 (recordError (gateTimeoutRecord core k x) (coreQuadrant core) 0 s)

theorem exec_gateTimeout_due {core k since : Nat} {x : Ctx} {s : State} (ctx : ctxOf s core k = some x)
    (waits : x.phase = .gate since) (due : since + 16 * (gateOf x).timeout ≤ plmc s) :
    exec (.gateTimeout core k) s = .next (settleHome (stopCtx core k stREVOKED (gateTimeoutRecorded core k x s))) := by
  simp only [exec, execGateTimeout, ctx, waits, if_neg (Nat.not_lt.mpr due), gateTimeoutRecorded, gateTimeoutRecord]

theorem gateTimeoutRecorded_frame (core k : Nat) (x : Ctx) (s : State) : (gateTimeoutRecorded core k x s).eng = s.eng ∧
    (gateTimeoutRecorded core k x s).mem = s.mem ∧ (gateTimeoutRecorded core k x s).belay = s.belay ∧
    (gateTimeoutRecorded core k x s).bind = s.bind ∧
    tget 1 (gateTimeoutRecorded core k x s).err.nextSeq 5 = (tget 1 s.err.nextSeq 5 + 1) % 2 ^ 32 := by
  simp only [gateTimeoutRecorded, gateTimeoutRecord, sat_frame, recordError_frame, recordError_bind, recordError_nextSeq,
    tget_tset_self, and_self]

theorem claimSharesTakeContexts : ClaimSharesTakeContexts := by
  refine ⟨fun core s => exec_shareTakesContext_taking, fun core s waits idle => ?_, fun core k since x s ctx waits due => ?_⟩
  · refine ⟨_, exec_engineBankSwitch_idle waits idle, ?_, rfl, fun k other => core_modCore_ne _ _ _ other⟩
    rw [bankSwitched, core_modCore_self]
  · exact ⟨_, exec_gateTimeout_due ctx waits due, gateTimeoutRecorded_frame core k x s⟩

/-! ### Contexts go on (R231, R245, R263) -/

theorem exec_engineReadResponse_inTurn {core k i : Nat} {s : State} {t : Tracker} {b : BusyLine} {j : Job} (f : Fetches)
    (read : readTracker s core k i = some t) (busy : busyOf s t.firstLine = some b) (fetching : b.phase = .fetching)
    (job : b.job = some j) (mine : j.tracker = t.id) (turn : lineTurn s t.firstLine = true)
    (free : onChipHeld s t.firstLine = false) : exec (.engineReadResponse core k i f) s =
      .next (settleHome (pumpReads core 4096 (fetchDone t.firstLine f (lineTaken t.firstLine s)))) := by
  simp only [exec, execEngineReadResponse, read, busy, fetching, job, mine, takeLine_inTurn f turn free, Option.any_some,
    beq_self_eq_true, Bool.and_self, if_true]

/-- A context whose write has been acknowledged counts its lines. -/
def writeAcked (w : EngWrite) (x : Ctx) : Ctx :=
  { x with writes := x.writes.erase w, linesWritten := x.linesWritten + (if w.kind = 2 then w.bytes / 128 else 1) }

theorem exec_engineWriteAck_written {core k : Nat} {s : State} {x : Ctx} {w : EngWrite} (ctx : ctxOf s core k = some x)
    (thawed : frozen s = false) (written : x.writes.find? (fun w => w.ready) = some w) : exec (.engineWriteAck core k) s =
      .next (settleHome (settleStops allContexts (stageEnd core k (putCtx core k (some (writeAcked w x)) s)))) := by
  simp only [exec, execEngineWriteAck, ctx, thawed, written, Bool.false_eq_true, if_false, writeAcked]

/-- A context whose scratch has been recomputed runs again; at rung 1 this is counted. -/
def recomputed (core k rung : Nat) (x : Ctx) (s : State) : State :=
  let s := putCtx core k (some { x with phase := .running, recomputes := x.recomputes + b2n (rung = 1) }) s
  if rung = 1 then sat (0x00044000 + 4 * core) 16 16 1 s else s

theorem exec_scratchRecomputeComplete_noMerge {core k rung : Nat} {s : State} {x : Ctx} (ctx : ctxOf s core k = some x)
    (recomputes : x.phase = .recompute rung) (noMerge : dOp (stageLine x) ≠ 6) :
    exec (.scratchRecomputeComplete core k) s = .next (settleHome (stageStart core k (recomputed core k rung x s))) := by
  simp only [exec, execScratchRecomputeComplete, ctx, recomputes, noMerge, decide_false, Bool.false_and, Bool.false_eq_true,
    if_false, recomputed]

theorem recomputed_effect (core k rung : Nat) (x : Ctx) (s : State) : ctxOf (recomputed core k rung x s) core k =
      some { x with phase := .running, recomputes := x.recomputes + b2n (rung = 1) } ∧
    (recomputed core k rung x s).mem = s.mem := by
  unfold recomputed
  dsimp only
  split
  · exact ⟨(ctxOf_congr rfl core k).trans (ctxOf_putCtx_self ..), rfl⟩
  · exact ⟨ctxOf_putCtx_self .., rfl⟩

theorem claimContextsAdvance : ClaimContextsAdvance :=
  ⟨fun _ _ _ f _ _ _ _ => exec_engineReadResponse_inTurn f, fun _ _ _ _ _ => exec_engineWriteAck_written,
    fun core k rung s x ctx recomputes noMerge =>
      ⟨_, exec_scratchRecomputeComplete_noMerge ctx recomputes noMerge, recomputed_effect core k rung x s⟩⟩

/-- Settles O41, from how shares take contexts and from how contexts advance. -/
theorem contextsRunTheirStages : Obligations.ContextsRunTheirStages := ⟨claimSharesTakeContexts, claimContextsAdvance⟩

/-! ### The sequencer takes its next tile (R170, R171, R248) -/

theorem stageStart_of_started {core k : Nat} {s : State} {x : Ctx} (ctx : ctxOf s core k = some x) (started : x.started = true) :
    stageStart core k s = s := by
  simp only [stageStart, ctx, started, Bool.true_or, if_true]

/-- A context's next tile, with the translations that its core's caches hold for it. -/
def nextTile (s : State) (core : Nat) (x : Ctx) : Nat × List Operand := tileFrom s core x (stageLine x) x.tileOff
def withTranslations (s : State) (core : Nat) (x : Ctx) : Ctx := keepTrans s core x (pagesOf (nextTile s core x).2)
def tileMisses (s : State) (core : Nat) (x : Ctx) : List (Nat × Bool) :=
  missingPages s core (withTranslations s core x) (pagesOf (nextTile s core x).2)

/-- A context waits for the walks of its tile's pages. -/
def walksAwaited (core k : Nat) (y : Ctx) (missing : List (Nat × Bool)) (s : State) : State :=
  missing.foldl (fun s p => waitForWalk (coreQuadrant core) y.share.tenant p.1 (b2n p.2) (.engine core k) s)
    (putCtx core k (some { y with phase := .walking }) s)

/-- A context that takes its next tile up. -/
def tileTaken (core k : Nat) (x : Ctx) (s : State) : State :=
  takeTile core k (withTranslations s core x) (stageLine x) (nextTile s core x).1
    ((nextTile s core x).2.filter (fun o => !o.write))
    (lowestCut ((nextTile s core x).2.filterMap (operandCut s core (withTranslations s core x)))) s

theorem tileTranslate_next {core k : Nat} {s : State} {x : Ctx} (thawed : frozen s = false) (ctx : ctxOf s core k = some x)
    (running : x.phase = .running) (started : x.started = true) (tilesLeft : x.tilesDone = false) (noTile : x.tileLen = 0) :
    tileTranslate core k s = if tileMisses s core x = [] then tileTaken core k x s
      else walksAwaited core k (withTranslations s core x) (tileMisses s core x) s := by
  simp only [tileTranslate, thawed, stageStart_of_started ctx started, ctx, running, started, tilesLeft, noTile,
    bne_self_eq_false, Bool.not_true, Bool.or_self, Bool.false_eq_true, if_false, bne_iff_ne, ne_eq, ite_not]
  rfl

theorem claimTilesAreTranslated : ClaimTilesAreTranslated := by
  intro core k s x thawed ctx running started tilesLeft noTile
  have next : exec (.tileTranslate core k) s = .next (settleHome (tileTranslate core k s)) := rfl
  rw [tileTranslate_next thawed ctx running started tilesLeft noTile] at next
  refine ⟨fun translated => ?_, fun misses => ?_⟩ <;> rw [next]
  · rw [if_pos (show tileMisses s core x = [] from translated)]; rfl
  · rw [if_neg (show ¬ tileMisses s core x = [] from misses)]; rfl

/-! ### The arithmetic unit (R236, R262, R295, R296) -/

section
variable {core k : Nat} {x : Ctx} {s : State}

theorem exec_arithSliceEnd_upset (l : Nat) (thawed : frozen s = false) : exec (.arithSliceEnd core (some l)) s =
    .next (settleHome (settleStops allContexts (serveNext core (scratchUpset core l s)))) := by
  simp only [exec, execArithSliceEnd, thawed, Bool.false_eq_true, if_false]

theorem exec_arithSliceEnd_noUpset (thawed : frozen s = false) : exec (.arithSliceEnd core none) s =
    .next (settleHome (settleStops allContexts (serveNext core s))) := by
  simp only [exec, execArithSliceEnd, thawed, Bool.false_eq_true, if_false]

/-- The unit's turn goes on from the context that it serves. -/
def turnTaken (core k : Nat) (s : State) : State := modCore core (fun y => { y with turn := (k + 1) % 8 }) s

section
variable (next : nextReady s core = some (k, x))
include next

theorem serveNext_unsound (bad : linesSound x = false ∨ heldSound x = false) :
    serveNext core s = scratchMismatch core k x (turnTaken core k s) := by
  have unsound : (!linesSound x || !heldSound x) = true := by rcases bad with bad | bad <;> simp [bad]
  simp only [serveNext, next, unsound, if_true, turnTaken]

variable (sound : linesSound x = true) (partials : heldSound x = true)
include sound partials

theorem serveNext_slice (notMerging : ∀ r, x.phase ≠ .merging r) :
    serveNext core s = serveCtx core k x (turnTaken core k s) := by
  simp only [serveNext, next, sound, partials, Bool.not_true, Bool.or_self, Bool.false_eq_true, if_false, turnTaken]
  split
  · next merging => exact absurd merging (notMerging 1)
  · next r _ merging => exact absurd merging (notMerging r)
  · rfl

theorem serveNext_mergeOut (complete : x.phase = .merging 1) :
    serveNext core s = mergeOut core k x (turnTaken core k s) := by
  simp only [serveNext, next, sound, partials, complete, Bool.not_true, Bool.or_self, Bool.false_eq_true, if_false, turnTaken]

theorem serveNext_mergeSend (sends : x.phase = .merging 4) :
    serveNext core s = mergeSend core k x (turnTaken core k s) := by
  simp only [serveNext, next, sound, partials, sends, Bool.not_true, Bool.or_self, Bool.false_eq_true, if_false, turnTaken]

end

end

/-! ### Scratch that is upset (R262, R265) -/

section
variable {core l : Nat} {x : Ctx} {s : State}

theorem scratchUpset_recomputing (ctx : ctxOf s core (partitionWith (ctxLog s core) l) = some x) {r : Nat}
    (recomputes : x.phase = .recompute r) :
    scratchUpset core l s = scratchMismatch core (partitionWith (ctxLog s core) l) x s := by
  simp only [scratchUpset, ctx, recomputes]

theorem scratchUpset_content (ctx : ctxOf s core (partitionWith (ctxLog s core) l) = some x)
    (noRecompute : ∀ r, x.phase ≠ .recompute r) : scratchUpset core l s = putCtx core (partitionWith (ctxLog s core) l)
      (some (upsetLine l (Config.free s.draws) x)) { s with draws := s.draws + 1 } := by
  rw [scratchUpset, ctx]
  dsimp only
  split
  · next r recomputes => exact absurd recomputes (noRecompute r)
  · rfl

end

/-! ### A child's lists (R250, R295, R296) -/

/-- A parent's lists with those of a child. -/
def mergedLists (x y : Ctx) : List (Option (List (Nat × Nat))) :=
  x.lists.zipIdx.map (fun e => some (((y.lists.getD e.2 none).getD []).foldl
    (fun l v => insertEntry (prevStage x) (scanK (prevStage x)) v l) (e.1.getD [])))

/-- The parent that has taken a child's lists in. -/
def parentMerged (s : State) (core k child : Nat) (x y : Ctx) : Ctx :=
  let x := { x with lists := mergedLists x y, arrived := (x.arrived ++ child :: y.arrived).dedup }
  keepPartials s core k x (stageLine x)

/-- The state in which a child's lists stand with its parent, and the child has handed them over. -/
def listsMerged (core k child k' : Nat) (x y : Ctx) (g : Gang) (s : State) : State :=
  putCtx (g.first + child) k' (some { y with phase := .merging 3 })
    (putCtx core k (some (parentMerged s core k child x y))
      (modGang g.id (fun g => { g with merged := g.merged ++ [(x.stage, child)] }) s))

section
variable {core k k' child : Nat} {x y : Ctx} {g : Gang} {s : State}

theorem exec_mergeListsReceived_sound (ctx : ctxOf s core k = some x) (gang : gangOf s x.share.gang = some g)
    (childCtx : gangCtx s g.id (g.first + child) = some (k', y)) (thawed : frozen s = false) (sound : heldSound x = true)
    (childSound : heldSound y = true) (sameStage : x.stage = y.stage) (merges : x.phase = .merging 1)
    (offers : y.phase = .merging 2) (parent : effParent g 12 child = some x.share.index) :
    exec (.mergeListsReceived core k child) s = .next (settleHome (settleStops allContexts
      (stageEnd (g.first + child) k' (listsMerged core k child k' x y g s)))) := by
  simp only [exec, execMergeListsReceived, ctx, gang, childCtx, thawed, sound, childSound, sameStage, merges, offers, parent,
    bne_self_eq_false, Bool.or_self, Bool.not_true, Bool.false_eq_true, if_false, listsMerged, parentMerged, mergedLists]

theorem listsMerged_effect (other : (g.first + child, k') ≠ (core, k)) :
    ctxOf (listsMerged core k child k' x y g s) core k = some (parentMerged s core k child x y) ∧
    ctxOf (listsMerged core k child k' x y g s) (g.first + child) k' = some { y with phase := .merging 3 } ∧
    (listsMerged core k child k' x y g s).mem = s.mem :=
  ⟨(ctxOf_putCtx_ne _ _ _ _ other.symm).trans (ctxOf_putCtx_self ..), ctxOf_putCtx_self .., rfl⟩

end

theorem claimArithmeticServesInTurn : ClaimArithmeticServesInTurn := by
  refine ⟨?slice, fun core l s => exec_arithSliceEnd_upset l, ?upset, ?lists⟩
  case slice =>
    intro core k x s thawed next
    rw [exec_arithSliceEnd_noUpset thawed]
    refine ⟨fun sound partials notMerging => ?_, fun sound partials complete => ?_, fun sound partials sends => ?_,
      fun bad => ?_⟩
    · rw [serveNext_slice next sound partials notMerging]; rfl
    · rw [serveNext_mergeOut next sound partials complete]; rfl
    · rw [serveNext_mergeSend next sound partials sends]; rfl
    · rw [serveNext_unsound next bad]; rfl
  case upset =>
    intro core l x s ctx
    exact ⟨fun noRecompute => ⟨_, scratchUpset_content ctx noRecompute⟩, fun r => scratchUpset_recomputing ctx⟩
  case lists =>
    intro core k k' child x y g s ctx gang childCtx thawed sound childSound sameStage merges offers parent other
    obtain ⟨merged, handedOver, mem⟩ := listsMerged_effect (x := x) (y := y) (s := s) other
    exact ⟨_, _, exec_mergeListsReceived_sound ctx gang childCtx thawed sound childSound sameStage merges offers parent,
      merged, rfl, merges, handedOver, mem⟩

/-- Settles O42, from the sequencer's tiles and from the arithmetic unit's turns. -/
theorem tilesAndSlices : Obligations.TilesAndSlices := ⟨claimTilesAreTranslated, claimArithmeticServesInTurn⟩

end Sys2Proof.Machine

/-! PROOFS. Belay synchronisation (section 09): what a change of a knot's registers does to it and leaves, the commands over knots
and gates, and the waits that are released or given up. -/
namespace Sys2Proof.Machine

/-! ### A knot reads back as it was put (R303) -/

theorem knotOf_congr {s t : State} (same : t.belay.knots = s.belay.knots) (k : Nat) : knotOf t k = knotOf s k := by
  rw [knotOf, same, knotOf]

section
variable (k : Nat) (x : Knot) (s : State)

@[simp] theorem knotOf_putKnot_self : knotOf (putKnot k x s) k = x := tget_tset_self ..

theorem knotOf_putKnot_ne {j : Nat} (other : j ≠ k) : knotOf (putKnot k x s) j = knotOf s j := tget_tset_ne _ _ _ _ _ other

end

/-! ### What an operation on a knot leaves -/

/-- From `s` to `t` no knot but `k` has changed, nor the pool, the sessions, the bindings, the time or what has left the device. -/
structure KnotOnly (k : Nat) (s t : State) : Prop where
  others : ∀ j, j ≠ k → knotOf t j = knotOf s j
  mem : t.mem = s.mem
  kcp : t.kcp = s.kcp
  bind : t.bind = s.bind
  time : t.time = s.time
  out : t.out = s.out

section
variable {k : Nat} {s t u : State}

theorem KnotOnly.refl (k : Nat) (s : State) : KnotOnly k s s := ⟨fun _ _ => rfl, rfl, rfl, rfl, rfl, rfl⟩

theorem KnotOnly.trans (h : KnotOnly k s t) (g : KnotOnly k t u) : KnotOnly k s u :=
  ⟨fun j other => (g.others j other).trans (h.others j other), g.mem.trans h.mem, g.kcp.trans h.kcp, g.bind.trans h.bind,
    g.time.trans h.time, g.out.trans h.out⟩

theorem putKnot_knotOnly (k : Nat) (x : Knot) (s : State) : KnotOnly k s (putKnot k x s) :=
  ⟨fun _ other => knotOf_putKnot_ne k x s other, rfl, rfl, rfl, rfl, rfl⟩

@[simp] theorem releaseKnot_belay (k : Nat) (s : State) : (releaseKnot k s).belay = s.belay := by
  unfold releaseKnot
  split <;> rfl

theorem releaseKnot_knotOnly (k : Nat) (s : State) : KnotOnly k s (releaseKnot k s) := by
  refine ⟨fun j _ => knotOf_congr (by rw [releaseKnot_belay]) j, ?_, ?_, ?_, ?_, ?_⟩ <;>
  · unfold releaseKnot
    split <;> rfl

end

/-! ### The firing test (R304) -/

/-- A knot fires in its firing test: it is armed and COUNT has reached TARGET. -/
def knotFires (x : Knot) : Bool := x.armed && decide (x.target ≤ x.count)

/-- A knot after its firing test: pulse mode takes TARGET off COUNT as often as it goes, latch mode sets FIRED and clears ARMED. -/
def knotTested (x : Knot) : Knot :=
  { x with count := if knotFires x && x.reload then x.count % x.target else x.count,
           armed := x.armed && !(knotFires x && !x.reload),
           fired := x.fired || (knotFires x && !x.reload) }

section
variable {x : Knot}

theorem knotTested_of_not_fires (quiet : knotFires x = false) : knotTested x = x := by
  simp [knotTested, quiet]

theorem knotTested_pulse (fires : knotFires x = true) (pulse : x.reload = true) :
    knotTested x = { x with count := x.count % x.target } := by
  simp [knotTested, fires, pulse]

theorem knotTested_latch (fires : knotFires x = true) (latch : x.reload = false) :
    knotTested x = { x with fired := true, armed := false } := by
  simp [knotTested, fires, latch]

end

/-- The firing test does nothing to a knot that does not fire; otherwise it puts the tested knot and releases its gates. -/
theorem knotTest_eq (k : Nat) (s : State) : knotTest k s =
    if knotFires (knotOf s k) then releaseKnot k (putKnot k (knotTested (knotOf s k)) s) else s := by
  have quiet : (!(knotOf s k).armed || decide ((knotOf s k).count < (knotOf s k).target)) = !knotFires (knotOf s k) := by
    rw [knotFires, Bool.not_and, ← decide_not, decide_eq_decide.mpr Nat.not_le]
  by_cases fires : knotFires (knotOf s k) = true
  · by_cases pulse : (knotOf s k).reload = true
    · simp only [knotTest, quiet, fires, knotTested_pulse fires pulse, pulse, Bool.not_true, Bool.false_eq_true, if_false, if_true]
    · rw [Bool.not_eq_true] at pulse
      simp only [knotTest, quiet, fires, knotTested_latch fires pulse, pulse, Bool.not_true, Bool.false_eq_true, if_false, if_true]
  · simp only [knotTest, quiet, fires, Bool.not_false, Bool.false_eq_true, if_false, if_true]

@[simp] theorem knotOf_knotTest_self (k : Nat) (s : State) : knotOf (knotTest k s) k = knotTested (knotOf s k) := by
  rw [knotTest_eq]
  cases fires : knotFires (knotOf s k)
  · exact (knotTested_of_not_fires fires).symm
  · rw [if_pos rfl, knotOf_congr (congrArg _ (releaseKnot_belay ..)), knotOf_putKnot_self]

theorem knotTest_knotOnly (k : Nat) (s : State) : KnotOnly k s (knotTest k s) := by
  rw [knotTest_eq]
  split
  · exact (putKnot_knotOnly ..).trans (releaseKnot_knotOnly ..)
  · exact .refl k s

/-! ### KNOT_INCREMENT (R304, R308, R495) -/

/-- A knot whose COUNT has risen by `n`, and stands at its limit with OVERFLOW set where that is too far (R304). -/
def knotRaised (n : Nat) (x : Knot) : Knot :=
  { x with count := min 0xFFFFFFFF (x.count + n), overflow := x.overflow || decide (0xFFFFFFFF < x.count + n) }

theorem countOverflow_knotOnly (k : Nat) (s : State) : KnotOnly k s (countOverflow k s) := by
  unfold countOverflow
  split
  · exact ⟨fun _ _ => rfl, rfl, rfl, rfl, rfl, rfl⟩
  · exact .refl k s

/-- An addition puts the raised knot; the first saturation is counted for the knot's tenant before. -/
theorem knotAdd_eq (k n : Nat) (s : State) : ∃ t, KnotOnly k s t ∧ knotAdd k n s = putKnot k (knotRaised n (knotOf s k)) t := by
  by_cases saturates : 0xFFFFFFFF < (knotOf s k).count + n
  · refine ⟨if (knotOf s k).overflow then s else countOverflow k s, ?_, ?_⟩
    · split
      · exact .refl k s
      · exact countOverflow_knotOnly k s
    · simp only [knotAdd, knotRaised, saturates, if_true, decide_true, Bool.or_true, Nat.min_eq_left saturates.le]
  · refine ⟨s, .refl k s, ?_⟩
    simp only [knotAdd, knotRaised, saturates, if_false, decide_false, Bool.or_false, Nat.min_eq_right (Nat.not_lt.mp saturates)]

@[simp] theorem knotOf_knotAdd_self (k n : Nat) (s : State) : knotOf (knotAdd k n s) k = knotRaised n (knotOf s k) := by
  obtain ⟨t, -, same⟩ := knotAdd_eq k n s
  rw [same, knotOf_putKnot_self]

theorem knotAdd_knotOnly (k n : Nat) (s : State) : KnotOnly k s (knotAdd k n s) := by
  obtain ⟨t, only, same⟩ := knotAdd_eq k n s
  exact same ▸ only.trans (putKnot_knotOnly ..)

/-- A token is raised and applied at a knot's home. -/
def tokenApplied (k : Nat) (s : State) : State :=
  { s with belay.raised := tmod 0 s.belay.raised (knotHome k) (fun x => (x + 1) % 2 ^ 32),
           belay.appliedTok := tmod 0 s.belay.appliedTok (knotHome k) (fun x => (x + 1) % 2 ^ 32) }

theorem tokenApplied_knotOnly (k : Nat) (s : State) : KnotOnly k s (tokenApplied k s) := ⟨fun _ _ => rfl, rfl, rfl, rfl, rfl, rfl⟩

theorem exec_knotIncrement_held {k : Nat} {s : State} (held : knotRuns s k = false) (n : Nat) :
    exec (.knotIncrement k n) s = .next (knotDiscard k s) :=
  congrArg Host.Outcome.next (if_pos (by rw [held]; rfl))

theorem exec_knotIncrement_runs {k : Nat} {s : State} (runs : knotRuns s k = true) (n : Nat) :
    exec (.knotIncrement k n) s = .next (knotTest k (knotAdd k n (tokenApplied k s))) :=
  congrArg Host.Outcome.next (if_neg (by rw [runs]; decide))

/-- Settles O21: an increment is an addition and a firing test of its own knot. -/
theorem knotIncrementAddsAndFires : Obligations.KnotIncrement := by
  intro k n s
  refine ⟨fun held => ⟨exec_knotIncrement_held held n, rfl⟩, fun runs _ _ => ⟨_, exec_knotIncrement_runs runs n, ?_⟩⟩
  have only : KnotOnly k s (knotTest k (knotAdd k n (tokenApplied k s))) :=
    (tokenApplied_knotOnly k s).trans ((knotAdd_knotOnly k n _).trans (knotTest_knotOnly k _))
  have new : knotOf (knotTest k (knotAdd k n (tokenApplied k s))) k = knotTested (knotRaised n (knotOf s k)) := by
    rw [knotOf_knotTest_self, knotOf_knotAdd_self]; rfl
  rw [new]
  exact ⟨⟨rfl, rfl, rfl, rfl⟩, rfl, rfl, only.others, only.mem, only.kcp, only.bind, only.time, only.out⟩

/-! ### Writes of BELAY_KNOT_CFG (R303, R304) -/

/-- A knot after a write of BELAY_KNOT_CFG and before its firing test: CLEAR comes first, and arming clears FIRED. -/
def knotWritten (clear : Bool) (armed reload : Option Bool) (target : Option Nat) (x : Knot) : Knot :=
  let x := if clear then knotCleared x else x
  { x with reload := reload.getD x.reload, target := max 1 (target.getD x.target), armed := armed.getD x.armed,
           fired := x.fired && !armed.getD false }

section
variable {k : Nat} {s : State} {clear : Bool} {armed reload : Option Bool} {target : Option Nat}

theorem knotWrite_held (held : knotRuns s k = false) : knotWrite k clear armed reload target s = s := if_pos (by rw [held]; rfl)

theorem knotWrite_runs (runs : knotRuns s k = true) : knotWrite k clear armed reload target s =
    knotTest k (putKnot k (knotWritten clear armed reload target (knotOf s k)) s) := by
  simp only [knotWrite, runs, Bool.not_true, Bool.false_eq_true, if_false, knotWritten]
  rcases armed with _ | _ | _ <;> simp

theorem knotWrite_knotOnly : KnotOnly k s (knotWrite k clear armed reload target s) := by
  cases runs : knotRuns s k
  · rw [knotWrite_held runs]; exact .refl k s
  · rw [knotWrite_runs runs]; exact (putKnot_knotOnly ..).trans (knotTest_knotOnly ..)

end

theorem exec_knotClear_held {k : Nat} {s : State} (held : knotRuns s k = false) : exec (.knotClear k) s = .next s :=
  congrArg Host.Outcome.next (if_pos (by rw [held]; rfl))

theorem exec_knotClear_runs {k : Nat} {s : State} (runs : knotRuns s k = true) : exec (.knotClear k) s =
    .next (knotTest k (putKnot k (knotCleared (knotOf s k)) s)) :=
  congrArg Host.Outcome.next (if_neg (by rw [runs]; decide))

section
variable {k : Nat} {s : State} {armed : Bool} {cfg : Nat}

/-- A knot that KNOT_ARM or KNOT_DISARM writes, before its firing test. -/
def knotConfigured (armed : Bool) (cfg : Nat) (x : Knot) : Knot :=
  { count := if bit cfg 29 then 0 else x.count, armed := armed, reload := bit cfg 30, fired := x.fired && !armed,
    overflow := x.overflow && !bit cfg 29, target := max 1 (bits cfg 0 24) }

theorem knotWritten_word (armed : Bool) (cfg : Nat) (x : Knot) :
    knotWritten (bit cfg 29) (some armed) (some (bit cfg 30)) (some (bits cfg 0 24)) x = knotConfigured armed cfg x := by
  cases clear : bit cfg 29 <;> simp [knotWritten, knotConfigured, knotCleared, clear]

theorem knotOf_knotWrite_word (runs : knotRuns s k = true) :
    knotOf (knotWrite k (bit cfg 29) (some armed) (some (bit cfg 30)) (some (bits cfg 0 24)) s) k =
      knotTested (knotConfigured armed cfg (knotOf s k)) := by
  rw [knotWrite_runs runs, knotOf_knotTest_self, knotOf_putKnot_self, knotWritten_word]

theorem knotFires_of_disarmed {x : Knot} (disarmed : x.armed = false) : knotFires x = false := by
  rw [knotFires, disarmed, Bool.false_and]

/-- An armed knot whose TARGET is met already fires at once. -/
theorem knotTested_armed (cfg : Nat) (x : Knot) :
    let c := if bit cfg 29 then 0 else x.count
    let o := x.overflow && !bit cfg 29
    let tg := max 1 (bits cfg 0 24)
    knotTested (knotConfigured true cfg x) =
      if c < tg then { count := c, armed := true, reload := bit cfg 30, fired := false, overflow := o, target := tg }
      else if bit cfg 30 then { count := c % tg, armed := true, reload := true, fired := false, overflow := o, target := tg }
      else { count := c, armed := false, reload := false, fired := true, overflow := o, target := tg } := by
  intro c o tg
  have armed : knotConfigured true cfg x =
      { count := c, armed := true, reload := bit cfg 30, fired := false, overflow := o, target := tg } := by
    rw [knotConfigured, Bool.not_true, Bool.and_false]
  rw [armed]
  by_cases below : c < tg
  · rw [if_pos below, knotTested_of_not_fires (by simp [knotFires, below])]
  · have met : tg ≤ c := Nat.not_lt.mp below
    rw [if_neg below]
    cases pulse : bit cfg 30
    · exact knotTested_latch (by simpa [knotFires] using met) rfl
    · exact knotTested_pulse (by simpa [knotFires] using met) rfl

end

/-- Settles O22: each of the three writes its knot, and the firing test follows. -/
theorem knotArmDisarmClear : Obligations.KnotArmDisarmClear := by
  intro k cfg s
  refine ⟨fun held => ?held, fun runs => ⟨⟨⟨_, rfl, knotWrite_knotOnly.mem, knotWrite_knotOnly.kcp, knotWrite_knotOnly.others, ?arm⟩,
    ⟨_, rfl, knotWrite_knotOnly.mem, knotWrite_knotOnly.kcp, knotWrite_knotOnly.others, ?disarm⟩⟩, fun target => ?clear⟩⟩
  case held =>
    exact ⟨congrArg Host.Outcome.next (knotWrite_held held), congrArg Host.Outcome.next (knotWrite_held held),
      exec_knotClear_held held⟩
  case arm => rw [knotOf_knotWrite_word runs, knotTested_armed]
  case disarm =>
    rw [knotOf_knotWrite_word runs, knotTested_of_not_fires (knotFires_of_disarmed rfl), knotConfigured, Bool.not_false,
      Bool.and_true]
  case clear =>
    have only := (putKnot_knotOnly k (knotCleared (knotOf s k)) s).trans (knotTest_knotOnly k _)
    have short : knotFires (knotCleared (knotOf s k)) = false := by simp [knotFires, knotCleared, target]
    refine ⟨_, exec_knotClear_runs runs, only.mem, ?_, only.others⟩
    rw [knotOf_knotTest_self, knotOf_putKnot_self, knotTested_of_not_fires short, knotCleared]

/-! ### What the taking of a command's number leaves of the knots and chains (R101) -/

section
variable (c : Cmd) (s : State)

@[simp] theorem knotOf_takeNumber : knotOf (takeNumber c s) = knotOf s := by
  funext k
  simp only [knotOf, takeNumber_frame]

@[simp] theorem knotPair_takeNumber : knotPair (takeNumber c s) = knotPair s := by
  funext k
  simp only [knotPair, knotOf_takeNumber, knotCfgWord, knotAwaited, takeNumber_frame]

@[simp] theorem knotTenant_takeNumber : knotTenant (takeNumber c s) = knotTenant s := by
  funext k
  simp only [knotTenant, takeNumber_frame]

@[simp] theorem knotAbsent_takeNumber : knotAbsent (takeNumber c s) = knotAbsent s := by
  funext k
  simp only [knotAbsent, takeNumber_frame]

@[simp] theorem knotRuns_takeNumber : knotRuns (takeNumber c s) = knotRuns s := by
  funext k
  simp only [knotRuns, quadrantRuns, takeNumber_frame]

@[simp] theorem chainInUse_takeNumber (t id : Nat) : chainInUse (takeNumber c s) t id = chainInUse s t id := by
  simp only [chainInUse, takeNumber_frame]

/-- No claim of a command's own once steps is left when its number is taken (R499). -/
theorem grants_takeNumber (step : JStep) :
    grants (takeNumber c s) { session := c.session, seq := c.seq, step := step, once := true } = true := by
  have journal : (takeNumber c s).kcp.journal = journalWithout c.session c.seq s.kcp.journal ++
    [{ session := c.session, seq := c.seq, step := .effect }] := rfl
  simp only [grants, journal, journalWithout, Bool.not_eq_true', List.any_eq_false, List.mem_append, List.mem_filter,
    List.mem_singleton]
  rintro j (⟨-, other⟩ | rfl)
  · simp only [Bool.and_eq_false_iff] at other
    rcases other with other | other <;> simp [other]
  · simp

theorem applyOnce_takeNumber (step : JStep) (f : State → State) : applyOnce c.session c.seq step f (takeNumber c s) =
    f (writeJournal { session := c.session, seq := c.seq, step := step, once := true } (takeNumber c s)) :=
  if_pos (grants_takeNumber c s step)

end

/-! ### KNOT_READ (R326, R476) -/

/-- The knots that KNOT_READ names. -/
def knotsRead (c : Cmd) : List Nat :=
  (List.range (min (clampTo 1 64 (pnum c.params 2 1)) (65536 - pnum c.params 0 2))).map (pnum c.params 0 2 + ·)

theorem exec_knotRead_own {c : Cmd} {s : State} (runs : Runs 0x501 c s)
    (own : c.tenant = 0 ∨ ∀ k ∈ knotsRead c, knotTenant s k = some c.tenant) :
    RepliesWith 0x501 c (if (knotsRead c).any (knotAbsent s) then stDEGRADED else stOK) ((knotsRead c).flatMap (knotPair s))
      (takeNumber c s) (exec (.knotRead c) s) := by
  have allowed : (decide (c.tenant = 0) || (knotsRead c).all (fun k => knotTenant s k == some c.tenant)) = true := by
    simpa using own
  refine ⟨_, congrArg Host.Outcome.next (kcpNow_of_body runs ?_)⟩
  simp only [knotsRead] at allowed ⊢
  simp only [knotTenant_takeNumber, knotAbsent_takeNumber, knotPair_takeNumber, allowed, if_true]
  rfl

/-! ### KNOT_SET (R327, R328, R476, R499) -/

/-- The knot that KNOT_SET names, and its CFG in its effective value. -/
def knotSetKnot (c : Cmd) : Nat := pnum c.params 0 2
def knotSetCfg (c : Cmd) : Nat := knotCfgEffective (pnum c.params 8 4)

/-- KNOT_SET of the registers: COUNT is set, after CLEAR, and CFG is written without CLEAR. -/
def knotAssigned (c : Cmd) (s : State) : State :=
  let x := knotOf s (knotSetKnot c)
  knotWriteWord (knotSetKnot c) (knotSetCfg c &&& 0xDFFFFFFF) (putKnot (knotSetKnot c)
    { (if bit (knotSetCfg c) 29 then knotCleared x else x) with count := pnum c.params 4 4 } s)

/-- What KNOT_SET does to its knot: it assigns, or claims its once step (R499) and increments or fires. -/
def knotSetAction (c : Cmd) (s : State) : State :=
  match min 2 (pnum c.params 2 1) with
  | 0 => knotAssigned c s
  | 1 => applyOnce c.session c.seq (.knot (knotSetKnot c))
      (fun s => knotTest (knotSetKnot c) (knotAdd (knotSetKnot c) (pnum c.params 4 4) s)) s
  | _ => applyOnce c.session c.seq (.knot (knotSetKnot c)) (knotFireNow (knotSetKnot c)) s

/-- KNOT_SET writes a record of what it did. -/
def knotSetRecorded (k : Nat) (s : State) : State :=
  recordError { seq := 0, domain := 5, source := 3, rung := 0, tenant := knotTenant s k, unitKind := 6, unit := k }
    (knotHome k) 0 s

/-- What KNOT_SET answers, and the state it leaves. -/
def knotSetBody (c : Cmd) (s : State) : Nat × List Byte × State :=
  let before := knotPair s (knotSetKnot c)
  if knotAbsent s (knotSetKnot c) then (stDEGRADED, before ++ before, s)
  else if !knotRuns s (knotSetKnot c) then (stBUSY, before ++ before, s)
  else
    let t := knotSetRecorded (knotSetKnot c) (knotSetAction c s)
    (stOK, before ++ knotPair t (knotSetKnot c), t)

section
variable {c : Cmd} {s : State}

theorem exec_knotSet (c : Cmd) (s : State) : ∃ echo, exec (.knotSet c) s = .next (kcpNow 0x502 c echo (knotSetBody c) s) :=
  ⟨_, rfl⟩

theorem exec_knotSet_of_body {st : Nat} {res : List Byte} {t : State} (runs : Runs 0x502 c s)
    (does : knotSetBody c (takeNumber c s) = (st, res, t)) : RepliesWith 0x502 c st res t (exec (.knotSet c) s) := by
  obtain ⟨echo, same⟩ := exec_knotSet c s
  exact ⟨echo, by rw [same, kcpNow_of_body runs does]⟩

theorem exec_knotSet_absent_or_held (runs : Runs 0x502 c s)
    (still : knotAbsent s (knotSetKnot c) = true ∨ knotRuns s (knotSetKnot c) = false) :
    RepliesWith 0x502 c (if knotAbsent s (knotSetKnot c) then stDEGRADED else stBUSY)
      (knotPair s (knotSetKnot c) ++ knotPair s (knotSetKnot c)) (takeNumber c s) (exec (.knotSet c) s) := by
  refine exec_knotSet_of_body runs ?_
  simp only [knotSetBody, knotPair_takeNumber, knotAbsent_takeNumber, knotRuns_takeNumber]
  cases absent : knotAbsent s (knotSetKnot c)
  · rw [still.resolve_left (ne_true_of_eq_false absent)]
    rfl
  · rfl

theorem exec_knotSet_there (runs : Runs 0x502 c s) (there : knotAbsent s (knotSetKnot c) = false)
    (runsHome : knotRuns s (knotSetKnot c) = true) :
    let t := knotSetRecorded (knotSetKnot c) (knotSetAction c (takeNumber c s))
    RepliesWith 0x502 c stOK (knotPair s (knotSetKnot c) ++ knotPair t (knotSetKnot c)) t (exec (.knotSet c) s) := by
  refine exec_knotSet_of_body runs ?_
  simp only [knotSetBody, knotPair_takeNumber, knotAbsent_takeNumber, knotRuns_takeNumber, there, runsHome, Bool.not_true,
    Bool.false_eq_true, if_false]

end

theorem knotFireNow_knotOnly (k : Nat) (s : State) : KnotOnly k s (knotFireNow k s) := by
  unfold knotFireNow
  dsimp only
  split
  · exact ((putKnot_knotOnly ..).trans (releaseKnot_knotOnly ..)).trans (knotTest_knotOnly ..)
  · exact (putKnot_knotOnly ..).trans (releaseKnot_knotOnly ..)

/-- A once step on one knot leaves the other knots and the pool, whether or not its claim is granted. -/
theorem applyOnce_knot_frame {session seq k : Nat} {step : JStep} {f : State → State} (only : ∀ s, KnotOnly k s (f s)) (s : State) :
    (∀ j, j ≠ k → knotOf (applyOnce session seq step f s) j = knotOf s j) ∧ (applyOnce session seq step f s).mem = s.mem := by
  simp only [applyOnce]
  split
  · exact ⟨(only _).others, (only _).mem⟩
  · exact ⟨fun _ _ => rfl, rfl⟩

theorem knotSetAction_frame (c : Cmd) (s : State) : (∀ j, j ≠ knotSetKnot c → knotOf (knotSetAction c s) j = knotOf s j) ∧
    (knotSetAction c s).mem = s.mem := by
  unfold knotSetAction
  split
  · have only : KnotOnly (knotSetKnot c) s (knotAssigned c s) := (putKnot_knotOnly ..).trans knotWrite_knotOnly
    exact ⟨only.others, only.mem⟩
  · exact applyOnce_knot_frame (fun u => (knotAdd_knotOnly ..).trans (knotTest_knotOnly ..)) s
  · exact applyOnce_knot_frame (knotFireNow_knotOnly _) s

theorem knotOf_knotSetRecorded (k : Nat) (s : State) : knotOf (knotSetRecorded k s) = knotOf s := by
  funext j
  exact knotOf_congr (by rw [knotSetRecorded, (recordError_frame ..).2.2]) j

theorem knotSetRecorded_mem (k : Nat) (s : State) : (knotSetRecorded k s).mem = s.mem := (recordError_frame ..).2.1

/-- KNOT_SET with the action of an increment, on a knot that is not armed: it adds, and nothing fires. -/
theorem knotOf_knotSetAction_increment {c : Cmd} {s : State} (increments : min 2 (pnum c.params 2 1) = 1)
    (disarmed : (knotOf s (knotSetKnot c)).armed = false) : knotOf (knotSetAction c (takeNumber c s)) (knotSetKnot c) =
      knotRaised (pnum c.params 4 4) (knotOf s (knotSetKnot c)) := by
  have journalled (j : JournalRec) (u : State) : knotOf (writeJournal j u) = knotOf u := rfl
  simp only [knotSetAction, increments, applyOnce_takeNumber, knotOf_knotTest_self, knotOf_knotAdd_self, journalled,
    knotOf_takeNumber]
  exact knotTested_of_not_fires (knotFires_of_disarmed disarmed)

/-! ### CONFIGURE_BARRIER (R312, R313) -/

/-- The chain and the stage that CONFIGURE_BARRIER names. -/
def barrierChain (c : Cmd) : Nat := storeKey c.tenant (min 63 (pnum c.params 0 1))
def barrierStage (c : Cmd) : Nat := min 15 (pnum c.params 1 1)

/-- The gate that CONFIGURE_BARRIER sets where it asks for none: only its post flag matters. -/
def openGate (c : Cmd) : Gate :=
  { kind := 0, select := pnum c.params 4 2, timeout := max 1 (pnum c.params 6 2),
    post := if pbit c.params 3 3 then some (pbits c.params 3 0 3) else none }

/-- A stored chain with the gate of one stage set. -/
def gateSet (key stage : Nat) (g : Gate) (ch : Chain) (s : State) : State :=
  { s with eng.chains := tset none s.eng.chains key (some { ch with gates := tset {} ch.gates stage g }) }

theorem gateSet_effect (key stage : Nat) (g : Gate) (ch : Chain) (s : State) : tget none (gateSet key stage g ch s).eng.chains key =
    some { ch with gates := tset {} ch.gates stage g } ∧ (gateSet key stage g ch s).eng.cores = s.eng.cores := by
  simp only [gateSet, tget_tset_self, and_self]

theorem exec_configureBarrier_open {c : Cmd} {s : State} {ch : Chain} (runs : Runs 0x503 c s)
    (opens : min 5 (pbits c.params 2 0 3) = 0) (unused : chainInUse s c.tenant (min 63 (pnum c.params 0 1)) = false)
    (loaded : tget none s.eng.chains (barrierChain c) = some ch) :
    RepliesWith 0x503 c stOK [] (gateSet (barrierChain c) (barrierStage c) (openGate c) ch (takeNumber c s))
      (exec (.configureBarrier c) s) := by
  refine ⟨_, congrArg Host.Outcome.next (kcpNow_of_body runs ?_)⟩
  have kept : (takeNumber c s).eng = s.eng := by simp
  simp only [barrierChain] at loaded
  simp only [opens, chainInUse_takeNumber, unused, kept, loaded, Nat.reduceEqDiff, decide_false, Bool.false_and, Bool.or_self,
    Bool.false_eq_true, if_false, gateSet, barrierChain, barrierStage, openGate]

theorem claimKnotCommands : ClaimKnotCommands := by
  refine ⟨?read, ?still, ?set, ?barrier⟩
  case read =>
    intro c s runs n ks own
    exact exec_knotRead_own runs (own.imp_right fun all k named => by
      obtain ⟨i, hi, rfl⟩ := List.mem_map.mp named
      exact all i (List.mem_range.mp hi))
  case still => exact fun c s runs still => exec_knotSet_absent_or_held runs still
  case set =>
    intro c s runs there runsHome
    obtain ⟨others, mem⟩ := knotSetAction_frame c (takeNumber c s)
    refine ⟨_, exec_knotSet_there runs there runsHome, fun increments disarmed _ => ?_, fun j other => ?_, ?_⟩
    · have raised := knotOf_knotSetAction_increment increments disarmed
      rw [knotOf_knotSetRecorded]
      exact congrArg Knot.count raised
    · rw [knotOf_knotSetRecorded, others j other, knotOf_takeNumber]
    · rw [knotSetRecorded_mem, mem, (show (takeNumber c s).mem = s.mem by simp)]
  case barrier =>
    intro c s ch runs opens unused loaded
    obtain ⟨chain, cores⟩ := gateSet_effect (barrierChain c) (barrierStage c) (openGate c) ch (takeNumber c s)
    exact ⟨openGate c, _, exec_configureBarrier_open runs opens unused loaded, rfl, rfl, chain, cores.trans (by simp)⟩

/-! ### A bight line rises (R318) -/

/-- A table whose values are mapped reads, at any key, the mapped value; the default stands for itself. -/
theorem tget_mapValues {α β : Type} (f : α → β) (d : α) (k : Nat) : ∀ t : Tbl α,
    tget (f d) (t.map (fun e => (e.1, f e.2))) k = f (tget d t k)
  | [] => rfl
  | (i, v) :: t => by
    simp only [List.map_cons, tget, tget_mapValues f d k t]
    split <;> rfl

/-- A core with every context changed. -/
def mapCore (f : Ctx → Ctx) (y : Core) : Core := { y with ctxs := y.ctxs.map (fun e => (e.1, e.2.map f)) }

theorem ctxOf_mapCtxs (f : Ctx → Ctx) (s : State) (core k : Nat) :
    ctxOf (mapCtxs (fun _ _ => f) s) core k = (ctxOf s core k).map f := by
  have cores : tget {} (mapCtxs (fun _ _ => f) s).eng.cores core = mapCore f (tget {} s.eng.cores core) :=
    tget_mapValues (mapCore f) {} core s.eng.cores
  rw [ctxOf, cores]
  exact tget_mapValues (Option.map f) none k _

/-- A context waits at a gate on a bight line. -/
def waitsOnLine (line : Nat) (x : Ctx) : Bool := atGate x && (gateOf x).kind == 4 && (gateOf x).select == line

/-- Contexts that are no longer counted at their gates, with the cores that they are on. -/
def leftGates (waiting : List (Nat × Ctx)) (s : State) : State :=
  waiting.foldl (fun s w => modGang w.2.share.gang (fun y => { y with atGate := y.atGate.filter (· != (w.1, w.2.stage)) }) s) s

theorem leftGates_frame (waiting : List (Nat × Ctx)) (s : State) : (leftGates waiting s).eng.cores = s.eng.cores ∧
    (leftGates waiting s).mem = s.mem ∧ (leftGates waiting s).kcp = s.kcp := by
  unfold leftGates
  exact ⟨foldl_keeps (·.eng.cores) _ (by intros; rfl) _ _, foldl_keeps (·.mem) _ (by simp) _ _,
    foldl_keeps (·.kcp) _ (by simp) _ _⟩

/-- A line that nobody drives low lets the contexts at a gate on it pass; cores with a later gate on it drive it low again. -/
theorem exec_bightLineRise_free {line : Nat} {s : State} (thawed : frozen s = false) (held : tget 0 s.belay.holders line ≠ 0)
    (free : s.belay.low.any (fun e => e.1 == line) = false) : ∃ waiting again, exec (.bightLineRise line) s =
      .next (let t := leftGates waiting (mapCtxs (fun _ _ x => if waitsOnLine line x then passGate x else x) s)
             { t with belay.low := t.belay.low ++ again }) :=
  ⟨_, _, if_neg (by simp [thawed, held, free])⟩

/-! ### Answers of a multicast STORE that stay away (R388) -/

/-- A context that goes on with answers missing from a multicast packet. -/
def answersMissed (m : McastPkt) (x : Ctx) : Ctx :=
  { x with missing := max x.missing m.answers, failStatus := if x.failStatus = 0 then stLOST_UNKNOWN else x.failStatus }

section
variable {tag : Nat} {s : State} {m : McastPkt}

theorem exec_mcastAckTimeout_early (packet : s.sw.mcast.find? (fun m => m.tag == tag) = some m)
    (early : copyWaits s tag = true ∨ plmc s < m.lastCopyAt + 2048) : exec (.mcastAckTimeout tag) s = .next s := by
  have waits : (copyWaits s tag || decide (plmc s < m.lastCopyAt + 2048)) = true := by simpa using early
  simp only [exec, execMcastAckTimeout, packet, waits, if_true]

theorem exec_mcastAckTimeout_due {x : Ctx} (packet : s.sw.mcast.find? (fun m => m.tag == tag) = some m)
    (ctx : ctxOf s m.core m.ctx = some x) (left : copyWaits s tag = false) (due : m.lastCopyAt + 2048 ≤ plmc s) :
    exec (.mcastAckTimeout tag) s = .next (mcastSettled m (putCtx m.core m.ctx (some (answersMissed m x)) s)) := by
  simp only [exec, execMcastAckTimeout, packet, left, Nat.not_lt.mpr due, decide_false, Bool.or_self, Bool.false_eq_true, if_false,
    ctx, answersMissed]

end

theorem claimLinesAndBarriersRelease : ClaimLinesAndBarriersRelease := by
  refine ⟨?rise, ?disable, ?timeout⟩
  case rise =>
    intro line s thawed held free
    obtain ⟨waiting, again, rises⟩ := exec_bightLineRise_free thawed held free
    obtain ⟨cores, mem, kcp⟩ := leftGates_frame waiting (mapCtxs (fun _ _ x => if waitsOnLine line x then passGate x else x) s)
    refine ⟨_, rises, fun core k => ?_, mem, kcp⟩
    rw [← ctxOf_mapCtxs]
    exact congrArg (fun t => tget none (tget {} t core).ctxs k) cores
  case disable =>
    intro g s
    refine ⟨_, rfl, getField_setField_self .., ?_, rfl⟩
    rw [fbarArrived, fbarDisable, getField_setField_ne _ _ _ _ _ _ _ (by simp only [fkey, fbarReg]; omega), getField_setField_self]
  case timeout =>
    intro tag s m x packet ctx
    exact ⟨exec_mcastAckTimeout_early packet, fun left due => ⟨_, exec_mcastAckTimeout_due packet ctx left due,
      ctxOf_putCtx_self .., rfl, rfl⟩⟩

/-- Settles O23, from the commands over knots and gates and from the waits that end without them. -/
theorem knotCommands : Obligations.KnotCommands := ⟨claimKnotCommands, claimLinesAndBarriersRelease⟩

end Sys2Proof.Machine

/-! PROOFS. Serial lanes (section 10): what the sending of blocks and the setting of lanes leave, the commands over ports and
lanes, locks and markers, training, and the changes of a port in service. -/
namespace Sys2Proof.Machine

/-! ### What the sending of blocks leaves (R334, R336, R352) -/

/-- The registers, the pool, and the ports but for their transmit sides: what stands while lanes send and are set. -/
structure Ground where
  fields : Tbl Nat
  mem : MemSt
  ports : Nat → Port

def ground (s : State) : Ground := ⟨s.fields, s.mem, fun p => { portOf s p with tx := {} }⟩

section
variable {s t : State} (same : ground t = ground s)
include same

theorem fields_of_ground : t.fields = s.fields := congrArg Ground.fields same

theorem mem_of_ground : t.mem = s.mem := congrArg Ground.mem same

/-- Whatever of a port does not lie on its transmit side stands. -/
theorem portOf_of_ground {α : Type} (f : Port → α) (p : Nat) (blind : ∀ x : Port, f { x with tx := {} } = f x := by intros; rfl) :
    f (portOf t p) = f (portOf s p) := by
  rw [← blind, ← blind (portOf s p)]
  exact congrArg (fun g => f (g.ports p)) same

end

@[simp] theorem modTx_ground (p : Nat) (f : TxSt → TxSt) (s : State) : ground (modTx p f s) = ground s := by
  refine congrArg (Ground.mk s.fields s.mem) (funext fun k => ?_)
  by_cases same : k = p
  · rw [same, modTx, portOf_modPort_self]
  · rw [modTx, portOf_modPort_ne _ _ _ _ same]

@[simp] theorem modTx_lanes (p : Nat) (f : TxSt → TxSt) (s : State) : (modTx p f s).link.lanes = s.link.lanes := rfl

theorem ground_congr {s t : State} (fields : t.fields = s.fields) (mem : t.mem = s.mem) (ports : t.link.ports = s.link.ports) :
    ground t = ground s := by
  unfold ground portOf
  rw [fields, mem, ports]

@[simp] theorem emit_ground (o : Out) (s : State) : ground (emit o s) = ground s ∧ (emit o s).link.lanes = s.link.lanes :=
  ⟨ground_congr rfl rfl rfl, rfl⟩

@[simp] theorem sendBlocks_ground (l : Nat) (ws : List Blk) (s : State) : ground (sendBlocks l ws s) = ground s ∧
    (sendBlocks l ws s).link.lanes = s.link.lanes ∧ (sendBlocks l ws s).link.ports = s.link.ports :=
  ⟨ground_congr rfl rfl rfl, rfl, rfl⟩

@[simp] theorem sendBlock_ground (l : Nat) (w : Blk) (s : State) : ground (sendBlock l w s) = ground s ∧
    (sendBlock l w s).link.lanes = s.link.lanes ∧ (sendBlock l w s).link.ports = s.link.ports := by
  simp [sendBlock]

@[simp] theorem sendFill_ground (l n : Nat) (s : State) : ground (sendFill l n s) = ground s ∧
    (sendFill l n s).link.lanes = s.link.lanes :=
  ⟨ground_congr rfl rfl rfl, rfl⟩

@[simp] theorem sendTrainBlock_ground (l : Nat) (w : Blk) (s : State) : ground (sendTrainBlock l w s) = ground s ∧
    (sendTrainBlock l w s).link.lanes = s.link.lanes := by
  simp [sendTrainBlock]

@[simp] theorem restartStream_ground (l : Nat) (s : State) : ground (restartStream l s) = ground s ∧
    (restartStream l s).link.lanes = s.link.lanes :=
  ⟨ground_congr rfl rfl rfl, rfl⟩

@[simp] theorem joinStream_ground (k l : Nat) (s : State) : ground (joinStream k l s) = ground s ∧
    (joinStream k l s).link.lanes = s.link.lanes :=
  ⟨ground_congr rfl rfl rfl, rfl⟩

@[simp] theorem keepPace_ground (p : Nat) (s : State) : ground (keepPace p s) = ground s ∧
    (keepPace p s).link.lanes = s.link.lanes := by
  unfold keepPace
  split
  · split
    · exact ⟨rfl, rfl⟩
    · exact ⟨foldl_keeps ground _ (by simp) _ _, foldl_keeps (·.link.lanes) _ (by simp) _ _⟩
  · exact ⟨rfl, rfl⟩

/-- A deal sends some blocks on each lane and turns the port to another lane. -/
theorem deal_eq (p : Nat) (ws : List Blk) (s : State) : ∃ (l : List Nat) (f : Nat → List Blk) (g : TxSt → TxSt),
    deal p ws s = keepPace p (modTx p g (l.foldl (fun s i => sendBlocks (laneId p i) (f i) s) s)) :=
  ⟨_, _, fun x => { x with dealt := _ }, rfl⟩

@[simp] theorem deal_ground (p : Nat) (ws : List Blk) (s : State) : ground (deal p ws s) = ground s ∧
    (deal p ws s).link.lanes = s.link.lanes := by
  obtain ⟨l, f, g, deals⟩ := deal_eq p ws s
  rw [deals, (keepPace_ground ..).1, (keepPace_ground ..).2, modTx_ground, modTx_lanes]
  exact ⟨foldl_keeps ground _ (by simp) _ _, foldl_keeps (·.link.lanes) _ (by simp) _ _⟩

@[simp] theorem fillRow_ground (p : Nat) (s : State) : ground (fillRow p s) = ground s ∧
    (fillRow p s).link.lanes = s.link.lanes ∧ (fillRow p s).out = s.out := by
  simp only [fillRow]
  split <;> simp

@[simp] theorem sendControl_ground (p i : Nat) (w : Blk) (s : State) : ground (sendControl p i w s) = ground s ∧
    (sendControl p i w s).link.lanes = s.link.lanes ∧ (sendControl p i w s).out = .block (laneId p i) w :: s.out := by
  unfold sendControl
  split
  · simp only [emit_ground, emit_frame]
    exact ⟨foldl_keeps ground _ (by simp) _ _, foldl_keeps (·.link.lanes) _ (by simp) _ _,
      congrArg _ (foldl_keeps (·.out) _ (by simp) _ _)⟩
  · exact ⟨by simp, by simp, by simp [emit]⟩

@[simp] theorem sendTrain_ground (p : Nat) (t : Train) (phase : Nat) (s : State) : ground (sendTrain p t phase s) = ground s ∧
    (sendTrain p t phase s).link.lanes = s.link.lanes := by
  have sent (l : List Nat) (lane : Nat → Nat) (w : State → Nat → Blk) (u : State) :
      ground (l.foldl (fun s i => sendTrainBlock (lane i) (w s i) s) u) = ground u ∧
        (l.foldl (fun s i => sendTrainBlock (lane i) (w s i) s) u).link.lanes = u.link.lanes :=
    ⟨foldl_keeps ground _ (by simp) _ _, foldl_keeps (·.link.lanes) _ (by simp) _ _⟩
  simp only [sendTrain]
  split <;> split <;> simp only [deal_ground, fillRow_ground, sent, and_self]

@[simp] theorem enqueue_ground (p q : Nat) (k : TxPkt) (s : State) : ground (enqueue p q k s) = ground s := by
  unfold enqueue
  split
  · exact ground_congr rfl rfl rfl
  · exact modTx_ground p (fun x => { x with queue := _ }) s

@[simp] theorem sendKcp_ground (path : Path) (k : KcpPkt) (s : State) : ground (sendKcp path k s) = ground s := by
  unfold sendKcp
  repeat' split
  all_goals simp

@[simp] theorem modSession_ground (i : Nat) (f : Session → Session) (s : State) : ground (modSession i f s) = ground s :=
  ground_congr rfl rfl rfl

@[simp] theorem reply_ground (i t q o : Nat) (c : Bool) (b : List Byte) (s : State) : ground (reply i t q o c b s) = ground s := by
  unfold reply
  cases c with
  | false =>
    simp only [Bool.false_eq_true, if_false]
    split <;> simp
  | true =>
    have filed (k : KcpSt) : ground { s with kcp := k } = ground s := ground_congr rfl rfl rfl
    simp only [if_true]
    split
    · exact filed _
    · exact (modSession_ground ..).trans ((sendKcp_ground ..).trans (filed _))

@[simp] theorem finish_ground (r : Running) (st : Nat) (b : List Byte) (s : State) : ground (finish r st b s) = ground s :=
  (reply_ground ..).trans (ground_congr rfl rfl rfl)

@[simp] theorem answerPort_ground (p : Nat) (s : State) : ground (answerPort p s) = ground s :=
  foldl_keeps ground _ (by simp) _ _

@[simp] theorem endChange_ground (p st : Nat) (res : List Byte) (s : State) : ground (endChange p st res s) = ground s :=
  foldl_keeps ground _ (by simp) _ _

/-! ### Lanes, one at a time and in turn (R329, R337) -/

@[simp] theorem modLane_ground (l : Nat) (f : Lane → Lane) (s : State) : ground (modLane l f s) = ground s ∧
    (modLane l f s).link.ports = s.link.ports :=
  ⟨ground_congr rfl rfl rfl, rfl⟩

@[simp] theorem laneState_modLane_self (l : Nat) (f : Lane → Lane) (s : State) :
    laneState (modLane l f s) l = f (laneState s l) := tget_tmod_self ..

theorem laneState_modLane_ne {l k : Nat} (f : Lane → Lane) (s : State) (other : k ≠ l) :
    laneState (modLane l f s) k = laneState s k := tget_tmod_ne _ _ _ _ _ other

/-- What a change of a lane leaves of every lane, it leaves of that lane. -/
theorem laneState_modLane_of_blind {α : Type} {f : Lane → Lane} (g : Lane → α) (l k : Nat) (s : State)
    (blind : ∀ x, g (f x) = g x := by intros; rfl) : g (laneState (modLane l f s) k) = g (laneState s k) := by
  by_cases same : k = l
  · rw [same, laneState_modLane_self, blind]
  · rw [laneState_modLane_ne f s same]

theorem laneState_congr {s t : State} (lanes : t.link.lanes = s.link.lanes) : laneState t = laneState s := by
  unfold laneState
  rw [lanes]

theorem portOf_congr {s t : State} (ports : t.link.ports = s.link.ports) : portOf t = portOf s := by
  unfold portOf
  rw [ports]

/-- What a list's operations on its elements make of one of them, where the others keep it. -/
theorem foldl_makes {β : Type} {g : State → β → State} {b : β} (P : State → Prop) (makes : ∀ s, P (g s b)) :
    ∀ {l : List β}, (∀ s, ∀ a ∈ l, P s → P (g s a)) → b ∈ l → ∀ s, P (l.foldl g s)
  | [], _, mem, _ => absurd mem (List.not_mem_nil)
  | a :: l, keeps, mem, s => by
    have keepsLater : ∀ s, ∀ c ∈ l, P s → P (g s c) := fun s c hc => keeps s c (List.mem_cons_of_mem _ hc)
    by_cases later : b ∈ l
    · exact foldl_makes P makes keepsLater later (g s a)
    · have first : b = a := (List.mem_cons.mp mem).resolve_right later
      subst first
      exact List.foldlRecOn l g (makes s) fun u hu c hc => keepsLater u c hc hu

@[simp] theorem laneRate_ground (l r : Nat) (saved : Bool) (s : State) : ground (laneRate l r saved s) = ground s :=
  (modLane_ground ..).1.trans (restartStream_ground ..).1

@[simp] theorem laneOff_ground (l : Nat) (s : State) : ground (laneOff l s) = ground s ∧ (laneOff l s).link.ports = s.link.ports :=
  modLane_ground ..

/-- A lane is powered at a rate. -/
def RunsAt (l r : Nat) (s : State) : Prop := (laneState s l).powered = true ∧ (laneState s l).rate = r

theorem laneRate_runsAt (l r : Nat) (saved : Bool) (s : State) : RunsAt l r (laneRate l r saved s) := by
  simp [RunsAt, laneRate]

theorem laneRate_keeps_runsAt {l k r : Nat} {saved : Bool} {s : State} (runs : RunsAt k r s) : RunsAt k r (laneRate l r saved s) := by
  by_cases same : k = l
  · exact same ▸ laneRate_runsAt ..
  · rw [RunsAt, laneRate, laneState_modLane_ne _ _ same]
    exact runs

/-! ### The phase of a port (R120, R349) -/

theorem portOf_enterPhase_self (p : Nat) (ph : Phase) (s : State) : ∃ k m, portOf (enterPhase p ph s) p =
    { portOf s p with phase := ph, phaseSince := k, changedAt := m } := by
  unfold enterPhase
  dsimp only
  split
  · exact ⟨_, _, portOf_modPort_self ..⟩
  · exact ⟨_, _, portOf_modPort_self ..⟩

/-- A port that stays in its STATE fires no interrupt source. -/
theorem enterPhase_of_sameState {p : Nat} {ph : Phase} {s : State}
    (same : portState (portOf s p) = portState { portOf s p with phase := ph }) :
    enterPhase p ph s = modPort p (fun x => { x with phase := ph, phaseSince := lmc s }) s := if_pos same

theorem getField_enterPhase {off lo : Nat} (notFirings : lo % 32 ≠ 16) (p r : Nat) (ph : Phase) (s : State) :
    getField off lo r (enterPhase p ph s) = getField off lo r s := by
  unfold enterPhase
  dsimp only
  split
  · rfl
  · exact getField_fire notFirings ..

/-! ### What the taking of a command's number leaves of ports and lanes (R101) -/

section
variable {c : Cmd} {s : State}

@[simp] theorem portOf_takeNumber : portOf (takeNumber c s) = portOf s := rfl
@[simp] theorem portAbsent_takeNumber : portAbsent (takeNumber c s) = portAbsent s := rfl
@[simp] theorem portFree_takeNumber : portFree (takeNumber c s) = portFree s := rfl
@[simp] theorem overlapsOther_takeNumber : overlapsOther (takeNumber c s) = overlapsOther s := rfl
@[simp] theorem lanesHeld_takeNumber : lanesHeld (takeNumber c s) = lanesHeld s := rfl
@[simp] theorem bringUpResults_takeNumber : bringUpResults (takeNumber c s) = bringUpResults s := rfl

end

/-! ### A training begins (R337, R339, R340) -/

/-- The codewords of VERIFY are counted from here on. -/
def phaseBegun (p : Nat) (t : Train) (ph : Phase) (s : State) : State := if ph = .verify then startVerify p t s else s

theorem phaseBegun_ground (p : Nat) (t : Train) (ph : Phase) (s : State) : ground (phaseBegun p t ph s) = ground s ∧
    (phaseBegun p t ph s).link.ports = s.link.ports := by
  unfold phaseBegun
  split
  · exact ⟨foldl_keeps ground _ (by simp) _ _, foldl_keeps (·.link.ports) _ (by simp) _ _⟩
  · exact ⟨rfl, rfl⟩

/-- A training of the port itself takes the port with it into a phase. -/
theorem trainPhase_main (p : Nat) (t : Train) (ph : Phase) (s : State) : ∃ n, trainPhase p true t ph s =
    enterPhase p ph (putTrain p true (some { t with phase := ph, since := n }) (phaseBegun p t ph s)) := ⟨_, rfl⟩

theorem portOf_trainPhase_self (p : Nat) (t : Train) (ph : Phase) (s : State) : ∃ n k m, portOf (trainPhase p true t ph s) p =
    { portOf s p with train := some { t with phase := ph, since := n }, phase := ph, phaseSince := k, changedAt := m } := by
  obtain ⟨n, enters⟩ := trainPhase_main p t ph s
  obtain ⟨k, m, entered⟩ := portOf_enterPhase_self p ph (putTrain p true (some { t with phase := ph, since := n }) (phaseBegun p t ph s))
  have ports := portOf_congr (phaseBegun_ground p t ph s).2
  refine ⟨n, k, m, ?_⟩
  rw [enters, entered, putTrain, portOf_modPort_self, ports]
  rfl

theorem getField_trainPhase {off lo : Nat} (notFirings : lo % 32 ≠ 16) (p r : Nat) (t : Train) (ph : Phase) (s : State) :
    getField off lo r (trainPhase p true t ph s) = getField off lo r s := by
  obtain ⟨n, enters⟩ := trainPhase_main p t ph s
  rw [enters, getField_enterPhase notFirings, getField, getField, putTrain, (modPort_frame ..).2.2.2.1,
    fields_of_ground (phaseBegun_ground p t ph s).1]

theorem trainPhase_mem (p : Nat) (t : Train) (ph : Phase) (s : State) : (trainPhase p true t ph s).mem = s.mem := by
  obtain ⟨n, enters⟩ := trainPhase_main p t ph s
  simp only [enters, enterPhase_frame, putTrain, modPort_frame, mem_of_ground (phaseBegun_ground p t ph s).1]

/-- A phase other than VERIFY leaves the lanes as they are. -/
theorem laneState_trainPhase (p : Nat) (t : Train) {ph : Phase} (notVerify : ph ≠ .verify) (s : State) :
    laneState (trainPhase p true t ph s) = laneState s := by
  have entered (u : State) : (enterPhase p ph u).link.lanes = u.link.lanes := by
    simp only [enterPhase]
    split <;> simp [modPort]
  obtain ⟨n, enters⟩ := trainPhase_main p t ph s
  refine laneState_congr ?_
  rw [enters, entered, phaseBegun, if_neg notVerify]
  rfl

/-- The lanes that a port trains. -/
def trainingLanes (s : State) (p : Nat) : List Nat :=
  (List.range (widthLanes (trainWidth s p))).filter (fun i => !(portOf s p).dropped.contains i)

/-- Lanes of a port enter a rate, each after a change of what it keeps. -/
def lanesAtRate (p r : Nat) (saved : Bool) (f : Lane → Lane) (lanes : List Nat) (s : State) : State :=
  lanes.foldl (fun s i => laneRate (laneId p i) r saved (modLane (laneId p i) f s)) s

section
variable {p r : Nat} {saved : Bool} {f : Lane → Lane} {lanes : List Nat}

theorem lanesAtRate_ground (s : State) : ground (lanesAtRate p r saved f lanes s) = ground s :=
  foldl_keeps ground _ (by simp) _ _

theorem lanesAtRate_runsAt {i : Nat} (mem : i ∈ lanes) (s : State) (powered : ∀ x, (f x).powered = x.powered := by intros; rfl)
    (rate : ∀ x, (f x).rate = x.rate := by intros; rfl) : RunsAt (laneId p i) r (lanesAtRate p r saved f lanes s) := by
  refine foldl_makes (b := i) (RunsAt (laneId p i) r) (fun u => laneRate_runsAt ..) (fun u k _ runs => laneRate_keeps_runsAt ?_) mem s
  exact ⟨(laneState_modLane_of_blind (·.powered) _ _ u powered).trans runs.1,
    (laneState_modLane_of_blind (·.rate) _ _ u rate).trans runs.2⟩

end

/-- The lanes of a training that begins, at rate 1 with no taps saved. -/
def lanesAtRate1 (p : Nat) : List Nat → State → State := lanesAtRate p 1 false (fun x => { x with savedTaps := [] })

theorem sealBarred_eq_false {p : Nat} {s : State} (ready : sealEnable s p = true → sealReady s p = true) :
    (sealEnable s p && !sealReady s p) = false := by
  cases enabled : sealEnable s p with
  | false => rfl
  | true => rw [ready enabled]; rfl

section
variable {p : Nat} {s : State} (ready : sealEnable s p = true → sealReady s p = true) (bringUp : Bool)
include ready

/-- A port that is not to be sealed, or can be, begins its training in LOCK. -/
theorem startTraining_of_ready : ∃ n m, startTraining p bringUp s =
    (let t : Train := { lead := 0, lanes := trainingLanes s p, bringUp := bringUp, since := n, began := m }
     sendTrain p t 0 (trainPhase p true t .lock (lanesAtRate1 p (trainingLanes s p)
      (modPort p (fun x => { x with width := trainWidth s p, failReason := 0, rate := 0, lanesOk := 0 }) s)))) := by
  refine ⟨_, _, if_neg (ne_true_of_eq_false ?_)⟩
  rw [← sealBarred_eq_false ready]
  simp only [sealReady, portOf_modPort_self]
  rfl

theorem startTraining_effect : let t := startTraining p bringUp s
    (portOf t p).phase = .lock ∧
    (∃ tr, (portOf t p).train = some tr ∧ tr.rate = 1 ∧ tr.phase = .lock ∧ tr.lanes = trainingLanes s p ∧ tr.bringUp = bringUp) ∧
    (∀ i ∈ trainingLanes s p, RunsAt (laneId p i) 1 t) ∧
    (∀ off lo r, lo % 32 ≠ 16 → getField off lo r t = getField off lo r s) ∧ t.mem = s.mem := by
  obtain ⟨n, m, starts⟩ := startTraining_of_ready ready bringUp
  dsimp only at starts ⊢
  rw [starts]
  generalize began : ({ lead := 0, lanes := trainingLanes s p, bringUp := bringUp, since := n, began := m } : Train) = tr
  generalize blank : modPort p _ s = u
  obtain ⟨stands, sent⟩ := sendTrain_ground p tr 0 (trainPhase p true tr .lock (lanesAtRate1 p (trainingLanes s p) u))
  have lanes := (laneState_congr sent).trans (laneState_trainPhase p tr (by decide) _)
  have atRate : ground (lanesAtRate1 p (trainingLanes s p) u) = ground u := lanesAtRate_ground u
  obtain ⟨n', k, m', port⟩ := portOf_trainPhase_self p tr .lock (lanesAtRate1 p (trainingLanes s p) u)
  refine ⟨?_, ⟨{ tr with phase := .lock, since := n' }, ?_, ?_⟩, fun i mem => ?_, fun off lo r other => ?_, ?_⟩
  · rw [portOf_of_ground stands (·.phase) p, port]
  · rw [portOf_of_ground stands (·.train) p, port]
  · subst began
    exact ⟨rfl, rfl, rfl, rfl⟩
  · rw [RunsAt, lanes]
    exact lanesAtRate_runsAt mem u
  · rw [getField, fields_of_ground stands, ← getField, getField_trainPhase other, getField, fields_of_ground atRate, ← blank]
    rfl
  · rw [mem_of_ground stands, trainPhase_mem, mem_of_ground atRate, ← blank]
    rfl

end

/-- Writing a field leaves another as it is, whatever their reset values. -/
theorem getField_setField_other {off lo r v off' lo' r' : Nat} {s : State} (other : fkey off' lo' ≠ fkey off lo) :
    getField off' lo' r' (setField off lo r v s) = getField off' lo' r' s := by
  unfold getField setField tset
  dsimp only
  split
  · exact tget_tdel_ne _ _ _ _ other
  · exact tget_tput_ne _ _ _ _ _ other

theorem portUp_iff {s : State} {p : Nat} : portUp s p = true ↔ (portOf s p).phase = .up ∨ (portOf s p).phase = .change := by
  unfold portUp portOf
  cases (tget {} s.link.ports p).phase <;> simp

theorem portState_of_up {s : State} {p : Nat} (up : portUp s p = true) : portState (portOf s p) = 2 := by
  rcases portUp_iff.mp up with phase | phase <;> rw [portState, phase]

/-! ### BRING_UP_LINK (R343) -/

/-- The port, the width and the rate that BRING_UP_LINK, RETRAIN_PORT and SET_PORT_WIDTH name. -/
def namedPort (c : Cmd) : Nat := min 95 (pnum c.params 0 1)
def namedWidth (c : Cmd) : Nat := slotWidth (namedPort c) (pbits c.params 1 0 2)
def namedRate (c : Cmd) : Nat := clampTo 1 4 (pbits c.params 1 2 3)

theorem slotWidth_slotWidth (p w : Nat) : slotWidth p (slotWidth p w) = slotWidth p w := by
  unfold slotWidth
  omega

/-- What BRING_UP_LINK writes before the training begins: the port's width and MAX_RATE; no lane counts as dropped. -/
def broughtUp (p w r : Nat) (s : State) : State :=
  modPort p (fun x => { x with shareBase := none, dropped := [] }) (setField (portReg p 0) 30 2 w (setField (portReg p 0) 27 4 r s))

section
variable {p w r : Nat} {s : State}

theorem portWidthCfg_broughtUp : portWidthCfg (broughtUp p w r s) p = slotWidth p w :=
  congrArg (slotWidth p) (getField_setField_self ..)

theorem portMaxRate_broughtUp : portMaxRate (broughtUp p w r s) p = r :=
  (getField_setField_other (by simp only [fkey]; omega)).trans (getField_setField_self ..)

theorem sealEnable_broughtUp : sealEnable (broughtUp p w r s) p = sealEnable s p := by
  have kept : getField (portReg p 0x1C) 31 0 (broughtUp p w r s) = getField (portReg p 0x1C) 31 0 s :=
    (getField_setField_other (by simp only [fkey]; omega)).trans
      (getField_setField_other (by simp only [fkey]; omega))
  rw [sealEnable, sealEnable, kept]

theorem sealReady_broughtUp : sealReady (broughtUp p w r s) p = sealReady s p := by
  simp only [sealReady, broughtUp, portOf_modPort_self]
  rfl

/-- A port of slot 0 that takes the whole quad finds slot 1 unused. -/
theorem slot1_off_of_apart {x : Nat} (apart : overlapsOther s p (slotWidth p x) = false) (quad : slotWidth p x = 2) :
    (portOf s (p + 1)).phase = .off := by
  have even : p % 2 = 0 := by
    unfold slotWidth at quad
    split at quad <;> omega
  simpa [overlapsOther, even, quad] using apart

/-- A port whose lanes no other port has trains all of them. -/
theorem trainingLanes_broughtUp {x : Nat} (apart : overlapsOther s p (slotWidth p x) = false) :
    trainingLanes (broughtUp p (slotWidth p x) r s) p = List.range (widthLanes (slotWidth p x)) := by
  have other : portOf (broughtUp p (slotWidth p x) r s) (p + 1) = portOf s (p + 1) := portOf_modPort_ne _ _ _ _ (by omega)
  have width : trainWidth (broughtUp p (slotWidth p x) r s) p = slotWidth p x := by
    rw [trainWidth, portWidthCfg_broughtUp, slotWidth_slotWidth, other]
    by_cases quad : slotWidth p x = 2
    · simp [slot1_off_of_apart apart quad]
    · simp [quad]
  have noneDropped : (portOf (broughtUp p (slotWidth p x) r s) p).dropped = [] := by rw [broughtUp, portOf_modPort_self]
  simp [trainingLanes, width, noneDropped]

end

section
variable {c : Cmd} {s : State} (runs : Runs 0x601 c s)
include runs

theorem exec_bringUpLink_absent (absent : portAbsent s (namedPort c) = true) :
    RepliesWith 0x601 c stDEGRADED [] (takeNumber c s) (exec (.bringUpLink c) s) :=
  ⟨_, congrArg Host.Outcome.next (kcpTake_of_body runs (if_pos absent))⟩

section
variable (there : portAbsent s (namedPort c) = false)
include there

theorem exec_bringUpLink_held (held : portFree s (namedPort c) = false) :
    RepliesWith 0x601 c stBUSY [] (takeNumber c s) (exec (.bringUpLink c) s) :=
  ⟨_, congrArg Host.Outcome.next (kcpTake_of_body runs ((if_neg (ne_true_of_eq_false there)).trans (if_pos (congrArg (!·) held))))⟩

variable (free : portFree s (namedPort c) = true) (apart : overlapsOther s (namedPort c) (namedWidth c) = false)
  (untested : lanesHeld s (namedPort c) (namedWidth c) = false)
include free apart untested

theorem exec_bringUpLink_up (up : portUp s (namedPort c) = true) :
    RepliesWith 0x601 c stOK (bringUpResults s (namedPort c)) (takeNumber c s) (exec (.bringUpLink c) s) := by
  have state := portState_of_up up
  refine ⟨_, congrArg Host.Outcome.next (kcpTake_of_body runs ?_)⟩
  simp only [namedPort, namedWidth] at there free apart untested state ⊢
  simp [there, free, apart, untested, state]

theorem exec_bringUpLink_down (down : (portOf s (namedPort c)).phase = .off ∨ (portOf s (namedPort c)).phase = .lost)
    (ready : sealEnable s (namedPort c) = true → sealReady s (namedPort c) = true) :
    Waits 0x601 c (.port (namedPort c))
      (startTraining (namedPort c) true (broughtUp (namedPort c) (namedWidth c) (namedRate c) (takeNumber c s)))
      (exec (.bringUpLink c) s) := by
  have unbarred : (sealEnable (broughtUp (namedPort c) (namedWidth c) (namedRate c) (takeNumber c s)) (namedPort c) &&
      !sealReady (broughtUp (namedPort c) (namedWidth c) (namedRate c) (takeNumber c s)) (namedPort c)) = false := by
    rw [sealEnable_broughtUp, sealReady_broughtUp]
    exact sealBarred_eq_false ready
  have clear : ¬(overlapsOther s (namedPort c) (namedWidth c) || lanesHeld s (namedPort c) (namedWidth c)) = true := by
    simp [apart, untested]
  have state : portState (portOf s (namedPort c)) = 0 ∨ portState (portOf s (namedPort c)) = 3 :=
    down.imp (fun off => by rw [portState, off]) (fun lost => by rw [portState, lost])
  refine ⟨_, congrArg Host.Outcome.next (kcpTake_of_body runs ((if_neg (ne_true_of_eq_false there)).trans
    ((if_neg (by simpa [namedPort] using free)).trans ((if_neg clear).trans ?_))))⟩
  rcases state with state | state
  all_goals
    simp only [namedPort] at state
    simp only [portOf_takeNumber, state]
    exact if_neg (ne_true_of_eq_false unbarred)

end
end

/-! ### A CHANGE is sent (R344, R345) -/

theorem enterPhase_change_of_up {s : State} {p : Nat} (up : portUp s p = true) : enterPhase p .change s =
    modPort p (fun x => { x with phase := .change, phaseSince := lmc s }) s :=
  enterPhase_of_sameState (portState_of_up up)

theorem changeBlk_congr {s t : State} {p : Nat} (fields : t.fields = s.fields) (rate : (portOf t p).rate = (portOf s p).rate) :
    changeBlk t p = changeBlk s p := by
  funext i kind width lanes ready
  simp only [changeBlk, portMaxRate, localEid, getField, fields, rate]

theorem sendChange_effect (p kind w lanes : Nat) (ready : Bool) (s : State) :
    ground (sendChange p kind w lanes ready s) = ground s ∧ (sendChange p kind w lanes ready s).out =
      .block (laneId p 0) (trainWord (changeBlk s p 0 kind w lanes ready)) :: s.out :=
  ⟨(sendControl_ground ..).1, (sendControl_ground ..).2.2⟩

/-- A port that is up asks its partner for a change. -/
def changeAsked (p kind w lanes : Nat) (f : Port → Port) (s : State) : State :=
  sendChange p kind w lanes true (enterPhase p .change (modPort p f s))

theorem changeAsked_effect {p : Nat} {f : Port → Port} {s : State} (kind w lanes : Nat) (up : portUp s p = true)
    (phase : ∀ x, (f x).phase = x.phase := by intros; rfl) (rate : ∀ x, (f x).rate = x.rate := by intros; rfl) :
    let t := changeAsked p kind w lanes f s
    (portOf t p).phase = .change ∧ (portOf t p).change = (f (portOf s p)).change ∧ (portOf t p).width = (f (portOf s p)).width ∧
    t.out = .block (laneId p 0) (trainWord (changeBlk s p 0 kind w lanes true)) :: s.out ∧ t.mem = s.mem := by
  have stillUp : portUp (modPort p f s) p = true := by
    rw [portUp_iff, portOf_modPort_self, phase]
    exact portUp_iff.mp up
  obtain ⟨stands, out⟩ := sendChange_effect p kind w lanes true (enterPhase p .change (modPort p f s))
  have entered := enterPhase_change_of_up stillUp
  have port : portOf (enterPhase p .change (modPort p f s)) p =
      { f (portOf s p) with phase := .change, phaseSince := lmc (modPort p f s) } := by
    rw [entered, portOf_modPort_self, portOf_modPort_self]
  have block : changeBlk (enterPhase p .change (modPort p f s)) p = changeBlk s p :=
    changeBlk_congr (by rw [entered]; rfl) (by rw [port]; exact rate _)
  refine ⟨?_, ?_, ?_, ?_, ?_⟩
  · rw [changeAsked, portOf_of_ground stands (·.phase) p, port]
  · rw [changeAsked, portOf_of_ground stands (·.change) p, port]
  · rw [changeAsked, portOf_of_ground stands (·.width) p, port]
  · rw [changeAsked, out, block, (enterPhase_frame ..).2.1]
    rfl
  · rw [changeAsked, mem_of_ground stands, entered]
    rfl

theorem noChange_pending {x : Port} (unchanged : x.change = none) (atOnce : x.backoffUntil = none) (steady : x.widthChange = none) :
    ¬(x.change.isSome || x.backoffUntil.isSome || x.widthChange.isSome) = true := by
  simp [unchanged, atOnce, steady]

/-! ### RETRAIN_PORT (R344) -/

section
variable {c : Cmd} {s : State} (runs : Runs 0x602 c s)
include runs

theorem exec_retrainPort_absent (absent : portAbsent s (namedPort c) = true) :
    RepliesWith 0x602 c stDEGRADED [] (takeNumber c s) (exec (.retrainPort c) s) :=
  ⟨_, congrArg Host.Outcome.next (kcpTake_of_body runs (if_pos absent))⟩

variable (there : portAbsent s (namedPort c) = false)
include there

theorem exec_retrainPort_held (held : portFree s (namedPort c) = false) :
    RepliesWith 0x602 c stBUSY [] (takeNumber c s) (exec (.retrainPort c) s) :=
  ⟨_, congrArg Host.Outcome.next (kcpTake_of_body runs ((if_neg (ne_true_of_eq_false there)).trans (if_pos (congrArg (!·) held))))⟩

variable (free : portFree s (namedPort c) = true)
include free

theorem exec_retrainPort_up (up : (portOf s (namedPort c)).phase = .up) (unchanged : (portOf s (namedPort c)).change = none)
    (atOnce : (portOf s (namedPort c)).backoffUntil = none) (steady : (portOf s (namedPort c)).widthChange = none) :
    Waits 0x602 c (.retrain (namedPort c))
      (changeAsked (namedPort c) 0 (portOf s (namedPort c)).width 0
        (fun x => { x with change := some (0, x.width, lmc s, 0) }) (takeNumber c s)) (exec (.retrainPort c) s) := by
  have state : portState (portOf s (namedPort c)) = 2 := by rw [portState, up]
  refine ⟨_, congrArg Host.Outcome.next (kcpTake_of_body runs ((if_neg (ne_true_of_eq_false there)).trans
    ((if_neg (by simpa [namedPort] using free)).trans ?_)))⟩
  simp only [namedPort] at state
  simp only [portOf_takeNumber, state]
  exact if_neg (noChange_pending unchanged atOnce steady)

theorem exec_retrainPort_lost (lost : (portOf s (namedPort c)).phase = .lost)
    (ready : sealEnable s (namedPort c) = true → sealReady s (namedPort c) = true) :
    Waits 0x602 c (.port (namedPort c)) (startTraining (namedPort c) false (forgetDropped (namedPort c) (takeNumber c s)))
      (exec (.retrainPort c) s) := by
  have state : portState (portOf s (namedPort c)) = 3 := by rw [portState, lost]
  refine ⟨_, congrArg Host.Outcome.next (kcpTake_of_body runs ((if_neg (ne_true_of_eq_false there)).trans
    ((if_neg (by simpa [namedPort] using free)).trans ?_)))⟩
  simp only [namedPort] at state ⊢
  simp only [portOf_takeNumber, state]
  exact if_neg (ne_true_of_eq_false (sealBarred_eq_false ready))

theorem exec_retrainPort_off (off : (portOf s (namedPort c)).phase = .off) :
    RepliesWith 0x602 c stDENIED [] (takeNumber c s) (exec (.retrainPort c) s) := by
  have state : portState (portOf s (namedPort c)) = 0 := by rw [portState, off]
  refine ⟨_, congrArg Host.Outcome.next (kcpTake_of_body runs ((if_neg (ne_true_of_eq_false there)).trans
    ((if_neg (by simpa [namedPort] using free)).trans ?_)))⟩
  simp only [namedPort] at state
  simp only [portOf_takeNumber, state]

end

/-! ### SET_PORT_WIDTH (R345) -/

theorem width_allowed {s : State} {p w : Nat} (up : portUp s p = true) (apart : (portOf s p).width < w → overlapsOther s p w = false) :
    ¬(!portUp s p || (decide ((portOf s p).width < w) && overlapsOther s p w)) = true := by
  simpa [up] using apart

/-- A port that has asked for a width. -/
def widthAsked (w now : Nat) (x : Port) : Port := { x with change := some (1, w, now, 0), widthChange := some (.asked w) }

theorem addedMask_widthAsked (p w now : Nat) (s : State) : addedMask (modPort p (widthAsked w now) s) p w = addedMask s p w := by
  have lanes : addedLanes (modPort p (widthAsked w now) s) p w = addedLanes s p w := by
    simp only [addedLanes, newLanes, portOf_modPort_self, widthAsked]
  rw [addedMask, lanes, addedMask]

section
variable {c : Cmd} {s : State} (runs : Runs 0x603 c s)
include runs

theorem exec_setPortWidth_absent (absent : portAbsent s (namedPort c) = true) :
    RepliesWith 0x603 c stDEGRADED [] (takeNumber c s) (exec (.setPortWidth c) s) :=
  ⟨_, congrArg Host.Outcome.next (kcpTake_of_body runs (if_pos absent))⟩

variable (there : portAbsent s (namedPort c) = false) (up : portUp s (namedPort c) = true)
  (apart : (portOf s (namedPort c)).width < namedWidth c → overlapsOther s (namedPort c) (namedWidth c) = false)
  (unchanged : (portOf s (namedPort c)).change = none) (atOnce : (portOf s (namedPort c)).backoffUntil = none)
  (steady : (portOf s (namedPort c)).widthChange = none)
include there up apart unchanged atOnce steady

theorem exec_setPortWidth_inForce (inForce : namedWidth c = (portOf s (namedPort c)).width) :
    RepliesWith 0x603 c stOK (widthResults s (namedPort c)) (takeNumber c s) (exec (.setPortWidth c) s) :=
  ⟨_, congrArg Host.Outcome.next (kcpTake_of_body runs ((if_neg (ne_true_of_eq_false there)).trans
    ((if_neg (width_allowed up apart)).trans ((if_neg (noChange_pending unchanged atOnce steady)).trans (if_pos inForce)))))⟩

theorem exec_setPortWidth_other (other : namedWidth c ≠ (portOf s (namedPort c)).width) :
    Waits 0x603 c (.width (namedPort c))
      (changeAsked (namedPort c) 1 (namedWidth c) (addedMask s (namedPort c) (namedWidth c)) (widthAsked (namedWidth c) (lmc s))
        (takeNumber c s)) (exec (.setPortWidth c) s) := by
  have mask : addedMask s (namedPort c) (namedWidth c) = _ := (addedMask_widthAsked _ _ (lmc s) (takeNumber c s)).symm
  rw [changeAsked, mask]
  exact ⟨_, congrArg Host.Outcome.next (kcpTake_of_body runs ((if_neg (ne_true_of_eq_false there)).trans
    ((if_neg (width_allowed up apart)).trans ((if_neg (noChange_pending unchanged atOnce steady)).trans (if_neg other)))))⟩

end

theorem claimPortsAreBroughtUp : ClaimPortsAreBroughtUp := by
  refine ⟨?bringUp, ?retrain, ?width⟩
  case bringUp =>
    intro c s runs
    refine ⟨exec_bringUpLink_absent runs, exec_bringUpLink_held runs, fun there free apart untested =>
      ⟨fun down ready => ?_, exec_bringUpLink_up runs there free apart untested⟩⟩
    have unbarred : sealEnable (broughtUp (namedPort c) (namedWidth c) (namedRate c) (takeNumber c s)) (namedPort c) = true →
        sealReady (broughtUp (namedPort c) (namedWidth c) (namedRate c) (takeNumber c s)) (namedPort c) = true := by
      rw [sealEnable_broughtUp, sealReady_broughtUp]
      exact ready
    obtain ⟨phase, ⟨tr, train, rate, lock, lanes, bringUp⟩, runsAt, fields, mem⟩ := startTraining_effect unbarred true
    have all := trainingLanes_broughtUp (r := namedRate c) (s := takeNumber c s) apart
    refine ⟨_, tr, exec_bringUpLink_down runs there free apart untested down ready, phase, ?_, ?_, train, rate, lock,
      lanes.trans all, bringUp, fun l inWidth => ?_, mem⟩
    · exact (congrArg (slotWidth _) (fields _ _ _ (by decide))).trans (portWidthCfg_broughtUp.trans (slotWidth_slotWidth ..))
    · exact (fields _ _ _ (by decide)).trans portMaxRate_broughtUp
    · obtain ⟨i, inRange, rfl⟩ := List.mem_map.mp inWidth
      exact runsAt i (all ▸ inRange)
  case retrain =>
    intro c s runs
    refine ⟨exec_retrainPort_absent runs, exec_retrainPort_held runs, fun there free => ⟨fun up unchanged atOnce steady => ?_,
      exec_retrainPort_lost runs there free, exec_retrainPort_off runs there free⟩⟩
    have isUp : portUp (takeNumber c s) (namedPort c) = true := portUp_iff.mpr (.inl up)
    obtain ⟨phase, change, -, out, mem⟩ := changeAsked_effect (p := namedPort c) (s := takeNumber c s)
      (f := fun x => { x with change := some (0, x.width, lmc s, 0) }) 0 (portOf s (namedPort c)).width 0 isUp
    exact ⟨_, exec_retrainPort_up runs there free up unchanged atOnce steady, phase, change, out, mem⟩
  case width =>
    intro c s runs
    refine ⟨exec_setPortWidth_absent runs, fun there up apart unchanged atOnce steady =>
      ⟨exec_setPortWidth_inForce runs there up apart unchanged atOnce steady, fun other => ?_⟩⟩
    obtain ⟨phase, change, width, out, mem⟩ := changeAsked_effect (p := namedPort c) (s := takeNumber c s)
      (f := widthAsked (namedWidth c) (lmc s)) 1 (namedWidth c) (addedMask s (namedPort c) (namedWidth c)) up
    exact ⟨_, exec_setPortWidth_other runs there up apart unchanged atOnce steady other, phase, change, width, out, mem⟩

/-! ### Lanes are tested (R347, R348) -/

/-- The lanes that RUN_LOOPBACK and RUN_PRBS name, the loop's mode, and the rate. -/
def testFirst (c : Cmd) : Nat := min 191 (pnum c.params 0 1)
def testCount (c : Cmd) : Nat := min (clampTo 1 4 (pnum c.params 1 1)) (4 - testFirst c % 4)
def testLanes (first count : Nat) : List Nat := (List.range count).map (first + ·)
def testLoop (op : Nat) (c : Cmd) : Option Nat := if op = 0x604 then some (min 2 (pbits c.params 2 0 2)) else none
def testRate (op : Nat) (c : Cmd) : Nat := if testLoop op c = some 2 then 1 else clampTo 1 4 (pbits c.params 2 2 3)

theorem mem_testLanes {first count l : Nat} : l ∈ testLanes first count ↔ first ≤ l ∧ l < first + count := by
  simp only [testLanes, List.mem_map, List.mem_range]
  exact ⟨fun ⟨i, _, at'⟩ => by omega, fun ⟨_, _⟩ => ⟨l - first, by omega, by omega⟩⟩

/-- Lanes are held for a test. -/
def heldForTest (lanes : List Nat) (loop : Option Nat) (rate : Nat) (s : State) : State :=
  lanes.foldl (fun s l => modLane l (fun x => { x with held := true, loop := loop, powered := true, rate := rate }) s) s

/-- A change of some lanes leaves the others. -/
theorem laneState_foldl_modLane_of_notMem {lanes : List Nat} {f : Nat → Lane → Lane} {l : Nat} (other : l ∉ lanes) (s : State) :
    laneState (lanes.foldl (fun s l => modLane l (f l) s) s) l = laneState s l :=
  List.foldlRecOn lanes _ (motive := fun u => laneState u l = laneState s l) rfl
    fun _ same _ mem => (laneState_modLane_ne _ _ (ne_of_mem_of_not_mem mem other).symm).trans same

theorem heldForTest_effect {lanes : List Nat} {l : Nat} (loop : Option Nat) (rate : Nat) (mem : l ∈ lanes) (s : State) :
    (laneState (heldForTest lanes loop rate s) l).held = true ∧ (laneState (heldForTest lanes loop rate s) l).rate = rate := by
  refine foldl_makes (b := l) (fun u => (laneState u l).held = true ∧ (laneState u l).rate = rate) (fun u => ?_)
    (fun u k _ taken => ?_) mem s
  · simp
  · by_cases same : l = k
    · simp [same]
    · rwa [laneState_modLane_ne _ _ same]

/-- No port uses the lanes of a test, and no other test or loop holds them. -/
def Idle (first count : Nat) (s : State) : Prop :=
  ∀ l, first ≤ l → l < first + count → portAbsent s (lanePort s l) = false ∧ portFree s (lanePort s l) = true ∧
    laneServes s l = false ∧ (laneState s l).held = false ∧ (laneState s l).farLoop = false

/-- What a test sends when it begins: it asks for its far-end loops, or its patterns leave the lanes. -/
def testSends (op : Nat) (c : Cmd) (s : State) : State :=
  if testLoop op c = some 2 then
    (testLanes (testFirst c) (testCount c)).foldl (fun s l => sendLoop l (clampTo 1 4 (pbits c.params 2 2 3)) true s) s
  else if testLoop op c = none then
    (testLanes (testFirst c) (testCount c)).foldl (fun s l => sendPattern l (clampTo 1 4 (pbits c.params 2 2 3))
      (pbits c.params 2 5 1 = 1) (clampTo 1 (if op = 0x604 then 1040000 else 16777216) (pnum c.params 4 4)) s) s
  else s

theorem testSends_frame (op : Nat) (c : Cmd) (s : State) : (testSends op c s).link.lanes = s.link.lanes ∧
    (testSends op c s).link.ports = s.link.ports ∧ (testSends op c s).mem = s.mem := by
  unfold testSends
  split
  · exact ⟨foldl_keeps (·.link.lanes) _ (by simp [sendLoop]) _ _, foldl_keeps (·.link.ports) _ (by simp [sendLoop]) _ _,
      foldl_keeps (·.mem) _ (by simp [sendLoop]) _ _⟩
  · split
    · exact ⟨foldl_keeps (·.link.lanes) _ (by intros; rfl) _ _, foldl_keeps (·.link.ports) _ (by intros; rfl) _ _,
        foldl_keeps (·.mem) _ (by intros; rfl) _ _⟩
    · exact ⟨rfl, rfl, rfl⟩

/-- The body of RUN_LOOPBACK and RUN_PRBS. -/
def testBody (op : Nat) (c : Cmd) (s : State) : Answer × State :=
  let lanes := testLanes (testFirst c) (testCount c)
  let dur := clampTo 1 (if op = 0x604 then 1040000 else 16777216) (pnum c.params 4 4)
  if lanes.any (fun l => portAbsent s (lanePort s l)) then (.done stDEGRADED [], s)
  else if lanes.any (laneServes s) then (.done stDENIED [], s)
  else if !lanes.all (fun l => portFree s (lanePort s l)) || lanes.any (fun l => (laneState s l).held || (laneState s l).farLoop) then
    (.done stBUSY [], s)
  else
    let t := testSends op c (heldForTest lanes (testLoop op c) (testRate op c) s)
    (.later (.test (testFirst c) (testCount c) (clampTo 1 4 (pbits c.params 2 2 3))
      (if testLoop op c = some 2 then lmc t + (watch - 1) else lmc t + dur) (testLoop op c) (pbits c.params 2 5 1 = 1) dur []), t)

theorem laneTest_eq (op : Nat) (c : Cmd) (s : State) : ∃ echo, laneTest op c s = kcpTake op c echo (testBody op c) s :=
  ⟨_, rfl⟩

/-- A test of idle lanes begins. -/
theorem testBody_of_idle {op : Nat} {c : Cmd} {s : State} (idle : Idle (testFirst c) (testCount c) s) :
    ∃ w, testBody op c s = (.later w, testSends op c
      (heldForTest (testLanes (testFirst c) (testCount c)) (testLoop op c) (testRate op c) s)) := by
  have each (l : Nat) (mem : l ∈ testLanes (testFirst c) (testCount c)) :=
    idle l (mem_testLanes.mp mem).1 (mem_testLanes.mp mem).2
  have there : ¬(testLanes (testFirst c) (testCount c)).any (fun l => portAbsent s (lanePort s l)) = true := by
    simpa using fun l mem => (each l mem).1
  have unserved : ¬(testLanes (testFirst c) (testCount c)).any (laneServes s) = true := by
    simpa using fun l mem => (each l mem).2.2.1
  have free : ¬(!(testLanes (testFirst c) (testCount c)).all (fun l => portFree s (lanePort s l)) ||
      (testLanes (testFirst c) (testCount c)).any (fun l => (laneState s l).held || (laneState s l).farLoop)) = true := by
    simpa using ⟨fun l mem => (each l mem).2.1, fun l mem => (each l mem).2.2.2⟩
  exact ⟨_, (if_neg there).trans ((if_neg unserved).trans (if_neg free))⟩

theorem laneTest_of_idle {op : Nat} {c : Cmd} {s : State} (runs : Runs op c s) (idle : Idle (testFirst c) (testCount c) s) :
    LanesTaken op (testFirst c) (testCount c) (testRate op c) c s (.next (laneTest op c s)) := by
  obtain ⟨echo, takes⟩ := laneTest_eq op c s
  obtain ⟨w, begins⟩ := testBody_of_idle (op := op) (s := takeNumber c s) idle
  generalize held : heldForTest _ (testLoop op c) (testRate op c) (takeNumber c s) = u at begins
  obtain ⟨lanes, ports, mem⟩ := testSends_frame op c u
  refine ⟨testSends op c u, w, ⟨echo, congrArg Host.Outcome.next (takes.trans (kcpTake_of_body runs begins))⟩, fun l low high => ?_,
    fun l out => ?_, ports.trans ?_, mem.trans ?_⟩
  · rw [laneState_congr lanes, ← held]
    exact heldForTest_effect _ _ (mem_testLanes.mpr ⟨low, high⟩) _
  · rw [laneState_congr lanes, ← held]
    exact laneState_foldl_modLane_of_notMem (fun mem => by have := mem_testLanes.mp mem; omega) _
  · exact held ▸ foldl_keeps (·.link.ports) _ (by simp) _ _
  · exact held ▸ foldl_keeps (·.mem) _ (by simp) _ _

/-! ### A test ends (R348) -/

@[simp] theorem testRecord_length (p13 : Bool) (received : List Bool) : (testRecord p13 received).length = 16 := by
  simp [testRecord, zeros]

theorem freeLanes_frame (first count rate : Nat) (loop : Option Nat) (s : State) :
    (freeLanes first count rate loop s).link.ports = s.link.ports ∧ (freeLanes first count rate loop s).kcp = s.kcp ∧
    (freeLanes first count rate loop s).mem = s.mem := by
  refine ⟨foldl_keeps (·.link.ports) _ (fun u l => ?_) _ _, foldl_keeps (·.kcp) _ (fun u l => ?_) _ _,
    foldl_keeps (·.mem) _ (fun u l => ?_) _ _⟩
  all_goals dsimp only; split <;> simp [sendLoop]

theorem freeLanes_held {first count l : Nat} (rate : Nat) (loop : Option Nat) (mem : l ∈ testLanes first count) (s : State) :
    (laneState (freeLanes first count rate loop s) l).held = false := by
  refine foldl_makes (b := l) (fun u => (laneState u l).held = false) (fun u => ?_) (fun u k _ free => ?_) mem s
  · simp
  · have sent : laneState (if loop = some 2 then sendLoop k rate false u else u) = laneState u := by
      split
      · exact laneState_congr (sendBlock_ground ..).2.1
      · rfl
    by_cases same : l = k
    · simp [same]
    · simpa [laneState_modLane_ne _ _ same, sent] using free

theorem testEnd_of_over {loop : Bool} {lane : Nat} {rx : List (List Bool)} {s : State} {r : Running}
    {first count rate deadline dur : Nat} {p13 : Bool} {lp : Option Nat} {granted : List Nat}
    (waits : r.wait = .test first count rate deadline lp p13 dur granted) (ended : deadline ≤ lmc s) (on : testOn s loop lane = some r) :
    TestOver r first count (fun i => testRecord p13 (if testBegun count lp granted then rx.getD i [] else [])) s
      (.next (testEnd loop lane rx s)) := by
  obtain ⟨ports, kcp, mem⟩ := freeLanes_frame first count rate lp s
  refine ⟨freeLanes first count rate lp s, ?_, fun i _ => testRecord_length .., fun l low high =>
    freeLanes_held rate lp (mem_testLanes.mpr ⟨low, high⟩) s, ports, kcp, mem⟩
  simp only [testEnd, on, waits, Nat.not_lt.mpr ended, if_false]

/-! ### LOOP blocks (R347) -/

section
variable {lane : Nat} {w : Blk} {b : TrainBlk} {s : State} (run : lanesRun s = true) (reads : readBlk typeLOOP w = some b)
  (unasked : testOn s true lane = none)
include run reads unasked

theorem exec_loopBlock_ends (ends : b.ready = false) :
    exec (.loopBlock lane w) s = .next (modLane lane (fun x => { x with farLoop := false }) s) := by
  simp only [exec, execLoopBlock, reads, run, unasked, ends, Bool.not_true, Bool.not_false, Bool.false_eq_true, if_false, if_true]

theorem exec_loopBlock_asks (asks : b.ready = true) (allowed : getField (portReg (lanePort s lane) 0) 25 0 s = 1)
    (free : portFree s (lanePort s lane) = true) (unserved : laneServes s lane = false) (unheld : (laneState s lane).held = false) :
    exec (.loopBlock lane w) s = .next (modLane lane (fun x => { x with farLoop := true, powered := true, rate := b.rate })
      (sendLoop lane b.rate true s)) := by
  simp only [exec, execLoopBlock, reads, run, unasked, asks, allowed, free, unserved, unheld, Bool.not_true, Bool.not_false,
    Bool.false_eq_true, if_false, decide_true, Bool.and_self, if_true]

end

theorem claimLanesAreTested : ClaimLanesAreTested := by
  refine ⟨fun c s runs idle => ?loopback, fun c s runs => laneTest_of_idle runs, ?ends, ?loop⟩
  case loopback =>
    have taken := laneTest_of_idle runs idle
    have rate : testRate 0x604 c = if 2 ≤ pbits c.params 2 0 2 then 1 else clampTo 1 4 (pbits c.params 2 2 3) := by
      have far : testLoop 0x604 c = some 2 ↔ 2 ≤ pbits c.params 2 0 2 := by simp [testLoop]
      simp only [testRate, far]
    exact rate ▸ taken
  case ends =>
    intro lane rx s r first count rate deadline dur p13 lp granted waits ended
    exact ⟨testEnd_of_over waits ended, testEnd_of_over waits ended⟩
  case loop =>
    intro lane w b s run reads unasked
    refine ⟨fun asks allowed free unserved unheld =>
        ⟨_, exec_loopBlock_asks run reads unasked asks allowed free unserved unheld, ?_, rfl⟩,
      fun ends => ⟨_, exec_loopBlock_ends run reads unasked ends, ?_, rfl⟩⟩ <;> simp

/-- Settles O53, from the commands over ports and from the tests of lanes. -/
theorem portAndLaneCommands : Obligations.PortAndLaneCommands := ⟨claimPortsAreBroughtUp, claimLanesAreTested⟩

/-! ### Counts of a lane's errors and the lane's port (R34, R349) -/

theorem getField_sat_self (off lo w n : Nat) (s : State) :
    getField off lo 0 (sat off lo w n s) = min (2 ^ w - 1) (getField off lo 0 s + n) := getField_setField_self ..

theorem getField_sat_other {off lo w n off' lo' r : Nat} {s : State} (other : fkey off' lo' ≠ fkey off lo) :
    getField off' lo' r (sat off lo w n s) = getField off' lo' r s := getField_setField_other other

/-- Where the ports and their configured widths are the same, the same lanes belong to each port and serve. -/
theorem lanePort_congr {s t : State} (ports : t.link.ports = s.link.ports)
    (width : ∀ p, getField (portReg p 0) 30 2 t = getField (portReg p 0) 30 2 s) :
    lanePort t = lanePort s ∧ laneInService t = laneInService s := by
  have whole : quadWhole t = quadWhole s := by
    funext q
    unfold quadWhole portWidthCfg
    rw [ports, width]
  have same : lanePort t = lanePort s := by
    funext l
    unfold lanePort
    rw [whole]
  have up : portUp t = portUp s := by
    funext p
    unfold portUp
    rw [ports]
  refine ⟨same, funext fun l => ?_⟩
  unfold laneInService portOf
  rw [same, up, ports]

theorem portWidth_sat (l lo w n p : Nat) (s : State) (other : lo % 32 ≠ 30 := by decide) :
    getField (portReg p 0) 30 2 (sat (laneErrReg l) lo w n s) = getField (portReg p 0) 30 2 s :=
  getField_sat_other (by simp only [fkey]; omega)

/-! ### Locks (R332, R333) -/

/-- A lane without a lock that it had, before its port is told: the loss is counted, and a VERIFY under way fails. -/
def lockGone (verifying : Bool) (l : Nat) (f : Lane → Lane) (s : State) : State :=
  let t := sat (laneErrReg l) 8 8 1 (modLane l (fun x => { f x with deskewed := false, farLoop := false, marker := none }) s)
  if verifying then modLane l (fun x => { x with failed := true }) t else t

theorem lockLost_eq (l : Nat) (f : Lane → Lane) (s : State) : ∃ verifying, lockLost l f s =
    if laneInService (lockGone verifying l f s) l then
      settleHome (linkLost (lanePort (lockGone verifying l f s) l) true (lockGone verifying l f s))
    else lockGone verifying l f s := ⟨_, rfl⟩

section
variable (verifying : Bool) (l : Nat) (f : Lane → Lane) (s : State)

theorem lockGone_frame : (lockGone verifying l f s).link.ports = s.link.ports ∧ (lockGone verifying l f s).mem = s.mem ∧
    (lockGone verifying l f s).fields = (sat (laneErrReg l) 8 8 1 s).fields := by
  unfold lockGone
  cases verifying <;> exact ⟨rfl, rfl, rfl⟩

theorem laneState_lockGone : ∃ failed, laneState (lockGone verifying l f s) l =
    { f (laneState s l) with deskewed := false, farLoop := false, marker := none, failed := failed } := by
  have counted : laneState (sat (laneErrReg l) 8 8 1
      (modLane l (fun x => { f x with deskewed := false, farLoop := false, marker := none }) s)) l =
      { f (laneState s l) with deskewed := false, farLoop := false, marker := none } := laneState_modLane_self ..
  unfold lockGone
  cases verifying with
  | false => exact ⟨_, counted⟩
  | true => exact ⟨true, by simp only [if_true, laneState_modLane_self, counted]⟩

theorem lanePort_lockGone : lanePort (lockGone verifying l f s) = lanePort s ∧
    laneInService (lockGone verifying l f s) = laneInService s := by
  obtain ⟨ports, -, fields⟩ := lockGone_frame verifying l f s
  exact lanePort_congr ports fun p => (congrArg (tget 2 · _) fields).trans (portWidth_sat ..)

end

theorem lockLost_of_outOfService {l : Nat} {s : State} (f : Lane → Lane) (idle : laneInService s l = false) :
    ∃ verifying, lockLost l f s = lockGone verifying l f s := by
  obtain ⟨verifying, lost⟩ := lockLost_eq l f s
  exact ⟨verifying, lost.trans (if_neg (by rw [(lanePort_lockGone ..).2, idle]; exact Bool.false_ne_true))⟩

theorem lockLost_of_inService {l : Nat} {s : State} (f : Lane → Lane) (serves : laneInService s l = true) :
    ∃ u, lockLost l f s = settleHome (linkLost (lanePort s l) true u) ∧ u.link.ports = s.link.ports := by
  obtain ⟨verifying, lost⟩ := lockLost_eq l f s
  refine ⟨_, lost.trans ((if_pos ?_).trans ?_), (lockGone_frame verifying l f s).1⟩
  · rw [(lanePort_lockGone ..).2, serves]
  · rw [(lanePort_lockGone ..).1]

/-- A lane without its codeword lock; of the uncorrectable codewords that ended it those not yet counted are counted. -/
def noCodewordLock (x : Lane) : Lane := { x with cwLock := false, blockLock := false, badRun := 0 }
def lossCounted (l : Nat) (s : State) : State := sat (laneErrReg l) 16 16 (8 - min 8 (laneState s l).badRun) s

section
variable {l : Nat} {s : State} (run : lanesRun s = true)
include run

theorem exec_codewordLockAcquired (powered : (laneState s l).powered = true) (untested : rawTest (laneState s l) = false) :
    exec (.codewordLockAcquired l) s = .next (modLane l (fun x => { x with cwLock := true, badRun := 0 }) s) :=
  congrArg Host.Outcome.next (if_pos (by simp [run, powered, untested]))

theorem exec_codewordLockLost (locked : (laneState s l).cwLock = true) : exec (.codewordLockLost l) s =
    .next (lockLost l noCodewordLock (lossCounted l s)) :=
  congrArg Host.Outcome.next (if_pos (by simp [run, locked]))

theorem exec_blockLockLost (locked : (laneState s l).blockLock = true) : exec (.blockLockLost l) s =
    .next (lockLost l (fun x => { x with blockLock := false }) s) :=
  congrArg Host.Outcome.next (if_pos (by simp [run, locked]))

/-- A block lock is found; in LOCK the receiver settles the lane's polarity too, by a free value. -/
theorem exec_blockLockAcquired (locked : (laneState s l).cwLock = true) :
    exec (.blockLockAcquired l) s = .next (modLane l (fun x => { x with blockLock := true }) s) ∨
    ∃ inverted, exec (.blockLockAcquired l) s = .next (modLane l (fun x => { x with polarityInv := inverted })
      (draw (modLane l (fun x => { x with blockLock := true }) s)).2) := by
  simp only [exec, execBlockLockAcquired, run, locked, Bool.not_true, Bool.or_self, Bool.false_eq_true, if_false]
  by_cases locking : (match trainingOf s l with
      | some (_, _, t) => t.phase == .lock
      | none => false) = true
  · exact .inr ⟨_, if_pos locking⟩
  · exact .inl (if_neg locking)

end

/-- The count leaves the lane with its port, and the port in service or not. -/
theorem lossCounted_service (l k : Nat) (s : State) :
    laneInService (lossCounted k s) l = laneInService s l ∧ lanePort (lossCounted k s) l = lanePort s l := by
  obtain ⟨port, serves⟩ := lanePort_congr (s := s) (t := lossCounted k s) rfl fun p => portWidth_sat k 16 16 _ p s
  exact ⟨congrFun serves l, congrFun port l⟩

/-! ### Markers (R332, R334) -/

section
variable (l : Nat) (ds : List (Option Nat)) (s : State)

theorem errors_countCodewords : getField (laneErrReg l) 16 0 (countCodewords l ds s) =
    min 0xFFFF (getField (laneErrReg l) 16 0 s + ds.countP (·.isNone)) := by
  have counted : getField (laneErrReg l) 16 0 (sat (laneErrReg l - 4) 0 32 (ds.map (·.getD 0)).sum s) =
      getField (laneErrReg l) 16 0 s := getField_sat_other (by simp only [fkey]; omega)
  rw [← counted]
  exact getField_sat_self ..

theorem blockLock_countCodewords : (laneState (countCodewords l ds s) l).blockLock = (laneState s l).blockLock :=
  laneState_modLane_of_blind (·.blockLock) l l _

theorem lanePort_countCodewords : lanePort (countCodewords l ds s) = lanePort s := by
  have counted : (countCodewords l ds s).fields = (sat (laneErrReg l) 16 16 (ds.countP (·.isNone))
      (sat (laneErrReg l - 4) 0 32 (ds.map (·.getD 0)).sum s)).fields := rfl
  refine (lanePort_congr (s := s) (t := countCodewords l ds s) rfl fun p => ?_).1
  rw [getField, counted, ← getField, portWidth_sat l 16 16, getField_sat_other (by simp only [fkey]; omega)]

end

section
variable {l place : Nat} {w : Blk} {ds : List (Option Nat)} {s : State} (run : lanesRun s = true)
  (locked : (laneState s l).cwLock = true)
include run locked

theorem exec_markerBlock_unread (unread : readMarker w = none) :
    exec (.markerBlock l w place ds) s = .next (countCodewords l ds s) := by
  simp only [exec, execMarkerBlock, run, locked, unread, Bool.not_true, Bool.or_self, Bool.false_eq_true, if_false]

theorem exec_markerBlock_read {c i : Nat} (reads : readMarker w = some (c, i)) (inBlocks : (laneState s l).blockLock = true)
    (named : l = laneId (lanePort s l) i) : exec (.markerBlock l w place ds) s = .next (alignLanes (lanePort s l) c
      (modLane l (fun x => { x with marker := some (c, place) }) (countCodewords l ds s))) := by
  have aligns : ((laneState (countCodewords l ds s) l).blockLock &&
      decide (l = laneId (lanePort s l) i)) = true := by
    rw [blockLock_countCodewords, inBlocks, ← named]
    simp
  simp only [exec, execMarkerBlock, run, locked, reads, Bool.not_true, Bool.or_self, Bool.false_eq_true, if_false,
    lanePort_countCodewords, aligns, if_true]

end

/-- A lane among those with a marker of a count has that marker at the place named. -/
theorem marker_of_mem_markedLanes {s : State} {p c : Nat} {m : Nat × Nat} (mem : m ∈ markedLanes s p c) :
    (laneState s m.1).marker = some (c, m.2) := by
  obtain ⟨i, -, found⟩ := List.mem_filterMap.mp mem
  dsimp only at found
  split at found
  · next c' place marked =>
    split at found
    · next same =>
      obtain ⟨same, -⟩ : c' = c ∧ _ := by simpa [and_assoc] using same
      obtain rfl := Option.some.inj found
      rw [marked, same]
    · cases found
  · cases found

/-- The earliest of some places, as the alignment takes it. -/
theorem foldl_min_headD {l : List Nat} {x : Nat} (mem : x ∈ l) :
    l.foldl min (l.headD 0) ∈ l ∧ ∀ y ∈ l, l.foldl min (l.headD 0) ≤ y := by
  cases l with
  | nil => cases mem
  | cons a l =>
    have least : (a :: l).min? = some ((a :: l).foldl min ((a :: l).headD 0)) := by
      rw [List.min?_cons', List.headD_cons, List.foldl_cons, min_self]
    exact List.min?_eq_some_iff.mp least

theorem alignLanes_effect {s : State} {p c : Nat} {m : Nat × Nat} (mem : m ∈ markedLanes s p c) :
    ∃ first, (∃ y ∈ markedLanes s p c, y.2 = first) ∧ (∀ y ∈ markedLanes s p c, first ≤ y.2) ∧
      (laneState (alignLanes p c s) m.1).skew = min 255 (m.2 - first) ∧
      (laneState (alignLanes p c s) m.1).deskewed = decide (m.2 - first ≤ 128) := by
  obtain ⟨among, least⟩ := foldl_min_headD (List.mem_map_of_mem (f := (·.2)) mem)
  refine ⟨_, List.mem_map.mp among, fun y hy => least _ (List.mem_map_of_mem hy), ?_⟩
  refine foldl_makes (b := m) (fun u => (laneState u m.1).skew = min 255 (m.2 - _) ∧
    (laneState u m.1).deskewed = decide (m.2 - _ ≤ 128)) (fun u => ?_) (fun u y hy aligned => ?_) mem s
  · simp
  · by_cases same : m.1 = y.1
    · have place : m.2 = y.2 := by
        have marked := marker_of_mem_markedLanes mem
        rw [same, marker_of_mem_markedLanes hy] at marked
        simpa using marked.symm
      simp [same, place]
    · rwa [laneState_modLane_ne _ _ same]

theorem claimLocksAreFoundAndLost : ClaimLocksAreFoundAndLost := by
  refine ⟨fun l s run => exec_codewordLockAcquired run, ?blockFound, ?codewordLost, ?blockLost, ?served, ?marker,
    fun p c s m => alignLanes_effect⟩
  case blockFound =>
    intro l s run locked
    rcases exec_blockLockAcquired run locked with found | ⟨inverted, found⟩
    · exact ⟨_, found, by simp, by simpa using locked, fun k other => laneState_modLane_ne _ _ other, rfl⟩
    · have drawn : laneState (draw (modLane l (fun x => { x with blockLock := true }) s)).2 =
        laneState (modLane l (fun x => { x with blockLock := true }) s) := rfl
      refine ⟨_, found, ?_, ?_, fun k other => ?_, rfl⟩
      · rw [laneState_modLane_self, drawn, laneState_modLane_self]
      · rw [laneState_modLane_self, drawn, laneState_modLane_self, locked]
      · rw [laneState_modLane_ne _ _ other, drawn, laneState_modLane_ne _ _ other]
  case codewordLost =>
    intro l s run locked idle
    obtain ⟨verifying, lost⟩ := lockLost_of_outOfService (s := lossCounted l s) noCodewordLock ((lossCounted_service ..).1.trans idle)
    refine ⟨_, (exec_codewordLockLost run locked).trans (congrArg _ lost), ?_⟩
    obtain ⟨failed, lane⟩ := laneState_lockGone verifying l noCodewordLock (lossCounted l s)
    obtain ⟨ports, mem, fields⟩ := lockGone_frame verifying l noCodewordLock (lossCounted l s)
    refine ⟨by rw [lane]; rfl, by rw [lane]; rfl, by rw [lane], ?_, ports, mem⟩
    rw [getField, fields, ← getField, getField_sat_other (by simp only [fkey]; omega), lossCounted, getField_sat_self]
    rfl
  case blockLost =>
    intro l s run locked idle
    obtain ⟨verifying, lost⟩ := lockLost_of_outOfService (fun x => { x with blockLock := false }) idle
    obtain ⟨failed, lane⟩ := laneState_lockGone verifying l (fun x => { x with blockLock := false }) s
    obtain ⟨ports, mem, -⟩ := lockGone_frame verifying l (fun x => { x with blockLock := false }) s
    exact ⟨_, (exec_blockLockLost run locked).trans (congrArg _ lost), by rw [lane], by rw [lane], ports, mem⟩
  case served =>
    intro l s run serves
    refine ⟨fun locked => ?_, fun locked => ?_⟩
    · obtain ⟨u, lost, ports⟩ := lockLost_of_inService (s := lossCounted l s) noCodewordLock ((lossCounted_service ..).1.trans serves)
      rw [(lossCounted_service ..).2] at lost
      exact ⟨u, (exec_codewordLockLost run locked).trans (congrArg _ lost), ports⟩
    · obtain ⟨u, lost, ports⟩ := lockLost_of_inService (fun x => { x with blockLock := false }) serves
      exact ⟨u, (exec_blockLockLost run locked).trans (congrArg _ lost), ports⟩
  case marker =>
    intro l place w ds s run locked
    exact ⟨errors_countCodewords .., exec_markerBlock_unread run locked, fun c i => exec_markerBlock_read run locked⟩

/-! ### TRAIN blocks (R336 to R339) -/

theorem exec_trainBlockReceived_idle {l : Nat} {w : Blk} (eye : Bool) (wants : Nat × Nat × Nat) {s : State}
    (idle : readBlk typeTRAIN w = none ∨ (laneState s l).powered = false) : exec (.trainBlockReceived l w eye wants) s = .next s := by
  rcases idle with unread | dark
  · simp only [exec, execTrainBlockReceived, unread, ite_self]
  · simp only [exec, execTrainBlockReceived, dark, Bool.not_false, Bool.or_true, if_true]

/-- The partner's requests move taps and nothing else, and this end's requests follow: the locks stand. -/
def tapsMoved (l : Nat) (b : TrainBlk) (wants : Nat × Nat × Nat) (s : State) : State := askTaps l b wants (applyTaps l b s)

theorem tapsMoved_ground (l : Nat) (b : TrainBlk) (wants : Nat × Nat × Nat) (s : State) :
    ground (tapsMoved l b wants s) = ground s :=
  (modLane_ground ..).1.trans (modLane_ground ..).1

theorem laneLocked_tapsMoved (l : Nat) (b : TrainBlk) (wants : Nat × Nat × Nat) (s : State) :
    laneLocked (tapsMoved l b wants s) = laneLocked s := by
  funext k
  exact congrArg₂ (· && ·)
    ((laneState_modLane_of_blind (·.cwLock) l k _).trans (laneState_modLane_of_blind (·.cwLock) l k s))
    ((laneState_modLane_of_blind (·.blockLock) l k _).trans (laneState_modLane_of_blind (·.blockLock) l k s))

theorem laneLocked_congr {s t : State} (lanes : t.link.lanes = s.link.lanes) : laneLocked t = laneLocked s := by
  unfold laneLocked
  rw [laneState_congr lanes]

theorem lanes_putTrain_sendTrain (p : Nat) (main : Bool) (x : Option Train) (t : Train) (phase : Nat) (s : State) :
    (putTrain p main x (sendTrain p t phase s)).link.lanes = s.link.lanes := (sendTrain_ground ..).2

/-- What a training has learned when LOCK is over: the lanes that are locked, and the partner's MAX_RATE. -/
def lockLearned (p : Nat) (t : Train) (b : TrainBlk) (s : State) : Train :=
  { t with lanes := t.lanes.filter (fun i => laneLocked s (laneId p i)), partnerMax := b.maxRate, run := 0, last := none }

/-- From `s` to `u` a port goes on to VERIFY with the lanes of a training that are locked, and with what the partner has told. -/
def EntersVerify (p : Nat) (t : Train) (b : TrainBlk) (s u : State) : Prop :=
  ∃ v, (portOf u p).phase = .verify ∧ (portOf u p).train = some v ∧ v.phase = .verify ∧
    v.lanes = t.lanes.filter (fun i => laneLocked s (laneId p i)) ∧ v.partnerMax = b.maxRate ∧ (portOf u p).partnerEid = b.eid ∧
    u.mem = s.mem

/-- At rate 1 a training goes from LOCK to VERIFY. -/
theorem lockDone_effect {t : Train} (p : Nat) (b : TrainBlk) (s : State) (slow : t.rate = 1) :
    EntersVerify p t b s (lockDone p true t b s) := by
  have ends : lockDone p true t b s = trainPhase p true (lockLearned p t b s) .verify
      (modPort p (fun x => { x with partnerEid := b.eid, partnerClass := b.cls, partnerMax := b.maxRate }) s) :=
    if_pos (by simp [slow])
  obtain ⟨n, k, m, port⟩ := portOf_trainPhase_self p (lockLearned p t b s) .verify
    (modPort p (fun x => { x with partnerEid := b.eid, partnerClass := b.cls, partnerMax := b.maxRate }) s)
  rw [portOf_modPort_self, ← ends] at port
  refine ⟨{ lockLearned p t b s with phase := .verify, since := n }, by rw [port], by rw [port], rfl, rfl, rfl, by rw [port], ?_⟩
  rw [ends, trainPhase_mem]
  rfl

section
variable {p : Nat} {t : Train} {b : TrainBlk} {s : State} (steady : t.stepTo = none) (inLock : t.phase = .lock)
  (same : t.last = some (blkKey b)) (often : 7 ≤ t.run) (locked : laneLocked s (laneId p t.lead) = true)
include steady inLock same often locked

/-- The eighth good TRAIN block on the lead lane ends LOCK. -/
theorem trainOn_lead (eye : Bool) (wants : Nat × Nat × Nat) : ∃ own partner,
    let t' := { t with readyOwn := own, readyPartner := partner }
    trainOn p true t t.lead b eye wants s = lockDone p true { t' with run := t.run + 1, last := some (blkKey b) } b
      (putTrain p true (some t') (sendTrain p t' 0 (tapsMoved (laneId p t.lead) b wants s))) := by
  have stillLocked (t' : Train) : laneLocked (putTrain p true (some t') (sendTrain p t' 0 (tapsMoved (laneId p t.lead) b wants s)))
      (laneId p t.lead) = true := by
    rw [laneLocked_congr (lanes_putTrain_sendTrain ..), laneLocked_tapsMoved, locked]
  have enough : 8 ≤ t.run + 1 := by omega
  simp only [trainOn, steady, inLock, same, Option.isSome_none, Bool.false_eq_true, if_false, bne_self_eq_false, if_true]
  exact ⟨_, _, if_pos (Bool.and_eq_true_iff.mpr ⟨decide_eq_true enough, stillLocked _⟩)⟩

theorem trainOn_lead_effect (slow : t.rate = 1) (eye : Bool) (wants : Nat × Nat × Nat) :
    EntersVerify p t b s (trainOn p true t t.lead b eye wants s) := by
  obtain ⟨own, partner, ends⟩ := trainOn_lead steady inLock same often locked eye wants
  dsimp only at ends ⊢
  rw [ends]
  obtain ⟨v, phase, train, inVerify, lanes, partnerMax, eid, mem⟩ := lockDone_effect
    (t := { t with readyOwn := own, readyPartner := partner, run := t.run + 1, last := some (blkKey b) }) p b
    (putTrain p true (some { t with readyOwn := own, readyPartner := partner })
      (sendTrain p { t with readyOwn := own, readyPartner := partner } 0 (tapsMoved (laneId p t.lead) b wants s))) slow
  rw [laneLocked_congr (lanes_putTrain_sendTrain ..), laneLocked_tapsMoved] at lanes
  refine ⟨v, phase, train, inVerify, lanes, partnerMax, eid, mem.trans ?_⟩
  exact (mem_of_ground (sendTrain_ground ..).1).trans (mem_of_ground (tapsMoved_ground ..))

end

/-- The lead lane of a training of the port itself passes the TRAIN block on. -/
theorem exec_trainBlockReceived_lead {l p : Nat} {w : Blk} {b : TrainBlk} {s : State} {t : Train} (run : lanesRun s = true)
    (reads : readBlk typeTRAIN w = some b) (powered : (laneState s l).powered = true) (trains : trainingOf s l = some (p, true, t))
    (lead : t.lead = l - portLane0 (lanePort s l)) (port : p = lanePort s l) (eye : Bool) (wants : Nat × Nat × Nat) :
    exec (.trainBlockReceived l w eye wants) s = .next (trainOn p true t t.lead b eye wants s) := by
  rw [lead, ← port]
  simp only [exec, execTrainBlockReceived, run, powered, reads, trains, Bool.not_true, Bool.or_self, Bool.false_eq_true, if_false]

/-! ### A port goes down (R339) -/

/-- A port that goes down enters OFF last, with no training and with its reason. -/
theorem portOff_eq (p reason : Nat) (s : State) : ∃ u, portOff p reason s = endHandling 3 p (enterPhase p .off u) ∧
    (portOf u p).train = none ∧ (portOf u p).failReason = reason ∧ u.mem = s.mem := by
  have dark (ls : List Nat) (f : Lane → Lane) (u : State) :
      (ls.foldl (fun s l => { s with link.lanes := tmod {} s.link.lanes l f }) u).link.ports = u.link.ports ∧
      (ls.foldl (fun s l => { s with link.lanes := tmod {} s.link.lanes l f }) u).mem = u.mem :=
    ⟨foldl_keeps (·.link.ports) _ (by intros; rfl) _ _, foldl_keeps (·.mem) _ (by intros; rfl) _ _⟩
  refine ⟨_, rfl, ?_, ?_, (dark ..).2⟩
  · rw [portOf_congr (dark ..).1, portOf_modPort_self]
  · rw [portOf_congr (dark ..).1, portOf_modPort_self, portOf_modPort_self]

theorem portOff_effect (p reason : Nat) (s : State) : (portOf (portOff p reason s) p).phase = .off ∧
    (portOf (portOff p reason s) p).train = none ∧ (portOf (portOff p reason s) p).failReason = reason ∧
    (portOff p reason s).mem = s.mem := by
  obtain ⟨u, off, train, why, mem⟩ := portOff_eq p reason s
  obtain ⟨k, m, port⟩ := portOf_enterPhase_self p .off u
  have ended : portOf (endHandling 3 p (enterPhase p .off u)) = portOf (enterPhase p .off u) := rfl
  rw [off, ended, port]
  exact ⟨rfl, train, why, (by simp : (endHandling 3 p (enterPhase p .off u)).mem = u.mem).trans mem⟩

/-! ### VERIFY ends (R340) -/

theorem portTraining_of_train {s : State} {p : Nat} {t : Train} (trains : (portOf s p).train = some t) :
    portTraining s p = some (true, t) := by
  unfold portTraining
  rw [trains]

/-- The lanes of a training that pass. -/
def passing (p : Nat) (t : Train) (s : State) : List Nat :=
  t.lanes.filter (fun i => lanePasses s p i t.rate (decide (t.lanes.length = 1)))

/-- Those that do not are counted, power down but for the lead lane, and are dropped. -/
def failingDropped (p : Nat) (t : Train) (s : State) : State :=
  let bad := t.lanes.filter (fun i => !(passing p t s).contains i)
  modPort p (fun x => { x with dropped := x.dropped ++ bad.filter (· != t.lead) })
    (bad.foldl (fun s i => if i = t.lead then sat (laneErrReg (laneId p i)) 0 8 1 s
      else laneOff (laneId p i) (sat (laneErrReg (laneId p i)) 0 8 1 s)) s)

/-- The training as it goes on after VERIFY. -/
def afterVerify (p : Nat) (t : Train) (s : State) : Train :=
  { t with lanes := t.lanes.filter (fun i => i == t.lead || (passing p t s).contains i),
           lanesOk := (passing p t s).foldl (fun m i => m + 2 ^ i) 0 }

section
variable {p : Nat} {s : State} {t : Train} (run : lanesRun s = true) (trains : (portOf s p).train = some t)
  (inVerify : t.phase = .verify) (due : t.since + 1024 ≤ lmc s)
include run trains inVerify due

theorem exec_verifyEnd_good (good : (passing p t s).contains t.lead = true) : exec (.verifyEnd p) s =
    .next (sendTrain p (afterVerify p t s) 2 (trainPhase p true (afterVerify p t s) .agree (failingDropped p t s))) := by
  have undone : ¬(!lanesRun s || t.phase != .verify || decide (lmc s < t.since + 1024)) = true := by
    simp [run, inVerify, due]
  simp only [exec, execVerifyEnd, portTraining_of_train trains, if_neg undone, Bool.and_true]
  exact if_neg (by rw [← passing, good]; simp)

theorem exec_verifyEnd_bad (bad : (passing p t s).contains t.lead = false) (slow : t.rate = 1) : exec (.verifyEnd p) s =
    .next (answerPort p (portOff p 2 (failingDropped p t s))) := by
  have undone : ¬(!lanesRun s || t.phase != .verify || decide (lmc s < t.since + 1024)) = true := by
    simp [run, inVerify, due]
  simp only [exec, execVerifyEnd, portTraining_of_train trains, if_neg undone, Bool.and_true]
  exact if_pos (by rw [← passing, bad, slow]; simp)

end

theorem failingDropped_effect (p : Nat) (t : Train) (s : State) : (portOf (failingDropped p t s) p).dropped =
      (portOf s p).dropped ++ (t.lanes.filter (fun i => !(passing p t s).contains i)).filter (· != t.lead) ∧
    (failingDropped p t s).mem = s.mem := by
  have counted (u : State) (i : Nat) : (if i = t.lead then sat (laneErrReg (laneId p i)) 0 8 1 u
      else laneOff (laneId p i) (sat (laneErrReg (laneId p i)) 0 8 1 u)).link.ports = u.link.ports ∧
      (if i = t.lead then sat (laneErrReg (laneId p i)) 0 8 1 u
        else laneOff (laneId p i) (sat (laneErrReg (laneId p i)) 0 8 1 u)).mem = u.mem := by
    split <;> exact ⟨rfl, rfl⟩
  constructor
  · rw [failingDropped, portOf_modPort_self, portOf_congr (foldl_keeps (·.link.ports) _ (fun u i => (counted u i).1) _ _)]
  · exact foldl_keeps (·.mem) _ (fun u i => (counted u i).2) _ _

theorem contains_passing {p i : Nat} {t : Train} {s : State} (mem : i ∈ t.lanes) :
    (passing p t s).contains i = lanePasses s p i t.rate (decide (t.lanes.length = 1)) := by
  rw [Bool.eq_iff_iff]
  simp [passing, mem]

/-- Lanes that pass, and the lead lane, go on; the others that fail are dropped. -/
theorem afterVerify_lanes (p : Nat) (t : Train) (s : State) : (afterVerify p t s).lanes =
    t.lanes.filter (fun i => i == t.lead || lanePasses s p i t.rate (decide (t.lanes.length = 1))) :=
  List.filter_congr fun i mem => by rw [contains_passing mem]

theorem failing_filter (p : Nat) (t : Train) (s : State) :
    (t.lanes.filter (fun i => !(passing p t s).contains i)).filter (· != t.lead) =
      t.lanes.filter (fun i => i != t.lead && !lanePasses s p i t.rate (decide (t.lanes.length = 1))) := by
  rw [List.filter_filter]
  exact List.filter_congr fun i mem => by rw [contains_passing mem]

section
variable {p : Nat} {s : State} {t : Train} (run : lanesRun s = true) (trains : (portOf s p).train = some t)
  (inVerify : t.phase = .verify) (due : t.since + 1024 ≤ lmc s) (leads : t.lanes.contains t.lead = true)
include run trains inVerify due leads

theorem verifyEnd_good (good : lanePasses s p t.lead t.rate (decide (t.lanes.length = 1)) = true) :
    ∃ u v, exec (.verifyEnd p) s = .next u ∧ (portOf u p).train = some v ∧ v.phase = .agree ∧ (portOf u p).phase = .agree ∧
      v.lanes = t.lanes.filter (fun i => i == t.lead || lanePasses s p i t.rate (decide (t.lanes.length = 1))) ∧
      (portOf u p).dropped = (portOf s p).dropped ++
        t.lanes.filter (fun i => i != t.lead && !lanePasses s p i t.rate (decide (t.lanes.length = 1))) ∧
      v.rate = t.rate ∧ u.mem = s.mem := by
  obtain ⟨n, k, m, port⟩ := portOf_trainPhase_self p (afterVerify p t s) .agree (failingDropped p t s)
  obtain ⟨dropped, mem⟩ := failingDropped_effect p t s
  have stands := (sendTrain_ground p (afterVerify p t s) 2 (trainPhase p true (afterVerify p t s) .agree (failingDropped p t s))).1
  refine ⟨_, { afterVerify p t s with phase := .agree, since := n }, exec_verifyEnd_good run trains inVerify due
    ((contains_passing (by simpa using leads)).trans good), ?_, rfl, ?_, afterVerify_lanes p t s, ?_, rfl, ?_⟩
  · rw [portOf_of_ground stands (·.train) p, port]
  · rw [portOf_of_ground stands (·.phase) p, port]
  · rw [portOf_of_ground stands (·.dropped) p, port]
    exact dropped.trans (congrArg _ (failing_filter p t s))
  · rw [mem_of_ground stands, trainPhase_mem, mem]

theorem verifyEnd_bad (bad : lanePasses s p t.lead t.rate (decide (t.lanes.length = 1)) = false) (slow : t.rate = 1) :
    ∃ u, exec (.verifyEnd p) s = .next u ∧ (portOf u p).phase = .off ∧ (portOf u p).train = none ∧
      (portOf u p).failReason = 2 ∧ u.mem = s.mem := by
  obtain ⟨phase, train, why, mem⟩ := portOff_effect p 2 (failingDropped p t s)
  have stands := answerPort_ground p (portOff p 2 (failingDropped p t s))
  refine ⟨_, exec_verifyEnd_bad run trains inVerify due ((contains_passing (by simpa using leads)).trans bad) slow, ?_, ?_, ?_, ?_⟩
  · rw [portOf_of_ground stands (·.phase) p, phase]
  · rw [portOf_of_ground stands (·.train) p, train]
  · rw [portOf_of_ground stands (·.failReason) p, why]
  · rw [mem_of_ground stands, mem, (failingDropped_effect p t s).2]

end

/-! ### Phases that reach their limit (R339, R341) -/

theorem exec_trainPhaseTimeout_due {p n : Nat} {main : Bool} {s : State} {t : Train} (run : lanesRun s = true)
    (trains : portTraining s p = some (main, t)) (limit : phaseLimit t = some n) (steady : t.stepTo = none) (due : n ≤ lmc s) :
    exec (.trainPhaseTimeout p) s = .next (if t.phase = .equalise then trainPhase p main t .verify s else fallBack p main t 1 s) := by
  have undone : ¬(!lanesRun s || t.stepTo.isSome || decide (lmc s < n)) = true := by simp [run, steady, due]
  simp only [exec, execTrainPhaseTimeout, trains, limit, if_neg undone]
  cases t.phase <;> rfl

/-! ### A rate begins (R337, R339) -/

/-- A training at its next or previous rate. -/
def atRate (r : Nat) (t : Train) : Train :=
  { t with rate := r, stepTo := none, run := 0, last := none, readyOwn := [], readyPartner := [] }

/-- Its lanes there, with the taps of the rate they leave saved. -/
def lanesStepped (p r : Nat) (t : Train) : State → State :=
  lanesAtRate p r t.fallback (fun x => { x with savedTaps := tset presetTaps x.savedTaps t.rate (x.pre, x.post) }) t.lanes

section
variable {p r since : Nat} {s : State} {t : Train} (trains : (portOf s p).train = some t) (steps : t.stepTo = some (r, since))
include trains steps

theorem exec_rateStep_early (early : lmc s < since + 16) : exec (.rateStep p) s = .next s := by
  simp only [exec, execRateStep, portTraining_of_train trains, steps, early, decide_true, Bool.or_true, if_true]

variable (run : lanesRun s = true)
include run

theorem exec_rateStep_due (due : since + 16 ≤ lmc s) : exec (.rateStep p) s =
    .next (sendTrain p (atRate r t) 0 (trainPhase p true (atRate r t) .lock (lanesStepped p r t s))) := by
  have undone : ¬(!lanesRun s || decide (lmc s < since + 16)) = true := by simp [run, due]
  simp only [exec, execRateStep, portTraining_of_train trains, steps, if_neg undone, if_true]
  rfl

theorem rateStep_effect (due : since + 16 ≤ lmc s) : ∃ u v, exec (.rateStep p) s = .next u ∧ (portOf u p).phase = .lock ∧
    (portOf u p).train = some v ∧ v.rate = r ∧ v.lanes = t.lanes ∧ v.stepTo = none ∧
    (∀ i ∈ t.lanes, (laneState u (laneId p i)).rate = r) ∧ u.mem = s.mem := by
  obtain ⟨n, k, m, port⟩ := portOf_trainPhase_self p (atRate r t) .lock (lanesStepped p r t s)
  obtain ⟨stands, lanes⟩ := sendTrain_ground p (atRate r t) 0 (trainPhase p true (atRate r t) .lock (lanesStepped p r t s))
  refine ⟨_, { atRate r t with phase := .lock, since := n }, exec_rateStep_due trains steps run due, ?_, ?_, rfl, rfl, rfl,
    fun i mem => ?_, ?_⟩
  · rw [portOf_of_ground stands (·.phase) p, port]
  · rw [portOf_of_ground stands (·.train) p, port]
  · rw [laneState_congr lanes, laneState_trainPhase p _ (by decide)]
    exact (lanesAtRate_runsAt mem s).2
  · rw [mem_of_ground stands, trainPhase_mem, lanesStepped, mem_of_ground (lanesAtRate_ground s)]

end

/-! ### A lost port trains by itself (R339, R493) -/

section
variable {p : Nat} {s : State}

theorem exec_autoRetrain_waits (waits : lmc s < (portOf s p).lostAt + 16 ∨ stopped s = true ∨ portFree s p = false) :
    exec (.autoRetrain p) s = .next s := by
  refine congrArg Host.Outcome.next (if_neg ?_)
  rcases waits with early | stops | held
  · simp [early]
  · simp [stops]
  · simp [held]

theorem exec_autoRetrain_due (run : lanesRun s = true) (lost : (portOf s p).phase = .lost)
    (auto : getField (portReg p 0) 26 0 s = 1) (due : (portOf s p).lostAt + 16 ≤ lmc s) (goes : stopped s = false)
    (free : portFree s p = true) : exec (.autoRetrain p) s = .next (startTraining p false s) :=
  congrArg Host.Outcome.next (if_pos (by
    simp only [run, lost, auto, due, goes, free, Bool.not_false, Bool.and_self, decide_true, beq_self_eq_true]))

end

theorem claimTrainingGoesOn : ClaimTrainingGoesOn := by
  refine ⟨fun l w eye wants s => exec_trainBlockReceived_idle eye wants, ?lead, ?verify,
    fun p n main s t => exec_trainPhaseTimeout_due, ?rate, ?auto⟩
  case lead =>
    intro l p w b eye wants s t run reads powered trains inLock lead steady lane port locked same often slow
    obtain ⟨v, effect⟩ := trainOn_lead_effect (p := p) steady inLock same often (lane ▸ locked) slow eye wants
    exact ⟨_, v, exec_trainBlockReceived_lead run reads powered trains lead port eye wants, effect⟩
  case verify =>
    intro p s t run trains inVerify due leads
    exact ⟨verifyEnd_good run trains inVerify due leads, verifyEnd_bad run trains inVerify due leads⟩
  case rate =>
    intro p r since s t run trains steps
    exact ⟨exec_rateStep_early trains steps, rateStep_effect trains steps run⟩
  case auto =>
    intro p s run lost auto
    exact ⟨exec_autoRetrain_waits, exec_autoRetrain_due run lost auto⟩

/-! ### CHANGE blocks (R344 to R346) -/

section
variable {p : Nat} {w : Blk} {b : TrainBlk} {s : State} {ch : Nat × Nat × Nat × Nat} (run : lanesRun s = true)
  (up : portUp s p = true) (reads : readBlk typeCHANGE w = some b)
include run up reads

theorem exec_changeBlock_partners (unasked : (portOf s p).change = none) (ready : b.ready = true) (own : Bool) :
    exec (.changeBlock p w own) s = .next (answerChange p b s) := by
  simp only [exec, execChangeBlock, reads, run, up, unasked, ready, Bool.not_true, Bool.or_self, Bool.false_eq_true, if_false, if_true]

variable (asked : (portOf s p).change = some ch) (atOnce : (portOf s p).backoffUntil = none)
include asked atOnce

theorem exec_changeBlock_answers : exec (.changeBlock p w false) s = .next (changeAnswered p ch b s) := by
  simp only [exec, execChangeBlock, reads, run, up, asked, atOnce, Bool.not_true, Bool.or_self, Bool.false_eq_true, if_false,
    Option.isSome_none, Bool.false_and]

theorem exec_changeBlock_meets (ready : b.ready = true) : exec (.changeBlock p w true) s = .next (meetChange p ch b s) := by
  simp only [exec, execChangeBlock, reads, run, up, asked, atOnce, ready, Bool.not_true, Bool.or_self, Bool.false_eq_true, if_false,
    Option.isSome_none, Bool.and_self, if_true]

end

section
variable {p : Nat} {ch : Nat × Nat × Nat × Nat} {b : TrainBlk} {s : State}

/-- An answer to the change that was asked for is followed, or ends it. -/
theorem changeAnswered_of_same (kind : b.kind = ch.1) (width : b.kind = 0 ∨ b.width = ch.2.1) : changeAnswered p ch b s =
    if b.ready then followChange p ch.1 ch.2.1 s else abandonChange p stDENIED s := by
  refine if_neg ?_
  rcases width with retrain | width
  · simp [← kind, retrain]
  · simp [kind, width]

/-- Of two changes that meet, that of the end with the lower EID goes on. -/
theorem meetChange_cases : (localEid s p < b.eid → meetChange p ch b s = s) ∧
    (b.eid < localEid s p → meetChange p ch b s = answerChange p b (abandonChange p stBUSY s)) ∧
    (b.eid = localEid s p → meetChange p ch b s = collide p ch s) :=
  ⟨fun lower => if_pos lower, fun higher => (if_neg (Nat.lt_asymm higher)).trans (if_pos higher),
   fun equal => (if_neg (Nat.not_lt.mpr (Nat.le_of_eq equal))).trans (if_neg (Nat.not_lt.mpr (Nat.le_of_eq equal.symm)))⟩

end

/-! ### A CHANGE that is not answered, or is sent again (R344, R346) -/

section
variable {p : Nat} {s : State} {ch : Nat × Nat × Nat × Nat} (run : lanesRun s = true) (asked : (portOf s p).change = some ch)
include run asked

theorem exec_changeAnswerTimeout_due (atOnce : (portOf s p).backoffUntil = none) (due : ch.2.2.1 + 64 ≤ lmc s) :
    exec (.changeAnswerTimeout p) s = .next (abandonChange p stBUSY s) := by
  simp only [exec, execChangeAnswerTimeout, asked, run, atOnce, due, Option.isNone_none, decide_true, Bool.and_self, if_true]

/-- A port whose CHANGE goes out again now. -/
def askedAgain (ch : Nat × Nat × Nat × Nat) (now : Nat) (x : Port) : Port :=
  { x with backoffUntil := none, change := some (ch.1, ch.2.1, now, ch.2.2.2) }

theorem exec_changeBackoff_due {u : Nat} (backsOff : (portOf s p).backoffUntil = some u) (due : u ≤ lmc s) :
    exec (.changeBackoff p) s = .next (sendChange p ch.1 ch.2.1 (if ch.1 = 1 then addedMask s p ch.2.1 else 0) true
      (modPort p (askedAgain ch (lmc s)) s)) := by
  simp only [exec, execChangeBackoff, asked, backsOff, run, due, decide_true, Bool.and_self, if_true]
  rfl

theorem changeBackoff_effect {u : Nat} (backsOff : (portOf s p).backoffUntil = some u) (due : u ≤ lmc s) :
    ∃ t, exec (.changeBackoff p) s = .next t ∧ (portOf t p).backoffUntil = none ∧
      (portOf t p).change = some (ch.1, ch.2.1, lmc s, ch.2.2.2) ∧
      t.out = .block (laneId p 0) (trainWord (changeBlk s p 0 ch.1 ch.2.1 (if ch.1 = 1 then addedMask s p ch.2.1 else 0)
        true)) :: s.out ∧ t.mem = s.mem := by
  obtain ⟨stands, out⟩ := sendChange_effect p ch.1 ch.2.1 (if ch.1 = 1 then addedMask s p ch.2.1 else 0) true
    (modPort p (askedAgain ch (lmc s)) s)
  have block : changeBlk (modPort p (askedAgain ch (lmc s)) s) p = changeBlk s p :=
    changeBlk_congr rfl (by rw [portOf_modPort_self]; rfl)
  refine ⟨_, exec_changeBackoff_due run asked backsOff due, ?_, ?_, ?_, ?_⟩
  · rw [portOf_of_ground stands (·.backoffUntil) p, portOf_modPort_self]; rfl
  · rw [portOf_of_ground stands (·.change) p, portOf_modPort_self]; rfl
  · rw [out, block]; rfl
  · exact (mem_of_ground stands).trans rfl

end

/-! ### Lanes that do not come (R345) -/

/-- Lanes of a port power down. -/
def lanesOff (p : Nat) (lanes : List Nat) (s : State) : State := lanes.foldl (fun s i => laneOff (laneId p i) s) s

theorem lanesOff_ground (p : Nat) (lanes : List Nat) (s : State) : ground (lanesOff p lanes s) = ground s ∧
    (lanesOff p lanes s).link.ports = s.link.ports :=
  ⟨foldl_keeps ground _ (by simp) _ _, foldl_keeps (·.link.ports) _ (by simp) _ _⟩

theorem lanesOff_powered {p i : Nat} {lanes : List Nat} (mem : i ∈ lanes) (s : State) :
    (laneState (lanesOff p lanes s) (laneId p i)).powered = false := by
  refine foldl_makes (b := i) (fun u => (laneState u (laneId p i)).powered = false) (fun u => ?_) (fun u k _ dark => ?_) mem s
  · simp [laneOff]
  · by_cases same : laneId p i = laneId p k
    · simp [laneOff, same]
    · rwa [laneOff, laneState_modLane_ne _ _ same]

theorem exec_newLanesTimeout_due {p w since : Nat} {s : State} (run : lanesRun s = true)
    (adding : (portOf s p).widthChange = some (.adding w since)) (due : since + 12288 ≤ lmc s) :
    ∃ t, exec (.newLanesTimeout p) s = .next (endChange p stDEGRADED (widthResults t p) t) ∧
      t = modPort p (fun x => { x with widthChange := none, aux := none }) (lanesOff p (addedLanes s p w) s) := by
  refine ⟨_, ?_, rfl⟩
  simp only [exec, execNewLanesTimeout, adding, run, due, decide_true, Bool.and_self, if_true]
  rfl

/-! ### The transmitter switches (R345) -/

/-- A port whose width change is over, with its shares' figure. -/
def widthSettled (p w : Nat) (s : State) : State :=
  let t := modPort p (fun x => { x with widthChange := none }) s
  if (portOf t p).shareBase != some (bookable w (portOf t p).rate) then
    modPort p (fun x => { x with shareBase := some (bookable w x.rate) }) t else t

theorem widthSettled_effect (p w : Nat) (s : State) : (portOf (widthSettled p w s) p).width = (portOf s p).width ∧
    (portOf (widthSettled p w s) p).widthChange = none ∧ (widthSettled p w s).mem = s.mem := by
  simp only [widthSettled]
  split <;> simp only [portOf_modPort_self, modPort_frame, and_self]

/-- A width change is over when the partner's switch has come on every old lane; the new width stays. -/
theorem settleWidth_effect {p w a old : Nat} {got : List Nat} {s : State}
    (switched : (portOf s p).widthChange = some (.switching w a old true got)) :
    (portOf (settleWidth p s) p).width = (portOf s p).width ∧
    (portOf (settleWidth p s) p).widthChange =
      (if (List.range (widthLanes old)).all got.contains then none else some (.switching w a old true got)) ∧
    (settleWidth p s).mem = s.mem := by
  by_cases all : (List.range (widthLanes old)).all got.contains = true
  · have settles : settleWidth p s = endChange p stOK (widthResults (widthSettled p w s) p) (widthSettled p w s) := by
      simp only [settleWidth, switched, all, Bool.not_true, Bool.false_eq_true, if_false]
      rfl
    obtain ⟨width, settled, mem⟩ := widthSettled_effect p w s
    have stands := endChange_ground p stOK (widthResults (widthSettled p w s) p) (widthSettled p w s)
    rw [settles, if_pos all, portOf_of_ground stands (·.width) p, portOf_of_ground stands (·.widthChange) p, mem_of_ground stands]
    exact ⟨width, settled, mem⟩
  · have stays : settleWidth p s = s := by
      simp only [settleWidth, switched, all, Bool.not_false, if_true]
    rw [stays, if_neg all]
    exact ⟨rfl, switched, rfl⟩

/-- What the switch sends, how the new lanes join and the old ones leave, before the port changes. -/
def lanesSwitched (p w : Nat) (s : State) : State :=
  let told := (List.range (widthLanes (portOf s p).width)).foldl (fun s i =>
    sendBlock (laneId p i) (trainWord (changeBlk s p i 1 w 0 false)) s) (fillRow p s)
  let joined := (newLanes told p w).foldl (fun s i => joinStream (laneId p 0) (laneId p i) s) told
  lanesOff p ((List.range (widthLanes (portOf s p).width)).filter (fun i => widthLanes w ≤ i)) joined

theorem lanesSwitched_ground (p w : Nat) (s : State) : ground (lanesSwitched p w s) = ground s := by
  refine (lanesOff_ground ..).1.trans ((foldl_keeps ground _ (by simp) _ _).trans ?_)
  exact (foldl_keeps ground _ (by simp) _ _).trans (fillRow_ground ..).1

/-- A port that stripes over its new width. -/
def widthInForce (w a old : Nat) (got : List Nat) (x : Port) : Port :=
  { x with width := w, lanesOk := onesMask (widthLanes w), tx := { x.tx with dealt := 0 },
           widthChange := some (.switching w a old true got) }

section
variable {p w a old : Nat} {got : List Nat} {s : State} (switching : (portOf s p).widthChange = some (.switching w a old false got))
include switching

theorem exec_widthSwitch_early (early : lmc s < a + 1025) : exec (.widthSwitch p) s = .next s := by
  simp only [exec, execWidthSwitch, switching, Nat.not_le.mpr early, decide_false, Bool.and_false, Bool.false_eq_true, if_false]

theorem exec_widthSwitch_due (run : lanesRun s = true) (due : a + 1025 ≤ lmc s) : exec (.widthSwitch p) s =
    .next (settleWidth p (modPort p (widthInForce w a old got) (lanesSwitched p w s))) := by
  simp only [exec, execWidthSwitch, switching, run, due, decide_true, Bool.and_self, if_true]
  rfl

theorem widthSwitch_effect (run : lanesRun s = true) (due : a + 1025 ≤ lmc s) : ∃ t, exec (.widthSwitch p) s = .next t ∧
    (portOf t p).width = w ∧ (portOf t p).widthChange = (if (List.range (widthLanes old)).all got.contains then none
      else some (.switching w a old true got)) ∧ t.mem = s.mem := by
  obtain ⟨width, change, mem⟩ := settleWidth_effect (p := p) (w := w) (a := a) (old := old) (got := got)
    (s := modPort p (widthInForce w a old got) (lanesSwitched p w s)) (by rw [portOf_modPort_self]; rfl)
  rw [portOf_modPort_self] at width
  have sent : (lanesSwitched p w s).mem = s.mem := mem_of_ground (lanesSwitched_ground p w s)
  exact ⟨_, exec_widthSwitch_due switching run due, width, change, mem.trans sent⟩

end

theorem claimChangesComeThrough : ClaimChangesComeThrough := by
  refine ⟨?asked, fun p w b own s run up reads unasked ready => exec_changeBlock_partners run up reads unasked ready own, ?answer,
    ?adding, ?switch⟩
  case asked =>
    intro p w b s ch run up reads asked atOnce
    refine ⟨fun kind width => ?_, fun ready => ?_⟩
    · rw [exec_changeBlock_answers run up reads asked atOnce, changeAnswered_of_same kind width]
      exact ⟨fun refused => by rw [refused]; rfl, fun ready => by rw [if_pos ready]⟩
    · obtain ⟨lower, higher, equal⟩ := meetChange_cases (p := p) (ch := ch) (b := b) (s := s)
      rw [exec_changeBlock_meets run up reads asked atOnce ready]
      exact ⟨fun l => congrArg _ (lower l), fun h => congrArg _ (higher h), fun e => congrArg _ (equal e)⟩
  case answer =>
    intro p s ch run asked
    exact ⟨exec_changeAnswerTimeout_due run asked, fun u => changeBackoff_effect run asked⟩
  case adding =>
    intro p w since s run adding due
    obtain ⟨stands, ports⟩ := lanesOff_ground p (addedLanes s p w) s
    have mem : (lanesOff p (addedLanes s p w) s).mem = s.mem := mem_of_ground stands
    obtain ⟨t, ends, rfl⟩ := exec_newLanesTimeout_due run adding due
    refine ⟨_, ends, ?_, ?_, fun i added => lanesOff_powered added s, mem⟩
    · rw [portOf_modPort_self]
    · rw [portOf_modPort_self, portOf_congr ports]
  case switch =>
    intro p w a old got s run switching
    exact ⟨exec_widthSwitch_early switching, widthSwitch_effect switching run⟩

/-- Settles O54, from the locks, the training and the changes of a port. -/
theorem lanesAndPortsFollowTheirEvents : Obligations.LanesAndPortsFollowTheirEvents :=
  ⟨claimLocksAreFoundAndLost, claimTrainingGoesOn, claimChangesComeThrough⟩

end Sys2Proof.Machine

/-! PROOFS. The link layer (section 11): what stands on a lane reads back, and flits are received, acknowledged and sent. -/
namespace Sys2Proof.Machine

/-! ### Fields of a word, side by side -/

theorem bits_eq_div_mod (x lo w : Nat) : bits x lo w = x / 2 ^ lo % 2 ^ w := by
  rw [bits, Nat.shiftRight_eq_div_pow]

theorem bits_lt (x lo w : Nat) : bits x lo w < 2 ^ w := Nat.mod_lt _ (Nat.two_pow_pos w)

/-- The bits that fields take side by side. -/
def fieldsWidth (l : List (Nat × Nat)) : Nat := (l.map (·.1)).sum

theorem fieldsWidth_cons (e : Nat × Nat) (l : List (Nat × Nat)) : fieldsWidth (e :: l) = e.1 + fieldsWidth l := List.sum_cons

theorem fieldsWidth_append (l m : List (Nat × Nat)) : fieldsWidth (l ++ m) = fieldsWidth l + fieldsWidth m := by
  simp [fieldsWidth]

theorem packFields_lt (l : List (Nat × Nat)) : packFields l < 2 ^ fieldsWidth l := by
  induction l with
  | nil => exact Nat.one_pos
  | cons e l ih =>
    obtain ⟨w, v⟩ := e
    calc v % 2 ^ w + 2 ^ w * packFields l < 2 ^ w + 2 ^ w * packFields l :=
          Nat.add_lt_add_right (Nat.mod_lt _ (Nat.two_pow_pos w)) _
      _ = 2 ^ w * (packFields l + 1) := by rw [Nat.mul_succ, Nat.add_comm]
      _ ≤ 2 ^ w * 2 ^ fieldsWidth l := Nat.mul_le_mul_left _ ih
      _ = 2 ^ fieldsWidth ((w, v) :: l) := by rw [fieldsWidth_cons, Nat.pow_add]

theorem packFields_append (l m : List (Nat × Nat)) :
    packFields (l ++ m) = packFields l + 2 ^ fieldsWidth l * packFields m := by
  induction l with
  | nil => simp [packFields, fieldsWidth]
  | cons e l ih =>
    rw [List.cons_append, packFields, packFields, ih, fieldsWidth_cons, Nat.pow_add]
    ring

theorem packFields_append_div {l : List (Nat × Nat)} {lo : Nat} (place : fieldsWidth l = lo) (m : List (Nat × Nat)) :
    packFields (l ++ m) / 2 ^ lo = packFields m := by
  rw [← place, packFields_append, Nat.add_mul_div_left _ _ (Nat.two_pow_pos _), Nat.div_eq_of_lt (packFields_lt l), Nat.zero_add]

theorem packFields_append_mod (l m : List (Nat × Nat)) : packFields (l ++ m) % 2 ^ fieldsWidth l = packFields l := by
  rw [packFields_append, Nat.add_mul_mod_self_left, Nat.mod_eq_of_lt (packFields_lt l)]

theorem packFields_cons_mod (w v : Nat) (l : List (Nat × Nat)) : packFields ((w, v) :: l) % 2 ^ w = v % 2 ^ w := by
  rw [packFields, Nat.add_mul_mod_self_left, Nat.mod_mod]

theorem ofNat_packFields_cons (w v : Nat) (l : List (Nat × Nat)) :
    BitVec.ofNat w (packFields ((w, v) :: l)) = BitVec.ofNat w v :=
  BitVec.eq_of_toNat_eq (by rw [BitVec.toNat_ofNat, BitVec.toNat_ofNat, packFields_cons_mod])

/-- A field reads back at its place. -/
theorem bits_packFields {l : List (Nat × Nat)} {lo : Nat} (place : fieldsWidth l = lo) (w v : Nat) (m : List (Nat × Nat)) :
    bits (packFields (l ++ (w, v) :: m)) lo w = v % 2 ^ w := by
  rw [bits_eq_div_mod, packFields_append_div place, packFields_cons_mod]

/-- All fields read back in turn, whatever stands above them. -/
theorem fieldsAt_packFields (l m : List (Nat × Nat)) :
    fieldsAt (packFields (l ++ m)) (l.map (·.1)) = l.map (fun e => e.2 % 2 ^ e.1) := by
  induction l with
  | nil => rfl
  | cons e l ih =>
    obtain ⟨w, v⟩ := e
    have above : packFields ((w, v) :: (l ++ m)) / 2 ^ w = packFields (l ++ m) := packFields_append_div (l := [(w, v)]) rfl _
    rw [List.cons_append, List.map_cons, List.map_cons, fieldsAt, packFields_cons_mod, above, ih]

theorem toNat_ofNat_packFields {n : Nat} {l : List (Nat × Nat)} (fits : fieldsWidth l ≤ n) :
    (BitVec.ofNat n (packFields l)).toNat = packFields l := by
  rw [BitVec.toNat_ofNat, Nat.mod_eq_of_lt ((packFields_lt l).trans_le (Nat.pow_le_pow_right Nat.two_pos fits))]

/-! ### Blocks with a CRC (R334, R336) -/

theorem crc8_lt (w : Nat) : crc8 w < 2 ^ 8 := by
  have step (c : Nat) (b : Bool) : crc8Step c b < 2 ^ 8 := by
    have low : c * 2 % 256 < 2 ^ 8 := Nat.mod_lt _ (by decide)
    unfold crc8Step
    dsimp only
    split
    · exact low
    · exact Nat.xor_lt_two_pow low (by decide)
  unfold crc8
  exact List.foldlRecOn (motive := (· < 2 ^ 8)) _ _ (by decide) fun c _ b _ => step c b

/-- The CRC is that of the 58 lowest bits. -/
theorem crc8_mod (w : Nat) : crc8 (w % 2 ^ 58) = crc8 w := by
  have same : bitsOf 56 (w % 2 ^ 58 / 2 ^ 2) = bitsOf 56 (w / 2 ^ 2) :=
    List.map_congr_left fun i low => by
      have lt : 2 + i < 58 := by
        have := List.mem_range.mp low
        omega
      rw [Nat.testBit_div_two_pow, Nat.testBit_div_two_pow, Nat.testBit_mod_two_pow, decide_eq_true (by omega), Bool.true_and]
  exact congrArg (List.foldl crc8Step 0) same

/-- Bits that no field takes are zero. -/
theorem crcBlock_append_zeros (type w : Nat) (fields : List (Nat × Nat)) :
    crcBlock type (fields ++ [(w, 0)]) = crcBlock type fields := by
  have same : packFields (fields ++ [(w, 0)]) = packFields fields := by simp [packFields_append, packFields]
  simp only [crcBlock, packFields, same]

/-- The fields of a control block up to its CRC: sync header, TYPE, and its own. -/
def controlFields (type : Nat) (fields : List (Nat × Nat)) : List (Nat × Nat) := (2, shControl) :: (8, type) :: fields

section
variable {type : Nat} {fields : List (Nat × Nat)} (full : fieldsWidth fields = 48)
include full

theorem controlFields_width : fieldsWidth (controlFields type fields) = 58 := by
  rw [controlFields, fieldsWidth_cons, fieldsWidth_cons, full]
  rfl

/-- On the wire the CRC is one more field. -/
theorem crcBlock_toNat : (crcBlock type fields).toNat =
    packFields (controlFields type fields ++ [(8, crc8 (packFields (controlFields type fields)))]) := by
  have width := controlFields_width (type := type) full
  have n : packFields (controlFields type fields) % 2 ^ 58 = packFields (controlFields type fields) :=
    Nat.mod_eq_of_lt (width ▸ packFields_lt _)
  have word : crcBlock type fields = BitVec.ofNat 66
      (packFields (controlFields type fields ++ [(8, crc8 (packFields (controlFields type fields)))])) := by
    have unpacked : crcBlock type fields = BitVec.ofNat 66 (packFields (controlFields type fields) % 2 ^ 58 +
      crc8 (packFields (controlFields type fields) % 2 ^ 58) * 2 ^ 58) := rfl
    rw [unpacked, n, packFields_append, width, packFields, packFields, Nat.mod_eq_of_lt (crc8_lt _)]
    ring_nf
  rw [word, toNat_ofNat_packFields]
  rw [fieldsWidth_append, width, fieldsWidth_cons]
  exact Nat.le_refl _

theorem crcHolds_crcBlock (known : type < 256) : crcHolds (crcBlock type fields) type = true := by
  have width := controlFields_width (type := type) full
  have crc : crc8 (crcBlock type fields).toNat = crc8 (packFields (controlFields type fields)) := by
    rw [← crc8_mod, crcBlock_toNat full, ← width, packFields_append_mod]
  have sync : bits (crcBlock type fields).toNat 0 2 = shControl := by
    rw [crcBlock_toNat full]
    exact bits_packFields (l := []) rfl 2 shControl _
  have typed : bits (crcBlock type fields).toNat 2 8 = type := by
    rw [crcBlock_toNat full]
    exact (bits_packFields (l := [(2, shControl)]) rfl 8 type _).trans (Nat.mod_eq_of_lt known)
  have told : bits (crcBlock type fields).toNat 58 8 = crc8 (crcBlock type fields).toNat := by
    rw [crc, crcBlock_toNat full, bits_packFields width, Nat.mod_eq_of_lt (crc8_lt _)]
  simp [crcHolds, isType, sync, typed, told]

theorem fieldsAt_crcBlock {l m : List (Nat × Nat)} (parts : fields = l ++ m) :
    fieldsAt ((crcBlock type fields).toNat / 2 ^ 10) (l.map (·.1)) = l.map (fun e => e.2 % 2 ^ e.1) := by
  have above : (crcBlock type fields).toNat / 2 ^ 10 =
      packFields (fields ++ [(8, crc8 (packFields (controlFields type fields)))]) := by
    rw [crcBlock_toNat full]
    exact packFields_append_div (l := [(2, shControl), (8, type)]) rfl _
  rw [above]
  generalize crc8 _ = c
  rw [parts, List.append_assoc, fieldsAt_packFields]

/-- A field of such a block reads back at its place. -/
theorem bits_crcBlock {l m : List (Nat × Nat)} {w v lo : Nat} (parts : fields = l ++ (w, v) :: m)
    (place : fieldsWidth (controlFields type l) = lo) : bits (crcBlock type fields).toNat lo w = v % 2 ^ w := by
  rw [crcBlock_toNat full]
  generalize crc8 _ = c
  have split : controlFields type fields ++ [(8, c)] = controlFields type l ++ (w, v) :: (m ++ [(8, c)]) := by
    simp [controlFields, parts]
  rw [split, bits_packFields place]

end

/-- The fields of a TRAIN, CHANGE or LOOP block. -/
def trainFields (b : TrainBlk) : List (Nat × Nat) := [(3, b.rate), (3, b.maxRate), (2, b.lane), (4, b.lanesOk), (2, b.width),
  (12, b.eid), (4, b.cls), (2, b.reqPre), (2, b.reqMain), (2, b.reqPost), (2, b.statPre), (2, b.statMain), (2, b.statPost),
  (1, b2n b.ready), (1, b.kind), (2, b.phase)]

theorem readBlk_trainWord (b : TrainBlk) (type : b.type < 256) (rate : b.rate < 8) (maxRate : b.maxRate < 8) (lane : b.lane < 4)
    (lanesOk : b.lanesOk < 16) (width : b.width < 4) (eid : b.eid < 4096) (cls : b.cls < 16) (reqPre : b.reqPre < 4)
    (reqMain : b.reqMain < 4) (reqPost : b.reqPost < 4) (statPre : b.statPre < 4) (statMain : b.statMain < 4)
    (statPost : b.statPost < 4) (kind : b.kind < 2) (phase : b.phase < 4) : readBlk b.type (trainWord b) = some b := by
  have word : trainWord b = crcBlock b.type (trainFields b ++ [(2, 0)]) := (crcBlock_append_zeros ..).symm
  have full : fieldsWidth (trainFields b ++ [(2, 0)]) = 48 := by simp [fieldsWidth, trainFields]
  have fits : (trainFields b).map (fun e => e.2 % 2 ^ e.1) = (trainFields b).map (·.2) := by
    have ready : b2n b.ready < 2 := by cases b.ready <;> decide
    simp only [trainFields, List.map_cons, List.map_nil, Nat.reducePow, Nat.mod_eq_of_lt, *]
  have read : fieldsAt ((trainWord b).toNat / 2 ^ 10) [3, 3, 2, 4, 2, 12, 4, 2, 2, 2, 2, 2, 2, 1, 1, 2] =
      (trainFields b).map (·.2) := by
    rw [word, ← fits]
    exact fieldsAt_crcBlock full rfl
  have ready : decide (b2n b.ready = 1) = b.ready := by cases b.ready <;> rfl
  rw [readBlk, word, crcHolds_crcBlock full type, ← word, read]
  simp only [trainFields, List.map_cons, List.map_nil, Bool.not_true, Bool.false_eq_true, if_false, ready]

theorem readMarker_markerWord {count lane : Nat} (counts : count < 256) (lanes : lane < 4) :
    readMarker (markerWord count lane) = some (count, lane) := by
  have holds : crcHolds (markerWord count lane) typeMARKER = true := crcHolds_crcBlock rfl (by decide)
  have counted : bits (markerWord count lane).toNat 10 8 = count :=
    (bits_crcBlock rfl (l := []) rfl rfl).trans (Nat.mod_eq_of_lt counts)
  have port : bits (markerWord count lane).toNat 18 2 = lane :=
    (bits_crcBlock rfl (l := [(8, count)]) rfl rfl).trans (Nat.mod_eq_of_lt lanes)
  rw [readMarker, if_pos holds, counted, port]

/-! ### Timing blocks (R353) -/

theorem pieceOf_lt (h sel : Nat) : pieceOf h sel < 2 ^ 12 := by
  unfold pieceOf
  split
  · exact (Nat.mod_lt _ (Nat.two_pow_pos 8)).trans (by decide)
  · exact Nat.mod_lt _ (Nat.two_pow_pos 12)

theorem timingWord_reads {st frac fmt sel : Nat} (states : st < 4) (fractions : frac < 256) (selects : sel < 4) :
    isType (timingWord st frac fmt sel) typeTIMING = true ∧ readTiming (timingWord st frac fmt sel) =
      { state := st, fraction := frac, fmtLo := fmt % 2 ^ 32, pieceSel := sel, piece := pieceOf (fmt / 2 ^ 32) sel } := by
  have word : (timingWord st frac fmt sel).toNat = packFields [(2, shControl), (8, typeTIMING), (2, st), (8, frac), (32, fmt),
      (2, sel), (12, pieceOf (fmt / 2 ^ 32) sel)] := toNat_ofNat_packFields (Nat.le_refl 66)
  have sync : bits (timingWord st frac fmt sel).toNat 0 2 = shControl := word ▸ bits_packFields (l := []) rfl ..
  have type : bits (timingWord st frac fmt sel).toNat 2 8 = typeTIMING := word ▸ bits_packFields (l := [_]) rfl ..
  have state : bits (timingWord st frac fmt sel).toNat 10 2 = st % 4 := word ▸ bits_packFields (l := [_, _]) rfl ..
  have fraction : bits (timingWord st frac fmt sel).toNat 12 8 = frac % 256 := word ▸ bits_packFields (l := [_, _, _]) rfl ..
  have low : bits (timingWord st frac fmt sel).toNat 20 32 = fmt % 2 ^ 32 := word ▸ bits_packFields (l := [_, _, _, _]) rfl ..
  have select : bits (timingWord st frac fmt sel).toNat 52 2 = sel % 4 := word ▸ bits_packFields (l := [_, _, _, _, _]) rfl ..
  have piece : bits (timingWord st frac fmt sel).toNat 54 12 = pieceOf (fmt / 2 ^ 32) sel % 2 ^ 12 :=
    word ▸ bits_packFields (l := [_, _, _, _, _, _]) rfl ..
  refine ⟨by rw [isType, sync, type]; rfl, ?_⟩
  rw [readTiming, state, fraction, low, select, piece, Nat.mod_eq_of_lt states, Nat.mod_eq_of_lt fractions,
    Nat.mod_eq_of_lt selects, Nat.mod_eq_of_lt (pieceOf_lt ..)]

/-! ### Flits as data blocks (R350, R352) -/

/-- Word `k` of a number, 64 bits a word, as a data block. -/
def dataBlock (n k : Nat) : Blk := BitVec.ofNat 66 (1 + 4 * (n / 2 ^ (64 * k) % 2 ^ 64))

theorem dataBlock_toNat (n k : Nat) : (dataBlock n k).toNat = 1 + 4 * (n / 2 ^ (64 * k) % 2 ^ 64) := by
  have word := Nat.mod_lt (n / 2 ^ (64 * k)) (Nat.two_pow_pos 64)
  rw [dataBlock, BitVec.toNat_ofNat, Nat.mod_eq_of_lt (by omega)]

/-- None of them is a control block. -/
theorem dataBlocks_dataBlock (n : Nat) (l : List Nat) : dataBlocks (l.map (dataBlock n)) = l.map (dataBlock n) := by
  refine List.filter_eq_self.mpr fun w mem => ?_
  obtain ⟨k, -, rfl⟩ := List.mem_map.mp mem
  have sync : bits (dataBlock n k).toNat 0 2 = 1 := by
    rw [dataBlock_toNat, bits_eq_div_mod, Nat.pow_zero, Nat.div_one]
    omega
  rw [sync]
  rfl

/-- Its words spell a number again. -/
theorem foldr_dataBlock (m n : Nat) : ((List.range m).map (dataBlock n)).foldr (fun w a => w.toNat / 4 + 2 ^ 64 * a) 0 =
    n % 2 ^ (64 * m) := by
  induction m generalizing n with
  | zero => exact (Nat.mod_one n).symm
  | succ m ih =>
    have shifted : (dataBlock n ∘ Nat.succ) = dataBlock (n / 2 ^ 64) := by
      funext k
      rw [Function.comp, dataBlock, dataBlock, Nat.div_div_eq_div_mul, ← Nat.pow_add, Nat.mul_succ, Nat.add_comm 64]
    have first : (dataBlock n 0).toNat / 4 = n % 2 ^ 64 := by
      rw [dataBlock_toNat, Nat.mul_zero, Nat.pow_zero, Nat.div_one]
      omega
    rw [List.range_succ_eq_map, List.map_cons, List.map_map, List.foldr_cons, shifted, ih, first, Nat.mul_succ,
      Nat.add_comm (64 * m), Nat.pow_add, Nat.mod_mul]

/-- A flit as one number: the body, then the trailer, then the CRC. -/
def flitNat (f : Flit) : Nat := f.body.toNat + 2 ^ 2048 * (trailer f + 2 ^ 32 * (f.crc % 2 ^ 32))

theorem flitBlocks_eq (f : Flit) : flitBlocks f = (List.range 33).map (dataBlock (flitNat f)) := rfl

theorem flitNat_eq_packFields (f : Flit) : flitNat f =
    packFields ([(2048, f.body.toNat)] ++ [(20, f.seq), (10, f.credN), (2, f.credVc), (32, f.crc)]) := by
  have upper : trailer f + 2 ^ 32 * (f.crc % 2 ^ 32) =
      packFields [(20, f.seq), (10, f.credN), (2, f.credVc), (32, f.crc)] := by
    simp only [trailer, packFields, seqMod]
    omega
  rw [List.singleton_append, packFields, flitNat, upper, Nat.mod_eq_of_lt f.body.isLt]

theorem flitNat_lt (f : Flit) : flitNat f < 2 ^ (64 * 33) := by
  have width : fieldsWidth ([(2048, f.body.toNat)] ++ [(20, f.seq), (10, f.credN), (2, f.credVc), (32, f.crc)]) = 64 * 33 :=
    rfl
  rw [flitNat_eq_packFields, ← width]
  exact packFields_lt _

theorem flitIn_flitBlocks {f : Flit} (seq : f.seq < 2 ^ 20) (credN : f.credN < 2 ^ 10) (credVc : f.credVc < 4)
    (crc : f.crc < 2 ^ 32) : flitIn (flitBlocks f) = some f := by
  have whole : (flitBlocks f).foldr (fun w a => w.toNat / 4 + 2 ^ 64 * a) 0 = flitNat f := by
    rw [flitBlocks_eq, foldr_dataBlock, Nat.mod_eq_of_lt (flitNat_lt f)]
  have above : flitNat f / 2 ^ 2048 = packFields [(20, f.seq), (10, f.credN), (2, f.credVc), (32, f.crc)] := by
    rw [flitNat_eq_packFields, packFields_append_div (lo := 2048) rfl]
  have seqs : bits (flitNat f / 2 ^ 2048) 0 20 = f.seq := above ▸ (bits_packFields (l := []) rfl ..).trans (Nat.mod_eq_of_lt seq)
  have counts : bits (flitNat f / 2 ^ 2048) 20 10 = f.credN :=
    above ▸ (bits_packFields (l := [_]) rfl ..).trans (Nat.mod_eq_of_lt credN)
  have channels : bits (flitNat f / 2 ^ 2048) 30 2 = f.credVc :=
    above ▸ (bits_packFields (l := [_, _]) rfl ..).trans (Nat.mod_eq_of_lt credVc)
  have crcs : bits (flitNat f / 2 ^ 2048) 32 32 = f.crc :=
    above ▸ (bits_packFields (l := [_, _, _]) rfl ..).trans (Nat.mod_eq_of_lt crc)
  have body : BitVec.ofNat 2048 (flitNat f) = f.body := by
    rw [flitNat_eq_packFields, List.singleton_append, ofNat_packFields_cons, BitVec.ofNat_toNat, BitVec.setWidth_eq]
  have data : dataBlocks (flitBlocks f) = flitBlocks f := dataBlocks_dataBlock ..
  have length : (flitBlocks f).length = 33 := by simp [flitBlocks_eq]
  simp only [flitIn, data, length, if_true, whole, seqs, counts, channels, crcs, body]

/-! ### The body of a link control flit (R355) -/

/-- Its fields before the runs of numbers asked for, and those of the runs. -/
def ctlHead (m : LinkCtl) : List (Nat × Nat) := [(20, m.ack), (12, 0), (20, m.nextSeq), (12, 0), (8, m.naks.length), (56, 0)]
def runFields (l : List (Nat × Nat)) : List (Nat × Nat) := l.flatMap (fun e => [(20, e.1), (8, e.2), (4, 0)])

theorem fieldsWidth_runFields (l : List (Nat × Nat)) : fieldsWidth (runFields l) = 32 * l.length := by
  induction l with
  | nil => rfl
  | cons e l ih =>
    have width : fieldsWidth (runFields (e :: l)) = 32 + fieldsWidth (runFields l) := fieldsWidth_append [_, _, _] _
    rw [width, ih, List.length_cons, Nat.mul_succ, Nat.add_comm]

/-- The fields of a run stand between those of the runs before it and of those after it. -/
theorem runFields_split {l : List (Nat × Nat)} {i : Nat} (lt : i < l.length) : runFields l =
    runFields (l.take i) ++ (20, l[i].1) :: (8, l[i].2) :: (4, 0) :: runFields (l.drop (i + 1)) := by
  have parts : l.take i ++ l[i] :: l.drop (i + 1) = l := by rw [← List.drop_eq_getElem_cons lt, List.take_append_drop]
  calc runFields l = runFields (l.take i ++ l[i] :: l.drop (i + 1)) := by rw [parts]
    _ = _ := List.flatMap_append

theorem ctlBody_toNat {m : LinkCtl} (few : m.naks.length ≤ 60) :
    (ctlBody m).toNat = packFields (ctlHead m ++ runFields m.naks) := by
  refine toNat_ofNat_packFields ?_
  rw [← ctlHead, ← runFields, fieldsWidth_append, fieldsWidth_runFields]
  change 128 + _ ≤ 2048
  omega

theorem bits_ctlBody_run {m : LinkCtl} (few : m.naks.length ≤ 60) {i : Nat} (lt : i < m.naks.length) :
    bits (ctlBody m).toNat (128 + 32 * i) 20 = m.naks[i].1 % 2 ^ 20 ∧
    bits (ctlBody m).toNat (148 + 32 * i) 8 = m.naks[i].2 % 2 ^ 8 := by
  have before : fieldsWidth (ctlHead m ++ runFields (m.naks.take i)) = 128 + 32 * i := by
    rw [fieldsWidth_append, fieldsWidth_runFields, List.length_take_of_le (Nat.le_of_lt lt)]
    rfl
  have beforeCount : fieldsWidth (ctlHead m ++ runFields (m.naks.take i) ++ [(20, m.naks[i].1)]) = 148 + 32 * i := by
    rw [fieldsWidth_append, before, fieldsWidth_cons]
    change 128 + 32 * i + 20 = _
    omega
  rw [ctlBody_toNat few, runFields_split lt, ← List.append_assoc]
  refine ⟨bits_packFields before .., ?_⟩
  rw [List.append_cons]
  exact bits_packFields beforeCount ..

theorem ctlOf_ctlBody {m : LinkCtl} (ack : m.ack < 2 ^ 20) (nextSeq : m.nextSeq < 2 ^ 20) (few : m.naks.length ≤ 60)
    (runs : ∀ e ∈ m.naks, e.1 < 2 ^ 20 ∧ e.2 < 2 ^ 8) : ctlOf (ctlBody m) = m := by
  have word := ctlBody_toNat few
  have acks : bits (ctlBody m).toNat 0 20 = m.ack := word ▸ (bits_packFields (l := []) rfl ..).trans (Nat.mod_eq_of_lt ack)
  have nexts : bits (ctlBody m).toNat 32 20 = m.nextSeq :=
    word ▸ (bits_packFields (l := [_, _]) rfl ..).trans (Nat.mod_eq_of_lt nextSeq)
  have count : bits (ctlBody m).toNat 64 8 = m.naks.length :=
    word ▸ (bits_packFields (l := [_, _, _, _]) rfl ..).trans (Nat.mod_eq_of_lt (by omega))
  have naks : (List.range m.naks.length).map (fun i => (bits (ctlBody m).toNat (128 + 32 * i) 20,
      bits (ctlBody m).toNat (148 + 32 * i) 8)) = m.naks := by
    refine List.ext_getElem (by simp) fun i lt lt' => ?_
    obtain ⟨number, length⟩ := runs _ (List.getElem_mem lt')
    obtain ⟨first, second⟩ := bits_ctlBody_run few lt'
    rw [List.getElem_map, List.getElem_range, first, second, Nat.mod_eq_of_lt number, Nat.mod_eq_of_lt length]
  simp only [ctlOf, acks, nexts, count, Nat.min_eq_right few, naks]

theorem claimBlocksReadBack : ClaimBlocksReadBack :=
  ⟨readBlk_trainWord, fun _ _ => readMarker_markerWord, fun _ _ _ _ => timingWord_reads, fun _ => flitIn_flitBlocks,
    fun _ => ctlOf_ctlBody⟩

/-! ### The two sides of a port -/

@[simp] theorem portOf_modTx_self (p : Nat) (f : TxSt → TxSt) (s : State) :
    portOf (modTx p f s) p = { portOf s p with tx := f (portOf s p).tx } := portOf_modPort_self ..

@[simp] theorem portOf_modRx_self (p : Nat) (f : RxSt → RxSt) (s : State) :
    portOf (modRx p f s) p = { portOf s p with rx := f (portOf s p).rx } := portOf_modPort_self ..

/-! ### Missing numbers are asked for (R358) -/

/-- Of some numbers those that are neither held nor asked for. -/
def unasked (r : RxSt) (ns : List Nat) : List Nat :=
  ns.filter (fun n => !r.asked.any (fun a => a.1 == n) && !r.splice.any (fun f => f.seq == n))

section
variable (p : Nat) (ns : List Nat) (s : State)

@[simp] theorem markMissing_frame : (markMissing p ns s).mem = s.mem ∧ (markMissing p ns s).kcp = s.kcp := by
  unfold markMissing
  dsimp only
  split <;> simp

theorem portOf_markMissing : ∃ due, portOf (markMissing p ns s) p =
    { portOf s p with
      rx := { (portOf s p).rx with asked := (portOf s p).rx.asked ++ (unasked (portOf s p).rx ns).map (fun n => (n, lmc s)),
                                   nakDue := (portOf s p).rx.nakDue ++ unasked (portOf s p).rx ns },
      tx := { (portOf s p).tx with ctlDue := due } } := by
  by_cases none : unasked (portOf s p).rx ns = []
  · have same : markMissing p ns s = s := if_pos none
    exact ⟨(portOf s p).tx.ctlDue, by rw [same, none]; simp⟩
  · have asks : markMissing p ns s = modTx p (fun t => { t with ctlDue := true }) (modRx p (fun r => { r with
        asked := r.asked ++ (unasked (portOf s p).rx ns).map (fun n => (n, lmc s)),
        nakDue := r.nakDue ++ unasked (portOf s p).rx ns }) s) := if_neg none
    exact ⟨true, by rw [asks, portOf_modTx_self, portOf_modRx_self]⟩

end

/-- After that each of them is held or asked for. -/
theorem markMissing_asks {p n : Nat} {ns : List Nat} {s : State} (mem : n ∈ ns) :
    (portOf (markMissing p ns s) p).rx.splice.any (fun g => g.seq == n) = true ∨
    (portOf (markMissing p ns s) p).rx.asked.any (fun a => a.1 == n) = true := by
  obtain ⟨due, port⟩ := portOf_markMissing p ns s
  rw [port]
  by_cases missing : n ∈ unasked (portOf s p).rx ns
  · exact .inr (List.any_eq_true.mpr ⟨(n, lmc s), List.mem_append_right _ (List.mem_map_of_mem missing), beq_self_eq_true n⟩)
  · have known : (portOf s p).rx.asked.any (fun a => a.1 == n) = true ∨
        (portOf s p).rx.splice.any (fun f => f.seq == n) = true := by
      simpa only [unasked, List.mem_filter, mem, true_and, ← Bool.not_or, Bool.not_eq_true', Bool.not_eq_false,
        Bool.or_eq_true] using missing
    refine known.elim (fun asked => .inr ?_) .inl
    rw [List.any_append, asked, Bool.true_or]

/-! ### A flit arrives at its port (R351, R357) -/

theorem flitIn_seq_lt {ws : List Blk} {f : Flit} (came : flitIn ws = some f) : f.seq < seqMod := by
  unfold flitIn at came
  dsimp only at came
  split at came
  · cases came
    exact bits_lt _ 0 20
  · cases came

theorem ahead_self {n : Nat} (lt : n < seqMod) : ahead n n = 0 := by
  rw [ahead, Nat.mod_eq_of_lt lt, Nat.add_sub_cancel_left, Nat.mod_self]

section
variable {p : Nat} {s : State} (runs : linkRuns s p = true)
include runs

theorem exec_badFlit : exec (.badFlit p) s = .next (sat (portReg p 0x14) 16 16 1 s) := congrArg Host.Outcome.next (if_pos runs)

theorem exec_linkCtlFlit (m : LinkCtl) : exec (.linkCtlFlit p m) s = .next (linkControl p m s) :=
  congrArg Host.Outcome.next (if_pos runs)

section
variable {ws : List Blk} {f : Flit} (came : flitIn ws = some f)
include came

theorem exec_sequencedFlit_bad (bad : kindOf f = none) : exec (.sequencedFlit p ws) s = exec (.badFlit p) s := by
  rw [exec_badFlit runs]
  simp only [exec, execSequencedFlit, came, runs, bad, Bool.not_true, Bool.false_eq_true, if_false]

theorem exec_sequencedFlit_linkCtl (control : kindOf f = some .linkCtl) :
    exec (.sequencedFlit p ws) s = exec (.linkCtlFlit p (ctlOf f.body)) s := by
  rw [exec_linkCtlFlit runs]
  simp only [exec, execSequencedFlit, came, runs, control, Bool.not_true, Bool.false_eq_true, if_false]

theorem exec_sequencedFlit {k : FlitKind} (kind : kindOf f = some k) (other : k ≠ .linkCtl) (alive : s.err.fatal = false) :
    exec (.sequencedFlit p ws) s = .next (sequenced p f s) := by
  cases k with
  | linkCtl => exact absurd rfl other
  | packet | abort | sealTag =>
    simp only [exec, execSequencedFlit, came, runs, kind, alive, Bool.not_true, Bool.false_eq_true, if_false]

end

theorem exec_abortFlit {seq : Nat} (lt : seq < seqMod) (alive : s.err.fatal = false) :
    exec (.abortFlit p seq) s = .next (sequenced p (mkFlit .abort seq 0 0 0) s) := by
  simp only [exec, execAbortFlit, runs, alive, Nat.mod_eq_of_lt lt, Bool.not_false, Bool.and_self, if_true]

end

theorem sequenced_of_useless {p : Nat} {f : Flit} {s : State} (useless : 511 < ahead (portOf s p).rx.expect f.seq ∨
    (portOf s p).rx.splice.any (fun g => g.seq == f.seq) = true) : sequenced p f s = sat (portReg p 0x18) 16 16 1 s :=
  if_pos (by simpa using useless)

/-- A flit is held in the splice buffer; it is missing no more. -/
def spliced (p : Nat) (f : Flit) (s : State) : State :=
  modRx p (fun r => { r with splice := r.splice ++ [f], asked := r.asked.filter (fun a => a.1 != f.seq),
                             nakDue := r.nakDue.filter (· != f.seq) }) s

/-- The numbers between the next one expected and that of a flit. -/
def gapBefore (p : Nat) (f : Flit) (s : State) : List Nat :=
  (List.range (ahead (portOf s p).rx.expect f.seq)).map (fun i => ((portOf s p).rx.expect + i) % seqMod)

theorem sequenced_of_useful {p : Nat} {f : Flit} {s : State} (near : ahead (portOf s p).rx.expect f.seq ≤ 511)
    (new : (portOf s p).rx.splice.any (fun g => g.seq == f.seq) = false) (unsealed : (portOf s p).sealActive = false) :
    sequenced p f s = drainSplice p 512 (markMissing p (gapBefore p f s) (spliced p f s)) := by
  simp only [sequenced, new, unsealed, Nat.not_lt.mpr near, decide_false, Bool.or_self, Bool.false_eq_true, if_false]
  rfl

/-! ### Acceptance in order (R357, R364) -/

theorem drainSplice_of_gap {p : Nat} {s : State}
    (gap : (portOf s p).rx.splice.find? (fun f => f.seq == (portOf s p).rx.expect) = none) (n : Nat) : drainSplice p n s = s := by
  cases n with
  | zero => rfl
  | succ n => simp only [drainSplice, gap]

theorem drainSplice_of_next {p : Nat} {s : State} {f : Flit} {k : FlitKind}
    (next : (portOf s p).rx.splice.find? (fun f => f.seq == (portOf s p).rx.expect) = some f) (kind : kindOf f = some k)
    (n : Nat) : drainSplice p (n + 1) s = drainSplice p n (acceptFlit p k f s) := by
  simp only [drainSplice, next, kind, Option.getD_some]

/-- What every flit accepted in order does: it brings its credit, and the next number is expected. -/
def counted (p : Nat) (f : Flit) (s : State) : State :=
  let s := if f.credVc = 0 then s else modTx p (fun t =>
    { t with credits := vcAdd (f.credVc - 1) f.credN t.credits,
             granted := if (portOf s p).rx.grants < 3 then vcAdd (f.credVc - 1) f.credN t.granted else t.granted }) s
  modPort p (fun x =>
    let e := (x.rx.expect + 1) % seqMod
    let r : RxSt := { x.rx with expect := e, splice := x.rx.splice.filter (fun g => g.seq != f.seq),
                                asked := x.rx.asked.filter (fun a => a.1 != f.seq), nakDue := x.rx.nakDue.filter (· != f.seq),
                                ackedAt := if x.rx.unacked = 0 then lmc s else x.rx.ackedAt, unacked := x.rx.unacked + 1 }
    { x with rx := r, wrapsRx := if e = 0 then x.wrapsRx + 1 else x.wrapsRx,
             tx := { x.tx with ctlDue := x.tx.ctlDue || 32 ≤ r.unacked } }) s

theorem acceptFlit_packet (p : Nat) (f : Flit) (s : State) : acceptFlit p .packet f s = packetFlit p f.body (counted p f s) := rfl

theorem acceptFlit_abort (p : Nat) (f : Flit) (s : State) : acceptFlit p .abort f s = abortPacket p (counted p f s) := rfl

section
variable (p : Nat) (f : Flit) (s : State)

@[simp] theorem counted_frame :
    (counted p f s).mem = s.mem ∧ (counted p f s).kcp = s.kcp ∧ (counted p f s).fields = s.fields := by
  unfold counted
  dsimp only
  split <;> exact ⟨rfl, rfl, rfl⟩

theorem portOf_counted : (portOf (counted p f s) p).rx.expect = ((portOf s p).rx.expect + 1) % seqMod ∧
    (portOf (counted p f s) p).rx.splice = (portOf s p).rx.splice.filter (fun g => g.seq != f.seq) ∧
    (portOf (counted p f s) p).rx.partialPkt = (portOf s p).rx.partialPkt ∧
    (portOf (counted p f s) p).rx.head = (portOf s p).rx.head ∧ (portOf (counted p f s) p).rx.owed = (portOf s p).rx.owed ∧
    (portOf (counted p f s) p).tx.credits = if f.credVc = 0 then (portOf s p).tx.credits
      else vcAdd (f.credVc - 1) f.credN (portOf s p).tx.credits := by
  unfold counted
  dsimp only
  rw [portOf_modPort_self]
  split
  · exact ⟨rfl, rfl, rfl, rfl, rfl, rfl⟩
  · rw [portOf_modTx_self]
    exact ⟨rfl, rfl, rfl, rfl, rfl, rfl⟩

end

section
variable {p : Nat} {f : Flit} {s : State} (empty : (portOf s p).rx.splice = []) (inOrder : f.seq = (portOf s p).rx.expect)
include empty inOrder

/-- With an empty splice buffer the next flit is accepted, and nothing else, where its acceptance puts nothing there. -/
theorem sequenced_in_order (unsealed : (portOf s p).sealActive = false) (lt : f.seq < seqMod) {k : FlitKind}
    (kind : kindOf f = some k) (alone : (portOf (acceptFlit p k f (spliced p f s)) p).rx.splice = []) :
    sequenced p f s = acceptFlit p k f (spliced p f s) := by
  have near : ahead (portOf s p).rx.expect f.seq = 0 := by rw [← inOrder, ahead_self lt]
  have noGap : markMissing p (gapBefore p f s) (spliced p f s) = spliced p f s := by
    rw [gapBefore, near]
    rfl
  have next : (portOf (spliced p f s) p).rx.splice.find? (fun g => g.seq == (portOf (spliced p f s) p).rx.expect) = some f := by
    simp [spliced, empty, inOrder]
  rw [sequenced_of_useful (near ▸ Nat.zero_le 511) (by rw [empty]; rfl) unsealed, noGap]
  exact (drainSplice_of_next next kind 511).trans (drainSplice_of_gap (by rw [alone]; rfl) 511)

/-- The port as the packet that the flit belongs to finds it. -/
theorem portOf_counted_spliced : (portOf (counted p f (spliced p f s)) p).rx.expect = (f.seq + 1) % seqMod ∧
    (portOf (counted p f (spliced p f s)) p).rx.splice = [] ∧
    (portOf (counted p f (spliced p f s)) p).rx.partialPkt = (portOf s p).rx.partialPkt ∧
    (portOf (counted p f (spliced p f s)) p).rx.head = (portOf s p).rx.head ∧
    (portOf (counted p f (spliced p f s)) p).rx.owed = (portOf s p).rx.owed ∧
    (portOf (counted p f (spliced p f s)) p).tx.credits = if f.credVc = 0 then (portOf s p).tx.credits
      else vcAdd (f.credVc - 1) f.credN (portOf s p).tx.credits := by
  obtain ⟨expect, splice, bodies, head, owed, credits⟩ := portOf_counted p f (spliced p f s)
  rw [expect, splice, bodies, head, owed, credits, spliced, portOf_modRx_self, empty]
  simp [inOrder]

end

/-- A flit that is not the last of its packet joins those before it. -/
theorem packetFlit_joins {p : Nat} {b body : FlitBody} {l : List FlitBody} {s : State}
    (held : (portOf s p).rx.partialPkt = b :: l)
    (more : (b :: l).length + 1 < pktFlits (pktOf (b :: l ++ [body])).1.granules) :
    packetFlit p body s = modRx p (fun r => { r with partialPkt := b :: l ++ [body] }) s := by
  have short : (b :: l ++ [body]).length < pktFlits (pktOf (b :: l ++ [body])).1.granules := by
    rw [List.length_append]
    exact more
  unfold packetFlit
  rw [held]
  simp only [reduceCtorEq, decide_false, Bool.false_and, Bool.false_eq_true, if_false]
  exact if_pos short

/-! ### A packet is cut short (R364, R368) -/

/-- A change of the transmit sides of all ports, which leaves one without flits as it is. -/
theorem mapTx_ground {g : TxSt → TxSt} (blank : g {} = {}) (h : HaltSt) (s : State) :
    ground { s with halt := h, link.ports := s.link.ports.map (fun e => (e.1, { e.2 with tx := g e.2.tx })) } = ground s := by
  refine congrArg (Ground.mk s.fields s.mem) (funext fun k => ?_)
  have mapped := tget_mapValues (fun x : Port => { x with tx := g x.tx }) {} k s.link.ports
  have empty : ({ ({} : Port) with tx := g ({} : Port).tx } : Port) = {} := congrArg (fun t => { ({} : Port) with tx := t }) blank
  simp only [empty] at mapped
  exact congrArg (fun x : Port => { x with tx := {} }) mapped

@[simp] theorem freePair_ground (k : Option Nat) (s : State) : ground (freePair k s) = ground s :=
  ground_congr (by simp) (by simp) (by simp)

@[simp] theorem mapCopies_ground (b : Nat × Nat) (f : TxPkt → TxPkt) (s : State) : ground (mapCopies b f s) = ground s :=
  mapTx_ground (g := fun t => { t with queue := t.queue.map _, inProgress := t.inProgress.map _ }) rfl _ s

@[simp] theorem abortCopies_ground (p : Nat) (s : State) : ground (abortCopies p s) = ground s := by
  unfold abortCopies
  split
  · rfl
  · rw [mapCopies_ground, foldl_keeps ground _ (by simp)]
    exact mapTx_ground (g := fun t => { t with queue := t.queue.filter _ }) rfl _ s

/-- A packet that leaves a port's receive buffer changes nothing but what is owed and occupied there. -/
theorem oweRest_effect (p : Nat) (h : PktHdr) (freed : Nat) (s : State) : ∃ owed occupied,
    (portOf (oweRest p h freed s) p).rx = { (portOf s p).rx with owed := owed, occupied := occupied } ∧
    ((h.code ≠ 0 ∨ h.granules ≠ 0) → owed = vcAdd (codeVc h.code) (pktFlits h.granules - freed) (portOf s p).rx.owed) ∧
    (oweRest p h freed s).fields = s.fields ∧ (oweRest p h freed s).mem = s.mem := by
  unfold oweRest
  split
  · next null =>
    refine ⟨_, _, rfl, fun other => ?_, rfl, rfl⟩
    simp only [Bool.and_eq_true, decide_eq_true_eq] at null
    omega
  · exact ⟨_, _, by rw [oweFlits, portOf_modPort_self], fun _ => rfl, rfl, rfl⟩

/-- The packet that a port receives is counted as cut short, and its copies end. -/
def copiesEnded (p : Nat) (s : State) : State := sat (portReg p 0x18) 8 8 1 (abortCopies p s)

theorem copiesEnded_effect (p : Nat) (s : State) : (portOf (copiesEnded p s) p).rx = (portOf s p).rx ∧
    getField (portReg p 0x18) 8 0 (copiesEnded p s) = min 0xFF (getField (portReg p 0x18) 8 0 s + 1) ∧
    (copiesEnded p s).mem = s.mem := by
  have stands := abortCopies_ground p s
  have field : getField (portReg p 0x18) 8 0 (abortCopies p s) = getField (portReg p 0x18) 8 0 s :=
    congrArg (tget 0 · _) (fields_of_ground stands)
  exact ⟨portOf_of_ground stands (·.rx) p, field ▸ getField_sat_self .., (mem_of_ground stands :)⟩

/-- Then the bodies that the port has of it are dropped. -/
def bodiesDropped (p : Nat) (s : State) : State := modRx p (fun r => { r with partialPkt := [], head := none }) (copiesEnded p s)

/-- A packet that is not being sent on, and of which nothing has left, has its place and all its flits there. -/
theorem unsent_head {head : Option (PktHdr × Arrival)} (unsent : head.any (fun x => x.2.started || x.2.freed != 0) = false)
    (q : PktHdr × Arrival → Bool) : head.any (fun x => x.2.started && q x) = false ∧ (head.map (·.2.freed)).getD 0 = 0 := by
  cases head with
  | none => exact ⟨rfl, rfl⟩
  | some x =>
    simp only [Option.any_some, Bool.or_eq_false_iff, bne_eq_false_iff_eq] at unsent
    simp [unsent]

section
variable {p : Nat} {b : FlitBody} {l : List FlitBody} {s : State} (held : (portOf s p).rx.partialPkt = b :: l)
include held

/-- Credits are owed for the flits that have not left, unless a copy that is being sent on has their place. -/
theorem abortPacket_eq : abortPacket p s =
    if (portOf s p).rx.head.any (fun x => x.2.started && placeHeld (copiesEnded p s) (p, x.2.place)) then bodiesDropped p s
    else oweRest p (pktOf (b :: l)).1 (((portOf s p).rx.head.map (·.2.freed)).getD 0) (bodiesDropped p s) := by
  obtain ⟨receives, -⟩ := copiesEnded_effect p s
  rw [copiesEnded] at receives
  simp only [abortPacket, held, receives]
  rfl

theorem abortPacket_effect : (portOf (abortPacket p s) p).rx.partialPkt = [] ∧
    (portOf (abortPacket p s) p).rx.expect = (portOf s p).rx.expect ∧
    (portOf (abortPacket p s) p).rx.splice = (portOf s p).rx.splice ∧
    (((pktOf (b :: l)).1.code ≠ 0 ∨ (pktOf (b :: l)).1.granules ≠ 0) →
      (portOf s p).rx.head.any (fun x => x.2.started || x.2.freed != 0) = false →
      (portOf (abortPacket p s) p).rx.owed =
        vcAdd (codeVc (pktOf (b :: l)).1.code) (pktFlits (pktOf (b :: l)).1.granules) (portOf s p).rx.owed) ∧
    getField (portReg p 0x18) 8 0 (abortPacket p s) = min 0xFF (getField (portReg p 0x18) 8 0 s + 1) ∧
    (abortPacket p s).mem = s.mem := by
  obtain ⟨receives, count, mem⟩ := copiesEnded_effect p s
  have dropped : (portOf (bodiesDropped p s) p).rx = { (portOf s p).rx with partialPkt := [], head := none } := by
    rw [bodiesDropped, portOf_modRx_self, receives]
  rw [abortPacket_eq held]
  split
  · next started =>
    rw [dropped]
    refine ⟨rfl, rfl, rfl, fun _ unsent => ?_, count, mem⟩
    rw [(unsent_head unsent _).1] at started
    cases started
  · obtain ⟨owed, occupied, rest, owes, fields, same⟩ :=
      oweRest_effect p (pktOf (b :: l)).1 (((portOf s p).rx.head.map (·.2.freed)).getD 0) (bodiesDropped p s)
    rw [rest, dropped]
    refine ⟨rfl, rfl, rfl, fun sent unsent => (owes sent).trans ?_, (congrArg (tget 0 · _) fields).trans count, same.trans mem⟩
    rw [(unsent_head unsent fun _ => true).2, dropped]
    rfl

end

/-! ### Flits as they are made (R350, R351) -/

theorem mkFlit_seq (k : FlitKind) (seq credVc credN : Nat) (body : FlitBody) : (mkFlit k seq credVc credN body).seq = seq := rfl

/-- The CRC is over the other parts of a flit. -/
theorem flitCrc_withCrc (f : Flit) (c : Nat) : flitCrc { f with crc := c } = flitCrc f := by
  simp only [flitCrc, trailer]

theorem kindOf_mkFlit (k : FlitKind) (seq credVc credN : Nat) (body : FlitBody) :
    kindOf (mkFlit k seq credVc credN body) = some k := by
  have told (j : FlitKind) : (flitCrc (mkFlit k seq credVc credN body) ^^^ j.xor == (mkFlit k seq credVc credN body).crc) =
      (j.xor == k.xor) := by
    unfold mkFlit
    dsimp only
    rw [flitCrc_withCrc ⟨seq, credVc, credN, 0, body⟩, Bool.eq_iff_iff]
    simp
  unfold kindOf
  simp only [told]
  cases k <;> rfl

/-! ### What an arriving flit does (R357, R358, R368) -/

section
variable {p : Nat} {f : Flit} {s : State} (near : ahead (portOf s p).rx.expect f.seq ≤ 511)
  (new : (portOf s p).rx.splice.any (fun g => g.seq == f.seq) = false) (unsealed : (portOf s p).sealActive = false)
  (early : f.seq ≠ (portOf s p).rx.expect)
  (absent : (portOf s p).rx.splice.any (fun g => g.seq == (portOf s p).rx.expect) = false)
include near new unsealed early absent

theorem sequenced_of_early : sequenced p f s = markMissing p (gapBefore p f s) (spliced p f s) := by
  rw [sequenced_of_useful near new unsealed]
  refine drainSplice_of_gap ?_ 512
  obtain ⟨due, port⟩ := portOf_markMissing p (gapBefore p f s) (spliced p f s)
  rw [port, spliced, portOf_modRx_self]
  simpa [early] using absent

theorem sequenced_early_effect : (portOf (sequenced p f s) p).rx.expect = (portOf s p).rx.expect ∧
    (portOf (sequenced p f s) p).rx.splice = (portOf s p).rx.splice ++ [f] ∧
    (portOf (sequenced p f s) p).rx.partialPkt = (portOf s p).rx.partialPkt ∧
    (∀ i, i < ahead (portOf s p).rx.expect f.seq →
      (portOf (sequenced p f s) p).rx.splice.any (fun g => g.seq == (((portOf s p).rx.expect + i) % 1048576)) = true ∨
      (portOf (sequenced p f s) p).rx.asked.any (fun a => a.1 == (((portOf s p).rx.expect + i) % 1048576)) = true) ∧
    (sequenced p f s).mem = s.mem := by
  rw [sequenced_of_early near new unsealed early absent]
  refine ⟨?_, ?_, ?_, fun i lt => markMissing_asks (List.mem_map.mpr ⟨i, List.mem_range.mpr lt, rfl⟩),
    (markMissing_frame ..).1⟩
  all_goals
    obtain ⟨due, port⟩ := portOf_markMissing p (gapBefore p f s) (spliced p f s)
    rw [port, spliced, portOf_modRx_self]

end

/-- The next flit of a packet that has more to come. -/
theorem sequenced_joins {p : Nat} {f : Flit} {b : FlitBody} {l : List FlitBody} {s : State} (empty : (portOf s p).rx.splice = [])
    (inOrder : f.seq = (portOf s p).rx.expect) (lt : f.seq < seqMod) (packet : kindOf f = some .packet)
    (unsealed : (portOf s p).sealActive = false) (held : (portOf s p).rx.partialPkt = b :: l)
    (more : (b :: l).length + 1 < pktFlits (pktOf (b :: l ++ [f.body])).1.granules) : sequenced p f s =
      modRx p (fun r => { r with partialPkt := b :: l ++ [f.body] }) (counted p f (spliced p f s)) := by
  obtain ⟨-, splice, bodies, -⟩ := portOf_counted_spliced empty inOrder
  have joins := packetFlit_joins (bodies.trans held) more
  rw [sequenced_in_order empty inOrder unsealed lt packet, acceptFlit_packet, joins]
  rw [acceptFlit_packet, joins, portOf_modRx_self, splice]

theorem sequenced_abort_effect {p : Nat} {f : Flit} {b : FlitBody} {l : List FlitBody} {s : State}
    (empty : (portOf s p).rx.splice = []) (inOrder : f.seq = (portOf s p).rx.expect) (lt : f.seq < seqMod)
    (abort : kindOf f = some .abort) (unsealed : (portOf s p).sealActive = false) (held : (portOf s p).rx.partialPkt = b :: l) :
    (portOf (sequenced p f s) p).rx.partialPkt = [] ∧ (portOf (sequenced p f s) p).rx.expect = (f.seq + 1) % seqMod ∧
    (((pktOf (b :: l)).1.code ≠ 0 ∨ (pktOf (b :: l)).1.granules ≠ 0) →
      (portOf s p).rx.head.any (fun x => x.2.started || x.2.freed != 0) = false →
      (portOf (sequenced p f s) p).rx.owed =
        vcAdd (codeVc (pktOf (b :: l)).1.code) (pktFlits (pktOf (b :: l)).1.granules) (portOf s p).rx.owed) ∧
    getField (portReg p 0x18) 8 0 (sequenced p f s) = min 0xFF (getField (portReg p 0x18) 8 0 s + 1) ∧
    (sequenced p f s).mem = s.mem := by
  obtain ⟨expect, splice, bodies, head, owed, -⟩ := portOf_counted_spliced empty inOrder
  obtain ⟨gone, expect', splice', owes, count, mem⟩ := abortPacket_effect (bodies.trans held)
  rw [sequenced_in_order empty inOrder unsealed lt abort (splice'.trans splice), acceptFlit_abort]
  rw [head, owed] at owes
  exact ⟨gone, expect'.trans expect, owes, count.trans (by simp [getField, spliced]), mem.trans (by simp [spliced])⟩

theorem claimFlitsAreReceived : ClaimFlitsAreReceived := by
  refine ⟨?bad, ?kinds, ?outOfOrder, ?joins, ?abort⟩
  case bad => exact fun p s runs => ⟨_, exec_badFlit runs, getField_sat_self .., rfl⟩
  case kinds =>
    exact fun p ws f s runs came => ⟨exec_sequencedFlit_bad runs came, exec_sequencedFlit_linkCtl runs came⟩
  case outOfOrder =>
    intro p ws f k s runs alive came kind other
    rw [exec_sequencedFlit runs came kind other alive]
    refine ⟨fun useless => ⟨_, rfl, ?_⟩, fun _ early near new absent unsealed => ⟨_, rfl, ?_⟩⟩
    · rw [sequenced_of_useless useless]
      rfl
    · exact sequenced_early_effect near new unsealed early absent
  case joins =>
    intro p ws f b l s runs alive came packet inOrder empty unsealed held more
    obtain ⟨expect, splice, -, -, -, credits⟩ := portOf_counted_spliced empty inOrder
    rw [exec_sequencedFlit runs came packet (by decide) alive,
      sequenced_joins empty inOrder (flitIn_seq_lt came) packet unsealed held more]
    refine ⟨_, rfl, ?_⟩
    rw [portOf_modRx_self]
    exact ⟨expect, rfl, splice, credits, by simp [spliced], by simp [spliced]⟩
  case abort =>
    intro p seq b l s runs alive unsealed empty inOrder lt held
    have number := mkFlit_seq .abort seq 0 0 0
    have effect := sequenced_abort_effect empty (number.trans inOrder) (number ▸ lt) (kindOf_mkFlit ..) unsealed held
    rw [number] at effect
    exact ⟨_, exec_abortFlit runs lt alive, effect⟩

/-! ### Link control flits (R355, R358) -/

theorem mem_insertSeq {base n m : Nat} {l : List Nat} : m ∈ insertSeq base n l ↔ m = n ∨ m ∈ l := by
  induction l with
  | nil => simp [insertSeq]
  | cons k l ih =>
    unfold insertSeq
    split
    · next same => simp [same]
    · split
      · simp
      · simp only [List.mem_cons, ih]
        tauto

theorem mem_foldl_insertSeq {base m : Nat} {ns : List Nat} :
    ∀ {l : List Nat}, m ∈ ns.foldl (fun l n => insertSeq base n l) l ↔ m ∈ ns ∨ m ∈ l := by
  induction ns with
  | nil => simp
  | cons n ns ih =>
    intro l
    rw [List.foldl_cons, ih, mem_insertSeq, List.mem_cons]
    tauto

section
variable (p : Nat) (ns : List Nat) (s : State)

@[simp] theorem askAgain_frame : (askAgain p ns s).mem = s.mem ∧ (askAgain p ns s).kcp = s.kcp := ⟨rfl, rfl⟩

/-- What is asked for again changes only what is to be sent again. -/
theorem portOf_askAgain : ∃ l, portOf (askAgain p ns s) p = { portOf s p with tx := { (portOf s p).tx with resend := l } } ∧
    ∀ n ∈ ns, (portOf s p).tx.replay.any (fun r => r.flit.seq == n) = true → n ∈ l := by
  refine ⟨_, portOf_modTx_self .., fun n asked held => mem_foldl_insertSeq.mpr (.inl ?_)⟩
  exact List.mem_filter.mpr ⟨asked, held⟩

end

/-- An ACK takes out the flits before its number. -/
theorem portOf_applyAck {p ack : Nat} {s : State} {r : TxFlit} {l : List TxFlit} (replay : (portOf s p).tx.replay = r :: l)
    (within : ahead r.flit.seq ack ≤ (r :: l).length) : (portOf (applyAck p ack s) p).rx = (portOf s p).rx ∧
    (portOf (applyAck p ack s) p).tx.replay = (r :: l).drop (ahead r.flit.seq ack) := by
  rw [applyAck, portOf_modTx_self]
  refine ⟨rfl, ?_⟩
  dsimp only
  rw [replay]
  dsimp only
  by_cases none : ahead r.flit.seq ack = 0
  · rw [if_pos (by simp [none]), replay, none, List.drop_zero]
  · rw [if_neg (by simpa [none] using within)]

/-- The port has heard a link control flit and has applied its ACK. -/
def acknowledged (p : Nat) (m : LinkCtl) (s : State) : State :=
  applyAck p (m.ack % seqMod) (modRx p (fun r => { r with lastCtl := lmc s }) s)

/-- The numbers that a link control flit names. -/
def numbersNamed (m : LinkCtl) : List Nat := m.naks.flatMap (fun e => (List.range e.2).map (fun i => (e.1 + i) % seqMod))

/-- After its ACK and what it names, a link control flit may tell of numbers that have not come. -/
theorem linkControl_eq (p : Nat) (m : LinkCtl) (s : State) :
    ∃ ns, linkControl p m s = markMissing p ns (askAgain p (numbersNamed m) (acknowledged p m s)) := by
  unfold linkControl
  dsimp only
  split
  · exact ⟨_, rfl⟩
  · exact ⟨[], rfl⟩

theorem linkControl_effect {p : Nat} {m : LinkCtl} {s : State} {r : TxFlit} {l : List TxFlit}
    (replay : (portOf s p).tx.replay = r :: l)
    (within : ahead r.flit.seq (m.ack % seqMod) ≤ (r :: l).length) :
    (portOf (linkControl p m s) p).tx.replay = (r :: l).drop (ahead r.flit.seq (m.ack % seqMod)) ∧
    (portOf (linkControl p m s) p).rx.lastCtl = lmc s ∧
    (∀ e ∈ m.naks, ∀ i, i < e.2 →
      (portOf (linkControl p m s) p).tx.replay.any (fun r => r.flit.seq == (e.1 + i) % seqMod) = true →
      (e.1 + i) % seqMod ∈ (portOf (linkControl p m s) p).tx.resend) ∧
    (linkControl p m s).mem = s.mem ∧ (linkControl p m s).kcp = s.kcp := by
  obtain ⟨ns, eq⟩ := linkControl_eq p m s
  have heard : (portOf (modRx p (fun r => { r with lastCtl := lmc s }) s) p).tx.replay = r :: l := by
    rw [portOf_modRx_self, replay]
  obtain ⟨receives, kept⟩ := portOf_applyAck heard within
  obtain ⟨resend, asks, again⟩ := portOf_askAgain p (numbersNamed m) (acknowledged p m s)
  obtain ⟨due, port⟩ := portOf_markMissing p ns (askAgain p (numbersNamed m) (acknowledged p m s))
  rw [eq, port, asks]
  refine ⟨kept, ?_, fun e named i lt held => again _ ?_ held, by simp [acknowledged, applyAck], by simp [acknowledged, applyAck]⟩
  · dsimp only
    rw [acknowledged, receives, portOf_modRx_self]
  · exact List.mem_flatMap.mpr ⟨e, named, List.mem_map_of_mem (List.mem_range.mpr lt)⟩

/-! ### Acknowledgement and silence (R358) -/

/-- The numbers whose wait is over and that the next link control flit does not ask for yet. -/
def waitOver (p : Nat) (s : State) : List Nat :=
  ((portOf s p).rx.asked.filter
    (fun a => a.2 + nakWait s p ≤ lmc s && !(portOf s p).rx.nakDue.contains a.1)).map (·.1)

theorem exec_nakWaitExpiry_none {p : Nat} {s : State} (nothing : waitOver p s = []) : exec (.nakWaitExpiry p) s = .next s :=
  congrArg Host.Outcome.next (if_pos (by rw [← waitOver, nothing]; simp))

section
variable {p : Nat} {s : State} (runs : linkRuns s p = true)
include runs

theorem exec_nakWaitExpiry_some (something : waitOver p s ≠ []) : exec (.nakWaitExpiry p) s =
    .next (modTx p (fun t => { t with ctlDue := true }) (modRx p (fun r => { r with nakDue := r.nakDue ++ waitOver p s }) s)) :=
  congrArg Host.Outcome.next (if_neg (by rw [← waitOver]; simp [runs, something]))

theorem nakWaitExpiry_effect {n since : Nat} (asked : (n, since) ∈ (portOf s p).rx.asked)
    (elapsed : since + nakWait s p ≤ lmc s) : ∃ t, exec (.nakWaitExpiry p) s = .next t ∧ n ∈ (portOf t p).rx.nakDue ∧
      (n ∉ (portOf s p).rx.nakDue → (portOf t p).tx.ctlDue = true) ∧ t.mem = s.mem := by
  have due (fresh : n ∉ (portOf s p).rx.nakDue) : n ∈ waitOver p s :=
    List.mem_map.mpr ⟨(n, since), List.mem_filter.mpr ⟨asked, by simp [elapsed, fresh]⟩, rfl⟩
  by_cases nothing : waitOver p s = []
  · have old : n ∈ (portOf s p).rx.nakDue := by
      by_contra fresh
      exact List.ne_nil_of_mem (due fresh) nothing
    exact ⟨s, exec_nakWaitExpiry_none nothing, old, fun fresh => absurd old fresh, rfl⟩
  · refine ⟨_, exec_nakWaitExpiry_some runs nothing, ?_, fun _ => ?_, by simp⟩
    · rw [portOf_modTx_self, portOf_modRx_self]
      by_cases old : n ∈ (portOf s p).rx.nakDue
      · exact List.mem_append_left _ old
      · exact List.mem_append_right _ (due old)
    · rw [portOf_modTx_self]

theorem exec_ackInterval (accepted : (portOf s p).rx.unacked ≠ 0)
    (due : (portOf s p).rx.ackedAt + 1 ≤ lmc s ∨ 32 ≤ (portOf s p).rx.unacked) :
    exec (.ackInterval p) s = .next (modTx p (fun t => { t with ctlDue := true }) s) :=
  congrArg Host.Outcome.next (if_pos (by simpa [runs, accepted] using due))

theorem exec_ackKeepalive (due : (portOf s p).tx.keepaliveAt + 16 ≤ lmc s) :
    exec (.ackKeepalive p) s = .next (modTx p (fun t => { t with ctlDue := true }) s) :=
  congrArg Host.Outcome.next (if_pos (by simp [runs, due]))

theorem exec_linkSilence (silent : (portOf s p).rx.lastCtl + silenceMarks s p ≤ lmc s) :
    exec (.linkSilence p) s = .next (settleHome (linkLost p true s)) :=
  congrArg Host.Outcome.next (if_pos (by simp [runs, silent]))

theorem exec_ackTimeout {r : TxFlit} {l : List TxFlit} (replay : (portOf s p).tx.replay = r :: l)
    (late : (portOf s p).tx.ackProgressAt + ackTimeoutMarks s p ≤ lmc s) : exec (.ackTimeout p) s =
      .next (askAgain p [r.flit.seq] (modTx p (fun t => { t with ackProgressAt := lmc s }) s)) := by
  simp only [exec, execAckTimeout, replay, runs, late, decide_true, Bool.and_self, if_true]

theorem ackTimeout_effect {r : TxFlit} {l : List TxFlit} (replay : (portOf s p).tx.replay = r :: l)
    (late : (portOf s p).tx.ackProgressAt + ackTimeoutMarks s p ≤ lmc s) :
    ∃ t, exec (.ackTimeout p) s = .next t ∧ r.flit.seq ∈ (portOf t p).tx.resend ∧ (portOf t p).tx.ackProgressAt = lmc s ∧
      (portOf t p).tx.replay = r :: l ∧ t.mem = s.mem := by
  obtain ⟨resend, asks, again⟩ := portOf_askAgain p [r.flit.seq] (modTx p (fun t => { t with ackProgressAt := lmc s }) s)
  rw [portOf_modTx_self] at asks again
  refine ⟨_, exec_ackTimeout runs replay late, ?_, ?_, ?_, by simp⟩
  · rw [asks]
    exact again _ (List.mem_singleton_self _) (by simp [replay])
  · rw [asks]
  · rw [asks]
    exact replay

end

theorem claimFlitsAreAcknowledged : ClaimFlitsAreAcknowledged := by
  refine ⟨?control, fun p n since s runs => nakWaitExpiry_effect runs, fun p s runs => ⟨exec_ackInterval runs,
    exec_ackKeepalive runs, fun r l => ackTimeout_effect runs, exec_linkSilence runs⟩⟩
  case control =>
    intro p m s r l runs replay within
    exact ⟨_, exec_linkCtlFlit runs m, linkControl_effect replay within⟩

/-! ### What the sending of flits leaves (R352, R356) -/

theorem modPort_ports_congr {s t : State} (ports : t.link.ports = s.link.ports) (p : Nat) (f : Port → Port) :
    (modPort p f t).link.ports = (modPort p f s).link.ports := congrArg (tmod ({} : Port) · p f) ports

/-- A deal changes of the ports only the lane that the port deals to next. -/
theorem deal_ports (p : Nat) (ws : List Blk) (s : State) :
    ∃ d, (deal p ws s).link.ports = (modTx p (fun t => { t with dealt := d }) s).link.ports := by
  have paced (u : State) : (keepPace p u).link.ports = u.link.ports := by
    unfold keepPace
    split
    · split
      · rfl
      · exact foldl_keeps (·.link.ports) _ (by intros; rfl) _ _
    · rfl
  exact ⟨_, (paced _).trans (modPort_ports_congr (foldl_keeps (·.link.ports) _ (by intros; rfl) _ _) p _)⟩

theorem portOf_sendOnPort_self (p : Nat) (f : Flit) (s : State) :
    ∃ d, portOf (sendOnPort p f s) p = { portOf s p with tx := { (portOf s p).tx with dealt := d } } := by
  obtain ⟨d, ports⟩ := deal_ports p (flitBlocks f) s
  have emitted : (sendOnPort p f s).link.ports = (deal p (flitBlocks f) s).link.ports := rfl
  exact ⟨d, by rw [portOf_congr (emitted.trans ports), portOf_modTx_self]⟩

theorem sendOnPort_out (p : Nat) (f : Flit) (s : State) : (sendOnPort p f s).out = .flit p f :: s.out :=
  congrArg (List.cons _) (by simp)

/-- A link control flit tells the numbers of both directions and some that are asked for; then nothing is unacknowledged. -/
theorem sendCtl_effect (p : Nat) (s : State) : ∃ naks, (sendCtl p s).out = .flit p (mkFlit .linkCtl 0 0 0
      (ctlBody { ack := (portOf s p).rx.expect, nextSeq := (portOf s p).tx.nextSeq, naks := naks })) :: s.out ∧
    (portOf (sendCtl p s) p).tx.replay = (portOf s p).tx.replay ∧ (portOf (sendCtl p s) p).rx.unacked = 0 ∧
    (portOf (sendCtl p s) p).tx.keepaliveAt = lmc s := by
  refine ⟨_, sendOnPort_out .., ?_⟩
  unfold sendCtl
  dsimp only
  obtain ⟨d, port⟩ := portOf_sendOnPort_self p _ _
  rw [port, portOf_modTx_self, portOf_modRx_self]
  exact ⟨rfl, rfl, rfl⟩

/-- A number is no longer to be sent again, and its flit has been sent once more. -/
def sentAgain (p n : Nat) (s : State) : State :=
  sat (portReg p 0x14) 0 16 1 (modTx p (fun t => { t with
      replay := t.replay.map (fun y => if y.flit.seq = n then { y with sent := y.sent + 1 } else y) })
    (modTx p (fun t => { t with resend := t.resend.filter (· != n) }) s))

theorem portOf_sentAgain (p n : Nat) (s : State) : (portOf (sentAgain p n s) p).tx.nextSeq = (portOf s p).tx.nextSeq ∧
    (portOf (sentAgain p n s) p).tx.resend = (portOf s p).tx.resend.filter (· != n) := by
  have uncounted (u : State) : portOf (sat (portReg p 0x14) 0 16 1 u) = portOf u := rfl
  rw [sentAgain, uncounted, portOf_modTx_self, portOf_modTx_self]
  exact ⟨rfl, rfl⟩

section
variable {p n : Nat} {s : State} {r : TxFlit} (held : (portOf s p).tx.replay.find? (fun r => r.flit.seq == n) = some r)
  (few : r.sent ≤ retryLimit s p)
include held few

/-- A flit that may be sent once more goes out. -/
theorem retransmit_eq : retransmit p n s = sendOnPort p r.flit (sentAgain p n s) := by
  have within : ¬retryLimit s p + 1 ≤ r.sent := Nat.not_le.mpr (Nat.lt_succ_of_le few)
  unfold retransmit
  dsimp only
  rw [held]
  exact if_neg within

theorem retransmit_effect : (retransmit p n s).out = .flit p r.flit :: s.out ∧ n ∉ (portOf (retransmit p n s) p).tx.resend ∧
    (portOf (retransmit p n s) p).tx.nextSeq = (portOf s p).tx.nextSeq ∧ (retransmit p n s).mem = s.mem := by
  obtain ⟨d, port⟩ := portOf_sendOnPort_self p r.flit (sentAgain p n s)
  obtain ⟨next, resend⟩ := portOf_sentAgain p n s
  rw [retransmit_eq held few, port]
  exact ⟨(sendOnPort_out ..).trans (by simp [sentAgain]), by simp [resend], next, by simp [sentAgain]⟩

end

/-- A new flit of a port that does not seal, with its credit. -/
theorem sendFlit_effect {p : Nat} {s : State} (unsealed : (portOf s p).sealActive = false) (k : FlitKind) (credit : Nat × Nat)
    (body : FlitBody) :
    (sendFlit p k credit body s).out = .flit p (mkFlit k (portOf s p).tx.nextSeq credit.1 credit.2 body) :: s.out ∧
    (portOf (sendFlit p k credit body s) p).rx = (portOf s p).rx ∧ (sendFlit p k credit body s).mem = s.mem := by
  have opened : openGroup p s = s := if_pos (by simp [unsealed])
  obtain ⟨g, h, eq, receives⟩ : ∃ g h, sendFlit p k credit body s =
      sendOnPort p (mkFlit k (portOf s p).tx.nextSeq credit.1 credit.2 body) (modCong p g (modPort p h s)) ∧
      (h (portOf s p)).rx = (portOf s p).rx := by
    unfold sendFlit
    rw [opened]
    simp only [unsealed, Bool.not_false, Bool.or_true, if_true]
    exact ⟨_, _, rfl, rfl⟩
  obtain ⟨d, port⟩ := portOf_sendOnPort_self p (mkFlit k (portOf s p).tx.nextSeq credit.1 credit.2 body)
    (modCong p g (modPort p h s))
  have stands : portOf (modCong p g (modPort p h s)) = portOf (modPort p h s) := rfl
  rw [eq, port, stands, portOf_modPort_self]
  exact ⟨(sendOnPort_out ..).trans (by simp), receives, by simp⟩

/-! ### The transmitter's choice (R359, R364) -/

section
variable {p : Nat} {s : State} (runs : linkRuns s p = true)
include runs

theorem exec_transmitFlit : exec (.transmitFlit p) s = .next (transmit p s) := congrArg Host.Outcome.next (if_pos runs)

end

section
variable {p : Nat} {s : State} (noCtl : (portOf s p).tx.ctlDue = false)
include noCtl

theorem transmit_resends {n : Nat} {l : List Nat} (alive : s.err.fatal = false) (again : (portOf s p).tx.resend = n :: l) :
    transmit p s = retransmit p n s := by
  simp only [transmit, noCtl, alive, again, Bool.false_eq_true, if_false]

variable (nothingAgain : (portOf s p).tx.resend = []) (room : (portOf s p).tx.replay.length < 512)
  (unsealed : (portOf s p).sealActive = false) (granted : 3 ≤ (portOf s p).tx.grantsSent)
  (between : (portOf s p).tx.inProgress = none)
include nothingAgain room unsealed granted between

theorem transmit_starts {e : Nat × Nat × TxPkt} {s' : State} (alive : s.err.fatal = false) (grants : 3 ≤ (portOf s p).rx.grants)
    (next : schedule p s = (some e, s')) : transmit p s = startPacket p e s' := by
  simp only [transmit, noCtl, alive, nothingAgain, Nat.not_le.mpr room, unsealed, Nat.not_lt.mpr granted, between,
    Nat.not_lt.mpr grants, next, Bool.false_and, Bool.false_eq_true, if_false]

theorem transmit_idles {s' : State} (nothing : schedule p s = (none, s')) : transmit p s = deal p [idleWord] s := by
  simp only [transmit, noCtl, nothingAgain, Nat.not_le.mpr room, unsealed, Nat.not_lt.mpr granted, between, nothing,
    Bool.false_and, Bool.false_eq_true, if_false, ite_self]

end

/-- Credits of a channel that were owed have been returned. -/
def creditPaid (p v n : Nat) (s : State) : State :=
  modRx p (fun r => { r with owed := vcSub v n r.owed, totalReturned := vcAdd v n r.totalReturned }) s

theorem exec_creditNullPacket {p v n : Nat} {s : State} (runs : linkRuns s p = true) (alive : s.err.fatal = false)
    (noCtl : (portOf s p).tx.ctlDue = false) (idle : flitReady s p = false) (room : (portOf s p).tx.replay.length < 512)
    (due : creditDue (portOf s p) = (v + 1, n)) : exec (.creditNullPacket p) s =
      .next (sendFlit p .packet (v + 1, n) 0 (creditPaid p v n s)) := by
  have owed : (portOf s p).rx.owed ≠ (0, 0, 0) := by
    intro none
    rw [creditDue, none] at due
    simp [vcGet] at due
  have owes : sendOwed p .packet 0 s = sendFlit p .packet (v + 1, n) 0 (creditPaid p v n s) := by
    unfold sendOwed
    rw [due]
    rfl
  rw [← owes]
  exact congrArg Host.Outcome.next (if_pos (by simp [runs, alive, noCtl, idle, room, owed]))

theorem creditNullPacket_effect {p v n : Nat} {s : State} (runs : linkRuns s p = true) (alive : s.err.fatal = false)
    (noCtl : (portOf s p).tx.ctlDue = false) (idle : flitReady s p = false) (room : (portOf s p).tx.replay.length < 512)
    (unsealed : (portOf s p).sealActive = false) (due : creditDue (portOf s p) = (v + 1, n)) :
    ∃ t f, exec (.creditNullPacket p) s = .next t ∧ t.out = .flit p f :: s.out ∧ f.credVc = v + 1 ∧ f.credN = n ∧ f.body = 0 ∧
      f.seq = (portOf s p).tx.nextSeq ∧ (portOf t p).rx.owed = vcSub v n (portOf s p).rx.owed ∧ t.mem = s.mem := by
  have port : portOf (creditPaid p v n s) p = _ := portOf_modRx_self ..
  obtain ⟨out, receives, mem⟩ := sendFlit_effect (s := creditPaid p v n s) (by rw [port]; exact unsealed) .packet (v + 1, n) 0
  refine ⟨_, _, exec_creditNullPacket runs alive noCtl idle room due, out, rfl, rfl, rfl, ?_, ?_,
    mem.trans (by simp [creditPaid])⟩
  · rw [mkFlit_seq, port]
  · rw [receives, port]

theorem claimFlitsAreSent : ClaimFlitsAreSent := by
  refine ⟨?control, ?again, ?packet, ?idle, ?credit⟩
  case control =>
    intro p s runs due
    have chosen : transmit p s = sendCtl p s := if_pos due
    obtain ⟨naks, effect⟩ := sendCtl_effect p s
    exact ⟨_, naks, (exec_transmitFlit runs).trans (congrArg _ chosen), effect⟩
  case again =>
    intro p n l s r runs noCtl alive again held few
    exact ⟨_, (exec_transmitFlit runs).trans (congrArg _ (transmit_resends noCtl alive again)), retransmit_effect held few⟩
  case packet =>
    intro p s s' e runs noCtl alive nothingAgain room unsealed granted between grants next
    rw [exec_transmitFlit runs, transmit_starts noCtl nothingAgain room unsealed granted between alive grants next]
  case idle =>
    intro p s s' runs noCtl nothingAgain room unsealed granted between nothing
    rw [exec_transmitFlit runs, transmit_idles noCtl nothingAgain room unsealed granted between nothing]
  case credit =>
    intro p s v n runs alive noCtl idle room unsealed due
    exact creditNullPacket_effect runs alive noCtl idle room unsealed due

/-- Settles O55, from the flits received, acknowledged and sent, and from the blocks that read back. -/
theorem theLinkLayerRuns : Obligations.TheLinkLayerRuns :=
  ⟨claimFlitsAreReceived, claimFlitsAreAcknowledged, claimFlitsAreSent, claimBlocksReadBack⟩

end Sys2Proof.Machine

/-! PROOFS. Switching (section 12): packets for other EIDs and multicast packets leave by their ports, and what the commands do to
the routing tables, the groups, the congestion counts and the forward records. -/
namespace Sys2Proof.Machine

/-! ### A packet that waits in its port's buffer (R135, R364) -/

section
variable {rx : RxPkt} {a : Arrival} {s s' : State} {pair : Option Nat}

/-- The entry of a packet in its port's receive buffer. -/
theorem waitingPkt_of_waits (waits : PacketWaits rx a s) : waitingPkt s rx = some { pkt := rx, info := a } := by
  obtain ⟨-, -, -, ⟨x, found, info⟩, -⟩ := waits
  have pkt : x.pkt = rx := by simpa using List.find?_some found
  rw [found, ← pkt, ← info]

/-- A packet that waits keeps its header and what was settled at its arrival, and goes on from its port. -/
theorem ingress_of_waits (waits : PacketWaits rx a s) : ingress rx s = .goes rx a s := by
  have waiting := waitingPkt_of_waits waits
  obtain ⟨serves, thawed, -, -, carried, -⟩ := waits
  obtain ⟨unstopped, noFatal⟩ : stopped s = false ∧ s.err.fatal = false := by simpa [frozen] using thawed
  have stamp : stamped rx s = (rx, s) := by rw [stamped, waiting]; rfl
  have arrives : arrive rx s = (a, s) := by rw [arrive, arrivalOf, waiting]; rfl
  have comes : receivable s rx = true := by rw [receivable, waiting]; exact Bool.or_true _
  simp only [ingress, serves, comes, noFatal, stamp, arrives, unstopped, carried, Bool.not_true, Bool.or_self,
    Bool.false_eq_true, if_false]

theorem waitingPkt_congr (same : s'.link = s.link) (rx : RxPkt) : waitingPkt s' rx = waitingPkt s rx := by
  rw [waitingPkt, waitingPkt, portOf, portOf, same]

/-- The state in which a packet has left its port's receive buffer, its place there not yet free. -/
def leftBuffer (rx : RxPkt) (a : Arrival) (s : State) : State :=
  modPort rx.port (fun x => { x with rx.arrived := x.rx.arrived.erase { pkt := rx, info := a } }) s

theorem takeForward_of_waiting (waiting : waitingPkt s rx = some { pkt := rx, info := a }) :
    takeForward rx s = (if a.credited then some (rx.port, a.place) else none, leftBuffer rx a s) := by
  rw [takeForward, waiting]
  rfl

theorem leftBuffer_arrived (rx : RxPkt) (a : Arrival) (s : State) :
    (portOf (leftBuffer rx a s) rx.port).rx.arrived = (portOf s rx.port).rx.arrived.erase { pkt := rx, info := a } := by
  rw [leftBuffer, portOf_modPort_self]

/-! ### Requests for other EIDs (R380, R390, R391, R394) -/

/-- A request that holds an entry of its window has changed the window's counts alone. -/
theorem eq_withPairs_of_held (held : window rx s = .held pair s') : s' = { s with sw.pairs := s'.sw.pairs } := by
  unfold window at held
  dsimp only at held
  split_ifs at held
  all_goals
    cases held
    rfl

theorem ingressCtl_of_not_ctl (notCtl : rx.hdr.code ≠ 0x80) (s : State) : ingressCtl rx s = ingress rx s := by
  simp only [ingressCtl, notCtl, decide_false, Bool.false_and, Bool.false_eq_true, if_false]

/-- A packet that is not P1 is queued at its port, for its tenant's weight. -/
theorem forward_of_not_P1 (notP1 : effClass rx.hdr ≠ 1) (request : codeVc rx.hdr.code = 1)
    (waiting : waitingPkt s rx = some { pkt := rx, info := a }) (p : Nat) (pair : Option Nat) :
    forward rx a p pair s = enqueue p (queueOf (leftBuffer rx a s) rx.hdr false a.tenant)
      { hdr := rx.hdr, payload := rx.payload, tenant := a.tenant, pair := pair,
        buffer := if a.credited then some (rx.port, a.place) else none } (leftBuffer rx a s) := by
  have notP1' : (effClass rx.hdr != 1) = true := by simpa using notP1
  have tenant : ∀ u, queueTenant u rx.hdr a.tenant = a.tenant := fun u => by rw [queueTenant, request]; rfl
  simp only [forward, notP1', if_true, takeForward_of_waiting waiting, tenant]

/-- A request whose window has room goes to the port of its route, if that is up and the EID is no other tenant's. -/
theorem switchRequest_of_held {p : Nat} (held : window rx (bump a.tenant 0 1 s) = .held pair s') (route : a.route = some p)
    (up : portUp s' p = true) (own : eidTenant s' rx.hdr.dst = none ∨ eidTenant s' rx.hdr.dst = some a.tenant) :
    switchRequest rx a s = forward rx a p pair s' := by
  simp only [switchRequest, held, route, up, Bool.not_true, Bool.false_eq_true, if_false]
  rcases own with unbound | bound
  · rw [unbound]
    rfl
  · simp only [bound, bne_self_eq_false, Bool.false_eq_true, if_false]

/-- A packet for another EID in its turn, behind none of its flow, is switched as it passes the network. -/
theorem exec_packetSwitched_of_waits (waits : PacketWaits rx a s) (other : isOwnEid s rx.hdr.dst = false)
    (unicast : rx.hdr.mcast = false) (notNull : rx.hdr.code ≠ 0) (notCtl : rx.hdr.code ≠ 0x80)
    (first : overtakes s rx a = false) (turn : networkTurn s rx a = true) :
    exec (.packetSwitched rx) s = .next (crossed rx a (switchPacket rx a s)) := by
  have goes := ingress_of_waits waits
  obtain ⟨-, -, whole, -, -, sound⟩ := waits
  refine congrArg Host.Outcome.next ?_
  simp only [notNull, sound, unicast, other, whole, ingressCtl_of_not_ctl notCtl, goes, first, turn, decide_false, Bool.or_self,
    Bool.not_false, Bool.and_self, Bool.false_eq_true, if_false, if_true]

/-! ### Multicast packets (R321, R386, R387) -/

/-- A multicast packet that the switch accepts passes the network in its turn; a barrier's release has its effect here before it
is copied. -/
theorem multicastIn_of_waits (waits : PacketWaits rx a s) (multicast : rx.hdr.mcast = true)
    (accepted : mcastAccepted s rx = true) (turn : networkTurn s rx a = true) : multicastIn rx s =
      copyOut rx a (if rx.hdr.code = 0x0A ∧ rx.hdr.barrier = true then fbarReleaseHere rx.hdr.group (crossed rx a s)
        else crossed rx a s) := by
  have goes := ingress_of_waits waits
  obtain ⟨-, -, whole, -, -, sound⟩ := waits
  simp only [multicastIn, multicast, sound, whole, goes, accepted, turn, Bool.not_true, Bool.or_self, Bool.false_eq_true, if_false,
    Bool.and_eq_true, decide_eq_true_eq]

end

theorem exec_mcastReplicate (rx : RxPkt) (s : State) : exec (.mcastReplicate rx) s = .next (multicastIn rx s) := rfl

theorem exec_fbarRelease_of_release {rx : RxPkt} (signal : rx.hdr.code = 0x0A) (barrier : rx.hdr.barrier = true) (s : State) :
    exec (.fbarRelease rx) s = .next (multicastIn rx s) :=
  congrArg Host.Outcome.next (if_pos (by simp [signal, barrier]))

/-- Settles O37: a packet that waits goes through its port, then to the queue of its route or of each port of its mask. -/
theorem packetsAreSwitched : Obligations.PacketsAreSwitched := by
  refine ⟨?request, ?copies, ?release⟩
  case request =>
    intro rx a s s' pair p waits other first unicast notNull low notP1 turn held route up own
    have request : codeVc rx.hdr.code = 1 := by rw [codeVc, if_neg (by omega), if_pos low]
    have kept := eq_withPairs_of_held held
    have link : s'.link = s.link := by rw [kept, bump]
    have waiting : waitingPkt s' rx = some { pkt := rx, info := a } := by
      rw [waitingPkt_congr link, waitingPkt_of_waits waits]
    refine ⟨leftBuffer rx a s', _, ?_, rfl, ?_, ?_⟩
    · rw [exec_packetSwitched_of_waits waits other unicast notNull (by omega) first turn, switchPacket, request]
      exact congrArg (fun t => Host.Outcome.next (crossed rx a t))
        ((switchRequest_of_held held route up own).trans (forward_of_not_P1 notP1 request waiting p pair))
    · rw [leftBuffer_arrived, portOf, link, ← portOf]
    · rw [leftBuffer, kept]
      exact ⟨rfl, rfl, rfl, rfl⟩
  case copies =>
    intro rx a s waits multicast accepted turn noRelease
    rw [exec_mcastReplicate, multicastIn_of_waits waits multicast accepted turn, if_neg]
    rintro ⟨signal, barrier⟩
    exact noRelease.elim (· signal) (ne_false_of_eq_true barrier)
  case release =>
    intro rx a s waits multicast accepted turn signal barrier
    rw [exec_fbarRelease_of_release signal barrier, multicastIn_of_waits waits multicast accepted turn,
      if_pos ⟨signal, barrier⟩]

/-! ### LOAD_ROUTES (R380, R384) -/

/-- Values written to the keys from a first one on read back there, and every other key reads as before. -/
theorem tget_foldl_tset_zipIdx {α : Type} [DecidableEq α] (d : α) (first e : Nat) : ∀ (vs : List α) (n : Nat) (t : Tbl α),
    tget d ((vs.zipIdx n).foldl (fun t x => tset d t (first + x.2) x.1) t) e =
      if first + n ≤ e then vs[e - (first + n)]?.getD (tget d t e) else tget d t e
  | [], n, t => by simp
  | v :: vs, n, t => by
    rw [List.zipIdx_cons, List.foldl_cons, tget_foldl_tset_zipIdx d first e vs (n + 1), tget_tset]
    rcases lt_trichotomy e (first + n) with below | rfl | above
    · rw [if_neg (by omega), if_neg (by omega), if_neg (by omega)]
    · rw [if_neg (by omega), if_pos rfl, if_pos le_rfl, Nat.sub_self]
      rfl
    · have next : e - (first + n) = e - (first + (n + 1)) + 1 := by omega
      rw [if_pos (by omega), if_neg (by omega), if_pos (by omega), next, List.getElem?_cons_succ]

/-- The table of a routing version (R380). -/
def routesOf (s : State) (ver : Nat) : Tbl Nat := if ver % 2 = 0 then s.sw.routes0 else s.sw.routes1

/-- The port that an entry of a routing table gives. -/
def entryPort (n : Nat) : Option Nat := if n = 0 then none else some (n - 1)

theorem routeIn_eq (s : State) (ver e : Nat) : routeIn s ver e = entryPort (tget 0 (routesOf s ver) e) := by
  by_cases even : ver % 2 = 0 <;> simp only [routeIn, routesOf, entryPort, even, if_true, if_false]

section
variable {ver v first : Nat} {es : List Nat} {s : State}

theorem routesOf_loadRoutes_self (version : ver < 2) : routesOf (loadRoutes ver first es s) ver =
    es.zipIdx.foldl (fun t e => tset 0 t (first + e.2) e.1) (routesOf s ver) := by
  interval_cases ver <;> rfl

theorem routesOf_loadRoutes_other (version : ver < 2) (version' : v < 2) (other : v ≠ ver) :
    routesOf (loadRoutes ver first es s) v = routesOf s v := by
  interval_cases ver <;> interval_cases v
  exacts [absurd rfl other, rfl, rfl, absurd rfl other]

theorem routeIn_loadRoutes_other (version : ver < 2) (version' : v < 2) (other : v ≠ ver) (e : Nat) :
    routeIn (loadRoutes ver first es s) v e = routeIn s v e := by
  rw [routeIn_eq, routeIn_eq, routesOf_loadRoutes_other version version' other]

theorem routeIn_loadRoutes_outside (version : ver < 2) {e : Nat} (outside : e < first ∨ first + es.length ≤ e) :
    routeIn (loadRoutes ver first es s) ver e = routeIn s ver e := by
  rw [routeIn_eq, routeIn_eq, routesOf_loadRoutes_self version, tget_foldl_tset_zipIdx, Nat.add_zero]
  rcases outside with below | beyond
  · rw [if_neg (by omega)]
  · rw [if_pos (by omega), List.getElem?_eq_none (by omega), Option.getD_none]

theorem routeIn_loadRoutes_inside (version : ver < 2) {i n : Nat} (listed : es[i]? = some n) :
    routeIn (loadRoutes ver first es s) ver (first + i) = entryPort n := by
  rw [routeIn_eq, routesOf_loadRoutes_self version, tget_foldl_tset_zipIdx, Nat.add_zero, if_pos (Nat.le_add_right ..),
    Nat.add_sub_cancel_left, listed, Option.getD_some]

end

theorem loadRoutes_mem (ver first : Nat) (es : List Nat) (s : State) : (loadRoutes ver first es s).mem = s.mem := by
  unfold loadRoutes
  split <;> rfl

/-- The version that a LOAD_ROUTES or a FLIP_ROUTE_EPOCH names. -/
def namedVersion (c : Cmd) : Nat := pbits c.params 0 0 1

theorem namedVersion_lt (c : Cmd) : namedVersion c < 2 := Nat.mod_lt _ two_pos

/-- The EIDs that LOAD_ROUTES loads: the first, and how many. -/
def loadFirst (c : Cmd) : Nat := min 4095 (pnum c.params 2 2)
def loadCount (c : Cmd) : Nat := min (clampTo 1 480 (pnum c.params 4 2)) (4096 - loadFirst c)

/-- The entries that LOAD_ROUTES writes: port + 1 where VALID. -/
def loadedEntries (c : Cmd) : List Nat :=
  ((List.range (loadCount c)).map (fun i =>
    let w := pnum c.params (8 + 2 * i) 2
    (bit w 15, min 95 (w % 128)))).map (fun e => if e.1 then e.2 + 1 else 0)

theorem loadedEntries_length (c : Cmd) : (loadedEntries c).length = loadCount c := by simp [loadedEntries]

theorem loadedEntries_getElem? {c : Cmd} {i : Nat} (listed : i < loadCount c) : (loadedEntries c)[i]? =
    some (if pnum c.params (8 + 2 * i) 2 / 2 ^ 15 % 2 = 1 then min 95 (pnum c.params (8 + 2 * i) 2 % 128) + 1 else 0) := by
  simp [loadedEntries, listed, bit, Nat.testBit_eq_decide_div_mod_eq]

/-- What LOAD_ROUTES answers, and the state it leaves. -/
def loadBody (c : Cmd) (s : State) : Answer × State :=
  if namedVersion c = s.sw.active then (.done stDENIED [], s)
  else if !s.sw.drained then (.done stBUSY [], s)
  else (.later (.load (namedVersion c)), loadRoutes (namedVersion c) (loadFirst c) (loadedEntries c) s)

section
variable {c : Cmd} {s : State}

theorem exec_loadRoutes_of_body {a : Answer} {t : State} (runs : Runs 0x606 c s) (does : loadBody c (takeNumber c s) = (a, t)) :
    ∃ echo, exec (.loadRoutes c) s = .next (answer 0x606 c echo a t) :=
  ⟨_, congrArg Host.Outcome.next (kcpTake_of_body (body := loadBody c) runs does)⟩

theorem exec_loadRoutes_active (runs : Runs 0x606 c s) (active : namedVersion c = s.sw.active) :
    RepliesWith 0x606 c stDENIED [] (takeNumber c s) (exec (.loadRoutes c) s) :=
  exec_loadRoutes_of_body runs (if_pos (by simpa using active))

theorem exec_loadRoutes_undrained (runs : Runs 0x606 c s) (inactive : namedVersion c ≠ s.sw.active)
    (undrained : s.sw.drained = false) : RepliesWith 0x606 c stBUSY [] (takeNumber c s) (exec (.loadRoutes c) s) := by
  refine exec_loadRoutes_of_body runs ?_
  rw [loadBody, if_neg (by simpa using inactive), if_pos (by simpa using undrained)]

theorem exec_loadRoutes_drained (runs : Runs 0x606 c s) (inactive : namedVersion c ≠ s.sw.active)
    (drained : s.sw.drained = true) : Waits 0x606 c (.load (namedVersion c))
      (loadRoutes (namedVersion c) (loadFirst c) (loadedEntries c) (takeNumber c s)) (exec (.loadRoutes c) s) := by
  refine exec_loadRoutes_of_body runs ?_
  rw [loadBody, if_neg (by simpa using inactive), if_neg (by simpa using drained)]

theorem routeIn_takeNumber (ver e : Nat) : routeIn (takeNumber c s) ver e = routeIn s ver e := by
  simp only [routeIn, takeNumber_frame]

/-- What a load that runs leaves in the two versions and in the pool. -/
theorem loadRoutes_effect (two : s.sw.active < 2) (inactive : namedVersion c ≠ s.sw.active) :
    let t := loadRoutes (namedVersion c) (loadFirst c) (loadedEntries c) (takeNumber c s)
    (∀ e, routeIn t s.sw.active e = routeIn s s.sw.active e) ∧
    (∀ e, (e < loadFirst c ∨ loadFirst c + loadCount c ≤ e) →
      routeIn t (namedVersion c) e = routeIn s (namedVersion c) e) ∧
    (∀ i, i < loadCount c → routeIn t (namedVersion c) (loadFirst c + i) =
      (let w := pnum c.params (8 + 2 * i) 2
       if w / 2 ^ 15 % 2 = 1 then some (min 95 (w % 128)) else none)) ∧ t.mem = s.mem := by
  have version := namedVersion_lt c
  refine ⟨fun e => ?active, fun e outside => ?others, fun i listed => ?loaded, ?pool⟩
  case active => rw [routeIn_loadRoutes_other version two inactive.symm, routeIn_takeNumber]
  case others =>
    rw [← loadedEntries_length] at outside
    rw [routeIn_loadRoutes_outside version outside, routeIn_takeNumber]
  case loaded =>
    rw [routeIn_loadRoutes_inside version (loadedEntries_getElem? listed), apply_ite entryPort]
    rfl
  case pool => simp only [loadRoutes_mem, takeNumber_frame]

end

/-- The loads that run end at the mark, after the ports' counts, and nothing else at the mark touches the protocol (R384). -/
theorem marked_kcp (s : State) : (marked s).kcp = ((s.kcp.running.filter (fun r => r.wait == .load 0 || r.wait == .load 1)).foldl
    (fun s r => finish r stOK [] s) (congested s)).kcp := by
  have running : (congested s).kcp = s.kcp := by rw [congested_eq_withCong]
  rw [marked_eq, (slicesMark_frame _).2, ← running]
  rfl

theorem tick_kcp_of_nothingDue {s : State} (runs : heldInReset s = false) (due : (marked s).err.partitionDue = [])
    (sound : auditNow (marked s) = []) : (tick s).kcp = (marked s).kcp := by
  rw [tick_of_nothingDue runs due sound]
  rfl

/-! ### FLIP_ROUTE_EPOCH (R383) -/

/-- A flip to a version is asked for: it applies at the next FMT boundary. -/
def flipWaiting (v : Nat) (s : State) : State := { s with sw.flipTo := some v, sw.flipAsked := fmt s }

/-- The other version is the active one. -/
def flipped (v : Nat) (s : State) : State :=
  { s with sw.active := v, sw.flipTo := none, sw.lastFlip := fmt s, sw.lastFlipLmc := lmc s, sw.everFlipped := true,
           sw.drained := false }

/-- What FLIP_ROUTE_EPOCH answers, and the state it leaves. -/
def flipBody (c : Cmd) (s : State) : Answer × State :=
  if namedVersion c = s.sw.active then (.done stOK (le 8 s.sw.lastFlip), s)
  else if loadRuns s (namedVersion c) then (.done stBUSY [], s)
  else (.later (.flip (namedVersion c)), flipWaiting (namedVersion c) s)

theorem loadRuns_takeNumber (c : Cmd) (s : State) (ver : Nat) : loadRuns (takeNumber c s) ver = loadRuns s ver := rfl

section
variable {c : Cmd} {s : State}

theorem exec_flipRouteEpoch_of_body {a : Answer} {t : State} (runs : Runs 0x607 c s) (does : flipBody c (takeNumber c s) = (a, t)) :
    ∃ echo, exec (.flipRouteEpoch c) s = .next (answer 0x607 c echo a t) :=
  ⟨_, congrArg Host.Outcome.next (kcpTake_of_body (body := flipBody c) runs does)⟩

theorem exec_flipRouteEpoch_active (runs : Runs 0x607 c s) (active : namedVersion c = s.sw.active) :
    RepliesWith 0x607 c stOK (le 8 s.sw.lastFlip) (takeNumber c s) (exec (.flipRouteEpoch c) s) := by
  refine exec_flipRouteEpoch_of_body runs ?_
  rw [flipBody, if_pos (by simpa using active)]
  simp only [takeNumber_frame]

theorem exec_flipRouteEpoch_inactive (runs : Runs 0x607 c s) (inactive : namedVersion c ≠ s.sw.active)
    (noLoad : loadRuns s (namedVersion c) = false) :
    Waits 0x607 c (.flip (namedVersion c)) (flipWaiting (namedVersion c) (takeNumber c s)) (exec (.flipRouteEpoch c) s) := by
  refine exec_flipRouteEpoch_of_body runs ?_
  rw [flipBody, if_neg (by simpa using inactive), loadRuns_takeNumber, noLoad, if_neg Bool.false_ne_true]

theorem flipWaiting_takeNumber_effect (v : Nat) : (flipWaiting v (takeNumber c s)).sw.flipTo = some v ∧
    (flipWaiting v (takeNumber c s)).sw.flipAsked = fmt s ∧ (flipWaiting v (takeNumber c s)).sw.active = s.sw.active := by
  simp [flipWaiting, fmt]

theorem exec_routeEpochFlipApply_early {v : Nat} (asked : s.sw.flipTo = some v) (early : s.sw.flipAsked = fmt s) :
    exec .routeEpochFlipApply s = .next s := by
  change execRouteEpochFlipApply s = .next s
  rw [execRouteEpochFlipApply, asked]
  exact if_pos early.symm

theorem exec_routeEpochFlipApply_due {v : Nat} (asked : s.sw.flipTo = some v) (due : s.sw.flipAsked ≠ fmt s) :
    exec .routeEpochFlipApply s = .next (boundary ((s.kcp.running.filter (fun r => r.wait == .flip v)).foldl
      (fun s r => finish r stOK (le 8 s.sw.lastFlip) s) (flipped v s))) := by
  change execRouteEpochFlipApply s = _
  rw [execRouteEpochFlipApply, asked]
  exact if_neg due.symm

/-! ### ROUTE_DRAINED (R385) -/

theorem exec_routeDrained_of_quiet (old : s.sw.lastOld + routeQuiet s ≤ lmc s)
    (flip : s.sw.everFlipped = true → s.sw.lastFlipLmc + routeQuiet s ≤ lmc s) :
    exec .routeDrained s = .next (if oldHeld s = 0 then { s with sw.drained := true } else s) := by
  have flipOver : (!s.sw.everFlipped || decide (s.sw.lastFlipLmc + routeQuiet s ≤ lmc s)) = true := by
    cases ever : s.sw.everFlipped
    · rfl
    · exact decide_eq_true (flip ever)
  refine congrArg Host.Outcome.next ?_
  simp only [quietOver, flipOver, old, decide_true, Bool.true_and, decide_eq_true_eq]

end

/-! ### SET_MCAST_GROUP (R386) -/

/-- The group that SET_MCAST_GROUP names, and its tenant, its ports and its count of members. -/
def namedGroup (c : Cmd) : Nat := min 4095 (pnum c.params 0 2)
def namedGroupSet (c : Cmd) : Group :=
  { mask := pnum c.params 8 12, assigned := true, tenant := pbits c.params 2 0 5, members := clampTo 1 4095 (pnum c.params 4 2) }

/-- A mask names a port that is bound to another tenant. -/
def foreignPort (s : State) (mask t : Nat) : Bool :=
  (List.range 96).any (fun p => bit mask p && (match portTenant s p with
    | some u => u != t
    | none => false))

/-- A group as it is set, and a group released. -/
def groupSet (g : Nat) (y : Group) (s : State) : State := { s with sw.groups := tset {} s.sw.groups g y }
def groupReleased (g : Nat) (s : State) : State :=
  fbarDisable g (setField (fbarReg g 0) 31 0 0 (groupSet g { tget {} s.sw.groups g with mask := 0, assigned := false } s))

/-- What SET_MCAST_GROUP answers, and the state it leaves. -/
def groupBody (c : Cmd) (s : State) : Nat × List Byte × State :=
  let x := tget {} s.sw.groups (namedGroup c)
  let y := namedGroupSet c
  if !pbit c.params 2 5 && (x.assigned && x.tenant != y.tenant || foreignPort s y.mask y.tenant) then (stDENIED, [], s)
  else if streamUses s (namedGroup c) || fbarArrived s (namedGroup c) != 0 then (stBUSY, [], s)
  else if pbit c.params 2 5 then (stOK, [], groupReleased (namedGroup c) s)
  else (stOK, [], groupSet (namedGroup c) y s)

theorem foreignPort_eq_false {s : State} {mask t : Nat}
    (own : ∀ p < 96, bit mask p = true → portTenant s p = some t ∨ portTenant s p = none) : foreignPort s mask t = false := by
  refine List.any_eq_false.mpr fun p listed => ?_
  rw [Bool.and_eq_true, not_and]
  intro named
  rcases own p (List.mem_range.mp listed) named with own | unbound
  · simp [own]
  · simp [unbound]

section
variable {c : Cmd} {s : State}

theorem foreignPort_takeNumber (mask t : Nat) : foreignPort (takeNumber c s) mask t = foreignPort s mask t := rfl

theorem groupInUse_takeNumber (g : Nat) : (streamUses (takeNumber c s) g || fbarArrived (takeNumber c s) g != 0) =
    (streamUses s g || fbarArrived s g != 0) := rfl

theorem exec_setMcastGroup_of_body {st : Nat} {res : List Byte} {t : State} (runs : Runs 0x608 c s)
    (does : groupBody c (takeNumber c s) = (st, res, t)) : RepliesWith 0x608 c st res t (exec (.setMcastGroup c) s) :=
  ⟨_, congrArg Host.Outcome.next (kcpNow_of_body (body := groupBody c) runs does)⟩

theorem exec_setMcastGroup_assigns (runs : Runs 0x608 c s)
    (unused : (streamUses s (namedGroup c) || fbarArrived s (namedGroup c) != 0) = false) (assign : pbit c.params 2 5 = false)
    (free : (tget {} s.sw.groups (namedGroup c)).assigned = true →
      (tget {} s.sw.groups (namedGroup c)).tenant = (namedGroupSet c).tenant)
    (own : foreignPort s (namedGroupSet c).mask (namedGroupSet c).tenant = false) :
    RepliesWith 0x608 c stOK [] (groupSet (namedGroup c) (namedGroupSet c) (takeNumber c s)) (exec (.setMcastGroup c) s) := by
  have free' : ((tget {} s.sw.groups (namedGroup c)).assigned &&
      (tget {} s.sw.groups (namedGroup c)).tenant != (namedGroupSet c).tenant) = false := by simpa using free
  refine exec_setMcastGroup_of_body runs ?_
  simp only [groupBody, assign, foreignPort_takeNumber, groupInUse_takeNumber, own, unused, takeNumber_frame, free', Bool.or_self,
    Bool.and_false, Bool.false_eq_true, if_false]

theorem exec_setMcastGroup_releases (runs : Runs 0x608 c s)
    (unused : (streamUses s (namedGroup c) || fbarArrived s (namedGroup c) != 0) = false) (release : pbit c.params 2 5 = true) :
    RepliesWith 0x608 c stOK [] (groupReleased (namedGroup c) (takeNumber c s)) (exec (.setMcastGroup c) s) := by
  refine exec_setMcastGroup_of_body runs ?_
  simp only [groupBody, release, groupInUse_takeNumber, unused, Bool.not_true, Bool.false_and, Bool.false_eq_true, if_false,
    if_true]

theorem group_groupSet_self (g : Nat) (y : Group) : tget {} (groupSet g y s).sw.groups g = y := tget_tset_self ..

theorem group_groupSet_other {g j : Nat} (other : j ≠ g) (y : Group) :
    tget {} (groupSet g y s).sw.groups j = tget {} s.sw.groups j := tget_tset_ne _ _ _ _ _ other

theorem groupTenant_groupSet_self {y : Group} (assigned : y.assigned = true) (g : Nat) :
    groupTenant (groupSet g y s) g = some y.tenant := by
  simp only [groupTenant, group_groupSet_self, assigned, if_true]

theorem groupTenant_groupReleased (g : Nat) : groupTenant (groupReleased g s) g = none := by
  have released : tget {} (groupReleased g s).sw.groups g = { tget {} s.sw.groups g with mask := 0, assigned := false } :=
    group_groupSet_self ..
  simp only [groupTenant, released, Bool.false_eq_true, if_false]

/-! ### Congestion counts (R399, R400) -/

theorem exec_congestionMapLatch_between (between : fmt s % mapInterval s ≠ 0 ∨ s.sw.intervalEnd = fmt s) :
    exec .congestionMapLatch s = .next s :=
  congrArg Host.Outcome.next (if_pos (by simpa using between))

theorem exec_congestionMapLatch_due (multiple : fmt s % mapInterval s = 0) (new : s.sw.intervalEnd ≠ fmt s) :
    exec .congestionMapLatch s = .next (latchMap s) :=
  congrArg Host.Outcome.next (if_neg (by simp [multiple, new]))

theorem congestionRecord_length (s : State) (p : Nat) : (congestionRecord s p).length = 16 := by simp [congestionRecord]

/-- The records that READ_CONGESTION_MAP reads: of the ports from a first one on. -/
def congestionRead (c : Cmd) (s : State) : List Byte :=
  (List.range (min (clampTo 1 48 (pnum c.params 1 1)) (96 - min 95 (pnum c.params 0 1)))).flatMap
    (fun i => congestionRecord s (min 95 (pnum c.params 0 1) + i))

theorem congestionRead_length (c : Cmd) (s : State) :
    (congestionRead c s).length = 16 * min (clampTo 1 48 (pnum c.params 1 1)) (96 - min 95 (pnum c.params 0 1)) := by
  simp [congestionRead, List.length_flatMap, congestionRecord_length, Nat.mul_comm]

theorem exec_readCongestionMap_of_runs (runs : Runs 0x609 c s) : RepliesWith 0x609 c stOK
    (le 8 s.sw.intervalEnd ++ congestionRead c (takeNumber c s)) (takeNumber c s) (exec (.readCongestionMap c) s) := by
  refine ⟨_, congrArg Host.Outcome.next (kcpNow_of_body runs ?_)⟩
  simp only [takeNumber_frame, congestionRead]

/-! ### Forward records (R393) -/

/-- A forward record has timed out: it is freed, counted, and its late answer awaited. -/
def recordTimedOut (p : Nat) (f : FwdRec) (s : State) : State :=
  bumpDev 4 1 (modCong p (fun x => { x with fwdTimeouts := min 0xFFFF (x.fwdTimeouts + 1) })
    { s with sw.fwd := s.sw.fwd.erase f, sw.ended := (f.src, f.tag) :: s.sw.ended.erase (f.src, f.tag) })

section
variable {p src tag : Nat} {f : FwdRec} (found : s.sw.fwd.find? (fun f => f.port == p && f.src == src && f.tag == tag) = some f)
include found

theorem exec_fwdRecordTimeout_kept (kept : f.code = 9 ∨ plmc s < f.since + fwdTimeout s) :
    exec (.fwdRecordTimeout p src tag) s = .next s := by
  change execFwdRecordTimeout p src tag s = .next s
  rw [execFwdRecordTimeout, found]
  exact if_pos (by simpa using kept)

theorem exec_fwdRecordTimeout_due (answered : f.code ≠ 9) (due : f.since + fwdTimeout s ≤ plmc s) :
    exec (.fwdRecordTimeout p src tag) s =
      .next (settleHome (issueWaiting (settleForwarded f ((0, 0), recordTimedOut p f s)).2)) := by
  change execFwdRecordTimeout p src tag s = _
  rw [execFwdRecordTimeout, found]
  exact if_neg (by simpa using ⟨answered, due⟩)

end

end

/-- Settles O56: each command by what it does to the routes, the flip, the groups, the counts and the records. -/
theorem switchTablesAreManaged : Obligations.SwitchTablesAreManaged := by
  refine ⟨?load, ?loaded, ?flip, ?early, ?flipped, ?drained, ?groups, ?between, ?latch, ?read, ?records⟩
  case load =>
    intro c s runs ver first count
    exact ⟨exec_loadRoutes_active runs, exec_loadRoutes_undrained runs, fun two inactive drained =>
      ⟨_, exec_loadRoutes_drained runs inactive drained, loadRoutes_effect two inactive⟩⟩
  case loaded =>
    intro s runs due sound
    have counted := congested_eq_withCong s
    exact ⟨congested s, by rw [counted], by rw [counted], (tick_kcp_of_nothingDue runs due sound).trans (marked_kcp s)⟩
  case flip =>
    intro c s runs noLoad
    exact ⟨exec_flipRouteEpoch_active runs, fun inactive =>
      ⟨_, exec_flipRouteEpoch_inactive runs inactive noLoad, flipWaiting_takeNumber_effect _⟩⟩
  case early => exact fun _ _ => exec_routeEpochFlipApply_early
  case flipped => exact fun v s asked due => ⟨flipped v s, rfl, rfl, rfl, rfl, rfl, exec_routeEpochFlipApply_due asked due⟩
  case drained => exact fun _ => exec_routeDrained_of_quiet
  case groups =>
    intro c s runs g t noStream noArrival
    have unused : (streamUses s (namedGroup c) || fbarArrived s (namedGroup c) != 0) = false := by
      rw [show streamUses s (namedGroup c) = false from noStream, show fbarArrived s (namedGroup c) = 0 from noArrival]
      rfl
    refine ⟨fun assign free own => ?_, fun release =>
      ⟨_, exec_setMcastGroup_releases runs unused release, groupTenant_groupReleased _⟩⟩
    exact ⟨_, exec_setMcastGroup_assigns runs unused assign free (foreignPort_eq_false own), groupTenant_groupSet_self rfl _,
      congrArg Group.mask (group_groupSet_self ..), congrArg Group.members (group_groupSet_self ..),
      fun j other => (group_groupSet_other other _).trans (by simp only [takeNumber_frame]), by simp [groupSet],
      by simp [groupSet]⟩
  case between => exact fun _ => exec_congestionMapLatch_between
  case latch => exact fun s multiple new => ⟨latchMap s, exec_congestionMapLatch_due multiple new, rfl, rfl, rfl, rfl⟩
  case read => exact fun c s runs => ⟨_, exec_readCongestionMap_of_runs runs, congestionRead_length c _⟩
  case records =>
    intro p src tag s f found
    exact ⟨exec_fwdRecordTimeout_kept found, fun answered due =>
      ⟨_, exec_fwdRecordTimeout_due found answered due, rfl, List.mem_cons_self .., rfl, rfl⟩⟩

end Sys2Proof.Machine

/-! PROOFS. The invariant of the block: one lemma for each function of the model, which keeps the invariant where the functions
it calls do, up to the step of the block as a whole. -/
namespace Sys2Proof.Machine

section
set_option Elab.async false

variable {s t : State}

/-! ### The parts of the state that the invariant speaks of -/

/-- What is quiet keeps the invariant. -/
theorem Quiet.inv (q : Quiet s t) (h : Inv s) : Inv t := by
  obtain ⟨form, active, stage, creds⟩ := h
  exact ⟨q.form form, q.active ▸ active, q.stage ▸ stage, q.creds ▸ creds⟩

theorem inv_iff : Inv s ↔ Memory.wf s.mem = true ∧ s.pair.active < 2 ∧ s.boot.stage ≤ 6 ∧ tget none s.sec.creds 0 = none :=
  Iff.rfl

/-- A state that differs in parts that the invariant does not speak of. -/
theorem Inv.upd {p : List Instr} {o : List Out} {d : Nat} {f : Tbl Nat} {w : List WaitingWrite} {tm : TimeSt} {kcp : KcpSt}
    {bind : BindSt} {xlat : XlatSt} {coh : CohSt} {mem : MemSt} {eng : EngSt} {belay : BelaySt} {link : LinkSt} {sw : SwSt}
    {sec : SecSt} {boot : BootSt} {err : ErrSt} {pair : PairSt} {halt : HaltSt} {ctr : CtrSt} {intc : IntSt} {pwr : PwrSt}
    {shown : Shown} (h : Inv t) (lines : mem.lines = t.mem.lines := by rfl) (coil : mem.coil = t.mem.coil := by rfl)
    (active : pair.active = t.pair.active := by rfl) (stage : boot.stage = t.boot.stage := by rfl)
    (creds : sec.creds = t.sec.creds := by rfl) :
    Inv (State.mk p o d f w tm kcp bind xlat coh mem eng belay link sw sec boot err pair halt ctr intc pwr shown) := by
  obtain ⟨form, act, stg, crd⟩ := h
  exact ⟨KeepsForm.same lines coil form, active ▸ act, stage ▸ stg, creds ▸ crd⟩

theorem Inv.ite {c : Prop} [Decidable c] (h : Inv s) (k : Inv t) : Inv (if c then s else t) := by split <;> assumption

theorem Inv.ite2 {α : Type} {s t : α × State} {c : Prop} [Decidable c] (h : Inv s.2) (k : Inv t.2) :
    Inv (if c then s else t).2 := by split <;> assumption

theorem Inv.ite3 {α β : Type} {s t : α × β × State} {c : Prop} [Decidable c] (h : Inv s.2.2) (k : Inv t.2.2) :
    Inv (if c then s else t).2.2 := by split <;> assumption

theorem Inv.foldl {β : Type} {g : State → β → State} {l : List β} (hg : ∀ u a, Inv u → Inv (g u a)) (h : Inv s) :
    Inv (l.foldl g s) := by
  induction l generalizing s with
  | nil => exact h
  | cons a l ih => exact ih (hg s a h)

theorem Inv.foldl2 {α β : Type} {s : α × State} {g : α × State → β → α × State} {l : List β}
    (hg : ∀ u a, Inv u.2 → Inv (g u a).2) (h : Inv s.2) : Inv (l.foldl g s).2 := by
  induction l generalizing s with
  | nil => exact h
  | cons a l ih => exact ih (hg s a h)

/-- The state of a pair that a pattern has taken apart. -/
theorem Inv.ofPair {α : Type} {p : α × State} {a : α} (e : p = (a, s)) (h : Inv p.2) : Inv s := by subst e; exact h

theorem Inv.ofTriple {α β : Type} {p : α × β × State} {a : α} {b : β} (e : p = (a, b, s)) (h : Inv p.2.2) : Inv s := by
  subst e; exact h

/-- The state in which a packet leaves its port, a request its window's check, an answer its forward record. -/
def Ingress.state : Ingress → State
  | .stops s => s
  | .goes _ _ s => s

def Window.state : Window → State
  | .busy s => s
  | .held _ s => s

def Passing.state : Passing → State
  | .late s => s
  | .goes _ s => s

theorem Inv.ofStops {i : Ingress} (e : i = .stops s) (h : Inv i.state) : Inv s := by subst e; exact h

theorem Inv.ofGoes {i : Ingress} {rx : RxPkt} {a : Arrival} (e : i = .goes rx a s) (h : Inv i.state) : Inv s := by
  subst e; exact h

theorem Inv.ofBusy {w : Window} (e : w = .busy s) (h : Inv w.state) : Inv s := by subst e; exact h

theorem Inv.ofHeld {w : Window} {k : Option Nat} (e : w = .held k s) (h : Inv w.state) : Inv s := by subst e; exact h

theorem Inv.ofLate {w : Passing} (e : w = .late s) (h : Inv w.state) : Inv s := by subst e; exact h

theorem Inv.ofPassed {w : Passing} {k : Option Nat} (e : w = .goes k s) (h : Inv w.state) : Inv s := by subst e; exact h

/-- A command leaves a state of the invariant. -/
def KeepsInv (o : Host.Outcome State Fault Refusal) : Prop := ∀ t, o = .next t → Inv t

theorem KeepsInv.next (h : Inv s) : KeepsInv (.next s) := by rintro t ⟨⟩; exact h

theorem KeepsInv.ite {c : Prop} [Decidable c] {o q : Host.Outcome State Fault Refusal} (h : KeepsInv o) (k : KeepsInv q) :
    KeepsInv (if c then o else q) := by split <;> assumption

/-! ### Shared operations -/

theorem boundary_inv (h : Inv s) : Inv (boundary s) := .upd h

theorem draw_inv (h : Inv s) : Inv (draw s).2 := .upd h

theorem emit_inv {o : Out} (h : Inv s) : Inv (emit o s) := .upd h

theorem bump_inv {tenant index n : Nat} (h : Inv s) : Inv (bump tenant index n s) := .upd h

theorem bumpDev_inv {index n : Nat} (h : Inv s) : Inv (bumpDev index n s) := .upd h

theorem bumpBoth_inv {tenant index n : Nat} (h : Inv s) : Inv (bumpBoth tenant index n s) := by
  unfold bumpBoth
  split
  · exact bumpDev_inv (bump_inv h)
  · exact bumpDev_inv (bump_inv h)
  · exact bumpDev_inv (bump_inv h)
  · exact bump_inv h

theorem setField_inv {off lo reset v : Nat} (h : Inv s) : Inv (setField off lo reset v s) := .upd h

theorem sat_inv {off lo w n : Nat} (h : Inv s) : Inv (sat off lo w n s) := setField_inv h

theorem fire_inv {src : Nat} (h : Inv s) : Inv (fire src s) := .upd (sat_inv h)

theorem rung4_inv (h : Inv s) : Inv (rung4 s) := .upd h

/-! ### Registers -/

theorem readEffects_inv {f : RegFam} {i off : Nat} (h : Inv s) : Inv (readEffects f i off s) := by
  unfold readEffects
  split
  · exact .upd (.foldl (fun _ _ h => .ite (setField_inv h) h) h)
  · exact .upd (.foldl (fun _ _ h => .ite (setField_inv h) h) h)
  · exact .foldl (fun _ _ h => .ite (setField_inv h) h) h

theorem readReg_inv {t off : Nat} (h : Inv s) : Inv (readReg t off s).2 := by
  unfold readReg
  split
  · exact h
  · split
    · exact h
    · exact h
    · exact readEffects_inv h

/-! ### What the device sends -/

theorem newTag_inv (h : Inv s) : Inv (newTag s).2 := .upd h

theorem modPort_inv {p : Nat} {f : Port → Port} (h : Inv s) : Inv (modPort p f s) := .upd h

theorem enqueue_inv {port queue : Nat} {p : TxPkt} (h : Inv s) : Inv (enqueue port queue p s) := .ite (.upd h) (modPort_inv h)

theorem sendKcp_inv {path : Path} {p : KcpPkt} (h : Inv s) : Inv (sendKcp path p s) := by
  unfold sendKcp
  split
  · exact .ite (emit_inv h) h
  · split
    · exact .ite (emit_inv (enqueue_inv h)) h
    · exact h

theorem replicate_inv {g : Nat} {hdr : PktHdr} {payload : List Line} {tenant : Nat} (h : Inv s) :
    Inv (replicate g hdr payload tenant s) := .foldl (fun _ _ h => enqueue_inv h) h

theorem originateWith_inv {hold : Nat → Option Nat} {dst : Nat} {hdr : PktHdr} {payload : List Line} {tenant : Nat}
    (h : Inv s) :
    Inv (originateWith hold dst hdr payload tenant s) := by
  unfold originateWith
  split
  · refine .ite ?_ h
    refine enqueue_inv ?_
    split
    · exact .upd h
    · exact h
  · exact h

theorem originate_inv {dst tenant : Nat} {hdr : PktHdr} {payload : List Line} (h : Inv s) :
    Inv (originate dst hdr payload tenant s) := originateWith_inv h

theorem freePair_inv {k : Option Nat} (h : Inv s) : Inv (freePair k s) := by
  unfold freePair
  split
  · exact .upd h
  · exact h

theorem request_inv {q dst : Nat} {hdr : PktHdr} {payload : List Line} {tenant : Nat} (h : Inv s) :
    Inv (request q dst hdr payload tenant s) := originateWith_inv h

theorem sendWaiting_inv {x : Nat × Nat × PktHdr × Nat} (h : Inv s) : Inv (sendWaiting x s) :=
  .ite (.upd h) (request_inv (newTag_inv h))

theorem pumpOutbox_inv (h : Inv s) : Inv (pumpOutbox s) := .foldl (fun _ _ h => sendWaiting_inv h) (.upd h)

theorem modSession_inv {id : Nat} {f : Session → Session} (h : Inv s) : Inv (modSession id f s) := .upd h

theorem eventTo_inv {ss : Session} {code subject fmt' frac : Nat} {detail : List Byte} (h : Inv s) :
    Inv (eventTo ss code subject fmt' frac detail s) := .ite (modSession_inv h) (sendKcp_inv (modSession_inv h))

theorem eventAt_inv {code subject fmt' frac : Nat} {to? : Nat → Bool} {detail : List Byte} (h : Inv s) :
    Inv (eventAt code subject fmt' frac to? detail s) := .foldl (fun _ _ h => eventTo_inv h) h

theorem event_inv {code subject : Nat} {to? : Nat → Bool} {detail : List Byte} (h : Inv s) :
    Inv (event code subject to? detail s) := eventAt_inv h

theorem commandDone_inv {session seq opcode status : Nat} {rest : List Byte} (h : Inv s) :
    Inv (commandDone session seq opcode status rest s) := by
  unfold commandDone
  split
  · exact .ite (eventTo_inv h) h
  · exact h

theorem errWrite_inv {r : ErrRec} {quadrant sub : Nat} (h : Inv s) : Inv (errWrite r quadrant sub s) := by
  unfold errWrite
  refine .ite (sat_inv (.ite (.upd h) (.upd (.upd h)))) ?_
  refine eventAt_inv ?_
  split
  · exact fire_inv (.upd (.ite (.upd h) (.upd (.upd h))))
  · exact .upd (.ite (.upd h) (.upd (.upd h)))

theorem endHandling_inv {kind unit : Nat} (h : Inv s) : Inv (endHandling kind unit s) := .upd h

theorem detect_inv {r : ErrRec} {nested q sub : Nat} (h : Inv s) : Inv (detect r nested q sub s).2 :=
  .ite (errWrite_inv h) (.upd (endHandling_inv (errWrite_inv h)))

theorem recordError_inv {r : ErrRec} {q sub : Nat} (h : Inv s) : Inv (recordError r q sub s) := detect_inv h

/-! ### Blocks on lanes -/

theorem sendBlocks_inv {l : Nat} {ws : List Blk} (h : Inv s) : Inv (sendBlocks l ws s) := .upd h

theorem sendBlock_inv {l : Nat} {w : Blk} (h : Inv s) : Inv (sendBlock l w s) := emit_inv (sendBlocks_inv h)

theorem restartStream_inv {l : Nat} (h : Inv s) : Inv (restartStream l s) := .upd h

theorem sendFill_inv {l n : Nat} (h : Inv s) : Inv (sendFill l n s) := sendBlocks_inv (.upd h)

theorem sendTrainBlock_inv {l : Nat} {w : Blk} (h : Inv s) : Inv (sendTrainBlock l w s) := sendBlock_inv (sendFill_inv h)

theorem keepPace_inv {p : Nat} (h : Inv s) : Inv (keepPace p s) := by
  unfold keepPace
  split
  · exact .ite h (.foldl (fun _ _ h => sendFill_inv h) h)
  · exact h

theorem deal_inv {p : Nat} {ws : List Blk} (h : Inv s) : Inv (deal p ws s) :=
  keepPace_inv (modPort_inv (.foldl (fun _ _ h => sendBlocks_inv h) h))

theorem fillRow_inv {p : Nat} (h : Inv s) : Inv (fillRow p s) := .ite h (deal_inv h)

theorem sendOnPort_inv {p : Nat} {f : Flit} (h : Inv s) : Inv (sendOnPort p f s) := emit_inv (deal_inv h)

theorem sendControl_inv {p i : Nat} {w : Blk} (h : Inv s) : Inv (sendControl p i w s) := by
  unfold sendControl
  split
  · exact emit_inv (.foldl (fun _ _ h => sendFill_inv h) (sendBlocks_inv h))
  · exact emit_inv (deal_inv (fillRow_inv h))

theorem sendPattern_inv {l rate : Nat} {p13 : Bool} {marks : Nat} (h : Inv s) : Inv (sendPattern l rate p13 marks s) :=
  emit_inv h

/-! ### The Keakin command protocol -/

theorem writeJournal_inv {j : JournalRec} (h : Inv s) : Inv (writeJournal j s) := .upd h

theorem applyOnce_inv {session seq : Nat} {step : JStep} {f : State → State} (hf : ∀ s, Inv s → Inv (f s)) (h : Inv s) :
    Inv (applyOnce session seq step f s) := .ite (hf _ (writeJournal_inv h)) h

theorem reply_inv {session tenant seq opcode : Nat} {cache : Bool} {body : List Byte} (h : Inv s) :
    Inv (reply session tenant seq opcode cache body s) := by
  unfold reply
  dsimp only
  split
  · exact .ite (.upd h) h
  · exact .ite (modSession_inv (sendKcp_inv (.ite (.upd h) h))) (sendKcp_inv (.ite (.upd h) h))

theorem finish_inv {r : Running} {st : Nat} {res : List Byte} (h : Inv s) : Inv (finish r st res s) := reply_inv (.upd h)

theorem rewait_inv {r : Running} {w : Wait} (h : Inv s) : Inv (rewait r w s) := .upd h

theorem ringPlace_inv {path : Path} {p : KcpPkt} {tenant : Nat} {parked : Bool} (h : Inv s) :
    Inv (ringPlace path p tenant parked s) := by
  unfold ringPlace
  dsimp only
  split
  · exact fire_inv (.upd h)
  · exact fire_inv (.upd h)

theorem ringDrop_inv {session seq : Nat} (h : Inv s) : Inv (ringDrop session seq s) := .upd h

theorem takeNumber_inv {c : Cmd} (h : Inv s) : Inv (takeNumber c s) := modSession_inv (.upd (ringDrop_inv h))

theorem answer_inv {op : Nat} {c : Cmd} {echo : List Byte} {a : Answer} (h : Inv s) : Inv (answer op c echo a s) := by
  unfold answer
  split
  · exact reply_inv h
  · exact reply_inv h
  · exact reply_inv h
  · exact .upd h

theorem park_inv {op : Nat} {c : Cmd} {ss : Session} (h : Inv s) : Inv (park op c ss s) :=
  .ite (.upd h) (.ite (reply_inv h) (ringPlace_inv h))

theorem kcpTake_inv {op : Nat} {c : Cmd} {echo : List Byte} {body : State → Answer × State} (hbody : ∀ s, Inv s → Inv (body
    s).2) (h : Inv s) :
    Inv (kcpTake op c echo body s) := by
  unfold kcpTake
  dsimp only
  refine .ite h ?_
  split
  · exact ringDrop_inv h
  · refine .ite (ringDrop_inv h) ?_
    refine .ite (park_inv h) ?_
    refine .ite h ?_
    split
    · exact answer_inv (takeNumber_inv h)
    · exact answer_inv (hbody _ (takeNumber_inv h))

theorem kcpNow_inv {op : Nat} {c : Cmd} {echo : List Byte} {body : State → Nat × List Byte × State} (hbody : ∀ s, Inv s → Inv
    (body s).2.2) (h : Inv s) :
    Inv (kcpNow op c echo body s) := kcpTake_inv (fun _ h => hbody _ h) h

theorem closeSession_inv {id cause : Nat} (h : Inv s) : Inv (closeSession id cause s) := by
  unfold closeSession
  split
  · exact h
  · exact event_inv (.foldl (fun _ _ h => fire_inv h) (.upd (.upd h)))

theorem execOpenSession_inv {path : Path} {c : Cmd} (h : Inv s) : KeepsInv (execOpenSession path c s) := by
  unfold execOpenSession
  refine .ite (.next (kcpNow_inv (fun _ h => h) h)) (.ite (.next h) ?_)
  extract_lets t send k₀ k₁ u
  have k : Inv u := .upd h
  clear_value u
  refine .ite (.next (sendKcp_inv k)) (.ite (.next (sendKcp_inv k)) (.ite (.next (sendKcp_inv k)) ?_))
  split
  · exact .next (sendKcp_inv k)
  · exact .ite (.next (sendKcp_inv k)) (.next (sendKcp_inv (.upd (draw_inv (draw_inv k)))))

theorem execCloseSession_inv {c : Cmd} (h : Inv s) : KeepsInv (execCloseSession c s) :=
  .next (.ite (closeSession_inv (kcpNow_inv (fun _ h => h) h)) (kcpNow_inv (fun _ h => h) h))

theorem execSessionIdleTimeout_inv {session : Nat} (h : Inv s) : KeepsInv (execSessionIdleTimeout session s) := by
  unfold execSessionIdleTimeout
  split
  · exact .ite (.next (closeSession_inv h)) (.next h)
  · exact .next h

theorem execSessionOpenTimeout_inv {session : Nat} (h : Inv s) : KeepsInv (execSessionOpenTimeout session s) := by
  unfold execSessionOpenTimeout
  split
  · exact .ite (.next (closeSession_inv h)) (.next h)
  · exact .next h

theorem execNop_inv {c : Cmd} (h : Inv s) : KeepsInv (execNop c s) := .next (kcpNow_inv (fun _ h => h) h)

theorem execUnknownOpcode_inv {c : Cmd} {opcode : Nat} (h : Inv s) : KeepsInv (execUnknownOpcode c opcode s) :=
  .ite (.next h) (.next (kcpTake_inv (fun _ h => h) h))

theorem execDiscover_inv {c : Cmd} (h : Inv s) : KeepsInv (execDiscover c s) := .next (kcpNow_inv (fun _ h => h) h)

theorem execSubscribeEvents_inv {c : Cmd} (h : Inv s) : KeepsInv (execSubscribeEvents c s) :=
  .next (kcpNow_inv (fun _ h => modSession_inv h) h)

theorem ethCount_inv {path : Path} {reg lo : Nat} (h : Inv s) : Inv (ethCount path reg lo s) := by
  unfold ethCount
  split
  · exact sat_inv h
  · exact h

theorem ackEvents_inv {id n : Nat} (h : Inv s) : Inv (ackEvents id n s) := modSession_inv h

theorem verified_inv {path : Path} {p : KcpPkt} (h : Inv s) : Inv (verified path p s) := modSession_inv h

theorem receiveCommand_inv {path : Path} {p : KcpPkt} {ss : Session} (h : Inv s) : Inv (receiveCommand path p ss s) := by
  unfold receiveCommand
  refine .ite ?_ (.ite (reply_inv h) (.ite h (.ite (ethCount_inv (reply_inv h)) (.ite (ringPlace_inv h) (.ite (reply_inv h)
    (ringPlace_inv h))))))
  split
  · exact sendKcp_inv h
  · exact .ite (reply_inv h) h

theorem receiveKcp_inv {path : Path} {info : Option EthInfo} {p : KcpPkt} (h : Inv s) : Inv (receiveKcp path info p s) := by
  unfold receiveKcp
  refine .ite h ?_
  refine .ite (bumpDev_inv h) ?_
  refine .ite (.ite (ethCount_inv h) h) ?_
  refine .ite (ethCount_inv h) ?_
  refine .ite ?_ ?_
  · refine .ite (ethCount_inv (sendKcp_inv h)) ?_
    refine ringPlace_inv ?_
    split
    · exact fire_inv h
    · exact h
  · split
    · exact ethCount_inv h
    · refine .ite (ethCount_inv h) ?_
      refine .ite ?_ ?_
      · refine ackEvents_inv ?_
        refine verified_inv ?_
        split
        · exact fire_inv h
        · exact h
      · refine receiveCommand_inv ?_
        refine verified_inv ?_
        split
        · exact fire_inv h
        · exact h

theorem execKcpPacketReceived_inv {path : Path} {info : Option EthInfo} {p : KcpPkt} (h : Inv s) :
    KeepsInv (execKcpPacketReceived path info p s) := .next (receiveKcp_inv h)

theorem execEventAcknowledgement_inv {path : Path} {p : KcpPkt} (h : Inv s) : KeepsInv (execEventAcknowledgement path p s) :=
  .next (receiveKcp_inv h)

theorem execEventResend_inv {session : Nat} (h : Inv s) : KeepsInv (execEventResend session s) := by
  unfold execEventResend
  split
  · exact .next h
  · split
    · exact .next h
    · exact .ite (.next (modSession_inv (sendKcp_inv h))) (.next h)

theorem execArpRequest_inv {port target mac : Nat} (h : Inv s) : KeepsInv (execArpRequest port target mac s) :=
  .ite (.next (emit_inv h)) (.next h)

theorem execNeighbourSolicitation_inv {port target mac : Nat} (h : Inv s) :
    KeepsInv (execNeighbourSolicitation port target mac s) := .ite (.next (emit_inv h)) (.next h)

theorem execEthFrameDiscard_inv {i : EthInfo} (h : Inv s) : KeepsInv (execEthFrameDiscard i s) :=
  .ite (.next (sat_inv h)) (.next h)

/-! ### The Belay unit -/

theorem modCore_inv {c : Nat} {f : Core → Core} (h : Inv s) : Inv (modCore c f s) := .upd h

theorem putCtx_inv {c k : Nat} {x : Option Ctx} (h : Inv s) : Inv (putCtx c k x s) := modCore_inv h

theorem mapCtxs_inv {f : Nat → Nat → Ctx → Ctx} (h : Inv s) : Inv (mapCtxs f s) := .upd h

theorem putKnot_inv {k : Nat} {x : Knot} (h : Inv s) : Inv (putKnot k x s) := .upd h

theorem releaseKnot_inv {k : Nat} (h : Inv s) : Inv (releaseKnot k s) := .ite (.upd h) (mapCtxs_inv h)

theorem knotTest_inv {k : Nat} (h : Inv s) : Inv (knotTest k s) :=
  .ite h (.ite (releaseKnot_inv (putKnot_inv h)) (releaseKnot_inv (putKnot_inv h)))

theorem countOverflow_inv {k : Nat} (h : Inv s) : Inv (countOverflow k s) := by
  unfold countOverflow
  split
  · exact sat_inv h
  · exact h

theorem knotAdd_inv {k n : Nat} (h : Inv s) : Inv (knotAdd k n s) :=
  .ite (putKnot_inv (.ite h (countOverflow_inv h))) (putKnot_inv h)

theorem knotDiscard_inv {k : Nat} (h : Inv s) : Inv (knotDiscard k s) := .upd h

theorem knotIncrement_inv {k n : Nat} (h : Inv s) : Inv (knotIncrement k n s) :=
  .ite (knotDiscard_inv h) (knotTest_inv (knotAdd_inv (.upd h)))

theorem knotWrite_inv {k : Nat} {clear : Bool} {armed reload : Option Bool} {target : Option Nat} (h : Inv s) :
    Inv (knotWrite k clear armed reload target s) := .ite h (knotTest_inv (putKnot_inv h))

theorem knotWriteWord_inv {k cfg : Nat} (h : Inv s) : Inv (knotWriteWord k cfg s) := knotWrite_inv h

theorem execKnotArm_inv {knot cfg : Nat} (h : Inv s) : KeepsInv (execKnotArm knot cfg s) := .next (knotWrite_inv h)

theorem execKnotDisarm_inv {knot cfg : Nat} (h : Inv s) : KeepsInv (execKnotDisarm knot cfg s) := .next (knotWrite_inv h)

theorem execKnotClear_inv {knot : Nat} (h : Inv s) : KeepsInv (execKnotClear knot s) :=
  .next (.ite h (knotTest_inv (putKnot_inv h)))

theorem execKnotIncrement_inv {knot n : Nat} (h : Inv s) : KeepsInv (execKnotIncrement knot n s) := .next (knotIncrement_inv h)

theorem execKnotRead_inv {c : Cmd} (h : Inv s) : KeepsInv (execKnotRead c s) := .next (kcpNow_inv (fun _ h => .ite3 h h) h)

theorem knotFireNow_inv {k : Nat} (h : Inv s) : Inv (knotFireNow k s) :=
  .ite (knotTest_inv (releaseKnot_inv (putKnot_inv h))) (releaseKnot_inv (putKnot_inv h))

theorem execKnotSet_inv {c : Cmd} (h : Inv s) : KeepsInv (execKnotSet c s) := by
  unfold execKnotSet
  refine .next ?_
  refine kcpNow_inv (fun _ h => ?_) h
  refine .ite3 h ?_
  refine .ite3 h ?_
  refine recordError_inv ?_
  split
  · exact knotWriteWord_inv (putKnot_inv h)
  · exact applyOnce_inv (fun _ h => knotTest_inv (knotAdd_inv h)) h
  · exact applyOnce_inv (fun _ h => knotFireNow_inv h) h

theorem execConfigureBarrier_inv {c : Cmd} (h : Inv s) : KeepsInv (execConfigureBarrier c s) := by
  unfold execConfigureBarrier
  dsimp only
  refine .next ?_
  refine kcpNow_inv (fun _ h => ?_) h
  refine .ite3 h ?_
  refine .ite3 h ?_
  refine .ite3 h ?_
  split
  · exact h
  · exact .upd h

theorem modGang_inv {g : Nat} {f : Gang → Gang} (h : Inv s) : Inv (modGang g f s) := .upd h

theorem releaseBarrier_inv {g : Gang} {kind core stage : Nat} (h : Inv s) : Inv (releaseBarrier g kind core stage s) :=
  modGang_inv (mapCtxs_inv h)

theorem fbarCount_inv {g : Nat} (h : Inv s) : Inv (fbarCount g s) :=
  .ite h (.ite (recordError_inv h) (.ite (setField_inv h) (.ite (replicate_inv (newTag_inv (.foldl (fun _ _ h => .foldl (fun _ _
    h => mapCtxs_inv h) h) (setField_inv (setField_inv h))))) (sendWaiting_inv (setField_inv h)))))

theorem fbarReleaseHere_inv {g : Nat} (h : Inv s) : Inv (fbarReleaseHere g s) :=
  .foldl (fun _ _ h => modGang_inv h) (mapCtxs_inv (setField_inv h))

theorem arriveBarrier_inv {core k : Nat} {x : Ctx} (h : Inv s) : Inv (arriveBarrier core k x s) := by
  unfold arriveBarrier
  dsimp only
  split
  · exact h
  · split
    · exact putCtx_inv (modGang_inv h)
    · split
      · exact .ite (releaseBarrier_inv (modGang_inv h)) (modGang_inv h)
      · exact .upd (modGang_inv h)
      · exact .ite (fbarCount_inv (modGang_inv h)) (modGang_inv h)
      · exact modGang_inv h

theorem gateArrive_inv {core k : Nat} {x : Ctx} (h : Inv s) : Inv (gateArrive core k x s) := by
  unfold gateArrive
  dsimp only
  refine .ite (putCtx_inv h) ?_
  split
  · exact putCtx_inv h
  · exact .ite (putCtx_inv h) (putCtx_inv h)
  · exact .ite (putCtx_inv (modCore_inv h)) (putCtx_inv h)
  · exact arriveBarrier_inv (putCtx_inv h)

theorem setFlag_inv {core f : Nat} (h : Inv s) : Inv (setFlag core f s) := by
  unfold setFlag
  dsimp only
  split
  · exact putCtx_inv h
  · exact modCore_inv h

theorem breakBarriers_inv {core : Nat} {x : Ctx} {status : Nat} (h : Inv s) : Inv (breakBarriers core x status s) := by
  unfold breakBarriers
  split
  · exact h
  · exact .ite h (mapCtxs_inv (recordError_inv (sat_inv (modGang_inv h))))

theorem execBightLineRise_inv {line : Nat} (h : Inv s) : KeepsInv (execBightLineRise line s) :=
  .ite (.next h) (.next (.upd (.foldl (fun _ _ h => modGang_inv h) (mapCtxs_inv h))))

theorem fbarDisable_inv {g : Nat} (h : Inv s) : Inv (fbarDisable g s) := setField_inv (setField_inv h)

theorem execFbarDisable_inv {group : Nat} (h : Inv s) : KeepsInv (execFbarDisable group s) := .next (fbarDisable_inv h)

/-! ### Stacked memory and the coil -/

theorem modStrand_inv {st : Nat} {f : Strand → Strand} (h : Inv s) : Inv (modStrand st f s) := .upd h

theorem touchTimes_inv {n line : Nat} (h : Inv s) : Inv (touchTimes n line s) := modStrand_inv h

theorem touch_inv {line : Nat} (h : Inv s) : Inv (touch line s) := touchTimes_inv h

theorem flipUsed_inv {st : Nat} (h : Inv s) : Inv (flipUsed st s) := setField_inv (setField_inv h)

theorem writeStrand_inv {line : Nat} {data : Line} {poison : Bool} (h : Inv s) : Inv (writeStrand line data poison s) :=
  (writeStrand_quiet (.refl s)).inv h

theorem logCured_inv {line source refetches : Nat} (h : Inv s) : Inv (logCured line source refetches s) :=
  .upd (.ite (sat_inv h) h)

theorem memRecord_inv {source rung kind unit st address : Nat} (h : Inv s) :
    Inv (memRecord source rung kind unit st address s) := recordError_inv h

theorem uncured_inv {line : Nat} {f : Fetches} (h : Inv s) : Inv (uncured line f s) := by
  unfold uncured
  refine memRecord_inv ?_
  refine sat_inv ?_
  refine writeStrand_inv ?_
  split
  · exact .ite2 h (draw_inv h)
  · exact h

theorem readStrand_inv {line source : Nat} {scrub : Bool} {f : Fetches} (h : Inv s) :
    Inv (readStrand line source scrub f s).2 := by
  unfold readStrand
  dsimp only
  split
  · exact .ite2 (sat_inv (touchTimes_inv (.ite (flipUsed_inv h) h))) (uncured_inv (touchTimes_inv (.ite (flipUsed_inv h) h)))
  · split
    · exact .ite2 (sat_inv (touchTimes_inv (.ite (flipUsed_inv h) h))) (uncured_inv (touchTimes_inv (.ite (flipUsed_inv h) h)))
    · exact .ite2 (sat_inv (.ite (touchTimes_inv (.ite (flipUsed_inv h) h)) (logCured_inv (sat_inv (touchTimes_inv (.ite
        (flipUsed_inv h) h)))))) (.ite (touchTimes_inv (.ite (flipUsed_inv h) h)) (logCured_inv (sat_inv (touchTimes_inv (.ite
        (flipUsed_inv h) h)))))

theorem coilSet_inv {line : Nat} {c : Option CoilLine} (h : Inv s) : Inv (coilSet line c s) :=
  (coilSet_quiet (.refl s)).inv h

theorem coilEvict_inv {line : Nat} (h : Inv s) : Inv (coilEvict line s) := by
  unfold coilEvict
  split
  · exact h
  · exact .ite (writeStrand_inv (coilSet_inv h)) (coilSet_inv h)

theorem coilAllocate_inv {tenant line : Nat} {data : Line} {dirty poison : Bool} (h : Inv s) :
    Inv (coilAllocate tenant line data dirty poison s) := by
  unfold coilAllocate
  dsimp only
  split
  · exact coilSet_inv h
  · split
    · exact .ite (writeStrand_inv (draw_inv h)) (draw_inv h)
    · exact coilSet_inv (coilEvict_inv (draw_inv h))

theorem homeRead_inv {tenant line : Nat} {link : Bool} {source : Nat} {f : Fetches} (h : Inv s) :
    Inv (homeRead tenant line link source f s).2 := by
  unfold homeRead
  dsimp only
  split
  · exact bump_inv h
  · exact .ite2 (coilAllocate_inv (readStrand_inv (bump_inv h))) (readStrand_inv (bump_inv h))

theorem homeWrite_inv {tenant line : Nat} {data : Line} {poison link : Bool} (h : Inv s) :
    Inv (homeWrite tenant line data poison link s) := by
  unfold homeWrite
  dsimp only
  split
  · exact coilSet_inv (bump_inv h)
  · exact .ite (coilAllocate_inv (bump_inv h)) (writeStrand_inv (bump_inv h))

theorem drawFetches_inv (h : Inv s) : Inv (drawFetches s).2 := draw_inv h

theorem poisonHome_inv {line : Nat} (h : Inv s) : Inv (poisonHome line s) := by
  unfold poisonHome
  split
  · exact coilSet_inv (writeStrand_inv h)
  · exact .ite (readStrand_inv (drawFetches_inv h)) (writeStrand_inv (readStrand_inv (drawFetches_inv h)))

theorem modBank_inv {st bank : Nat} {f : Bank → Bank} (h : Inv s) : Inv (modBank st bank f s) := modStrand_inv h

theorem dropClaims_inv {test : Nat × Nat × Nat → Bool} (h : Inv s) : Inv (dropClaims test s) := .upd h

theorem slicePaid_inv {st : Nat} (h : Inv s) : Inv (slicePaid st s) := dropClaims_inv (modStrand_inv h)

theorem sliceRestarts_inv {st : Nat} (h : Inv s) : Inv (sliceRestarts st s) := dropClaims_inv (modStrand_inv h)

theorem claimMarks_inv {st bank : Nat} (h : Inv s) : Inv (claimMarks st bank s) := .ite h (.upd h)

theorem refreshNow_inv {st bank : Nat} (h : Inv s) : Inv (refreshNow st bank s) := modBank_inv h

theorem refreshCommand_inv {st bank : Nat} (h : Inv s) : Inv (refreshCommand st bank s) :=
  .ite h (.ite (refreshNow_inv (modStrand_inv h)) (.ite (claimMarks_inv (modBank_inv (modStrand_inv h))) (modBank_inv
    (modStrand_inv h))))

theorem execRefreshCommand_inv {strand bank : Nat} (h : Inv s) : KeepsInv (execRefreshCommand strand bank s) :=
  .next (refreshCommand_inv h)

theorem payOne_inv {st : Nat} (h : Inv s) : Inv (payOne st s) := by
  unfold payOne
  dsimp only
  split
  · exact modBank_inv (refreshNow_inv h)
  · exact h

theorem sliceMark_inv {st : Nat} (h : Inv s) : Inv (sliceMark st s) :=
  .ite h (payOne_inv (payOne_inv (.foldl (fun _ _ h => .ite (claimMarks_inv h) h) h)))

theorem slicesMark_inv (h : Inv s) : Inv (slicesMark s) := .foldl (fun _ _ h => sliceMark_inv h) (dropClaims_inv h)

theorem execRefreshWindowStart_inv {strand bank : Nat} (h : Inv s) : KeepsInv (execRefreshWindowStart strand bank s) :=
  .next (.ite (setField_inv (modStrand_inv h)) (modStrand_inv h))

theorem execNeighbourRefresh_inv {strand bank row : Nat} (h : Inv s) : KeepsInv (execNeighbourRefresh strand bank row s) :=
  .ite (.next h) (.next (sat_inv (modStrand_inv h)))

theorem execScrubRead_inv {strand : Nat} {f : Fetches} (h : Inv s) : KeepsInv (execScrubRead strand f s) :=
  .ite (.next h) (.next (modStrand_inv (readStrand_inv h)))

theorem stackTemp_inv {stack temp : Nat} (h : Inv s) : Inv (stackTemp stack temp s) :=
  .ite (recordError_inv (.ite (fire_inv (.foldl (fun _ _ h => modStrand_inv h) (.upd h))) (.foldl (fun _ _ h => modStrand_inv h)
    (.upd h)))) (.ite (fire_inv (.foldl (fun _ _ h => modStrand_inv h) (.upd h))) (.foldl (fun _ _ h => modStrand_inv h) (.upd
    h)))

theorem execRefreshRateChange_inv {stack temp : Nat} (h : Inv s) : KeepsInv (execRefreshRateChange stack temp s) :=
  .next (.ite h (stackTemp_inv h))

theorem flipArm_inv {st mode : Nat} (h : Inv s) : Inv (flipArm st mode s) := setField_inv (setField_inv h)

theorem execFlipArmNextWrite_inv {strand : Nat} (h : Inv s) : KeepsInv (execFlipArmNextWrite strand s) := .next (flipArm_inv h)

theorem execFlipArmNextRead_inv {strand : Nat} (h : Inv s) : KeepsInv (execFlipArmNextRead strand s) := .next (flipArm_inv h)

theorem execFlipDisarm_inv {strand : Nat} (h : Inv s) : KeepsInv (execFlipDisarm strand s) := .next (flipArm_inv h)

/-! ### Packets on their way in and out -/

theorem modCong_inv {p : Nat} {f : Congestion → Congestion} (h : Inv s) : Inv (modCong p f s) := .upd h

theorem countDrop_inv {p : Nat} (h : Inv s) : Inv (countDrop p s) := modCong_inv h

theorem countLostPkt_inv {p : Nat} (h : Inv s) : Inv (countLostPkt p s) := .upd h

theorem congestionMark_inv {p : Nat} {x : Port} (h : Inv s) : Inv (congestionMark p x s) := modCong_inv h

theorem oweFlits_inv {p vc n : Nat} (h : Inv s) : Inv (oweFlits p vc n s) := modPort_inv h

theorem oweRest_inv {p : Nat} {hdr : PktHdr} {freed : Nat} (h : Inv s) : Inv (oweRest p hdr freed s) := .ite h (oweFlits_inv h)

theorem oweCredits_inv {p : Nat} {hdr : PktHdr} (h : Inv s) : Inv (oweCredits p hdr s) := oweRest_inv h

theorem keepPacket_inv {rx : RxPkt} {a : Arrival} (h : Inv s) : Inv (keepPacket rx a s) := modPort_inv h

theorem arrive_inv {rx : RxPkt} (h : Inv s) : Inv (arrive rx s).2 := .ite h (.upd h)

theorem keepFresh_inv {rx : RxPkt} {a : Arrival} (h : Inv s) : Inv (keepFresh rx a s) := .ite h (modPort_inv (keepPacket_inv h))

theorem takeArrived_inv {rx : RxPkt} (h : Inv s) : Inv (takeArrived rx s) := by
  unfold takeArrived
  split
  · exact .ite (oweCredits_inv (modPort_inv h)) (modPort_inv h)
  · exact h

theorem takeForward_inv {rx : RxPkt} (h : Inv s) : Inv (takeForward rx s).2 := by
  unfold takeForward
  split
  · exact modPort_inv h
  · exact h

theorem leaveBuffer_inv {k : TxPkt} (h : Inv s) : Inv (leaveBuffer k s) := by
  unfold leaveBuffer
  split
  · exact h
  · exact .ite h (oweRest_inv h)

theorem flitLeaves_inv {k : TxPkt} (h : Inv s) : Inv (flitLeaves k s).2 := by
  unfold flitLeaves
  split
  · exact h
  · exact .ite2 h (.ite2 (modPort_inv (oweFlits_inv h)) (oweFlits_inv h))

theorem park'_inv {rx : RxPkt} (h : Inv s) : Inv (park' rx s) := .upd h

theorem stampEpoch_inv {p : Nat} {hdr : PktHdr} (h : Inv s) : Inv (stampEpoch p hdr s).2 := .ite h (.upd h)

theorem stamped_inv {rx : RxPkt} (h : Inv s) : Inv (stamped rx s).2 := .ite2 h (stampEpoch_inv h)

theorem ingress_inv {rx : RxPkt} (h : Inv s) : Inv (ingress rx s).state := by
  have k : Inv (stamped rx s).2 := stamped_inv h
  unfold ingress
  split
  · exact h
  · dsimp only
    split
    · exact .ite k (park'_inv (keepFresh_inv (arrive_inv k)))
    · split
      · exact bumpDev_inv (takeArrived_inv k)
      · exact arrive_inv k

theorem window_inv {rx : RxPkt} (h : Inv s) : Inv (window rx s).state := by
  unfold window
  dsimp only
  split_ifs
  · exact h
  · exact modCong_inv h
  · exact .upd h
  · exact modCong_inv h
  · exact .upd h

theorem passBack_inv {p : Nat} {hdr : PktHdr} (h : Inv s) : Inv (passBack p hdr s).state := by
  unfold passBack
  split
  · exact h
  · split
    · exact .upd h
    · split
      · exact modCong_inv (.upd h)
      · exact h

theorem respond_inv {rq : PktHdr} {tenant : Nat} {pair promised line : Option Nat} {due : Nat × List (Nat × Nat)} {hdr :
    PktHdr} {payload : List Line} (h : Inv s) :
    Inv (respond rq tenant pair promised line due hdr payload s) := by
  unfold respond
  split
  · exact freePair_inv h
  · exact .ite (freePair_inv (countLostPkt_inv h)) (enqueue_inv h)

theorem complete_inv {rq : PktHdr} {tenant : Nat} {pair : Option Nat} {status : Nat} (h : Inv s) :
    Inv (complete rq tenant pair status s) := respond_inv h

theorem countStatus_inv {tenant status : Nat} (h : Inv s) : Inv (countStatus tenant status s) :=
  .ite (bump_inv h) (.ite (bump_inv h) (.ite (bump_inv h) h))

theorem countDenied_inv {tenant : Nat} (h : Inv s) : Inv (countDenied tenant s) := bumpBoth_inv h

theorem signalTo_inv {q eid knot tenant : Nat} (h : Inv s) : Inv (signalTo q eid knot tenant s) :=
  .ite (.ite (knotIncrement_inv h) (knotDiscard_inv h)) (sendWaiting_inv h)

/-! ### Command shares -/

theorem draw5_inv (h : Inv s) : Inv (draw5 s).2 := draw_inv (draw_inv (draw_inv (draw_inv h)))

theorem commandRecord_inv {core k : Nat} {x : Ctx} {status : Nat} (h : Inv s) : Inv (commandRecord core k x status s).2 := by
  unfold commandRecord
  dsimp only
  exact draw5_inv h

theorem keepRecord_inv {core : Nat} {r : List Byte} (h : Inv s) : Inv (keepRecord core r s) :=
  modCore_inv (.ite (bumpDev_inv h) h)

theorem traceEntry_inv {kind status core k stage : Nat} {x : Ctx} (h : Inv s) : Inv (traceEntry kind status core k stage x s) :=
  .upd (.ite (bumpDev_inv h) h)

theorem reportShare_inv {core : Nat} {x : Ctx} {status : Nat} (h : Inv s) : Inv (reportShare core x status s) := by
  unfold reportShare
  dsimp only
  split
  · exact commandDone_inv h
  · exact commandDone_inv h
  · exact complete_inv h

theorem releaseLists_inv {g : Gang} (h : Inv s) : Inv (releaseLists g s) := mapCtxs_inv h

theorem leaveGang_inv {core gang : Nat} (h : Inv s) : Inv (leaveGang core gang s) := by
  unfold leaveGang
  split
  · exact h
  · exact .ite (.upd (.upd h)) (releaseLists_inv (modGang_inv (.upd h)))

theorem cancelProgress_inv {core : Nat} {o : Origin} (h : Inv s) : Inv (cancelProgress core o s) := by
  unfold cancelProgress
  refine .foldl (fun _ _ h => ?_) h
  split
  · exact .ite (.ite (finish_inv h) (rewait_inv h)) h
  · exact h

theorem endShare_inv {core k status : Nat} (h : Inv s) : Inv (endShare core k status s) := by
  unfold endShare
  dsimp only
  split
  · exact h
  · exact cancelProgress_inv (reportShare_inv (leaveGang_inv (.ite (putCtx_inv (fire_inv (.ite (bump_inv (bump_inv
      (traceEntry_inv (keepRecord_inv (commandRecord_inv h))))) (bump_inv (traceEntry_inv (keepRecord_inv (commandRecord_inv
      h))))))) (breakBarriers_inv (putCtx_inv (fire_inv (.ite (bump_inv (bump_inv (traceEntry_inv (keepRecord_inv
      (commandRecord_inv h))))) (bump_inv (traceEntry_inv (keepRecord_inv (commandRecord_inv h)))))))))))

theorem settleStops_inv : ∀ {n : Nat} {s : State}, Inv s → Inv (settleStops n s)
  | 0, _, h => h
  | n + 1, s, h => by
    unfold settleStops
    split
    · exact settleStops_inv (endShare_inv h)
    · exact h

theorem leaveWaits_inv {core k : Nat} (h : Inv s) : Inv (leaveWaits core k s) := .upd h

theorem dropEngineReads_inv {core k : Nat} (h : Inv s) : Inv (dropEngineReads core k s) := .ite h (.upd h)

theorem stopCtx_inv {core k status : Nat} (h : Inv s) : Inv (stopCtx core k status s) := by
  unfold stopCtx
  split
  · exact h
  · exact settleStops_inv (dropEngineReads_inv (leaveWaits_inv (putCtx_inv h)))

theorem stopAll_inv {l : List (Nat × Nat)} {status : Nat} (h : Inv s) : Inv (stopAll l status s) :=
  .foldl (fun _ _ h => stopCtx_inv h) h

theorem endQueued_inv {core : Nat} {sh : Share} {status : Nat} (h : Inv s) : Inv (endQueued core sh status s) :=
  settleStops_inv (cancelProgress_inv (reportShare_inv (fire_inv (leaveGang_inv (breakBarriers_inv (.ite (bump_inv (bump_inv
    (modCore_inv h))) (bump_inv (modCore_inv h))))))))

theorem engineRead_inv {core k key : Nat} {data : Line} {poison : Bool} (h : Inv s) :
    Inv (engineRead core k key data poison s) := by
  unfold engineRead
  split
  · exact h
  · split
    · exact h
    · exact putCtx_inv h

theorem engineFail_inv {core k status : Nat} (h : Inv s) : Inv (engineFail core k status s) := by
  unfold engineFail
  split
  · exact h
  · split
    · exact h
    · exact stopCtx_inv h

theorem engineWrote_inv {core k addr : Nat} (h : Inv s) : Inv (engineWrote core k addr s) := by
  unfold engineWrote
  split
  · exact h
  · exact putCtx_inv h

/-! ### Page swaps -/

theorem modTransfer_inv {id : Nat} {f : Transfer → Transfer} (h : Inv s) : Inv (modTransfer id f s) := .upd h

theorem endTransfer_inv {id status : Nat} (h : Inv s) : Inv (endTransfer id status s) := by
  unfold endTransfer
  split
  · exact h
  · exact commandDone_inv (fire_inv (.ite (.ite (knotIncrement_inv (.upd h)) (knotDiscard_inv (.upd h))) (.upd h)))

theorem chunksDone_inv {id : Nat} {cs : List Nat} (h : Inv s) : Inv (chunksDone id cs s) := by
  unfold chunksDone
  split
  · exact h
  · exact .ite h (.ite (endTransfer_inv (bump_inv (modTransfer_inv h))) (bump_inv (modTransfer_inv h)))

theorem swapSend_inv {id c : Nat} {payload : List Line} (h : Inv s) : Inv (swapSend id c payload s) := by
  unfold swapSend
  dsimp only
  split
  · exact h
  · split
    · exact .ite (request_inv (modTransfer_inv (newTag_inv h))) (endTransfer_inv h)
    · exact endTransfer_inv h

theorem pumpOut_inv {id : Nat} : ∀ {n : Nat} {s : State}, Inv s → Inv (pumpOut n id s)
  | 0, _, h => h
  | n + 1, s, h => by
    unfold pumpOut
    split
    · exact .ite (pumpOut_inv (swapSend_inv (modTransfer_inv h))) h
    · exact h

theorem swapFrameOut_inv {t : Transfer} {chunk type : Nat} {data : List Byte} (h : Inv s) :
    Inv (swapFrameOut t chunk type data s) := by
  unfold swapFrameOut
  split
  · exact h
  · split
    · exact .ite (emit_inv h) h
    · exact h

theorem swapDelivered_inv {id first status : Nat} {lines : List Line} (h : Inv s) :
    Inv (swapDelivered id first status lines s) := by
  unfold swapDelivered
  split
  · exact h
  · exact .ite (endTransfer_inv h) (.ite (pumpOut_inv (chunksDone_inv h)) (.ite (swapFrameOut_inv h) (swapSend_inv h)))

/-! ### Arbiters -/

theorem setDir_inv {line : Nat} {d : Option DirEnt} (h : Inv s) : Inv (setDir line d s) := .upd h

theorem dropBusy_inv {line : Nat} (h : Inv s) : Inv (dropBusy line s) := .upd h

theorem putBusy_inv {b : BusyLine} (h : Inv s) : Inv (putBusy b s) := .ite (.upd h) (.upd h)

theorem modTracker_inv {id : Nat} {f : Tracker → Tracker} (h : Inv s) : Inv (modTracker id f s) := .upd h

theorem dropTracker_inv {id : Nat} (h : Inv s) : Inv (dropTracker id s) := .upd h

theorem strandServed_inv {line : Nat} (h : Inv s) : Inv (strandServed line s) := by
  unfold strandServed
  split
  · exact h
  · refine .ite h ?_
    split
    · exact modStrand_inv h
    · exact h
    · exact modStrand_inv h
    · exact modStrand_inv h

theorem passCrosser_inv {a b : Nat} {me : Crosser} (h : Inv s) : Inv (passCrosser a b me s) := .ite h (.upd h)

theorem crossed_inv {rx : RxPkt} {a : Arrival} (h : Inv s) : Inv (crossed rx a s) := .foldl (fun _ _ h => passCrosser_inv h) h

theorem lineTaken_inv {line : Nat} (h : Inv s) : Inv (lineTaken line s) := by
  unfold lineTaken
  refine strandServed_inv ?_
  split
  · exact h
  · split
    · exact h
    · exact passCrosser_inv h

/-! ### The home -/

theorem modExtent_inv {base : Nat} {f : Extent → Extent} (h : Inv s) : Inv (modExtent base f s) := .upd h

theorem countLate_inv {t : Nat} (h : Inv s) : Inv (countLate t s) := sat_inv h

theorem releaseEgress_inv {p tenant : Nat} {book : List (Nat × Nat)} (h : Inv s) : Inv (releaseEgress p tenant book s) :=
  .foldl (fun _ _ h => .ite (.upd h) h) h

theorem releaseBookings_inv {t : Tracker} (h : Inv s) : Inv (releaseBookings t s) :=
  releaseEgress_inv (.foldl (fun _ _ h => .ite (.upd h) h) h)

theorem goesOutside_inv {id : Nat} (h : Inv s) : Inv (goesOutside id s) := by
  unfold goesOutside
  split
  · exact .ite (bumpBoth_inv (modTracker_inv (releaseBookings_inv h))) h
  · exact h

theorem applySignal_inv {g : PendingSig} (h : Inv s) : Inv (applySignal g s) := .ite (knotIncrement_inv h) (knotDiscard_inv h)

theorem answerTracker_inv {t : Tracker} {status : Nat} (h : Inv s) : Inv (answerTracker t status s) :=
  .ite (freePair_inv (.upd (countStatus_inv h))) (respond_inv (countStatus_inv h))

theorem settleIdem_inv {t : Tracker} {status : Nat} (h : Inv s) : Inv (settleIdem t status s) := by
  unfold settleIdem
  split
  · exact h
  · exact .foldl (fun _ _ h => respond_inv (sat_inv h)) (.upd h)

theorem deliverOnChip_inv {t : Tracker} {status : Nat} (h : Inv s) : Inv (deliverOnChip t status s) := by
  unfold deliverOnChip
  split
  · refine .ite (engineFail_inv (countStatus_inv h)) ?_
    refine .ite ?_ (.ite (engineFail_inv (engineWrote_inv (countStatus_inv h))) (engineWrote_inv (countStatus_inv h)))
    split <;> exact engineRead_inv (countStatus_inv h)
  · exact .upd h
  · exact swapDelivered_inv (countStatus_inv h)
  · exact h

theorem endTracker_inv {id : Nat} (h : Inv s) : Inv (endTracker id s) := by
  unfold endTracker
  split
  · exact h
  · split
    · exact .ite (.ite (.upd (settleIdem_inv (.ite (freePair_inv (dropTracker_inv h)) (answerTracker_inv (dropTracker_inv h)))))
        (knotDiscard_inv (settleIdem_inv (.ite (freePair_inv (dropTracker_inv h)) (answerTracker_inv (dropTracker_inv h))))))
        (settleIdem_inv (.ite (freePair_inv (dropTracker_inv h)) (answerTracker_inv (dropTracker_inv h))))
    · exact deliverOnChip_inv (dropTracker_inv h)

theorem lineDone_inv {id line : Nat} {data : Option Line} {status : Nat} (h : Inv s) :
    Inv (lineDone id line data status s) := by
  unfold lineDone
  dsimp only
  split
  · exact .ite (endTracker_inv (modTracker_inv h)) (modTracker_inv h)
  · exact modTracker_inv h

theorem fillReserve_inv {q t : Nat} (h : Inv s) : Inv (fillReserve q t s) := .foldl (fun _ _ h => setDir_inv h) h

theorem fillReserves_inv (h : Inv s) : Inv (fillReserves s) := .foldl (fun _ _ h => fillReserve_inv h) h

theorem sendSnoop_inv {line eid code : Nat} {fwd : Bool} {reqEid reqTag tenant : Nat} (h : Inv s) :
    Inv (sendSnoop line eid code fwd reqEid reqTag tenant s).2 := originate_inv (newTag_inv h)

theorem sendSnoops_inv {line code reqEid reqTag tenant : Nat} {fwd : Bool} :
    ∀ {l : List Nat} {s : State}, Inv s → Inv (sendSnoops line code fwd reqEid reqTag tenant l s).2
  | [], _, h => h
  | _ :: _, s, h => by
    unfold sendSnoops
    exact sendSnoops_inv (sendSnoop_inv h)

theorem countBroadcast_inv {d : DirEnt} {n : Nat} (h : Inv s) : Inv (countBroadcast d n s) := .ite (sat_inv h) h

theorem homeTake_inv {tenant line : Nat} {data : Line} {poison link : Bool} (h : Inv s) :
    Inv (homeTake tenant line data poison link s) := homeWrite_inv h

theorem queueOutside_inv {line : Nat} (h : Inv s) : Inv (queueOutside line s) := by
  unfold queueOutside
  split
  · exact .foldl (fun _ _ h => goesOutside_inv h) h
  · exact h

theorem absorbRelease_inv {line : Nat} {j : Job} (h : Inv s) : Inv (absorbRelease line j s) := by
  unfold absorbRelease
  split
  · refine .ite h ?_
    refine answerTracker_inv ?_
    refine dropTracker_inv ?_
    split
    · exact .ite (countLate_inv (putBusy_inv h)) (homeTake_inv (putBusy_inv h))
    · exact putBusy_inv h
  · exact h

theorem absorbReleases_inv {line : Nat} (h : Inv s) : Inv (absorbReleases line s) := by
  unfold absorbReleases
  split
  · exact .foldl (fun _ _ h => absorbRelease_inv h) h
  · exact h

theorem recallBad_inv {line : Nat} (h : Inv s) : Inv (recallBad line s) :=
  .ite (setDir_inv (poisonHome_inv (sendSnoops_inv h))) (absorbReleases_inv (queueOutside_inv (putBusy_inv (poisonHome_inv
    (sendSnoops_inv h)))))

theorem sliceHandled_inv {q : Nat} (h : Inv s) : Inv (sliceHandled q s) := .ite h (.ite (endHandling_inv h) h)

theorem badEntry_inv {line : Nat} (h : Inv s) : Inv (badEntry line s) :=
  .ite (.upd (.ite (.foldl (fun _ _ h => recallBad_inv h) (recallBad_inv (detect_inv h))) (recallBad_inv (detect_inv h))))
    (sliceHandled_inv (.ite (.foldl (fun _ _ h => recallBad_inv h) (recallBad_inv (detect_inv h))) (recallBad_inv (detect_inv
    h))))

theorem recallLine_inv {line code : Nat} (h : Inv s) : Inv (recallLine line code s) := by
  unfold recallLine
  split
  · exact .ite (badEntry_inv h) (.ite (setDir_inv (countBroadcast_inv (sendSnoops_inv h))) (putBusy_inv (countBroadcast_inv
      (sendSnoops_inv h))))
  · exact h

theorem recallFrom_inv {line eid : Nat} {d : DirEnt} (h : Inv s) : Inv (recallFrom line eid d s) := by
  unfold recallFrom
  split
  · exact putBusy_inv (countBroadcast_inv (sendSnoop_inv h))
  · exact .ite (putBusy_inv h) (.ite h (absorbReleases_inv (queueOutside_inv (putBusy_inv (countBroadcast_inv (sendSnoop_inv
      h))))))

theorem evictEntry_inv {victim : Nat} (h : Inv s) : Inv (evictEntry victim s) := by
  unfold evictEntry
  split
  · exact h
  · exact .ite (setDir_inv (countBroadcast_inv (sendSnoops_inv h))) (putBusy_inv (.upd (setDir_inv (countBroadcast_inv
      (sendSnoops_inv h)))))

theorem enterHolder_inv {line eid tenant : Nat} {owned : Bool} (h : Inv s) : Inv (enterHolder line eid tenant owned s).2 := by
  unfold enterHolder
  dsimp only
  split
  · exact .ite2 (setDir_inv (.upd h)) (.ite2 (.upd h) (.ite2 (setDir_inv (.upd h)) (setDir_inv (.upd h))))
  · split
    · exact setDir_inv (.upd (fillReserves_inv (.upd h)))
    · exact setDir_inv (.upd (evictEntry_inv (fillReserves_inv (.upd h))))
    · exact sat_inv (fillReserves_inv (.upd h))

theorem freeLine_inv {line : Nat} (h : Inv s) : Inv (freeLine line s) := by
  unfold freeLine
  split
  · exact h
  · exact .ite (dropBusy_inv (.upd h)) (putBusy_inv (.upd h))

theorem grantLine_inv {line eid tag : Nat} (h : Inv s) : Inv (grantLine line eid tag s) := by
  unfold grantLine
  split <;> exact putBusy_inv h

theorem dropEmpty_inv {line : Nat} (h : Inv s) : Inv (dropEmpty line s) := by
  unfold dropEmpty
  split
  · exact .ite (setDir_inv h) h
  · exact h

theorem serve_inv {j : Job} {t : Tracker} {data : Line} {poison : Bool} (h : Inv s) : Inv (serve j t data poison s) := by
  unfold serve
  dsimp only
  split
  · exact lineDone_inv (freeLine_inv h)
  · exact .ite (lineDone_inv (freeLine_inv (dropEmpty_inv h))) (lineDone_inv (.ite (freeLine_inv (modTracker_inv (.ite2
      (enterHolder_inv h) (dropEmpty_inv h)))) (grantLine_inv (modTracker_inv (.ite2 (enterHolder_inv h) (dropEmpty_inv h))))))
  · exact .ite (lineDone_inv (freeLine_inv (dropEmpty_inv h))) (lineDone_inv (.ite (freeLine_inv (modTracker_inv (.ite2
      (enterHolder_inv h) (dropEmpty_inv h)))) (grantLine_inv (modTracker_inv (.ite2 (enterHolder_inv h) (dropEmpty_inv h))))))
  · exact .ite (lineDone_inv (freeLine_inv h)) (lineDone_inv (freeLine_inv (homeWrite_inv h)))
  · exact .ite (lineDone_inv (freeLine_inv h)) (lineDone_inv (freeLine_inv (modTracker_inv (homeWrite_inv h))))
  · exact lineDone_inv (freeLine_inv (homeWrite_inv h))
  · exact lineDone_inv (freeLine_inv h)

theorem setPhase_inv {j : Job} {p : LinePhase} (h : Inv s) : Inv (setPhase j p s) := by
  unfold setPhase
  split <;> exact putBusy_inv h

theorem fetchOrServe_inv {j : Job} {t : Tracker} (h : Inv s) : Inv (fetchOrServe j t s) := by
  unfold fetchOrServe
  split
  · exact .ite (serve_inv (lineTaken_inv (setPhase_inv h))) (setPhase_inv h)
  · split
    · exact setPhase_inv h
    · exact serve_inv (bump_inv (.ite (goesOutside_inv h) h))
    · exact setPhase_inv h

theorem notHeldRecord_inv {line eid : Nat} (h : Inv s) : Inv (notHeldRecord line eid s) := recordError_inv h

theorem removeHolder_inv {line eid : Nat} (h : Inv s) : Inv (removeHolder line eid s) := by
  unfold removeHolder
  split
  · exact h
  · exact .ite h (.ite (setDir_inv h) (setDir_inv h))

theorem holderAnswered_inv {line : Nat} {x : Snoop} (h : Inv s) : Inv (holderAnswered line x s) :=
  .ite (.ite (notHeldRecord_inv h) h) (.ite (setDir_inv (.ite (notHeldRecord_inv h) h)) (removeHolder_inv (.ite
    (notHeldRecord_inv h) h)))

theorem snoopsDone_inv {j : Job} {t : Tracker} {xs : List Snoop} (h : Inv s) : Inv (snoopsDone j t xs s) := by
  unfold snoopsDone
  dsimp only
  split
  · exact fetchOrServe_inv h
  · split
    · refine .ite (fetchOrServe_inv (setDir_inv (.foldl (fun _ _ h => notHeldRecord_inv h) h))) ?_
      refine .ite (fetchOrServe_inv (setDir_inv h)) ?_
      split
      · split
        · exact serve_inv (bump_inv (.ite (homeTake_inv h) h))
        · exact lineDone_inv (freeLine_inv (modTracker_inv h))
      · refine lineDone_inv ?_
        refine .ite ?_ ?_
        · refine grantLine_inv ?_
          refine modTracker_inv ?_
          refine setDir_inv ?_
          refine .upd ?_
          split
          · exact homeTake_inv h
          · exact h
        · split
          · refine putBusy_inv ?_
            refine grantLine_inv ?_
            refine modTracker_inv ?_
            refine setDir_inv ?_
            refine .upd ?_
            split
            · exact homeTake_inv h
            · exact h
          · refine grantLine_inv ?_
            refine modTracker_inv ?_
            refine setDir_inv ?_
            refine .upd ?_
            split
            · exact homeTake_inv h
            · exact h
      · refine lineDone_inv ?_
        refine .ite (grantLine_inv (modTracker_inv (setDir_inv (.upd h)))) ?_
        split
        · exact putBusy_inv (grantLine_inv (modTracker_inv (setDir_inv (.upd h))))
        · exact grantLine_inv (modTracker_inv (setDir_inv (.upd h)))
      · split
        · exact serve_inv (.ite (homeTake_inv (setDir_inv h)) (setDir_inv h))
        · exact fetchOrServe_inv (setDir_inv h)
    · exact fetchOrServe_inv (setDir_inv h)
    · exact fetchOrServe_inv (setDir_inv h)

theorem recallDone_inv {line : Nat} {xs : List Snoop} {discard : Bool} (h : Inv s) : Inv (recallDone line xs discard s) := by
  unfold recallDone
  dsimp only
  split
  · exact .ite (setDir_inv (.ite (setDir_inv h) (.foldl (fun _ _ h => holderAnswered_inv h) h))) (.ite (setDir_inv h) (.foldl
      (fun _ _ h => holderAnswered_inv h) h))
  · exact .ite (setDir_inv h) (.foldl (fun _ _ h => holderAnswered_inv h) h)

theorem checkSnoops_inv {line : Nat} (h : Inv s) : Inv (checkSnoops line s) := by
  unfold checkSnoops
  dsimp only
  split
  · exact h
  · split
    · refine .ite ?_ h
      split
      · split
        · exact snoopsDone_inv (putBusy_inv h)
        · exact freeLine_inv (putBusy_inv h)
      · exact freeLine_inv (.foldl (fun _ _ h => holderAnswered_inv h) (putBusy_inv h))
    · exact .ite (sliceHandled_inv (freeLine_inv (recallDone_inv h))) (.ite (dropBusy_inv h) h)
    · exact h

theorem snoopFor_inv {j : Job} {d : DirEnt} {code : Nat} {fwd : Bool} {reqEid reqTag : Nat} {to' : List Nat} (h : Inv s) :
    Inv (snoopFor j d code fwd reqEid reqTag to' s) :=
  checkSnoops_inv (absorbReleases_inv (queueOutside_inv (goesOutside_inv (setPhase_inv (countBroadcast_inv (sendSnoops_inv
    h))))))

theorem startJob_inv {j : Job} (h : Inv s) : Inv (startJob j s) := by
  unfold startJob
  split
  · exact freeLine_inv h
  · next t _ =>
    dsimp only
    split
    · split
      · exact freeLine_inv (countLate_inv (dropTracker_inv h))
      · exact fetchOrServe_inv h
    · next d _ =>
      refine .ite ?_ ?_
      · generalize hb : badEntry j.line (putBusy _ s) = u
        have k : Inv u := hb ▸ badEntry_inv (putBusy_inv h)
        split
        · refine .ite ?_ k
          split
          · exact freeLine_inv (countLate_inv (dropTracker_inv (putBusy_inv k)))
          · exact fetchOrServe_inv (putBusy_inv k)
        · exact k
      · generalize (if (j.op == .readShared || j.op == .readOwn) && !stillBound s t then LineOp.read else j.op) = op
        generalize d.mode = mode
        have serve : Inv (fetchOrServe j t s) := fetchOrServe_inv h
        have late : Inv (freeLine j.line (countLate t.tenant (dropTracker j.tracker s))) :=
          freeLine_inv (countLate_inv (dropTracker_inv h))
        cases op with
        | read | readShared =>
          cases mode
          · exact serve
          · exact snoopFor_inv h
          · exact serve
        | readOwn =>
          cases mode
          · exact .ite serve (snoopFor_inv h)
          · exact snoopFor_inv h
          · exact .ite serve (snoopFor_inv h)
        | write _ | masked _ _ | atomic _ _ _ _ =>
          cases mode
          · exact .ite (fetchOrServe_inv (setDir_inv h)) (snoopFor_inv h)
          · exact snoopFor_inv h
          · exact .ite (fetchOrServe_inv (setDir_inv h)) (snoopFor_inv h)
        | release data poison =>
          cases mode
          · exact late
          · refine .ite (lineDone_inv (freeLine_inv (setDir_inv ?_))) late
            cases data
            · exact h
            · exact homeTake_inv h
          · exact late

theorem placeJob_inv {j : Job} (h : Inv s) : Inv (placeJob j s) := by
  unfold placeJob
  split
  · exact startJob_inv h
  · exact .ite (goesOutside_inv (putBusy_inv h)) (putBusy_inv h)

theorem mapSnoops_inv {line : Nat} {f : Snoop → Snoop} (h : Inv s) : Inv (mapSnoops line f s) := by
  unfold mapSnoops
  split
  · exact h
  · exact .foldl (fun _ _ h => removeHolder_inv h) (.foldl (fun _ _ h => notHeldRecord_inv h) (putBusy_inv h))

theorem snoopAnswer_inv {hdr : PktHdr} {data : Option Line} {from' : Nat} (h : Inv s) : Inv (snoopAnswer hdr data from' s) := by
  unfold snoopAnswer
  split
  · exact countLate_inv h
  · split
    · exact countLate_inv h
    · refine checkSnoops_inv ?_
      refine mapSnoops_inv ?_
      split
      · exact .ite (countLate_inv h) (homeTake_inv h)
      · exact h

theorem silentEvent_inv {line eid : Nat} (h : Inv s) : Inv (silentEvent line eid s) := by
  unfold silentEvent
  dsimp only
  split
  · exact h
  · exact event_inv h

theorem silentHolder_inv {line eid : Nat} (h : Inv s) : Inv (silentHolder line eid s) :=
  silentEvent_inv (recordError_inv (sat_inv (.upd (removeHolder_inv (poisonHome_inv h)))))

/-! ### The home's own events -/

theorem applyDue_inv : ∀ {n : Nat} {s : State}, Inv s → Inv (applyDue n s)
  | 0, _, h => h
  | n + 1, s, h => by
    unfold applyDue
    split
    · exact h
    · dsimp only
      split
      · exact applyDue_inv (settleIdem_inv (answerTracker_inv (dropTracker_inv (applySignal_inv (.upd h)))))
      · exact applyDue_inv (applySignal_inv (.upd h))

theorem freeExtent_inv {e : Extent} (h : Inv s) : Inv (freeExtent e s) := .foldl (fun _ _ h => finish_inv h) (.upd h)

theorem settleExtents_inv (h : Inv s) : Inv (settleExtents s) := by
  unfold settleExtents
  refine .foldl (fun _ _ h => ?_) h
  split
  · exact .ite (freeExtent_inv h) h
  · exact h

theorem drainRecalls_inv (h : Inv s) : Inv (drainRecalls s) := .foldl (fun _ _ h => .foldl (fun _ _ h => recallLine_inv h) h) h

theorem settleHome_inv (h : Inv s) : Inv (settleHome s) := settleExtents_inv (drainRecalls_inv (applyDue_inv h))

theorem countRevoked_inv {line : Nat} (h : Inv s) : Inv (countRevoked line s) := by
  unfold countRevoked
  split
  · exact modExtent_inv h
  · exact h

theorem abandonJobs_inv {id : Nat} (h : Inv s) : Inv (abandonJobs id s) := by
  unfold abandonJobs
  refine .foldl (fun _ _ h => ?_) h
  refine .ite ?_ ?_
  · split
    · exact putBusy_inv h
    · exact freeLine_inv (putBusy_inv h)
  · split
    · exact .ite (dropBusy_inv (putBusy_inv h)) (putBusy_inv h)
    · exact putBusy_inv h

theorem abortTracker_inv {id status : Nat} (h : Inv s) : Inv (abortTracker id status s) := by
  unfold abortTracker
  dsimp only
  split
  · exact h
  · split
    · exact settleIdem_inv (answerTracker_inv (dropTracker_inv (abandonJobs_inv (.upd (releaseBookings_inv (.ite (bumpBoth_inv
        h) h))))))
    · exact dropTracker_inv (abandonJobs_inv (.upd (releaseBookings_inv (.ite (bumpBoth_inv h) h))))
    · exact deliverOnChip_inv (dropTracker_inv (abandonJobs_inv (.upd (releaseBookings_inv (.ite (bumpBoth_inv h) h)))))

theorem slotsUnused_inv {port : Nat} {p : TxPkt} (h : Inv s) : Inv (slotsUnused port p s) :=
  .ite h (bumpBoth_inv (releaseEgress_inv h))

theorem overrideQueued_inv {test : TxPkt → Bool} {status : Nat} (h : Inv s) : Inv (overrideQueued test status s) := by
  unfold overrideQueued
  refine .foldl (fun _ _ h => ?_) (.upd h)
  refine .ite ?_ (slotsUnused_inv h)
  split
  · exact countRevoked_inv (slotsUnused_inv h)
  · exact slotsUnused_inv h

theorem revokeAccesses_inv {e : Extent} {p1too : Bool} (h : Inv s) : Inv (revokeAccesses e p1too s) :=
  overrideQueued_inv (.foldl (fun _ _ h => abortTracker_inv (countRevoked_inv h)) h)

theorem execRevokeDrainDeadline_inv {base : Nat} (h : Inv s) : KeepsInv (execRevokeDrainDeadline base s) := by
  unfold execRevokeDrainDeadline
  split
  · exact .next h
  · split
    · exact .next h
    · exact .ite (.next h) (.next (settleHome_inv (revokeAccesses_inv (modExtent_inv h))))

theorem silentInExtent_inv {line : Nat} {eids : List Nat} (h : Inv s) : Inv (silentInExtent line eids s) := by
  unfold silentInExtent
  dsimp only
  refine .ite h ?_
  split
  · exact modExtent_inv (.foldl (fun _ _ h => silentHolder_inv h) h)
  · exact .foldl (fun _ _ h => silentHolder_inv h) h

theorem execRevokeFinalDeadline_inv {base : Nat} (h : Inv s) : KeepsInv (execRevokeFinalDeadline base s) := by
  unfold execRevokeFinalDeadline
  split
  · exact .next h
  · split
    · exact .next h
    · refine .ite (.next h) ?_
      refine .next ?_
      split
      · refine settleHome_inv ?_
        refine freeExtent_inv ?_
        refine .foldl (fun _ _ h => ?_) (.foldl (fun _ _ h => sliceHandled_inv (setDir_inv (dropBusy_inv (silentInExtent_inv
          h)))) (revokeAccesses_inv h))
        split
        · exact setDir_inv (silentInExtent_inv h)
        · exact h
      · refine .foldl (fun _ _ h => ?_) (.foldl (fun _ _ h => sliceHandled_inv (setDir_inv (dropBusy_inv (silentInExtent_inv
          h)))) (revokeAccesses_inv h))
        split
        · exact setDir_inv (silentInExtent_inv h)
        · exact h

theorem fetchDone_inv {line : Nat} {f : Fetches} (h : Inv s) : Inv (fetchDone line f s) := by
  unfold fetchDone
  dsimp only
  split
  · exact h
  · split
    · split
      · exact freeLine_inv h
      · split
        · exact serve_inv h
        · split
          · exact serve_inv (.ite (goesOutside_inv (homeRead_inv h)) (homeRead_inv h))
          · exact .ite (goesOutside_inv (homeRead_inv h)) (homeRead_inv h)
    · exact freeLine_inv h
    · exact h

theorem takeLine_inv {line : Nat} {f : Fetches} (h : Inv s) : Inv (takeLine line f s) :=
  .ite (fetchDone_inv (lineTaken_inv h)) h

theorem execLineFetchComplete_inv {line : Nat} {f : Fetches} (h : Inv s) : KeepsInv (execLineFetchComplete line f s) := by
  unfold execLineFetchComplete
  split
  · exact .next (settleHome_inv (fetchDone_inv h))
  · exact .ite (.next h) (.next (settleHome_inv (takeLine_inv h)))

theorem execHomeRequestResume_inv {line : Nat} {upset : Bool} (h : Inv s) : KeepsInv (execHomeRequestResume line upset s) := by
  unfold execHomeRequestResume
  dsimp only
  split
  · exact .next (.ite (setDir_inv h) h)
  · refine .ite (.next (.ite (setDir_inv h) h)) ?_
    split
    · exact .next (dropBusy_inv (.ite (setDir_inv h) h))
    · exact .next (settleHome_inv (startJob_inv (putBusy_inv (.ite (setDir_inv h) h))))

theorem homeAnswer_inv {rx : RxPkt} {f : Nat → State → State} (hf : ∀ x0 s, Inv s → Inv (f x0 s)) (h : Inv s) :
    Inv (homeAnswer rx f s) := by
  unfold homeAnswer
  split
  · next e0 =>
      exact .ofStops e0 (ingress_inv h)
  · next e0 =>
      exact .ite (settleHome_inv (hf _ _ (takeArrived_inv (.ofGoes e0 (ingress_inv h))))) (.ofGoes e0 (ingress_inv h))

theorem execSnpAck_inv {rx : RxPkt} (h : Inv s) : KeepsInv (execSnpAck rx s) :=
  .next (homeAnswer_inv (fun _ _ h => snoopAnswer_inv h) h)

theorem execSnpData_inv {rx : RxPkt} (h : Inv s) : KeepsInv (execSnpData rx s) :=
  .next (homeAnswer_inv (fun _ _ h => snoopAnswer_inv h) h)

theorem recallHeld_inv {line eid : Nat} (h : Inv s) : Inv (recallHeld line eid s) := by
  unfold recallHeld
  split
  · exact .ite (recallFrom_inv h) (.ite (recallFrom_inv h) h)
  · exact .ite (recallFrom_inv h) h

theorem grantAcked_inv {hdr : PktHdr} {t : Nat} (h : Inv s) : Inv (grantAcked hdr t s) := by
  unfold grantAcked
  split
  · exact .foldl (fun _ _ h => recallHeld_inv h) (freeLine_inv h)
  · exact countLate_inv h

theorem execGrantAck_inv {rx : RxPkt} (h : Inv s) : KeepsInv (execGrantAck rx s) :=
  .next (homeAnswer_inv (fun _ _ h => grantAcked_inv h) h)

theorem silentSnoop_inv {line eid : Nat} (h : Inv s) : Inv (silentSnoop line eid s) := by
  unfold silentSnoop
  split
  · exact h
  · split
    · refine .ite ?_ (silentHolder_inv (putBusy_inv h))
      split
      · exact lineDone_inv (freeLine_inv (putBusy_inv (silentHolder_inv (.foldl (fun _ _ h => holderAnswered_inv h) h))))
      · exact freeLine_inv (putBusy_inv (silentHolder_inv (.foldl (fun _ _ h => holderAnswered_inv h) h)))
    · exact .ite (.ite (sliceHandled_inv (freeLine_inv (recallDone_inv (putBusy_inv (silentHolder_inv h))))) (putBusy_inv
        (silentHolder_inv h))) (checkSnoops_inv (putBusy_inv (silentHolder_inv h)))
    · exact silentHolder_inv (putBusy_inv h)

theorem execSnoopTimeout_inv {line eid : Nat} (h : Inv s) : KeepsInv (execSnoopTimeout line eid s) := by
  unfold execSnoopTimeout
  split
  · exact .next h
  · exact .ite (.next (settleHome_inv (silentSnoop_inv h))) (.next h)

theorem execGrantAckTimeout_inv {line : Nat} (h : Inv s) : KeepsInv (execGrantAckTimeout line s) := by
  unfold execGrantAckTimeout
  split
  · exact .next h
  · split
    · exact .ite (.next (settleHome_inv (.foldl (fun _ _ h => recallHeld_inv h) (freeLine_inv (silentHolder_inv h))))) (.next h)
    · exact .next h

theorem execIdemRecordExpiry_inv {quadrant eid tag : Nat} (h : Inv s) : KeepsInv (execIdemRecordExpiry quadrant eid tag s) :=
  .next (.upd h)

/-! ### Translation and faults -/

theorem walkerRead_inv {t line : Nat} (h : Inv s) : Inv (walkerRead t line s) := .ite h (placeJob_inv (.upd h))

theorem takeP0_inv {line : Nat} (h : Inv s) : Inv (takeP0 line s) := .ite h (modStrand_inv h)

theorem deviceRead_inv {t ppa : Nat} (h : Inv s) : Inv (deviceRead t ppa s).2 := by
  unfold deviceRead
  dsimp only
  split
  · exact .ite2 h (.ite (countDenied_inv h) h)
  · split
    · exact h
    · exact .ite2 (walkerRead_inv h) (homeRead_inv h)

theorem clearGathered_inv {t : Nat} (h : Inv s) : Inv (clearGathered t s) := .upd h

theorem walkDown_inv {q t tva : Nat} {write : Bool} : ∀ {n table : Nat} {ok : Bool} {up : List CacheEnt} {s : State}, Inv s →
    Inv (walkDown q t tva write n table ok up s).2
  | 0, _, _, _, _, h => h
  | l + 1, table, ok, up, s, h => by
    have k := deviceRead_inv (t := t) (ppa := table + 8 * bits tva (12 + 9 * l) 9) h
    unfold walkDown
    dsimp only
    split
    · next e => exact .ofPair e k
    · next e => exact .ofPair e k
    · next e =>
      have k := Inv.ofPair e k
      exact .ite2 k (.ite2 k (.ite2 k (.ite2 (.ite2 k (.ite2 k k)) (.ite2 k (.ite2 k (walkDown_inv k))))))

theorem walkFor_inv {cached : Bool} {q t tva : Nat} {write : Bool} (h : Inv s) : Inv (walkFor cached q t tva write s).2 := by
  unfold walkFor
  split
  · exact h
  · refine .ite2 h ?_
    split <;> exact walkDown_inv h

theorem dropOne_inv {l : List CacheEnt} (h : Inv s) : Inv (dropOne l s) := by
  unfold dropOne
  dsimp only
  split
  · exact .upd (draw_inv h)
  · exact draw_inv h

theorem fillOne_inv {x : CacheEnt} (h : Inv s) : Inv (fillOne x s) :=
  .upd (.ite (dropOne_inv (.upd h)) (.ite (dropOne_inv (.upd h)) (.upd h)))

theorem fillWalk_inv {x : CacheEnt} {path : List CacheEnt} (h : Inv s) : Inv (fillWalk x path s) :=
  fillOne_inv (.foldl (fun _ _ h => fillOne_inv h) h)

theorem rejectRing_inv {q : Nat} (h : Inv s) : Inv (rejectRing q s) := setField_inv (.upd h)

theorem writeRecord_inv {q t : Nat} {r : FaultRec} (h : Inv s) : Inv (writeRecord q t r s) :=
  .ite (rejectRing_inv h) (fire_inv (.upd (homeWrite_inv (takeP0_inv (recallLine_inv h)))))

theorem drainQueue_inv {q : Nat} : ∀ {n : Nat} {s : State}, Inv s → Inv (drainQueue q n s)
  | 0, _, h => h
  | n + 1, s, h => by
    unfold drainQueue
    split
    · exact h
    · exact .ite h (.ite (writeRecord_inv h) (drainQueue_inv (.upd (writeRecord_inv h))))

theorem createRecord_inv {t q : Nat} {r : FaultRec} {waiting : List (Nat × Nat)} (h : Inv s) :
    Inv (createRecord t q r waiting s) := drainQueue_inv (.upd h)

theorem waitOn_inv {core k : Nat} {id : Option Nat} (h : Inv s) : Inv (waitOn core k id s) := by
  unfold waitOn
  split
  · exact .ite h (putCtx_inv h)
  · exact h

theorem giveRecord_inv {t core k : Nat} {r : FaultRec} (h : Inv s) : Inv (giveRecord t core k r s) := by
  unfold giveRecord
  split
  · exact waitOn_inv (.upd h)
  · exact createRecord_inv (waitOn_inv h)

theorem allocateRecord_inv {t : Nat} (h : Inv s) : Inv (allocateRecord t s) := by
  unfold allocateRecord
  split
  · exact h
  · exact .ite h (giveRecord_inv (.upd h))

theorem allocateRecords_inv {t : Nat} : ∀ {n : Nat} {s : State}, Inv s → Inv (allocateRecords t n s)
  | 0, _, h => h
  | _ + 1, s, h => by
    unfold allocateRecords
    exact allocateRecords_inv (allocateRecord_inv h)

theorem engineFault_inv {t core k : Nat} {r : FaultRec} (h : Inv s) : Inv (engineFault t core k r s) :=
  .ite (waitOn_inv (.upd (allocateRecords_inv h))) (giveRecord_inv (allocateRecords_inv h))

theorem postFault_inv {t : Nat} {r : FaultRec} (h : Inv s) : Inv (postFault t r s) := by
  unfold postFault
  split
  · exact h
  · exact .ite (drainQueue_inv (allocateRecords_inv h)) (.ite (sat_inv (drainQueue_inv (allocateRecords_inv h))) (.ite (sat_inv
      (rejectRing_inv (drainQueue_inv (allocateRecords_inv h)))) (.ite (sat_inv (drainQueue_inv (allocateRecords_inv h)))
      (createRecord_inv (drainQueue_inv (allocateRecords_inv h))))))

theorem execFaultRecordAllocate_inv {tenant : Nat} (h : Inv s) : KeepsInv (execFaultRecordAllocate tenant s) :=
  .next (allocateRecord_inv h)

theorem execFaultRecordDrain_inv {queue : Nat} (h : Inv s) : KeepsInv (execFaultRecordDrain queue s) :=
  .next (.ite h (drainQueue_inv h))

theorem execFaultPostedEvent_inv {queue : Nat} (h : Inv s) : KeepsInv (execFaultPostedEvent queue s) := by
  unfold execFaultPostedEvent
  split
  · exact .next h
  · exact .next (eventAt_inv (.upd h))

theorem retryCtx_inv {core k : Nat} (h : Inv s) : Inv (retryCtx core k s) := by
  unfold retryCtx
  split
  · exact h
  · exact putCtx_inv h

theorem execResumeFault_inv {c : Cmd} (h : Inv s) : KeepsInv (execResumeFault c s) := by
  unfold execResumeFault
  refine .next ?_
  refine kcpNow_inv (fun _ h => ?_) h
  split
  · exact h
  · exact .ite3 (stopAll_inv (.upd (.upd h))) (.foldl (fun _ _ h => retryCtx_inv h) (.upd h))

theorem dropTiles_inv {t : Nat} (h : Inv s) : Inv (dropTiles t s) :=
  .foldl (fun _ _ h => .ite (dropEngineReads_inv (putCtx_inv h)) (putCtx_inv h)) h

theorem execSetTableRoot_inv {c : Cmd} (h : Inv s) : KeepsInv (execSetTableRoot c s) :=
  .next (kcpNow_inv (fun _ h => .ite3 h (dropTiles_inv (.upd h))) h)

theorem repin_inv {x : CacheEnt} {n : Nat × Nat} (h : Inv s) : Inv (repin x n s).2 := by
  unfold repin
  dsimp only
  split
  · next e0 =>
      exact fillOne_inv (.ofPair e0 (walkFor_inv (.upd h)))
  · next e0 =>
      exact .ofPair e0 (walkFor_inv (.upd h))

theorem walkWaits_inv {t tva : Nat} {write : Bool} (h : Inv s) : ∀ u ∈ walkWaits t tva write s, Inv u := by
  unfold walkWaits
  split
  · rintro u ⟨⟩
    exact .upd h
  · rintro u ⟨⟩

theorem whenTables_inv {t : Nat} {pages : List (Nat × Bool)} {f : State → State} (hf : ∀ s, Inv s → Inv (f s)) (h : Inv s) :
    Inv (whenTables t pages f s) := by
  unfold whenTables
  refine .ite (hf s h) ?_
  split
  · next e =>
    obtain ⟨p, -, waits⟩ := List.exists_of_findSome?_eq_some e
    exact walkWaits_inv h _ waits
  · exact clearGathered_inv (hf s h)

theorem execInvalidate_inv {c : Cmd} (h : Inv s) : KeepsInv (execInvalidate c s) :=
  .next (whenTables_inv (fun _ h => kcpNow_inv (fun _ h => .foldl2 (fun _ _ h => repin_inv h) (dropTiles_inv (.upd h))) h) h)

theorem walkRange_inv {t stop : Nat} {write : Bool} : ∀ {n tva : Nat} {acc : List CacheEnt} {s : State}, Inv s →
    Inv (walkRange t stop write n tva acc s).2
  | 0, _, _, _, h => h
  | n + 1, tva, acc, s, h => by
    have k := walkFor_inv (cached := false) (q := 0) (t := t) (tva := tva) (write := write) h
    unfold walkRange
    refine .ite2 h ?_
    split
    · next e => exact walkRange_inv (.ofPair e k)
    · next e => exact .ofPair e k
    · next e => exact .ofPair e k

theorem execPinTranslation_inv {c : Cmd} (h : Inv s) : KeepsInv (execPinTranslation c s) := by
  unfold execPinTranslation
  refine .next ?_
  refine whenTables_inv (fun _ h => ?_) h
  refine kcpNow_inv (fun _ h => ?_) h
  split
  · next e0 =>
      exact postFault_inv (.ofPair e0 (walkRange_inv h))
  · next e0 =>
      exact .ite3 (.ofPair e0 (walkRange_inv h)) (.foldl (fun _ _ h => .foldl (fun _ _ h => fillOne_inv h) h) (.ofPair e0
        (walkRange_inv h)))

theorem execUnpinTranslation_inv {c : Cmd} (h : Inv s) : KeepsInv (execUnpinTranslation c s) :=
  .next (kcpNow_inv (fun _ h => .upd h) h)

theorem cpTranslate_inv {t tva : Nat} (h : Inv s) : Inv (cpTranslate t tva s).2 := by
  have k := walkFor_inv (cached := true) (q := cpQuadrant s) (t := t) (tva := tva) (write := false) h
  unfold cpTranslate
  dsimp only
  split
  · exact h
  · split
    · next e => exact fillWalk_inv (.ofPair e k)
    · exact k

theorem readByTva_inv {t : Nat} : ∀ {n tva : Nat} {acc : List Byte} {s : State}, Inv s → Inv (readByTva t n tva acc s).2
  | 0, _, _, _, h => h
  | n + 1, tva, acc, s, h => by
    have k := cpTranslate_inv (t := t) (tva := tva) h
    unfold readByTva
    split
    · next e => exact .ofPair e k
    · next e => exact .ofPair e k
    · next x _ _ e =>
      have read := deviceRead_inv (t := t) (ppa := leafPpa x tva) (.ofPair e k)
      dsimp only
      split
      · next e => exact .ofPair e read
      · next e _ => exact .ofPair e read
      · next e => exact .ofPair e read
      · next e => exact .ite2 (.ofPair e read) (readByTva_inv (.ofPair e read))

theorem whenReadable_inv {t n tva : Nat} {f : State → State} (hf : ∀ s, Inv s → Inv (f s)) (h : Inv s) :
    Inv (whenReadable t n tva f s) := by
  unfold whenReadable
  refine .ite (hf s h) ?_
  split
  · exact .upd h
  · exact clearGathered_inv (hf s h)

/-! ### Requests from the links -/

theorem enterBookings_inv {st p t : Nat} {sb eb : List (Nat × Nat)} (h : Inv s) : Inv (enterBookings st p t sb eb s) :=
  .foldl (fun _ _ h => .upd h) (.foldl (fun _ _ h => .upd h) h)

theorem countP1_inv {t : Nat} {admitted : Bool} (h : Inv s) : Inv (countP1 t admitted s) :=
  .ite (bump_inv (.upd h)) (bump_inv (.upd h))

theorem evictIdem_inv {q : Nat} (h : Inv s) : Inv (evictIdem q s) := by
  unfold evictIdem
  split
  · exact h
  · exact sat_inv (.upd h)

theorem recordIdem_inv {q : Nat} {hdr : PktHdr} {id : Nat} (h : Inv s) : Inv (recordIdem q hdr id s) :=
  .ite h (.upd (.ite (evictIdem_inv h) h))

theorem repeatIdem_inv {r : Idem} {rx : RxPkt} {t : Nat} {pair : Option Nat} (h : Inv s) : Inv (repeatIdem r rx t pair s) :=
  .ite (complete_inv h) (.ite (complete_inv (bumpBoth_inv h)) (.ite (.upd h) (respond_inv (sat_inv h))))

theorem takeRequest_inv {rx : RxPkt} {r : Arrival} {line n : Nat} {pair : Option Nat} {book : Option (Nat × List (Nat × Nat) ×
    List (Nat × Nat))} (h : Inv s) :
    Inv (takeRequest rx r line n pair book s) :=
  .foldl (fun _ _ h => placeJob_inv h) (.ite (enterBookings_inv (recordIdem_inv (.upd h))) (recordIdem_inv (.upd h)))

theorem takeRelease_inv {rx : RxPkt} {r : Arrival} {line : Nat} (h : Inv s) : Inv (takeRelease rx r line s) := by
  unfold takeRelease
  refine .ite (complete_inv (countDenied_inv h)) ?_
  split
  · exact repeatIdem_inv h
  · split
    · exact countLate_inv h
    · exact .ite (complete_inv (countDenied_inv h)) (.ite (countLate_inv h) (.ite (settleHome_inv (checkSnoops_inv (complete_inv
        (countStatus_inv (mapSnoops_inv h))))) (.ite (settleHome_inv (checkSnoops_inv (complete_inv (mapSnoops_inv (.ite h (.ite
        (countLate_inv h) (homeTake_inv h))))))) (settleHome_inv (takeRequest_inv h)))))

theorem homeRequest_inv {rx : RxPkt} {r : Arrival} {ppa : Nat} {pair : Option Nat} (h : Inv s) :
    Inv (homeRequest rx r ppa pair s) := by
  unfold homeRequest
  dsimp only
  refine .ite (takeRelease_inv h) ?_
  split
  · exact .ite (complete_inv (countStatus_inv (.ite (countRevoked_inv (.ite (countDenied_inv h) h)) (.ite (countDenied_inv h)
      h)))) (complete_inv (countP1_inv h))
  · split
    · exact repeatIdem_inv h
    · refine .ite (complete_inv (bumpBoth_inv h)) ?_
      refine .ite ?_ (settleHome_inv (takeRequest_inv h))
      split
      · exact complete_inv (countP1_inv h)
      · exact settleHome_inv (takeRequest_inv (countP1_inv h))

theorem acceptRequest_inv {rx : RxPkt} {t : Nat} {f : Option Nat → State → State}
    (hf : ∀ k s, Inv s → Inv (f k s)) (h : Inv s) : Inv (acceptRequest rx t s f) := by
  have k : Inv (window rx (bump t 0 1 (takeArrived rx s))).state := window_inv (bump_inv (takeArrived_inv h))
  unfold acceptRequest
  dsimp only
  split
  · next e => exact complete_inv (bump_inv (.ofBusy e k))
  · next e => exact hf _ _ (.ofHeld e k)

theorem waitForWalk_inv {q t tva access : Nat} {w : Waiter} (h : Inv s) : Inv (waitForWalk q t tva access w s) :=
  .ite (.upd h) (.upd h)

theorem linkFault_inv {rx : RxPkt} {t : Nat} {pair : Option Nat} {cause level entry : Nat} (h : Inv s) :
    Inv (linkFault rx t pair cause level entry s) := complete_inv (postFault_inv (bump_inv h))

theorem translateRequest_inv {rx : RxPkt} {r : Arrival} {pair : Option Nat} (h : Inv s) :
    Inv (translateRequest rx r pair s) := by
  unfold translateRequest
  refine .ite (.ite (complete_inv h) (.ite (complete_inv (countP1_inv h)) (homeRequest_inv h))) ?_
  refine .ite ?_ ?_
  · split
    · exact .ite (homeRequest_inv h) (complete_inv (countP1_inv h))
    · exact complete_inv (countP1_inv h)
  · split
    · exact homeRequest_inv h
    · split
      · exact linkFault_inv h
      · exact .ite (linkFault_inv h) (waitForWalk_inv h)

theorem takeIn_inv {rx : RxPkt} {r : Arrival} (h : Inv s) : Inv (takeIn rx r s) :=
  acceptRequest_inv (fun _ _ h => .ite (complete_inv h) (translateRequest_inv h)) h

theorem takeInRelease_inv {rx : RxPkt} {r : Arrival} (h : Inv s) : Inv (takeInRelease rx r s) := by
  unfold takeInRelease
  refine .ite (takeIn_inv h) ?_
  refine .ite (.ite (keepFresh_inv h) (takeIn_inv h)) ?_
  split
  · exact .ite (keepFresh_inv h) (takeIn_inv h)
  · exact .ite (waitForWalk_inv (keepFresh_inv h)) (takeIn_inv h)
  · exact takeIn_inv h

theorem releaseWalked_inv {rx : RxPkt} {r : Arrival} {w : Walked} (h : Inv s) : Inv (releaseWalked rx r w s) := by
  unfold releaseWalked
  refine .ite h ?_
  split
  · exact .ite h (acceptRequest_inv (fun _ _ h => homeRequest_inv h) h)
  · exact acceptRequest_inv (fun _ _ h => linkFault_inv h) h
  · exact h

theorem poolRequest_inv {code : Nat} {rx : RxPkt} (h : Inv s) : Inv (poolRequest code rx s) := by
  unfold poolRequest
  dsimp only
  split
  · next e0 =>
      exact .ofStops e0 (ingress_inv h)
  · next e0 =>
      exact .ite (.ofGoes e0 (ingress_inv h)) (.ite (takeInRelease_inv (.ofGoes e0 (ingress_inv h))) (.ite (takeIn_inv
        (crossed_inv (.ofGoes e0 (ingress_inv h)))) (keepFresh_inv (.ofGoes e0 (ingress_inv h)))))

theorem execLoad_inv {rx : RxPkt} (h : Inv s) : KeepsInv (execLoad rx s) := .next (poolRequest_inv h)

theorem execReadShared_inv {rx : RxPkt} (h : Inv s) : KeepsInv (execReadShared rx s) := .next (poolRequest_inv h)

theorem execReadOwn_inv {rx : RxPkt} (h : Inv s) : KeepsInv (execReadOwn rx s) := .next (poolRequest_inv h)

theorem execStore_inv {rx : RxPkt} (h : Inv s) : KeepsInv (execStore rx s) := .next (poolRequest_inv h)

theorem execStoreMasked_inv {rx : RxPkt} (h : Inv s) : KeepsInv (execStoreMasked rx s) := .next (poolRequest_inv h)

theorem execWriteback_inv {rx : RxPkt} (h : Inv s) : KeepsInv (execWriteback rx s) := .next (poolRequest_inv h)

theorem execEvictClean_inv {rx : RxPkt} (h : Inv s) : KeepsInv (execEvictClean rx s) := .next (poolRequest_inv h)

theorem execAtomic_inv {rx : RxPkt} (h : Inv s) : KeepsInv (execAtomic rx s) := .next (poolRequest_inv h)

theorem takeSignal_inv {rx : RxPkt} {r : Arrival} {pair : Option Nat} (h : Inv s) : Inv (takeSignal rx r pair s) := by
  unfold takeSignal
  dsimp only
  split
  · exact repeatIdem_inv h
  · exact .ite (complete_inv (bumpBoth_inv h)) (settleHome_inv (recordIdem_inv (.upd h)))

theorem takeArrival_inv {rx : RxPkt} {t : Nat} {pair : Option Nat} (h : Inv s) : Inv (takeArrival rx t pair s) :=
  .ite (complete_inv (countDenied_inv h)) (complete_inv (fbarCount_inv h))

theorem execSignal_inv {rx : RxPkt} (h : Inv s) : KeepsInv (execSignal rx s) := by
  unfold execSignal
  refine .next ?_
  split
  · next e0 =>
      exact .ofStops e0 (ingress_inv h)
  · next e0 =>
      exact .ite (.ofGoes e0 (ingress_inv h)) (.ite (keepFresh_inv (.ofGoes e0 (ingress_inv h))) (acceptRequest_inv (fun _ _ h
        => .ite (takeArrival_inv h) (takeSignal_inv h)) (crossed_inv (.ofGoes e0 (ingress_inv h)))))

theorem execFbarArrival_inv {rx : RxPkt} (h : Inv s) : KeepsInv (execFbarArrival rx s) := by
  unfold execFbarArrival
  refine .next ?_
  split
  · next e0 =>
      exact .ofStops e0 (ingress_inv h)
  · next e0 =>
      exact .ite (.ofGoes e0 (ingress_inv h)) (acceptRequest_inv (fun _ _ h => takeArrival_inv h) (.ofGoes e0 (ingress_inv h)))

theorem wakeWaiter_inv {w : Walk} {r : Walked} {x : Waiter} (h : Inv s) : Inv (wakeWaiter w r x s) := by
  unfold wakeWaiter
  split
  · refine .ite (releaseWalked_inv h) ?_
    split
    · exact homeRequest_inv h
    · exact linkFault_inv h
    · exact h
  · split
    · exact putCtx_inv h
    · exact h
  · split
    · exact putCtx_inv h
    · exact h
  · exact h

theorem execTableWalkComplete_inv {quadrant tenant tva : Nat} (h : Inv s) :
    KeepsInv (execTableWalkComplete quadrant tenant tva s) := by
  unfold execTableWalkComplete
  dsimp only
  split
  · exact .next h
  · refine .ite (.next h) ?_
    split
    · exact .next (walkFor_inv h)
    · refine .next ?_
      refine .foldl (fun _ _ h => wakeWaiter_inv h) ?_
      split
      · exact .ite (clearGathered_inv (.upd (walkFor_inv h))) (fillWalk_inv (clearGathered_inv (.upd (walkFor_inv h))))
      · exact clearGathered_inv (.upd (walkFor_inv h))

/-! ### The swap unit -/

theorem swapAccess_inv {id c n : Nat} {data : Option (List Line)} (h : Inv s) : Inv (swapAccess id c n data s) := by
  unfold swapAccess
  dsimp only
  split
  · exact h
  · split
    · exact endTransfer_inv (countStatus_inv (.ite (countRevoked_inv (.ite (countDenied_inv h) h)) (.ite (countDenied_inv h)
        h)))
    · exact .foldl (fun _ _ h => placeJob_inv h) (.upd h)

theorem pumpIn_inv {id : Nat} : ∀ {n : Nat} {s : State}, Inv s → Inv (pumpIn n id s)
  | 0, _, h => h
  | n + 1, s, h => by
    unfold pumpIn
    split
    · exact .ite (pumpIn_inv (swapAccess_inv (modTransfer_inv h))) h
    · exact h

theorem sendChunks_inv {id : Nat} {cs : List Nat} (h : Inv s) : Inv (sendChunks id cs s) :=
  .foldl (fun _ _ h => .ite h (swapAccess_inv h)) h

theorem startTransfer_inv {id : Nat} (h : Inv s) : Inv (startTransfer id s) := by
  unfold startTransfer
  dsimp only
  split
  · exact h
  · split
    · next e1 =>
        exact endTransfer_inv (postFault_inv (.ofPair e1 (walkRange_inv h)))
    · next e1 =>
        exact .ite (.ite (modTransfer_inv (.ofPair e1 (walkRange_inv h))) (sendChunks_inv (modTransfer_inv (.ofPair e1
          (walkRange_inv h))))) (.ite (pumpOut_inv (modTransfer_inv (.ofPair e1 (walkRange_inv h)))) (pumpIn_inv
          (modTransfer_inv (.ofPair e1 (walkRange_inv h)))))

theorem pageSwap_inv {op : Nat} {c : Cmd} (h : Inv s) : Inv (pageSwap op c s) :=
  whenTables_inv (fun _ h => .ite (kcpNow_inv (fun _ h => .ite3 h (.ite3 h (.upd h))) h) (startTransfer_inv (kcpNow_inv (fun _ h
    => .ite3 h (.ite3 h (.upd h))) h))) h

theorem execPageOut_inv {c : Cmd} (h : Inv s) : KeepsInv (execPageOut c s) := .next (pageSwap_inv h)

theorem execPageIn_inv {c : Cmd} (h : Inv s) : KeepsInv (execPageIn c s) := .next (pageSwap_inv h)

theorem swapAnswer_inv {id c tag : Nat} {hdr : PktHdr} {payload : List Line} (h : Inv s) :
    Inv (swapAnswer id c tag hdr payload s) := by
  unfold swapAnswer
  split
  · exact h
  · exact .ite (swapAccess_inv (modTransfer_inv h)) (.ite (endTransfer_inv (modTransfer_inv h)) (.ite (endTransfer_inv
      (modTransfer_inv h)) (chunksDone_inv (modTransfer_inv h))))

theorem pumpTransfers_inv (h : Inv s) : Inv (pumpTransfers s) :=
  .foldl (fun _ _ h => .ite h (.ite (pumpOut_inv h) (pumpIn_inv h))) h

theorem swapFrameIn_inv {t : Transfer} {f : SwapFrm} (h : Inv s) : Inv (swapFrameIn t f s) := by
  unfold swapFrameIn
  split
  · exact .ite (swapAccess_inv (modTransfer_inv h)) (modTransfer_inv h)
  · exact .ite (modTransfer_inv h) (.ite (endTransfer_inv (modTransfer_inv (chunksDone_inv (modTransfer_inv h))))
      (sendChunks_inv (modTransfer_inv (chunksDone_inv (modTransfer_inv h)))))
  · exact .ite (swapFrameOut_inv (modTransfer_inv h)) (modTransfer_inv h)
  · exact modTransfer_inv h

theorem execSwapFrame_inv {i : EthInfo} {f : SwapFrm} (h : Inv s) : KeepsInv (execSwapFrame i f s) := by
  unfold execSwapFrame
  refine .ite (.next h) ?_
  refine .ite (.next (bumpDev_inv h)) ?_
  refine .ite (.next h) ?_
  split
  · exact .next (ethCount_inv h)
  · refine .ite (.next (ethCount_inv h)) ?_
    split
    · exact .next h
    · exact .next (settleHome_inv (swapFrameIn_inv h))

theorem execSwapResendTimer_inv {transfer : Nat} (h : Inv s) : KeepsInv (execSwapResendTimer transfer s) := by
  unfold execSwapResendTimer
  split
  · exact .next h
  · refine .ite (.next h) ?_
    refine .ite (.next (swapFrameOut_inv (modTransfer_inv h))) ?_
    refine .next ?_
    split
    · exact sendChunks_inv (modTransfer_inv h)
    · exact modTransfer_inv h

theorem execSwapTransferTimeout_inv {transfer : Nat} (h : Inv s) : KeepsInv (execSwapTransferTimeout transfer s) := by
  unfold execSwapTransferTimeout
  split
  · exact .next h
  · exact .ite (.next (endTransfer_inv h)) (.next h)

/-! ### Stages on engine cores -/

theorem engineAccess_inv {core k t ppa key code : Nat} {op : LineOp} (h : Inv s) :
    Inv (engineAccess core k t ppa key code op s) := placeJob_inv (.upd h)

theorem refuseAccess_inv {t ppa st : Nat} {counted : Bool} (h : Inv s) : Inv (refuseAccess t ppa st counted s) :=
  .ite (countRevoked_inv (.ite (countDenied_inv h) h)) (.ite (countDenied_inv h) h)

theorem issueRead_inv {core k : Nat} (h : Inv s) : Inv (issueRead core k s).2 := by
  unfold issueRead
  dsimp only
  split
  · exact h
  · split
    · exact h
    · refine .ite2 h ?_
      split
      · split
        · exact .ite2 (bump_inv (putCtx_inv h)) (stopCtx_inv (refuseAccess_inv h))
        · exact engineAccess_inv (putCtx_inv h)
      · refine .ite2 h ?_
        split
        · exact .ite2 (request_inv (putCtx_inv (newTag_inv h))) (engineFail_inv (putCtx_inv h))
        · exact engineFail_inv (putCtx_inv h)
      · exact h

theorem pumpReads_inv {core : Nat} : ∀ {n : Nat} {s : State}, Inv s → Inv (pumpReads core n s)
  | 0, _, h => h
  | n + 1, s, h => by
    have k : Inv ((coreCtxs (tget {} s.eng.cores core)).foldl (fun (a : Bool × State) c =>
      if a.1 then a else issueRead core c.1 a.2) (false, s)).2 := .foldl2 (fun _ _ h => .ite2 h (issueRead_inv h)) h
    unfold pumpReads
    exact .ite (pumpReads_inv k) k

theorem poolWrite_inv {core k addr kind : Nat} {data : Line} {mask bytes : Nat} (h : Inv s) :
    Inv (poolWrite core k addr kind data mask bytes s) := by
  unfold poolWrite
  split
  · exact h
  · split
    · exact h
    · split
      · split
        · exact stopCtx_inv (refuseAccess_inv h)
        · exact .ite (engineAccess_inv (putCtx_inv h)) (engineAccess_inv (putCtx_inv h))
      · exact engineFail_inv h

theorem endpointWrite_inv {core k eid addr : Nat} {lines : List Line} {mask : Nat} (h : Inv s) :
    Inv (endpointWrite core k eid addr lines mask s) := by
  unfold endpointWrite
  split
  · exact h
  · split
    · exact h
    · exact .ite (request_inv (putCtx_inv (newTag_inv h))) (engineFail_inv (putCtx_inv h))
    · exact engineFail_inv (putCtx_inv h)

theorem progressed_inv {core k n : Nat} (h : Inv s) : Inv (progressed core k n s) := by
  unfold progressed
  split
  · exact h
  · split
    · exact h
    · exact putCtx_inv h

theorem issueLines_inv {core k kind addr : Nat} {ls : List Line} (h : Inv s) : Inv (issueLines core k kind addr ls s) :=
  .ite (.foldl (fun _ _ h => progressed_inv (endpointWrite_inv h)) h) (.foldl (fun _ _ h => progressed_inv (poolWrite_inv h)) h)

theorem issueBytes_inv {core k kind addr : Nat} {bs : List Byte} (h : Inv s) : Inv (issueBytes core k kind addr bs s) :=
  .ite h (.foldl (fun _ _ h => .ite (endpointWrite_inv h) (poolWrite_inv h)) h)

theorem streamPacket_inv {core k g off : Nat} {ls : List Line} (h : Inv s) : Inv (streamPacket core k g off ls s) := by
  unfold streamPacket
  split
  · exact h
  · exact replicate_inv (.upd (putCtx_inv (newTag_inv h)))

theorem stageStart_inv {core k : Nat} (h : Inv s) : Inv (stageStart core k s) := by
  unfold stageStart
  split
  · exact h
  · exact .ite h (.ite (stopCtx_inv (putCtx_inv h)) (putCtx_inv h))

theorem takeTile_inv {core k : Nat} {x : Ctx} {d : Line} {len : Nat} {srcs : List Operand} {cut : Option Cut} (h : Inv s) :
    Inv (takeTile core k x d len srcs cut s) := by
  unfold takeTile
  split
  · exact pumpReads_inv (putCtx_inv h)
  · split
    · exact .ite (stopCtx_inv (putCtx_inv (refuseAccess_inv h))) (pumpReads_inv (putCtx_inv (refuseAccess_inv h)))
    · exact .ite (.ite (stopCtx_inv (putCtx_inv h)) (pumpReads_inv (putCtx_inv h))) (.ite (engineFault_inv (putCtx_inv h))
        (pumpReads_inv (engineFault_inv (putCtx_inv h))))

theorem tileAhead_inv {core k : Nat} {x : Ctx} (h : Inv s) : Inv (tileAhead core k x s) :=
  .ite h (.ite h (pumpReads_inv (putCtx_inv h)))

theorem tileTranslate_inv {core k : Nat} (h : Inv s) : Inv (tileTranslate core k s) := by
  unfold tileTranslate
  dsimp only
  refine .ite h ?_
  split
  · exact stageStart_inv h
  · exact .ite (stageStart_inv h) (.ite (tileAhead_inv (stageStart_inv h)) (.ite (.foldl (fun _ _ h => waitForWalk_inv h)
      (putCtx_inv (stageStart_inv h))) (takeTile_inv (stageStart_inv h))))

theorem execTileTranslate_inv {core ctx : Nat} (h : Inv s) : KeepsInv (execTileTranslate core ctx s) :=
  .next (settleHome_inv (tileTranslate_inv h))

theorem drawFor_inv {stoch : Bool} : ∀ {l : List Val} {s : State}, Inv s → Inv (drawFor stoch l s).2
  | [], _, h => h
  | _ :: _, s, h => by
    unfold drawFor
    exact .ite2 (drawFor_inv (draw_inv h)) (drawFor_inv h)

theorem flushLines_inv {core k kind base : Nat} (h : Inv s) : Inv (flushLines core k kind base s) := by
  unfold flushLines
  split
  · exact h
  · exact issueLines_inv (putCtx_inv h)

theorem computeItems_inv {core k : Nat} {x : Ctx} {d : Line} {e p : Nat} {last : Bool} (h : Inv s) :
    Inv (computeItems core k x d e p last s) := by
  unfold computeItems
  split
  · exact issueLines_inv (putCtx_inv h)
  · exact issueLines_inv (putCtx_inv h)
  · exact flushLines_inv (putCtx_inv h)
  · refine .ite (.ite (issueBytes_inv (putCtx_inv h)) (putCtx_inv h)) ?_
    refine .ite ?_ (issueBytes_inv (flushLines_inv (putCtx_inv (drawFor_inv h))))
    split
    · exact progressed_inv (issueBytes_inv (putCtx_inv (issueBytes_inv (flushLines_inv (putCtx_inv (drawFor_inv h))))))
    · exact issueBytes_inv (flushLines_inv (putCtx_inv (drawFor_inv h)))
  · exact .ite (issueBytes_inv (bump_inv (putCtx_inv h))) (bump_inv (putCtx_inv h))
  · exact .foldl (fun _ _ h => streamPacket_inv h) (putCtx_inv h)
  · exact h

theorem enterMerge_inv {core k : Nat} {x : Ctx} (h : Inv s) : Inv (enterMerge core k x s) := .ite (putCtx_inv h) (putCtx_inv h)

theorem afterTile_inv {core k : Nat} {d : Line} {p : Nat} {bad : Bool} (h : Inv s) : Inv (afterTile core k d p bad s) := by
  unfold afterTile
  dsimp only
  split
  · exact h
  · split
    · exact h
    · refine .ite (stopCtx_inv (putCtx_inv h)) ?_
      refine .ite (putCtx_inv h) ?_
      split
      · exact stopCtx_inv (putCtx_inv h)
      · split
        · exact putCtx_inv h
        · exact .ite (putCtx_inv h) (.ite (putCtx_inv h) (.ite (putCtx_inv h) (putCtx_inv h)))

theorem serveTile_inv {core k left : Nat} {x : Ctx} (h : Inv s) : Inv (serveTile core k left x s).2 :=
  .ite2 (.ite (putCtx_inv h) h) (afterTile_inv (computeItems_inv h))

theorem serveSlice_inv {core k : Nat} : ∀ {n left : Nat} {s : State}, Inv s → Inv (serveSlice core k n left s)
  | 0, _, _, h => h
  | n + 1, left, s, h => by
    unfold serveSlice
    split
    · exact h
    · exact .ite h (serveSlice_inv (serveTile_inv h))

theorem serveCtx_inv {core k : Nat} {x : Ctx} (h : Inv s) : Inv (serveCtx core k x s) :=
  .ite (.ite (stopCtx_inv h) (enterMerge_inv h)) (serveSlice_inv h)

/-! ### Answers to the device -/

theorem failEndpoint_inv {core k eid status : Nat} (h : Inv s) : Inv (failEndpoint core k eid status s) := by
  unfold failEndpoint
  split
  · exact h
  · exact engineFail_inv (putCtx_inv h)

theorem takeReadData_inv {core k tag : Nat} {payload : List Line} {poison : Bool} (h : Inv s) :
    Inv (takeReadData core k tag payload poison s) := by
  unfold takeReadData
  split
  · exact h
  · exact pumpReads_inv (putCtx_inv h)

theorem writeAnswered_inv {core k tag : Nat} (h : Inv s) : Inv (writeAnswered core k tag s) := by
  unfold writeAnswered
  split
  · exact h
  · exact putCtx_inv h

theorem writeFailed_inv {core k tag eid status : Nat} (h : Inv s) : Inv (writeFailed core k tag eid status s) := by
  unfold writeFailed
  split
  · exact h
  · exact failEndpoint_inv (putCtx_inv h)

theorem mcastSettled_inv {m : McastPkt} (h : Inv s) : Inv (mcastSettled m s) := writeAnswered_inv (.upd h)

theorem mcastAnswer_inv {m : McastPkt} {eid status : Nat} (h : Inv s) : Inv (mcastAnswer m eid status s) := by
  unfold mcastAnswer
  refine .ite ?_ ?_
  · refine mcastSettled_inv ?_
    split
    · exact .ite h (putCtx_inv h)
    · exact h
  · refine .upd ?_
    split
    · exact .ite h (putCtx_inv h)
    · exact h

theorem takeAnswer_inv {hdr : PktHdr} {payload : List Line} (h : Inv s) : Inv (takeAnswer hdr payload s) := by
  unfold takeAnswer
  split
  · exact swapAnswer_inv h
  · split
    · exact mcastAnswer_inv h
    · split
      · exact .ite (takeReadData_inv h) (.ite (takeReadData_inv (bump_inv h)) (.ite h (failEndpoint_inv (putCtx_inv h))))
      · split
        · exact .ite h (.ite (writeAnswered_inv h) (writeFailed_inv h))
        · exact h

theorem issueWaiting_inv (h : Inv s) : Inv (issueWaiting s) :=
  pumpTransfers_inv (.foldl (fun _ _ h => pumpReads_inv h) (pumpOutbox_inv h))

theorem answerArrives_inv {rx : RxPkt} (h : Inv s) : Inv (answerArrives rx s) := by
  unfold answerArrives
  split
  · next e0 =>
      exact .ofStops e0 (ingress_inv h)
  · next e0 =>
      refine .ite (.ofGoes e0 (ingress_inv h)) ?_
      split
      · next e1 =>
          exact .ofLate e1 (passBack_inv (takeArrived_inv (.ofGoes e0 (ingress_inv h))))
      · next e1 =>
          exact settleHome_inv (issueWaiting_inv (takeAnswer_inv (freePair_inv (.ofPassed e1 (passBack_inv (takeArrived_inv
            (.ofGoes e0 (ingress_inv h))))))))

theorem execData_inv {rx : RxPkt} (h : Inv s) : KeepsInv (execData rx s) := .next (answerArrives_inv h)

theorem execCompletion_inv {rx : RxPkt} (h : Inv s) : KeepsInv (execCompletion rx s) := .next (answerArrives_inv h)

theorem execMcastAckTimeout_inv {tag : Nat} (h : Inv s) : KeepsInv (execMcastAckTimeout tag s) := by
  unfold execMcastAckTimeout
  split
  · exact .next h
  · refine .ite (.next h) ?_
    refine .next ?_
    refine mcastSettled_inv ?_
    split
    · exact putCtx_inv h
    · exact h

/-! ### Ports that are lost -/

theorem enterPhase_inv {p : Nat} {ph : Phase} (h : Inv s) : Inv (enterPhase p ph s) :=
  .ite (modPort_inv h) (fire_inv (modPort_inv h))

theorem mapCopies_inv {b : Nat × Nat} {f : TxPkt → TxPkt} (h : Inv s) : Inv (mapCopies b f s) := .upd h

theorem abortCopies_inv {p : Nat} (h : Inv s) : Inv (abortCopies p s) := by
  unfold abortCopies
  split
  · exact h
  · exact mapCopies_inv (.foldl (fun _ _ h => freePair_inv h) (.upd h))

theorem forgetPlaces_inv {p : Nat} (h : Inv s) : Inv (forgetPlaces p s) := .upd h

theorem settleQueued_inv {p : Nat} {begun : Bool} {k : TxPkt} {a : Lost × State} (h : Inv a.2) :
    Inv (settleQueued p begun k a).2 :=
  .ite2 (.ite (leaveBuffer_inv h) (freePair_inv (countLostPkt_inv (leaveBuffer_inv h)))) (.ite2 (leaveBuffer_inv h) (.ite2
    (takeAnswer_inv (freePair_inv (countStatus_inv (leaveBuffer_inv h)))) (complete_inv (countStatus_inv (leaveBuffer_inv h)))))

theorem settleForwarded_inv {f : FwdRec} {a : Lost × State} (h : Inv a.2) : Inv (settleForwarded f a).2 :=
  .ite2 (takeAnswer_inv (freePair_inv (countStatus_inv h))) (complete_inv (countStatus_inv h))

theorem settleOwn_inv {p : Nat} {a : Lost × State} (h : Inv a.2) : Inv (settleOwn p a).2 := by
  unfold settleOwn
  exact settleStops_inv (.foldl (fun _ _ h => endTransfer_inv h) (.foldl (fun _ _ h => failEndpoint_inv h) (.foldl2 (fun _ _ h
    => takeAnswer_inv h) h)))

theorem releasePort_inv {p : Nat} (h : Inv s) : Inv (releasePort p s) := .upd (.foldl (fun _ _ h => goesOutside_inv h) h)

theorem loseLink_inv {p : Nat} {record : Bool} (h : Inv s) : Inv (loseLink p record s).2 := by
  unfold loseLink
  refine .ite2 h ?_
  extract_lets x held fwd now s₁ s₂ orphans k₁ k₂ k₃ s₃ s₄ a₀ a₁ a₂ a₃ a₄
  have h₄ : Inv s₄ := releasePort_inv (.upd (enterPhase_inv (modPort_inv (forgetPlaces_inv (abortCopies_inv h)))))
  have h₁ : Inv a₁.2 := by
    unfold a₁
    split
    · exact .ite2 (leaveBuffer_inv h₄) (settleQueued_inv h₄)
    · exact h₄
  have h₂ : Inv a₂.2 := .foldl2 (fun _ _ h => settleQueued_inv h) h₁
  have h₃ : Inv a₃.2 := .foldl2 (fun _ _ h => settleQueued_inv h) h₂
  have h₅ : Inv (settleOwn p a₄).2 := settleOwn_inv (.foldl2 (fun _ _ h => settleForwarded_inv h) h₃)
  generalize settleOwn p a₄ = b at h₅
  obtain ⟨n, s₅⟩ := b
  have h₆ : Inv (issueWaiting s₅) := issueWaiting_inv h₅
  exact .ite2 (detect_inv (event_inv (.foldl (fun _ _ h => finish_inv h) h₆)))
    (event_inv (.foldl (fun _ _ h => finish_inv h) h₆))

theorem linkLost_inv {p : Nat} {record : Bool} (h : Inv s) : Inv (linkLost p record s) := loseLink_inv h

theorem portOff_inv {p reason : Nat} (h : Inv s) : Inv (portOff p reason s) :=
  endHandling_inv (enterPhase_inv (.foldl (fun _ _ h => .upd h) (modPort_inv (modPort_inv h))))

theorem answerPort_inv {p : Nat} (h : Inv s) : Inv (answerPort p s) := .foldl (fun _ _ h => finish_inv h) h

/-! ### Engine firmware -/

theorem modLoad_inv {f : FwLoad → FwLoad} (h : Inv s) : Inv (modLoad f s) := .upd h

theorem putPart_inv {core : Nat} {p : CoreLoad} (h : Inv s) : Inv (putPart core p s) := modLoad_inv h

theorem loadEnds_inv (h : Inv s) : Inv (loadEnds s) := by
  unfold loadEnds
  split
  · exact h
  · exact .ite h (.foldl (fun _ _ h => finish_inv h) (modLoad_inv h))

theorem onPart_inv {core : Nat} {g : FwLoad → CoreLoad → State → State} (hg : ∀ x0 x1 s, Inv s → Inv (g x0 x1 s)) (h : Inv s) :
    Inv (onPart core g s) := by
  unfold onPart
  split
  · exact .ite h (hg _ _ _ h)
  · exact h

theorem restartPart_inv {core : Nat} (h : Inv s) : Inv (restartPart core s) := by
  unfold restartPart
  split
  · exact .ite h (putPart_inv h)
  · exact h

theorem excludePart_inv {core : Nat} (h : Inv s) : Inv (excludePart core s) := by
  unfold excludePart
  split
  · exact loadEnds_inv (putPart_inv h)
  · exact h

theorem verifyPart_inv {core : Nat} {f : FwLoad} {p : CoreLoad} (h : Inv s) : Inv (verifyPart core f p s) :=
  .ite (emit_inv (putPart_inv h)) (emit_inv (putPart_inv h))

theorem repairPart_inv {core missing : Nat} {f : FwLoad} {p : CoreLoad} (h : Inv s) : Inv (repairPart core missing f p s) :=
  putPart_inv (.foldl (fun _ _ h => emit_inv h) h)

theorem broadcast_inv {f : FwLoad} (h : Inv s) : Inv (broadcast f s) :=
  emit_inv (emit_inv (emit_inv (.foldl (fun _ _ h => emit_inv h) (emit_inv h))))

theorem startLoad_inv {first count len : Nat} {bs : List Byte} (h : Inv s) : Inv (startLoad first count len bs s).2 :=
  .ite2 h (.ite2 (.upd h) (broadcast_inv (.upd h)))

theorem execLoadImage_inv {c : Cmd} (h : Inv s) : KeepsInv (execLoadImage c s) := by
  unfold execLoadImage
  refine .next ?_
  refine whenReadable_inv (fun _ h => ?_) h
  refine kcpTake_inv (fun _ h => ?_) h
  refine .ite2 h ?_
  split
  · next e0 =>
      exact .ofPair e0 (readByTva_inv h)
  · next e0 =>
      exact .ofPair e0 (readByTva_inv h)
  · next e0 =>
      exact .ofPair e0 (readByTva_inv h)
  · next e0 =>
      exact startLoad_inv (writeJournal_inv (.ofPair e0 (readByTva_inv h)))

theorem execImageStartFrame_inv {core : Nat} (h : Inv s) : KeepsInv (execImageStartFrame core s) :=
  .next (onPart_inv (fun _ _ _ h => putPart_inv h) h)

theorem execImageChunkFrame_inv {c : ImgChunk} (h : Inv s) : KeepsInv (execImageChunkFrame c s) :=
  .next (onPart_inv (fun _ _ _ h => .ite h (.ite (verifyPart_inv h) (putPart_inv h))) h)

theorem execImageEndFrame_inv {core : Nat} (h : Inv s) : KeepsInv (execImageEndFrame core s) :=
  .next (onPart_inv (fun _ _ _ h => .ite (verifyPart_inv h) (emit_inv h)) h)

theorem execImageBitmapReceived_inv {core missing : Nat} (h : Inv s) : KeepsInv (execImageBitmapReceived core missing s) :=
  .next (onPart_inv (fun _ _ _ h => .ite h (repairPart_inv h)) h)

theorem execImageConfirm_inv {core : Nat} (h : Inv s) : KeepsInv (execImageConfirm core s) :=
  .next (onPart_inv (fun _ _ _ h => .ite (loadEnds_inv (putPart_inv h)) h) h)

theorem execImageBitmapTimeout_inv {core : Nat} (h : Inv s) : KeepsInv (execImageBitmapTimeout core s) :=
  .next (onPart_inv (fun _ _ _ h => .ite (emit_inv (putPart_inv h)) (.ite (repairPart_inv h) h)) h)

theorem execImageLoadDeadline_inv (h : Inv s) : KeepsInv (execImageLoadDeadline s) := by
  unfold execImageLoadDeadline
  split
  · exact .ite (.next h) (.next (loadEnds_inv (modLoad_inv h)))
  · exact .next h

/-! ### Resets of a scope -/

theorem resetPhase_inv {scope target phase : Nat} (h : Inv s) : Inv (resetPhase scope target phase s) :=
  .ite (fire_inv (.upd h)) h

theorem recordFailure_inv {kind cause physical : Nat} (h : Inv s) : Inv (recordFailure kind cause physical s) := .upd h

theorem coreLost_inv {core : Nat} (h : Inv s) : Inv (coreLost core s) := excludePart_inv (event_inv (.upd (modCore_inv h)))

theorem trySpare_inv {core : Nat} (h : Inv s) : Inv (trySpare core s) := by
  unfold trySpare
  split
  · exact modCore_inv (.upd h)
  · exact coreLost_inv (modCore_inv h)

theorem coreFails_inv {core cause : Nat} (h : Inv s) : Inv (coreFails core cause s) := trySpare_inv (recordFailure_inv h)

theorem strandFails_inv {st cause : Nat} (h : Inv s) : Inv (strandFails st cause s) :=
  event_inv (.upd (recordFailure_inv (modStrand_inv h)))

theorem laneFails_inv {l cause : Nat} (h : Inv s) : Inv (laneFails l cause s) := event_inv (recordFailure_inv h)

theorem execRehomeComplete_inv {core : Nat} {passed : Bool} (h : Inv s) : KeepsInv (execRehomeComplete core passed s) := by
  unfold execRehomeComplete
  dsimp only
  split
  · exact .ite (.next (restartPart_inv (modCore_inv h))) (.next (trySpare_inv (recordFailure_inv h)))
  · exact .next h

theorem settleCores_inv {cores : List Nat} {status : Nat} (h : Inv s) : Inv (settleCores cores status s) :=
  .foldl (fun _ _ h => restartPart_inv (modCore_inv (.foldl (fun _ _ h => stopCtx_inv h) (.foldl (fun _ _ h => endQueued_inv h)
    h)))) h

theorem recallQuadrant_inv {q : Nat} (h : Inv s) : Inv (recallQuadrant q s) := .foldl (fun _ _ h => recallLine_inv h) h

theorem discardPackets_inv {l : List Arrived} (h : Inv s) : Inv (discardPackets l s).2 := .foldl (fun _ _ h => complete_inv h) h

theorem portWithPartition_inv {p : Nat} (h : Inv s) : Inv (portWithPartition p s).2 :=
  .upd (discardPackets_inv (modPort_inv (.ite (answerPort_inv (enterPhase_inv (modPort_inv (loseLink_inv h)))) (loseLink_inv
    h))))

theorem settlePartition_inv {q : Nat} (h : Inv s) : Inv (settlePartition q s).2 := by
  unfold settlePartition
  dsimp only
  refine .foldl (fun _ _ h => endTransfer_inv h) (stopAll_inv (.upd (recallQuadrant_inv ?_)))
  exact .foldl2 (s := (0, s)) (fun _ _ h => portWithPartition_inv h) h

theorem startReset_inv {scope target : Nat} {byLadder : Bool} (h : Inv s) : Inv (startReset scope target byLadder s) := by
  unfold startReset
  refine .ite h ?_
  extract_lets cores n r k s₁ s₂ s₃
  have h₃ : Inv s₃ := settleCores_inv (resetPhase_inv (.upd h))
  split
  next m u e =>
  have h₄ : Inv u := .ofPair e (.ite2 (settlePartition_inv h₃) h₃)
  exact settleHome_inv (.upd h₄)

theorem deviceResetDue_inv {at' : Nat} (h : Inv s) : Inv (deviceResetDue at' s) := .upd h

theorem rung3_inv {scope target : Nat} (h : Inv s) : Inv (rung3 scope target s) :=
  .ite (rung4_inv h) (.ite (.upd h) (.ite (startReset_inv h) (.upd (deviceResetDue_inv h))))

theorem forceCores_inv {cores : List Nat} (h : Inv s) : Inv (forceCores cores s) :=
  settleStops_inv (.foldl (fun _ _ h => .foldl (fun _ _ h => putCtx_inv h) h) h)

theorem resetRegisters_inv {scope target : Nat} (h : Inv s) : Inv (resetRegisters scope target s) :=
  .ite (.upd h) (.upd (.foldl (fun _ _ h => modPort_inv h) (.upd h)))

theorem holdScope_inv {scope target : Nat} (h : Inv s) : Inv (holdScope scope target s) :=
  .ite (.upd (.foldl (fun _ _ h => .ite (modStrand_inv h) h) (.ite (.foldl (fun _ _ h => coilEvict_inv h) (resetRegisters_inv
    h)) (resetRegisters_inv h)))) (.foldl (fun _ _ h => .ite (modStrand_inv h) h) (.ite (.foldl (fun _ _ h => coilEvict_inv h)
    (resetRegisters_inv h)) (resetRegisters_inv h)))

theorem execResetSettled_inv {scope target : Nat} (h : Inv s) : KeepsInv (execResetSettled scope target s) := by
  unfold execResetSettled
  split
  · exact .next h
  · exact .ite (.next (.ite (settleHome_inv (recallQuadrant_inv (.ite (forceCores_inv h) h))) (.ite (forceCores_inv h) h)))
      (.next (resetPhase_inv (.upd (.foldl (fun _ _ h => finish_inv h) (resetPhase_inv (holdScope_inv (.ite (settleHome_inv
      (recallQuadrant_inv (.ite (forceCores_inv h) h))) (.ite (forceCores_inv h) h))))))))

theorem restoreCore_inv {core : Nat} {failed : Bool} (h : Inv s) : Inv (restoreCore core failed s) :=
  .ite (coreFails_inv (modCore_inv h)) (modCore_inv h)

theorem restoreStrand_inv {st : Nat} {failed : Bool} (h : Inv s) : Inv (restoreStrand st failed s) :=
  .ite h (.ite (strandFails_inv h) (.ite (modStrand_inv h) h))

theorem restorePins_inv {q : Nat} (h : Inv s) : Inv (restorePins q s) := .foldl (fun _ _ h => repin_inv h) h

theorem execResetRestored_inv {scope target : Nat} {failed : List Nat} (h : Inv s) :
    KeepsInv (execResetRestored scope target failed s) := by
  unfold execResetRestored
  split
  · exact .next h
  · refine .ite (.next (resetPhase_inv (.upd h))) ?_
    extract_lets lost n k s₁ s₂ strands s₃ s₄ t s₅ e s₆
    have h₁ : Inv s₁ := .upd h
    have h₂ : Inv s₂ := .foldl (fun _ _ h => restoreCore_inv h) h₁
    have h₃ : Inv s₃ := resetRegisters_inv (.foldl (fun _ _ h => restoreStrand_inv h) h₂)
    have h₄ : Inv s₄ := .foldl (fun _ _ h => laneFails_inv h) h₃
    have h₅ : Inv s₅ := .ite (restorePins_inv (.upd h₄)) h₄
    exact .next (resetPhase_inv (.upd h₅))

/-! ### Engine events -/

theorem takeContext_inv {core : Nat} (h : Inv s) : Inv (takeContext core s) := by
  unfold takeContext
  dsimp only
  split
  · exact stageStart_inv (gateArrive_inv (traceEntry_inv (putCtx_inv (modCore_inv h))))
  · exact h

theorem execShareTakesContext_inv {core : Nat} (h : Inv s) : KeepsInv (execShareTakesContext core s) :=
  .next (.ite (settleHome_inv (settleStops_inv (takeContext_inv h))) h)

theorem execEngineReadResponse_inv {core ctx k : Nat} {f : Fetches} (h : Inv s) :
    KeepsInv (execEngineReadResponse core ctx k f s) := by
  unfold execEngineReadResponse
  split
  · exact .next h
  · exact .next (.ite (settleHome_inv (pumpReads_inv (takeLine_inv h))) h)

theorem stageSignals_inv {core : Nat} {x : Ctx} (h : Inv s) : Inv (stageSignals core x s) := by
  unfold stageSignals
  dsimp only
  split
  · refine setFlag_inv ?_
    refine .ite ?_ ?_
    · refine .ite ?_ ?_
      · refine knotIncrement_inv ?_
        split
        · exact .ite (signalTo_inv h) h
        · exact .ite (replicate_inv (newTag_inv h)) h
        · exact h
      · refine knotDiscard_inv ?_
        split
        · exact .ite (signalTo_inv h) h
        · exact .ite (replicate_inv (newTag_inv h)) h
        · exact h
    · split
      · exact .ite (signalTo_inv h) h
      · exact .ite (replicate_inv (newTag_inv h)) h
      · exact h
  · refine .ite ?_ ?_
    · refine .ite ?_ ?_
      · refine knotIncrement_inv ?_
        split
        · exact .ite (signalTo_inv h) h
        · exact .ite (replicate_inv (newTag_inv h)) h
        · exact h
      · refine knotDiscard_inv ?_
        split
        · exact .ite (signalTo_inv h) h
        · exact .ite (replicate_inv (newTag_inv h)) h
        · exact h
    · split
      · exact .ite (signalTo_inv h) h
      · exact .ite (replicate_inv (newTag_inv h)) h
      · exact h

theorem stageEnd_inv {core k : Nat} (h : Inv s) : Inv (stageEnd core k s) := by
  unfold stageEnd
  dsimp only
  split
  · exact h
  · refine .ite h ?_
    refine .ite (stopCtx_inv h) ?_
    split
    · exact stageSignals_inv h
    · exact .ite (stageStart_inv (gateArrive_inv (putCtx_inv (stageSignals_inv h)))) (endShare_inv (stageSignals_inv h))

theorem execEngineWriteAck_inv {core ctx : Nat} (h : Inv s) : KeepsInv (execEngineWriteAck core ctx s) := by
  unfold execEngineWriteAck
  split
  · exact .next h
  · refine .ite (.next h) ?_
    refine .next ?_
    refine settleHome_inv ?_
    refine settleStops_inv ?_
    refine stageEnd_inv ?_
    split
    · exact putCtx_inv h
    · exact h

theorem mergeSend_inv {core k : Nat} {x : Ctx} (h : Inv s) : Inv (mergeSend core k x s) := issueBytes_inv (putCtx_inv h)

theorem mergeOut_inv {core k : Nat} {x : Ctx} (h : Inv s) : Inv (mergeOut core k x s) := by
  unfold mergeOut
  refine .ite (issueBytes_inv (putCtx_inv h)) ?_
  split
  · exact .ite (mergeSend_inv (issueBytes_inv (putCtx_inv h))) (issueBytes_inv (putCtx_inv h))
  · exact issueBytes_inv (putCtx_inv h)
  · exact issueBytes_inv (issueBytes_inv (putCtx_inv h))

theorem mismatchRecord_inv {core rung : Nat} (h : Inv s) : Inv (mismatchRecord core rung s) := errWrite_inv h

theorem scratchMismatch_inv {core k : Nat} {x : Ctx} (h : Inv s) : Inv (scratchMismatch core k x s) := by
  unfold scratchMismatch
  split
  · exact putCtx_inv (sat_inv (mismatchRecord_inv h))
  · exact rung3_inv (sat_inv (mismatchRecord_inv h))
  · exact dropEngineReads_inv (putCtx_inv (mismatchRecord_inv h))

theorem execMergeListsReceived_inv {core ctx child : Nat} (h : Inv s) : KeepsInv (execMergeListsReceived core ctx child s) := by
  unfold execMergeListsReceived
  split
  · exact .next h
  · split
    · exact .next h
    · split
      · exact .next h
      · exact .ite (.next h) (.ite (.next (settleHome_inv (scratchMismatch_inv h))) (.ite (.next (settleHome_inv
          (scratchMismatch_inv h))) (.next (settleHome_inv (settleStops_inv (stageEnd_inv (putCtx_inv (putCtx_inv (modGang_inv
          h)))))))))

theorem execScratchRecomputeComplete_inv {core ctx : Nat} (h : Inv s) : KeepsInv (execScratchRecomputeComplete core ctx s) := by
  unfold execScratchRecomputeComplete
  split
  · exact .next h
  · split
    · exact .next (settleHome_inv (stageStart_inv (.ite (sat_inv (putCtx_inv h)) (putCtx_inv h))))
    · exact .next h

theorem scratchUpset_inv {core l : Nat} (h : Inv s) : Inv (scratchUpset core l s) := by
  unfold scratchUpset
  dsimp only
  split
  · exact h
  · split
    · exact scratchMismatch_inv h
    · exact putCtx_inv (draw_inv h)

theorem serveNext_inv {core : Nat} (h : Inv s) : Inv (serveNext core s) := by
  unfold serveNext
  split
  · exact h
  · refine .ite (scratchMismatch_inv (modCore_inv h)) ?_
    split
    · exact mergeOut_inv (modCore_inv h)
    · exact mergeSend_inv (modCore_inv h)
    · exact serveCtx_inv (modCore_inv h)

theorem execArithSliceEnd_inv {core : Nat} {badLine : Option Nat} (h : Inv s) :
    KeepsInv (execArithSliceEnd core badLine s) := by
  unfold execArithSliceEnd
  refine .ite (.next h) ?_
  refine .next ?_
  refine settleHome_inv ?_
  refine settleStops_inv ?_
  refine serveNext_inv ?_
  split
  · exact scratchUpset_inv h
  · exact h

theorem execEngineBankSwitch_inv {core : Nat} (h : Inv s) : KeepsInv (execEngineBankSwitch core s) :=
  .next (.ite (modCore_inv h) h)

theorem execGateTimeout_inv {core ctx : Nat} (h : Inv s) : KeepsInv (execGateTimeout core ctx s) := by
  unfold execGateTimeout
  split
  · exact .next h
  · split
    · exact .ite (.next h) (.next (settleHome_inv (stopCtx_inv (sat_inv (recordError_inv h)))))
    · exact .next h

/-! ### Engine commands -/

theorem execLoadProgram_inv {c : Cmd} (h : Inv s) : KeepsInv (execLoadProgram c s) := by
  unfold execLoadProgram
  refine .next ?_
  refine whenReadable_inv (fun _ h => ?_) h
  refine kcpNow_inv (fun _ h => ?_) h
  refine .ite3 h ?_
  split
  · next e0 =>
      exact .ofPair e0 (readByTva_inv h)
  · next e0 =>
      exact .ofPair e0 (readByTva_inv h)
  · next e0 =>
      exact .ofPair e0 (readByTva_inv h)
  · next e0 =>
      split
      · exact .ofPair e0 (readByTva_inv h)
      · exact .upd (.ofPair e0 (readByTva_inv h))

theorem execLoadChain_inv {c : Cmd} (h : Inv s) : KeepsInv (execLoadChain c s) := by
  unfold execLoadChain
  refine .next ?_
  refine whenReadable_inv (fun _ h => ?_) h
  refine kcpNow_inv (fun _ h => ?_) h
  refine .ite3 h ?_
  split
  · next e0 =>
      exact .ofPair e0 (readByTva_inv h)
  · next e0 =>
      exact .ofPair e0 (readByTva_inv h)
  · next e0 =>
      exact .ofPair e0 (readByTva_inv h)
  · next e0 =>
      exact .ite3 (.ofPair e0 (readByTva_inv h)) (.upd (.ofPair e0 (readByTva_inv h)))

theorem queueGang_inv {first size : Nat} {cores : List Nat} {base : Share} (h : Inv s) :
    Inv (queueGang first size cores base s) := .foldl (fun _ _ h => modCore_inv h) (.upd h)

theorem journalQueue_inv {c : Cmd} {cores : List Nat} (h : Inv s) : Inv (journalQueue c cores s) :=
  .foldl (fun _ _ h => writeJournal_inv h) h

theorem execSubmit_inv {c : Cmd} (h : Inv s) : KeepsInv (execSubmit c s) := by
  unfold execSubmit
  refine .next ?_
  refine kcpNow_inv (fun _ h => ?_) h
  split
  · exact h
  · exact .ite3 h (.ite3 h (.ite3 h (queueGang_inv (journalQueue_inv h))))

theorem execRestart_inv {c : Cmd} (h : Inv s) : KeepsInv (execRestart c s) := by
  unfold execRestart
  refine .next ?_
  refine kcpNow_inv (fun _ h => ?_) h
  split
  · exact h
  · exact .ite3 h (.ite3 h (.ite3 h (.ite3 h (queueGang_inv (journalQueue_inv h)))))

theorem cancelOn_inv {session seq core : Nat} {a : Nat × State} (h : Inv a.2) : Inv (cancelOn session seq core a).2 :=
  .foldl (fun _ _ h => stopCtx_inv h) (.foldl (fun _ _ h => endQueued_inv h) h)

theorem execCancel_inv {c : Cmd} (h : Inv s) : KeepsInv (execCancel c s) := by
  unfold execCancel
  exact .next (kcpTake_inv (fun _ h => .ite2 h (.ite2 h (.ite2 (settleHome_inv (.foldl2 (fun _ _ h => cancelOn_inv h) h))
    (settleHome_inv (.foldl2 (fun _ _ h => cancelOn_inv h) h))))) h)

theorem takeBulkCopy_inv {rx : RxPkt} {t : Nat} {pair : Option Nat} (h : Inv s) : Inv (takeBulkCopy rx t pair s) := by
  unfold takeBulkCopy
  refine .ite (complete_inv h) ?_
  split
  · exact complete_inv h
  · exact .ite (complete_inv h) (.ite (complete_inv h) (queueGang_inv h))

theorem execBulkCopy_inv {rx : RxPkt} (h : Inv s) : KeepsInv (execBulkCopy rx s) := by
  unfold execBulkCopy
  refine .next ?_
  split
  · next e0 =>
      exact .ofStops e0 (ingress_inv h)
  · next e0 =>
      exact .ite (.ofGoes e0 (ingress_inv h)) (acceptRequest_inv (fun _ _ h => takeBulkCopy_inv h) (.ofGoes e0 (ingress_inv h)))

/-! ### The switch -/

theorem forward_inv {rx : RxPkt} {a : Arrival} {p : Nat} {pair : Option Nat} (h : Inv s) : Inv (forward rx a p pair s) := by
  unfold forward
  refine .ite (enqueue_inv (takeForward_inv h)) ?_
  split
  · exact enqueue_inv (takeForward_inv (countP1_inv (enterBookings_inv h)))
  · exact .ite (complete_inv (countP1_inv (takeArrived_inv h))) (enqueue_inv (takeForward_inv (countP1_inv h)))

theorem switchRequest_inv {rx : RxPkt} {a : Arrival} (h : Inv s) : Inv (switchRequest rx a s) := by
  have k : Inv (window rx (bump a.tenant 0 1 s)).state := window_inv (bump_inv h)
  unfold switchRequest
  dsimp only
  generalize window rx (bump a.tenant 0 1 s) = w at k
  cases w with
  | busy u => exact complete_inv (bump_inv (takeArrived_inv k))
  | held pair u =>
    have lost : Inv (complete rx.hdr a.tenant pair stNOT_DONE (countStatus a.tenant stNOT_DONE (takeArrived rx u))) :=
      complete_inv (countStatus_inv (takeArrived_inv k))
    cases a.route with
    | none => exact lost
    | some p => exact .ite lost (.ite (complete_inv (countDenied_inv (takeArrived_inv k))) (forward_inv k))

theorem forwardedPair_inv {hdr : PktHdr} (h : Inv s) : Inv (forwardedPair hdr s).2 := by
  unfold forwardedPair
  split
  · exact modTracker_inv h
  · exact h

theorem poisonPassed_inv {rx : RxPkt} (h : Inv s) : Inv (poisonPassed rx s) := by
  unfold poisonPassed
  dsimp only
  split
  · exact .ite (homeWrite_inv h) h
  · exact h

theorem switchResponse_inv {rx : RxPkt} {a : Arrival} (h : Inv s) : Inv (switchResponse rx a s) := by
  unfold switchResponse
  dsimp only
  refine .ite (countLate_inv (takeArrived_inv h)) ?_
  split
  · next e0 =>
      exact takeArrived_inv (.ofLate e0 (passBack_inv (poisonPassed_inv h)))
  · next e0 =>
      split
      · exact freePair_inv (countDrop_inv (takeArrived_inv (.ite2 (forwardedPair_inv (.ofPassed e0 (passBack_inv
          (poisonPassed_inv h)))) (.ofPassed e0 (passBack_inv (poisonPassed_inv h))))))
      · exact .ite (freePair_inv (countDrop_inv (takeArrived_inv (.ite2 (forwardedPair_inv (.ofPassed e0 (passBack_inv
          (poisonPassed_inv h)))) (.ofPassed e0 (passBack_inv (poisonPassed_inv h))))))) (forward_inv (.ite2 (forwardedPair_inv
          (.ofPassed e0 (passBack_inv (poisonPassed_inv h)))) (.ofPassed e0 (passBack_inv (poisonPassed_inv h)))))

theorem switchPacket_inv {rx : RxPkt} {a : Arrival} (h : Inv s) : Inv (switchPacket rx a s) := by
  unfold switchPacket
  split
  · exact switchRequest_inv h
  · exact switchResponse_inv h
  · split
    · exact .ite (forward_inv h) (countDrop_inv (takeArrived_inv h))
    · exact countDrop_inv (takeArrived_inv h)

theorem ingressCtl_inv {rx : RxPkt} (h : Inv s) : Inv (ingressCtl rx s).state := by
  have k : Inv (stamped rx s).2 := stamped_inv h
  unfold ingressCtl
  split
  · dsimp only
    split
    · exact arrive_inv k
    · exact bumpDev_inv (takeArrived_inv k)
  · exact ingress_inv h

theorem sendEarly_inv {rx : RxPkt} {a : Arrival} {go : RxPkt → State → State} (hgo : ∀ x0 s, Inv s → Inv (go x0 s))
    (h : Inv s) :
    Inv (sendEarly rx a go s) := .ite (modPort_inv (mapCopies_inv (hgo _ _ (keepPacket_inv h)))) h

theorem execPacketSwitched_inv {rx : RxPkt} (h : Inv s) : KeepsInv (execPacketSwitched rx s) := by
  unfold execPacketSwitched
  refine .next ?_
  refine .ite h ?_
  split
  · exact .ite h (sendEarly_inv (fun _ _ h => crossed_inv (switchPacket_inv h)) h)
  · split
    · next e1 =>
        exact .ofStops e1 (ingressCtl_inv h)
    · next e1 =>
        exact .ite (crossed_inv (switchPacket_inv (.ofGoes e1 (ingressCtl_inv h)))) (keepFresh_inv (.ofGoes e1 (ingressCtl_inv
          h)))

theorem copyOut_inv {rx : RxPkt} {a : Arrival} (h : Inv s) : Inv (copyOut rx a s) :=
  .ite (takeArrived_inv h) (.foldl (fun _ _ h => enqueue_inv h) (takeForward_inv h))

theorem multicastIn_inv {rx : RxPkt} (h : Inv s) : Inv (multicastIn rx s) := by
  unfold multicastIn
  refine .ite h ?_
  split
  · exact .ite h (sendEarly_inv (fun _ _ h => crossed_inv (copyOut_inv h)) h)
  · split
    · next e1 =>
        exact .ofStops e1 (ingress_inv h)
    · next e1 =>
        exact .ite (bumpDev_inv (countDrop_inv (takeArrived_inv (.ofGoes e1 (ingress_inv h))))) (.ite (keepFresh_inv (.ofGoes e1
          (ingress_inv h))) (copyOut_inv (.ite (fbarReleaseHere_inv (crossed_inv (.ofGoes e1 (ingress_inv h)))) (crossed_inv
          (.ofGoes e1 (ingress_inv h))))))

theorem execMcastReplicate_inv {rx : RxPkt} (h : Inv s) : KeepsInv (execMcastReplicate rx s) := .next (multicastIn_inv h)

theorem execFbarRelease_inv {rx : RxPkt} (h : Inv s) : KeepsInv (execFbarRelease rx s) := .next (.ite (multicastIn_inv h) h)

theorem execFwdRecordTimeout_inv {port src tag : Nat} (h : Inv s) : KeepsInv (execFwdRecordTimeout port src tag s) := by
  unfold execFwdRecordTimeout
  split
  · exact .next h
  · exact .ite (.next h) (.next (settleHome_inv (issueWaiting_inv (settleForwarded_inv (bumpDev_inv (modCong_inv (.upd h)))))))

theorem loadRoutes_inv {ver first : Nat} {es : List Nat} (h : Inv s) : Inv (loadRoutes ver first es s) := .ite (.upd h) (.upd h)

theorem execLoadRoutes_inv {c : Cmd} (h : Inv s) : KeepsInv (execLoadRoutes c s) :=
  .next (kcpTake_inv (fun _ h => .ite2 h (.ite2 h (loadRoutes_inv h))) h)

theorem endLoads_inv (h : Inv s) : Inv (endLoads s) := .foldl (fun _ _ h => finish_inv h) h

theorem execFlipRouteEpoch_inv {c : Cmd} (h : Inv s) : KeepsInv (execFlipRouteEpoch c s) :=
  .next (kcpTake_inv (fun _ h => .ite2 h (.ite2 h (.upd h))) h)

theorem execRouteEpochFlipApply_inv (h : Inv s) : KeepsInv (execRouteEpochFlipApply s) := by
  unfold execRouteEpochFlipApply
  split
  · exact .next h
  · exact .ite (.next h) (.next (boundary_inv (.foldl (fun _ _ h => finish_inv h) (.upd h))))

theorem execRouteDrained_inv (h : Inv s) : KeepsInv (execRouteDrained s) := .next (.ite (.upd h) h)

theorem execSetMcastGroup_inv {c : Cmd} (h : Inv s) : KeepsInv (execSetMcastGroup c s) :=
  .next (kcpNow_inv (fun _ h => .ite3 h (.ite3 h (.ite3 (fbarDisable_inv (setField_inv (.upd h))) (.upd h)))) h)

theorem latchMap_inv (h : Inv s) : Inv (latchMap s) := boundary_inv (.upd h)

theorem execCongestionMapLatch_inv (h : Inv s) : KeepsInv (execCongestionMapLatch s) := .next (.ite h (latchMap_inv h))

theorem execReadCongestionMap_inv {c : Cmd} (h : Inv s) : KeepsInv (execReadCongestionMap c s) :=
  .next (kcpNow_inv (fun _ h => h) h)

/-! ### The link layer -/

theorem modTx_inv {p : Nat} {f : TxSt → TxSt} (h : Inv s) : Inv (modTx p f s) := modPort_inv h

theorem modRx_inv {p : Nat} {f : RxSt → RxSt} (h : Inv s) : Inv (modRx p f s) := modPort_inv h

theorem markMissing_inv {p : Nat} {ns : List Nat} (h : Inv s) : Inv (markMissing p ns s) := .ite h (modTx_inv (modRx_inv h))

theorem countReceived_inv {p : Nat} {hdr : PktHdr} (h : Inv s) : Inv (countReceived p hdr s) := by
  unfold countReceived
  split
  · exact .upd h
  · exact h

theorem packetWhole_inv {p : Nat} {hdr : PktHdr} {payload : List Line} {a : Arrival} (h : Inv s) :
    Inv (packetWhole p hdr payload a s) :=
  .ite (park'_inv (keepPacket_inv h)) (.ite (bumpDev_inv (oweCredits_inv h)) (.ite (keepPacket_inv h) (.ite (receiveKcp_inv
    (oweCredits_inv h)) (.ite (acceptRequest_inv (fun _ _ h => complete_inv h) (keepPacket_inv h)) (keepPacket_inv h)))))

theorem startedWhole_inv {p : Nat} {hdr : PktHdr} {payload : List Line} {a : Arrival} (h : Inv s) :
    Inv (startedWhole p hdr payload a s) := .ite (mapCopies_inv h) (oweRest_inv h)

theorem lastFlit_inv {p : Nat} {hdr : PktHdr} {payload : List Line} {a : Arrival} (h : Inv s) :
    Inv (lastFlit p hdr payload a s) :=
  .ite (sat_inv (oweCredits_inv h)) (.ite (startedWhole_inv (countReceived_inv h)) (packetWhole_inv (countReceived_inv h)))

theorem headerFlit_inv {p : Nat} {hdr : PktHdr} (h : Inv s) : Inv (headerFlit p hdr s) :=
  modRx_inv (.upd (.ite2 h (stampEpoch_inv h)))

theorem packetFlit_inv {p : Nat} {body : FlitBody} (h : Inv s) : Inv (packetFlit p body s) :=
  .ite (modRx_inv h) (.ite (modRx_inv (.ite (headerFlit_inv h) h)) (lastFlit_inv (modRx_inv (.ite (headerFlit_inv h) h))))

theorem abortPacket_inv {p : Nat} (h : Inv s) : Inv (abortPacket p s) := by
  unfold abortPacket
  split
  · exact h
  · exact .ite (modRx_inv (sat_inv (abortCopies_inv h))) (oweRest_inv (modRx_inv (sat_inv (abortCopies_inv h))))

theorem acceptFlit_inv {p : Nat} {k : FlitKind} {f : Flit} (h : Inv s) : Inv (acceptFlit p k f s) := by
  unfold acceptFlit
  dsimp only
  split
  · exact packetFlit_inv (modPort_inv (.ite h (modTx_inv h)))
  · exact abortPacket_inv (modPort_inv (.ite h (modTx_inv h)))
  · exact modPort_inv (.ite h (modTx_inv h))

theorem drainSplice_inv {p : Nat} : ∀ {n : Nat} {s : State}, Inv s → Inv (drainSplice p n s)
  | 0, _, h => h
  | n + 1, s, h => by
    unfold drainSplice
    dsimp only
    split
    · exact drainSplice_inv (acceptFlit_inv h)
    · exact h

theorem groupFails_inv {p : Nat} {fs : List Flit} {tag : Flit} (h : Inv s) : Inv (groupFails p fs tag s) :=
  .ite (linkLost_inv (sat_inv (modRx_inv h))) (markMissing_inv (sat_inv (modRx_inv h)))

theorem drainGroups_inv {p : Nat} : ∀ {n : Nat} {s : State}, Inv s → Inv (drainGroups p n s)
  | 0, _, h => h
  | n + 1, s, h => by
    unfold drainGroups
    dsimp only
    split
    · exact h
    · exact .ite (drainGroups_inv (acceptFlit_inv (.foldl (fun _ _ h => acceptFlit_inv h) (modPort_inv h)))) (groupFails_inv h)

theorem sequenced_inv {p : Nat} {f : Flit} (h : Inv s) : Inv (sequenced p f s) :=
  .ite (sat_inv h) (.ite (drainGroups_inv (markMissing_inv (modRx_inv h))) (drainSplice_inv (markMissing_inv (modRx_inv h))))

theorem execBadFlit_inv {port : Nat} (h : Inv s) : KeepsInv (execBadFlit port s) := .next (.ite (sat_inv h) h)

theorem execAbortFlit_inv {port seq : Nat} (h : Inv s) : KeepsInv (execAbortFlit port seq s) := .next (.ite (sequenced_inv h) h)

theorem askAgain_inv {p : Nat} {ns : List Nat} (h : Inv s) : Inv (askAgain p ns s) := modTx_inv h

theorem applyAck_inv {p ack : Nat} (h : Inv s) : Inv (applyAck p ack s) := modTx_inv h

theorem linkControl_inv {port : Nat} {m : LinkCtl} (h : Inv s) : Inv (linkControl port m s) := by
  unfold linkControl
  exact .ite (markMissing_inv (askAgain_inv (applyAck_inv (modRx_inv h)))) (askAgain_inv (applyAck_inv (modRx_inv h)))

theorem execLinkCtlFlit_inv {port : Nat} {m : LinkCtl} (h : Inv s) : KeepsInv (execLinkCtlFlit port m s) :=
  .next (.ite (linkControl_inv h) h)

theorem execSequencedFlit_inv {port : Nat} {blocks : List Blk} (h : Inv s) : KeepsInv (execSequencedFlit port blocks s) := by
  unfold execSequencedFlit
  refine .next ?_
  split
  · exact h
  · refine .ite h ?_
    split
    · exact sat_inv h
    · exact linkControl_inv h
    · exact .ite h (sequenced_inv h)

theorem execNakWaitExpiry_inv {port : Nat} (h : Inv s) : KeepsInv (execNakWaitExpiry port s) :=
  .next (.ite h (modTx_inv (modRx_inv h)))

theorem execAckInterval_inv {port : Nat} (h : Inv s) : KeepsInv (execAckInterval port s) := .next (.ite (modTx_inv h) h)

theorem execAckKeepalive_inv {port : Nat} (h : Inv s) : KeepsInv (execAckKeepalive port s) := .next (.ite (modTx_inv h) h)

theorem execAckTimeout_inv {port : Nat} (h : Inv s) : KeepsInv (execAckTimeout port s) := by
  unfold execAckTimeout
  refine .next ?_
  split
  · exact h
  · exact .ite (askAgain_inv (modTx_inv h)) h

theorem execLinkSilence_inv {port : Nat} (h : Inv s) : KeepsInv (execLinkSilence port s) :=
  .next (.ite (settleHome_inv (linkLost_inv h)) h)

theorem sendCtl_inv {p : Nat} (h : Inv s) : Inv (sendCtl p s) := sendOnPort_inv (modTx_inv (modRx_inv h))

theorem openGroup_inv {p : Nat} (h : Inv s) : Inv (openGroup p s) := .ite h (modPort_inv h)

theorem sendFlit_inv {p : Nat} {k : FlitKind} {credit : Nat × Nat} {body : FlitBody} (h : Inv s) :
    Inv (sendFlit p k credit body s) := sendOnPort_inv (modCong_inv (modPort_inv (openGroup_inv h)))

theorem sendOwed_inv {p : Nat} {k : FlitKind} {body : FlitBody} (h : Inv s) : Inv (sendOwed p k body s) :=
  sendFlit_inv (.ite h (modRx_inv h))

theorem sendTag_inv {p : Nat} (h : Inv s) : Inv (sendTag p s) := sendOwed_inv h

theorem sendGrant_inv {p : Nat} (h : Inv s) : Inv (sendGrant p s) := sendFlit_inv (modTx_inv h)

theorem retransmit_inv {p n : Nat} (h : Inv s) : Inv (retransmit p n s) := by
  unfold retransmit
  dsimp only
  split
  · exact modTx_inv h
  · exact .ite (settleHome_inv (linkLost_inv (modTx_inv h))) (sendOnPort_inv (sat_inv (modTx_inv (modTx_inv h))))

theorem drr_inv {p : Nat} : ∀ {n : Nat} {s : State}, Inv s → Inv (drr p n s).2
  | 0, _, h => h
  | n + 1, s, h => by
    unfold drr
    refine .ite2 (drr_inv (modTx_inv h)) ?_
    dsimp only
    generalize queueHead s p _ = head
    cases head with
    | none => exact drr_inv (modTx_inv h)
    | some e => exact .ite2 (modTx_inv h) (drr_inv (modTx_inv h))

theorem schedule_inv {p : Nat} (h : Inv s) : Inv (schedule p s).2 := by
  unfold schedule
  split
  · exact h
  · split
    · exact h
    · exact .ite2 (drr_inv h) h

theorem packetSent_inv {k : TxPkt} (h : Inv s) : Inv (packetSent k s) :=
  .ite (.upd (.ite (bumpBoth_inv (.ite (freePair_inv (.ite (settleExtents_inv (leaveBuffer_inv h)) (leaveBuffer_inv h))) (.ite
    (settleExtents_inv (leaveBuffer_inv h)) (leaveBuffer_inv h)))) (.ite (freePair_inv (.ite (settleExtents_inv (leaveBuffer_inv
    h)) (leaveBuffer_inv h))) (.ite (settleExtents_inv (leaveBuffer_inv h)) (leaveBuffer_inv h))))) (.ite (bumpBoth_inv (.ite
    (freePair_inv (.ite (settleExtents_inv (leaveBuffer_inv h)) (leaveBuffer_inv h))) (.ite (settleExtents_inv (leaveBuffer_inv
    h)) (leaveBuffer_inv h)))) (.ite (freePair_inv (.ite (settleExtents_inv (leaveBuffer_inv h)) (leaveBuffer_inv h))) (.ite
    (settleExtents_inv (leaveBuffer_inv h)) (leaveBuffer_inv h))))

theorem sendPacketFlit_inv {p : Nat} {k : TxPkt} {i : Nat} (h : Inv s) : Inv (sendPacketFlit p k i s) :=
  .ite (modTx_inv (flitLeaves_inv (.upd (modTx_inv (.ite (sendOwed_inv h) (sendOwed_inv h)))))) (packetSent_inv (modTx_inv
    (flitLeaves_inv (.upd (modTx_inv (.ite (sendOwed_inv h) (sendOwed_inv h)))))))

theorem startPacket_inv {p : Nat} {e : Nat × Nat × TxPkt} (h : Inv s) : Inv (startPacket p e s) :=
  sendPacketFlit_inv (.ite (.upd (modTx_inv h)) (modTx_inv h))

theorem transmit_inv {p : Nat} (h : Inv s) : Inv (transmit p s) := by
  unfold transmit
  refine .ite (sendCtl_inv h) ?_
  refine .ite (deal_inv h) ?_
  split
  · exact retransmit_inv h
  · refine .ite (deal_inv h) ?_
    refine .ite (sendTag_inv h) ?_
    refine .ite (sendGrant_inv h) ?_
    split
    · exact .ite (sendPacketFlit_inv h) (.ite (sendTag_inv h) (deal_inv h))
    · refine .ite (.ite (sendTag_inv h) (deal_inv h)) ?_
      split
      · next e2 =>
          exact startPacket_inv (.ofPair e2 (schedule_inv h))
      · next e2 =>
          exact .ite (sendTag_inv h) (deal_inv h)

theorem execTransmitFlit_inv {port : Nat} (h : Inv s) : KeepsInv (execTransmitFlit port s) := .next (.ite (transmit_inv h) h)

theorem execCreditNullPacket_inv {port : Nat} (h : Inv s) : KeepsInv (execCreditNullPacket port s) :=
  .next (.ite (sendOwed_inv h) h)

/-! ### Lanes and ports -/

theorem modLane_inv {l : Nat} {f : Lane → Lane} (h : Inv s) : Inv (modLane l f s) := .upd h

theorem laneRate_inv {l r : Nat} {saved : Bool} (h : Inv s) : Inv (laneRate l r saved s) := modLane_inv (restartStream_inv h)

theorem laneOff_inv {l : Nat} (h : Inv s) : Inv (laneOff l s) := modLane_inv h

theorem applyTaps_inv {l : Nat} {b : TrainBlk} (h : Inv s) : Inv (applyTaps l b s) := modLane_inv h

theorem askTaps_inv {l : Nat} {b : TrainBlk} {wants : Nat × Nat × Nat} (h : Inv s) : Inv (askTaps l b wants s) := modLane_inv h

theorem sendTrain_inv {p : Nat} {t : Train} {phase : Nat} (h : Inv s) : Inv (sendTrain p t phase s) :=
  .ite (deal_inv (.foldl (fun _ _ h => sendTrainBlock_inv h) (.ite (fillRow_inv h) h))) (.foldl (fun _ _ h => sendTrainBlock_inv
    h) (.ite (fillRow_inv h) h))

theorem sendChange_inv {p kind width lanes : Nat} {ready : Bool} (h : Inv s) : Inv (sendChange p kind width lanes ready s) :=
  sendControl_inv h

theorem sendLoop_inv {l rate : Nat} {ready : Bool} (h : Inv s) : Inv (sendLoop l rate ready s) := sendBlock_inv h

theorem endChange_inv {p st : Nat} {res : List Byte} (h : Inv s) : Inv (endChange p st res s) :=
  .foldl (fun _ _ h => finish_inv h) h

theorem scaleShares_inv {p new old : Nat} (h : Inv s) : Inv (scaleShares p new old s) :=
  .upd (.foldl (fun _ _ h => setField_inv h) h)

theorem rebook_inv {p new : Nat} (h : Inv s) : Inv (rebook p new s) := modPort_inv (.ite (scaleShares_inv h) h)

theorem rebookUp_inv {p w rate : Nat} (h : Inv s) : Inv (rebookUp p w rate s) := .ite (modPort_inv h) (rebook_inv h)

theorem trimLanes_inv {p w : Nat} (h : Inv s) : Inv (trimLanes p w s) := .foldl (fun _ _ h => laneOff_inv h) h

theorem enterUp_inv {p w rate : Nat} (h : Inv s) : Inv (enterUp p w rate s) :=
  answerPort_inv (event_inv (.ite (recordError_inv (endHandling_inv (rebookUp_inv (enterPhase_inv (modPort_inv (trimLanes_inv
    h)))))) (endHandling_inv (rebookUp_inv (enterPhase_inv (modPort_inv (trimLanes_inv h)))))))

theorem putTrain_inv {p : Nat} {main : Bool} {t : Option Train} (h : Inv s) : Inv (putTrain p main t s) := modPort_inv h

theorem startVerify_inv {p : Nat} {t : Train} (h : Inv s) : Inv (startVerify p t s) := .foldl (fun _ _ h => modLane_inv h) h

theorem trainPhase_inv {p : Nat} {main : Bool} {t : Train} {ph : Phase} (h : Inv s) : Inv (trainPhase p main t ph s) :=
  .ite (enterPhase_inv (putTrain_inv (.ite (startVerify_inv h) h))) (putTrain_inv (.ite (startVerify_inv h) h))

theorem forgetDropped_inv {p : Nat} (h : Inv s) : Inv (forgetDropped p s) := modPort_inv h

theorem startTraining_inv {p : Nat} {bringUp : Bool} (h : Inv s) : Inv (startTraining p bringUp s) :=
  .ite (answerPort_inv (portOff_inv (modPort_inv h))) (sendTrain_inv (trainPhase_inv (.foldl (fun _ _ h => laneRate_inv
    (modLane_inv h)) (modPort_inv h))))

theorem trainFails_inv {p : Nat} {main : Bool} {t : Train} {reason : Nat} (h : Inv s) : Inv (trainFails p main t reason s) :=
  .ite (answerPort_inv (portOff_inv h)) (putTrain_inv (.foldl (fun _ _ h => laneOff_inv h) h))

theorem fallBack_inv {p : Nat} {main : Bool} {t : Train} {reason : Nat} (h : Inv s) : Inv (fallBack p main t reason s) :=
  .ite (trainFails_inv h) (putTrain_inv h)

theorem beginSwitch_inv {p w : Nat} (h : Inv s) : Inv (beginSwitch p w s) := modPort_inv (.upd (.ite (rebook_inv h) h))

theorem trainDone_inv {p : Nat} {main : Bool} {t : Train} {common : Nat} (h : Inv s) : Inv (trainDone p main t common s) := by
  unfold trainDone
  refine .ite (.ite (answerPort_inv (portOff_inv h)) (enterUp_inv h)) ?_
  split
  · exact .ite (beginSwitch_inv h) (trainFails_inv h)
  · exact trainFails_inv h

theorem agree_inv {p : Nat} {main : Bool} {t : Train} {b : TrainBlk} (h : Inv s) : Inv (agree p main t b s) :=
  .ite h (.ite (fallBack_inv h) (.ite (putTrain_inv (.foldl (fun _ _ h => sendTrain_inv h) (.foldl (fun _ _ h => laneOff_inv h)
    h))) (.ite (trainDone_inv (sendTrain_inv (putTrain_inv (.foldl (fun _ _ h => laneOff_inv h) h)))) (sendTrain_inv
    (putTrain_inv (.foldl (fun _ _ h => laneOff_inv h) h))))))

theorem lockDone_inv {p : Nat} {main : Bool} {t : Train} {b : TrainBlk} (h : Inv s) : Inv (lockDone p main t b s) :=
  .ite (trainPhase_inv (.ite (modPort_inv h) h)) (sendTrain_inv (trainPhase_inv (.ite (modPort_inv h) h)))

theorem trainOn_inv {p : Nat} {main : Bool} {t : Train} {i : Nat} {b : TrainBlk} {eye : Bool} {wants : Nat × Nat × Nat}
    (h : Inv s) :
    Inv (trainOn p main t i b eye wants s) := by
  unfold trainOn
  dsimp only
  refine .ite h ?_
  split
  · exact .ite (putTrain_inv (sendTrain_inv (askTaps_inv (applyTaps_inv h)))) (.ite (lockDone_inv (putTrain_inv (sendTrain_inv
      (askTaps_inv (applyTaps_inv h))))) (putTrain_inv (putTrain_inv (sendTrain_inv (askTaps_inv (applyTaps_inv h))))))
  · exact .ite (trainPhase_inv (putTrain_inv (sendTrain_inv (askTaps_inv (applyTaps_inv h))))) (putTrain_inv (sendTrain_inv
      (askTaps_inv (applyTaps_inv h))))
  · exact .ite (agree_inv (putTrain_inv (sendTrain_inv (askTaps_inv (applyTaps_inv h))))) (putTrain_inv (sendTrain_inv
      (askTaps_inv (applyTaps_inv h))))
  · exact putTrain_inv (sendTrain_inv (askTaps_inv (applyTaps_inv h)))

theorem execTrainBlockReceived_inv {lane : Nat} {w : Blk} {eyeOpen : Bool} {wants : Nat × Nat × Nat} (h : Inv s) :
    KeepsInv (execTrainBlockReceived lane w eyeOpen wants s) := by
  unfold execTrainBlockReceived
  refine .next ?_
  refine .ite h ?_
  split
  · exact trainOn_inv h
  · exact h

theorem execVerifyEnd_inv {port : Nat} (h : Inv s) : KeepsInv (execVerifyEnd port s) := by
  unfold execVerifyEnd
  split
  · exact .next h
  · exact .ite (.next h) (.ite (.next (trainFails_inv (modPort_inv (.foldl (fun _ _ h => .ite (sat_inv h) (laneOff_inv (sat_inv
      h))) h)))) (.next (sendTrain_inv (trainPhase_inv (modPort_inv (.foldl (fun _ _ h => .ite (sat_inv h) (laneOff_inv (sat_inv
      h))) h))))))

theorem execTrainPhaseTimeout_inv {port : Nat} (h : Inv s) : KeepsInv (execTrainPhaseTimeout port s) := by
  unfold execTrainPhaseTimeout
  split
  · exact .next h
  · split
    · exact .next h
    · refine .ite (.next h) ?_
      split
      · exact .next (trainPhase_inv h)
      · exact .next (fallBack_inv h)

theorem joinStream_inv {first l : Nat} (h : Inv s) : Inv (joinStream first l s) := .upd h

theorem execRateStep_inv {port : Nat} (h : Inv s) : KeepsInv (execRateStep port s) := by
  unfold execRateStep
  split
  · exact .next h
  · split
    · exact .next h
    · exact .ite (.next h) (.next (sendTrain_inv (trainPhase_inv (.foldl (fun _ _ h => .ite (laneRate_inv (modLane_inv h))
        (joinStream_inv (laneRate_inv (modLane_inv h)))) h))))

theorem execAutoRetrain_inv {port : Nat} (h : Inv s) : KeepsInv (execAutoRetrain port s) := .next (.ite (startTraining_inv h) h)

theorem lockLost_inv {l : Nat} {f : Lane → Lane} (h : Inv s) : Inv (lockLost l f s) :=
  .ite (settleHome_inv (linkLost_inv (.ite (modLane_inv (sat_inv (modLane_inv h))) (sat_inv (modLane_inv h))))) (.ite
    (modLane_inv (sat_inv (modLane_inv h))) (sat_inv (modLane_inv h)))

theorem execCodewordLockAcquired_inv {lane : Nat} (h : Inv s) : KeepsInv (execCodewordLockAcquired lane s) :=
  .next (.ite (modLane_inv h) h)

theorem execCodewordLockLost_inv {lane : Nat} (h : Inv s) : KeepsInv (execCodewordLockLost lane s) :=
  .next (.ite (lockLost_inv (sat_inv h)) h)

theorem execBlockLockAcquired_inv {lane : Nat} (h : Inv s) : KeepsInv (execBlockLockAcquired lane s) :=
  .ite (.next h) (.ite (.next (modLane_inv (draw_inv (modLane_inv h)))) (.next (modLane_inv h)))

theorem execBlockLockLost_inv {lane : Nat} (h : Inv s) : KeepsInv (execBlockLockLost lane s) := .next (.ite (lockLost_inv h) h)

theorem countCodewords_inv {l : Nat} {ds : List (Option Nat)} (h : Inv s) : Inv (countCodewords l ds s) :=
  modLane_inv (sat_inv (sat_inv h))

theorem alignLanes_inv {p count : Nat} (h : Inv s) : Inv (alignLanes p count s) := .foldl (fun _ _ h => modLane_inv h) h

theorem execMarkerBlock_inv {lane : Nat} {w : Blk} {place : Nat} {decoded : List (Option Nat)} (h : Inv s) :
    KeepsInv (execMarkerBlock lane w place decoded s) := by
  unfold execMarkerBlock
  refine .next ?_
  refine .ite h ?_
  split
  · exact .ite (alignLanes_inv (modLane_inv (countCodewords_inv h))) (countCodewords_inv h)
  · exact countCodewords_inv h

theorem execBringUpLink_inv {c : Cmd} (h : Inv s) : KeepsInv (execBringUpLink c s) := by
  unfold execBringUpLink
  refine .next ?_
  refine kcpTake_inv (fun _ h => ?_) h
  refine .ite2 h ?_
  refine .ite2 h ?_
  refine .ite2 h ?_
  split
  · exact h
  · exact h
  · exact .ite2 (portOff_inv (modPort_inv (setField_inv (setField_inv h)))) (startTraining_inv (modPort_inv (setField_inv
      (setField_inv h))))

theorem execRetrainPort_inv {c : Cmd} (h : Inv s) : KeepsInv (execRetrainPort c s) := by
  unfold execRetrainPort
  refine .next ?_
  refine kcpTake_inv (fun _ h => ?_) h
  refine .ite2 h ?_
  refine .ite2 h ?_
  split
  · exact .ite2 h (sendChange_inv (enterPhase_inv (modPort_inv h)))
  · exact .ite2 (portOff_inv h) (startTraining_inv (forgetDropped_inv h))
  · exact h

theorem followChange_inv {p kind w : Nat} (h : Inv s) : Inv (followChange p kind w s) :=
  .ite (startTraining_inv (forgetDropped_inv (settleHome_inv (linkLost_inv (.upd (.ite (enterPhase_inv (modPort_inv h))
    (modPort_inv h))))))) (.ite (beginSwitch_inv (.ite (enterPhase_inv (modPort_inv h)) (modPort_inv h))) (sendTrain_inv
    (modPort_inv (.foldl (fun _ _ h => joinStream_inv (laneRate_inv h)) (.ite (enterPhase_inv (modPort_inv h)) (modPort_inv
    h))))))

theorem answerChange_inv {p : Nat} {b : TrainBlk} (h : Inv s) : Inv (answerChange p b s) :=
  .ite (followChange_inv (sendChange_inv h)) (sendChange_inv h)

theorem abandonChange_inv {p st : Nat} (h : Inv s) : Inv (abandonChange p st s) :=
  endChange_inv (.ite (enterPhase_inv (modPort_inv h)) (modPort_inv h))

theorem collide_inv {p : Nat} {ch : Nat × Nat × Nat × Nat} (h : Inv s) : Inv (collide p ch s) :=
  .ite (abandonChange_inv (recordError_inv h)) (modPort_inv (.ite2 (draw_inv (recordError_inv h)) (recordError_inv h)))

theorem settleWidth_inv {p : Nat} (h : Inv s) : Inv (settleWidth p s) := by
  unfold settleWidth
  split
  · exact .ite h (endChange_inv (.ite (modPort_inv (modPort_inv h)) (modPort_inv h)))
  · exact h

theorem meetChange_inv {p : Nat} {ch : Nat × Nat × Nat × Nat} {b : TrainBlk} (h : Inv s) : Inv (meetChange p ch b s) :=
  .ite h (.ite (answerChange_inv (abandonChange_inv h)) (collide_inv h))

theorem changeAnswered_inv {p : Nat} {ch : Nat × Nat × Nat × Nat} {b : TrainBlk} (h : Inv s) : Inv (changeAnswered p ch b s) :=
  .ite h (.ite (followChange_inv h) (abandonChange_inv h))

theorem switchSeen_inv {p : Nat} {b : TrainBlk} (h : Inv s) : Inv (switchSeen p b s) := by
  unfold switchSeen
  split
  · exact .ite (settleWidth_inv (modPort_inv h)) h
  · exact h

theorem execChangeBlock_inv {port : Nat} {w : Blk} {own : Bool} (h : Inv s) : KeepsInv (execChangeBlock port w own s) := by
  unfold execChangeBlock
  refine .next ?_
  split
  · exact h
  · refine .ite h ?_
    split
    · exact .ite (.ite (answerChange_inv (abandonChange_inv h)) h) (.ite (meetChange_inv h) (changeAnswered_inv h))
    · exact .ite (answerChange_inv h) (switchSeen_inv h)

theorem execChangeAnswerTimeout_inv {port : Nat} (h : Inv s) : KeepsInv (execChangeAnswerTimeout port s) := by
  unfold execChangeAnswerTimeout
  refine .next ?_
  split
  · exact .ite (abandonChange_inv h) h
  · exact h

theorem execChangeBackoff_inv {port : Nat} (h : Inv s) : KeepsInv (execChangeBackoff port s) := by
  unfold execChangeBackoff
  refine .next ?_
  split
  · exact .ite (sendChange_inv (modPort_inv h)) h
  · exact h

theorem execSetPortWidth_inv {c : Cmd} (h : Inv s) : KeepsInv (execSetPortWidth c s) :=
  .next (kcpTake_inv (fun _ h => .ite2 h (.ite2 h (.ite2 h (.ite2 h (sendChange_inv (enterPhase_inv (modPort_inv h))))))) h)

theorem execNewLanesTimeout_inv {port : Nat} (h : Inv s) : KeepsInv (execNewLanesTimeout port s) := by
  unfold execNewLanesTimeout
  refine .next ?_
  split
  · exact .ite (endChange_inv (modPort_inv (.foldl (fun _ _ h => laneOff_inv h) h))) h
  · exact h

theorem execWidthSwitch_inv {port : Nat} (h : Inv s) : KeepsInv (execWidthSwitch port s) := by
  unfold execWidthSwitch
  refine .next ?_
  split
  · exact .ite (settleWidth_inv (modPort_inv (.foldl (fun _ _ h => laneOff_inv h) (.foldl (fun _ _ h => joinStream_inv h)
      (.foldl (fun _ _ h => sendBlock_inv h) (fillRow_inv h)))))) h
  · exact h

theorem laneTest_inv {op : Nat} {c : Cmd} (h : Inv s) : Inv (laneTest op c s) := by
  unfold laneTest
  exact kcpTake_inv (fun _ h => .ite2 h (.ite2 h (.ite2 h (.ite (.foldl (fun _ _ h => sendLoop_inv h) (.foldl (fun _ _ h =>
    modLane_inv h) h)) (.ite (.foldl (fun _ _ h => sendPattern_inv h) (.foldl (fun _ _ h => modLane_inv h) h)) (.foldl (fun _ _
    h => modLane_inv h) h)))))) h

theorem execRunLoopback_inv {c : Cmd} (h : Inv s) : KeepsInv (execRunLoopback c s) := .next (laneTest_inv h)

theorem execRunPrbs_inv {c : Cmd} (h : Inv s) : KeepsInv (execRunPrbs c s) := .next (laneTest_inv h)

theorem freeLanes_inv {first count rate : Nat} {loop : Option Nat} (h : Inv s) : Inv (freeLanes first count rate loop s) :=
  .foldl (fun _ _ h => modLane_inv (.ite (sendLoop_inv h) h)) h

theorem testEnd_inv {loop : Bool} {lane : Nat} {received : List (List Bool)} (h : Inv s) :
    Inv (testEnd loop lane received s) := by
  unfold testEnd
  split
  · exact h
  · split
    · exact .ite h (finish_inv (freeLanes_inv h))
    · exact h

theorem execPrbsTestEnd_inv {lane : Nat} {received : List (List Bool)} (h : Inv s) :
    KeepsInv (execPrbsTestEnd lane received s) := .next (testEnd_inv h)

theorem execLoopbackTestEnd_inv {lane : Nat} {received : List (List Bool)} (h : Inv s) :
    KeepsInv (execLoopbackTestEnd lane received s) := .next (testEnd_inv h)

theorem beginLoops_inv {r : Running} {first count rate : Nat} {loop : Option Nat} {p13 : Bool} {dur : Nat} {granted : List
    Nat} (h : Inv s) :
    Inv (beginLoops r first count rate loop p13 dur granted s) :=
  rewait_inv (.foldl (fun _ _ h => sendPattern_inv (modLane_inv h)) h)

theorem loopAnswer_inv {r : Running} {lane : Nat} {ready : Bool} (h : Inv s) : Inv (loopAnswer r lane ready s) := by
  unfold loopAnswer
  split
  · exact .ite h (.ite (.ite (beginLoops_inv h) (rewait_inv h)) (.ite h (finish_inv (freeLanes_inv h))))
  · exact h

theorem execLoopBlock_inv {lane : Nat} {w : Blk} (h : Inv s) : KeepsInv (execLoopBlock lane w s) := by
  unfold execLoopBlock
  dsimp only
  refine .next ?_
  split
  · exact h
  · refine .ite h ?_
    split
    · exact loopAnswer_inv h
    · exact .ite (modLane_inv h) (.ite (modLane_inv (sendLoop_inv h)) (sendLoop_inv h))

/-! ### Binding -/

theorem modBind_inv {k : UnitKind} {u : Nat} {f : BindEnt → BindEnt} (h : Inv s) : Inv (modBind k u f s) := by
  unfold modBind
  split <;> exact .upd h

theorem forceField_inv {off lo reset v : Nat} (h : Inv s) : Inv (forceField off lo reset v s) := setField_inv (.upd h)

theorem dropShares_inv {p : Nat} {keep : Nat → Bool} (h : Inv s) : Inv (dropShares p keep s) :=
  .foldl (fun _ _ h => forceField_inv h) h

theorem recallEid_inv {eid : Nat} (h : Inv s) : Inv (recallEid eid s) := by
  unfold recallEid
  refine .foldl (fun _ _ h => ?_) h
  split
  · exact .ite (.ite (.ite (badEntry_inv h) (recallFrom_inv h)) h) (.ite (absorbReleases_inv (recallFrom_inv h)) h)
  · exact h

theorem emptyCore_inv {c : Nat} (h : Inv s) : Inv (emptyCore c s) := stopAll_inv (.foldl (fun _ _ h => endQueued_inv h) h)

theorem endWaits_inv {b : Nat} (h : Inv s) : Inv (endWaits b s) := stopAll_inv h

theorem discardRecords_inv {q : Nat} (h : Inv s) : Inv (discardRecords q s) := stopAll_inv (.upd h)

theorem emptyWay_inv {w : Nat} (h : Inv s) : Inv (emptyWay w s) := .foldl (fun _ _ h => coilEvict_inv h) h

theorem beginStep_inv {k : UnitKind} {tenant : Nat} {unbind shared : Bool} {u : Nat} (h : Inv s) :
    Inv (beginStep k tenant unbind shared u s) := by
  unfold beginStep
  refine modBind_inv ?_
  split
  · exact emptyCore_inv h
  · exact recallEid_inv h
  · exact endWaits_inv h
  · exact .ite (discardRecords_inv h) h
  · exact dropShares_inv h
  · exact emptyWay_inv h
  · exact h

theorem bindCmd_inv {op : Nat} {k : UnitKind} {c : Cmd} (h : Inv s) : Inv (bindCmd op k c s) := by
  unfold bindCmd
  refine kcpTake_inv (fun _ h => ?_) h
  refine .ite2 h ?_
  split
  · exact h
  · exact .foldl (fun _ _ h => beginStep_inv h) h

theorem execBindStrand_inv {c : Cmd} (h : Inv s) : KeepsInv (execBindStrand c s) := .next (bindCmd_inv h)

theorem execBindEngine_inv {c : Cmd} (h : Inv s) : KeepsInv (execBindEngine c s) := .next (bindCmd_inv h)

theorem execBindCoilWay_inv {c : Cmd} (h : Inv s) : KeepsInv (execBindCoilWay c s) := .next (bindCmd_inv h)

theorem execBindPort_inv {c : Cmd} (h : Inv s) : KeepsInv (execBindPort c s) := .next (bindCmd_inv h)

theorem execBindEid_inv {c : Cmd} (h : Inv s) : KeepsInv (execBindEid c s) := .next (bindCmd_inv h)

theorem execBindKnots_inv {c : Cmd} (h : Inv s) : KeepsInv (execBindKnots c s) := .next (bindCmd_inv h)

theorem execBindFaultQueue_inv {c : Cmd} (h : Inv s) : KeepsInv (execBindFaultQueue c s) := .next (bindCmd_inv h)

theorem rekeyStrand_inv {st : Nat} {unbind : Bool} (h : Inv s) : Inv (rekeyStrand st unbind s) := by
  have k : Inv { s with mem.coil := s.mem.coil.filter (fun e => lineStrand e.1 != st) } := by
    obtain ⟨form, rest⟩ := h
    rw [wf_parts] at form
    exact ⟨(wf_parts _).mpr ⟨form.1, twf_filter _ _ form.2⟩, rest⟩
  unfold rekeyStrand
  exact modBind_inv (modStrand_inv (draw_inv (draw_inv (.ite (slicePaid_inv k) (.ite (sliceRestarts_inv k) k)))))

theorem stepEffect_inv {k : UnitKind} {u : Nat} {unbind : Bool} (h : Inv s) : Inv (stepEffect k u unbind s) := by
  unfold stepEffect
  split
  · exact rekeyStrand_inv h
  · exact modCore_inv h
  · exact emptyWay_inv h
  · exact .upd h
  · exact forceField_inv (.upd h)
  · exact h

theorem stepDone_inv {k : UnitKind} {u : Nat} {lost : Bool} (h : Inv s) : Inv (stepDone k u lost s) := by
  unfold stepDone
  refine .foldl (fun _ _ h => ?_) h
  split
  · exact .ite (.ite (finish_inv h) (rewait_inv h)) h
  · exact h

theorem journalBind_inv {k : UnitKind} {u : Nat} (h : Inv s) : Inv (journalBind k u s) := by
  unfold journalBind
  refine .foldl (fun _ _ h => ?_) h
  split
  · exact .ite (writeJournal_inv h) h
  · exact h

theorem execBindStepComplete_inv {kind : UnitKind} {unit : Nat} (h : Inv s) : KeepsInv (execBindStepComplete kind unit s) :=
  .ite (.next h) (.next (stepDone_inv (modBind_inv (stepEffect_inv (journalBind_inv h)))))

/-! ### Extents -/

theorem execGrantExtent_inv {c : Cmd} (h : Inv s) : KeepsInv (execGrantExtent c s) :=
  .next (kcpNow_inv (fun _ h => .ite3 h (.ite3 h (.ite3 h (.upd h)))) h)

theorem execReadExtents_inv {c : Cmd} (h : Inv s) : KeepsInv (execReadExtents c s) :=
  .next (kcpNow_inv (fun _ h => .ite3 h h) h)

theorem dropRecords_inv {e : Extent} (h : Inv s) : Inv (dropRecords e s) := stopAll_inv (.upd h)

theorem endSeal_inv {e : Extent} {status : Nat} (h : Inv s) : Inv (endSeal e status s) := by
  unfold endSeal
  split
  · exact h
  · exact .ite (modExtent_inv h) (commandDone_inv (modExtent_inv h))

theorem dropLine_inv {e : Extent} {line : Nat} (h : Inv s) : Inv (dropLine e line s) := by
  unfold dropLine
  refine modExtent_inv ?_
  refine setDir_inv ?_
  split
  · exact sendSnoops_inv (countBroadcast_inv (poisonHome_inv h))
  · exact poisonHome_inv h

theorem dropExtentLines_inv {e : Extent} (h : Inv s) : Inv (dropExtentLines e s) :=
  .upd (.foldl (fun _ _ h => dropLine_inv h) h)

theorem revokeAbrupt_inv {e : Extent} (h : Inv s) : Inv (revokeAbrupt e s) :=
  dropExtentLines_inv (revokeAccesses_inv (modExtent_inv h))

theorem revokeGraceful_inv {e : Extent} (h : Inv s) : Inv (revokeGraceful e s) := modExtent_inv h

theorem execRevokeExtent_inv {c : Cmd} (h : Inv s) : KeepsInv (execRevokeExtent c s) := by
  unfold execRevokeExtent
  refine .next ?_
  refine .ite ?_ ?_
  · refine kcpTake_inv (fun _ h => ?_) h
    split
    · exact h
    · exact .ite2 h (.ite (revokeAbrupt_inv (dropRecords_inv (endSeal_inv h))) (revokeGraceful_inv (dropRecords_inv (endSeal_inv
        h))))
  · refine settleHome_inv ?_
    refine kcpTake_inv (fun _ h => ?_) h
    split
    · exact h
    · exact .ite2 h (.ite (revokeAbrupt_inv (dropRecords_inv (endSeal_inv h))) (revokeGraceful_inv (dropRecords_inv (endSeal_inv
        h))))

theorem scaleQuadrant_inv {t limit q : Nat} (h : Inv s) : Inv (scaleQuadrant t limit q s) := by
  unfold scaleQuadrant
  exact .ite h (.foldl (fun _ _ h => forceField_inv h) h)

theorem execSetSealed_inv {c : Cmd} (h : Inv s) : KeepsInv (execSetSealed c s) :=
  .next (kcpNow_inv (fun _ h => .ite3 h (.ite3 (.upd h) (.ite3 h (.upd (.foldl (fun _ _ h => scaleQuadrant_inv h) h))))) h)

theorem execSealingEffective_inv {tenant : Nat} (h : Inv s) : KeepsInv (execSealingEffective tenant s) :=
  .ite (.next h) (.next (.upd h))

theorem execUnsealingEffective_inv {tenant : Nat} (h : Inv s) : KeepsInv (execUnsealingEffective tenant s) :=
  .ite (.next h) (.next (.upd h))

/-- A key stored beside slot 0, the operator's fused one (R444). -/
theorem Inv.storeKey {i : Nat} {key : Option Nat} (other : i ≠ 0) (h : Inv s) :
    Inv { s with sec.creds := tset none s.sec.creds i key } := by
  obtain ⟨form, active, stage, creds⟩ := h
  exact ⟨form, active, stage, (tget_tset_ne _ _ _ _ _ (Ne.symm other)).trans creds⟩

/-- The slot that ENROLL_TENANT names is never the operator's fused one (R444). -/
theorem enrolledSlot_ne_zero (t n : Nat) : 4 * t + clampTo (if t = 0 then 1 else 0) 3 n ≠ 0 := by
  unfold clampTo
  split_ifs <;> omega

theorem execEnrollTenant_inv {c : Cmd} (h : Inv s) : KeepsInv (execEnrollTenant c s) := by
  unfold execEnrollTenant
  exact .next (kcpNow_inv (fun _ h => .ite3 h (.foldl (fun _ _ h => closeSession_inv h)
    (.storeKey (enrolledSlot_ne_zero _ _) h))) h)

/-! ### Register commands -/

theorem lowerReserve_inv {t q n : Nat} (h : Inv s) : Inv (lowerReserve t q n s) := .foldl (fun _ _ h => setDir_inv h) h

theorem enableQueue_inv {q : Nat} (h : Inv s) : Inv (enableQueue q s) := setField_inv (.upd h)

theorem writtenTaps_inv {l off : Nat} (h : Inv s) : Inv (writtenTaps l off s) := .ite (.upd h) h

theorem applyField_inv {f : RegFam} {i off : Nat} {x : Fld} {v : Nat} (h : Inv s) : Inv (applyField f i off x v s) := by
  unfold applyField
  split
  · exact fillReserve_inv (lowerReserve_inv (setField_inv h))
  · exact .upd (setField_inv h)
  · exact .ite (enableQueue_inv h) (setField_inv h)
  · exact .ite (fbarDisable_inv h) (setField_inv h)
  · exact flipArm_inv h
  · exact writtenTaps_inv (setField_inv h)
  · exact setField_inv h

theorem acceptField_inv {f : RegFam} {i off : Nat} {x : Fld} {v : Nat} (h : Inv s) : Inv (acceptField f i off x v s) := by
  unfold acceptField
  split
  · exact .ite (.upd h) (.upd h)
  · exact .ite (applyField_inv (.upd h)) (.ite (.upd h) (.upd h))

theorem fitPools_inv {i off : Nat} (h : Inv s) : Inv (fitPools i off s) := .ite h (acceptField_inv (acceptField_inv h))

theorem fitTaps_inv {i off : Nat} (h : Inv s) : Inv (fitTaps i off s) := .ite h (acceptField_inv h)

theorem writeKnot_inv {k value mask : Nat} (h : Inv s) : Inv (writeKnot k value mask s) := .ite h (knotWrite_inv h)

theorem writeReg_inv {off value mask : Nat} (h : Inv s) : Inv (writeReg off value mask s) := by
  unfold writeReg
  split
  · exact h
  · exact writeKnot_inv h
  · exact .ite (fitPools_inv (.foldl (fun _ _ h => acceptField_inv h) h)) (.ite (fitTaps_inv (.foldl (fun _ _ h =>
      acceptField_inv h) h)) (.foldl (fun _ _ h => acceptField_inv h) h))

theorem readRange_inv {c : Cmd} : ∀ {l : List Nat} {s : State}, Inv s → Inv (readRange c l s).2
  | [], _, h => h
  | _ :: _, s, h => by
    unfold readRange
    exact readRange_inv (readReg_inv (.ite (writeJournal_inv h) h))

theorem execReadRegs_inv {c : Cmd} (h : Inv s) : KeepsInv (execReadRegs c s) :=
  .next (kcpNow_inv (fun _ h => .ite3 h (readRange_inv h)) h)

theorem writeAll_inv {c : Cmd} : ∀ {l : List (Nat × Nat × Nat)} {i : Nat} {s : State}, Inv s → Inv (writeAll c i l s).2
  | [], _, _, h => h
  | _ :: _, _, s, h => by
    unfold writeAll
    exact writeAll_inv (writeReg_inv (writeJournal_inv h))

theorem execWriteRegs_inv {c : Cmd} (h : Inv s) : KeepsInv (execWriteRegs c s) :=
  .next (kcpTake_inv (fun _ h => .ite2 h (writeAll_inv h)) h)

theorem execRegisterWrite_inv {offset value mask : Nat} (h : Inv s) : KeepsInv (execRegisterWrite offset value mask s) :=
  .next (writeReg_inv h)

theorem applyWaiting_inv {off lo : Nat} {cls : FClass} {ready : RegFam → Nat → WaitingWrite → Bool} (h : Inv s) :
    Inv (applyWaiting off lo cls ready s) := by
  unfold applyWaiting
  split
  · split
    · exact .ite (applyField_inv (.upd h)) h
    · exact h
  · exact h

theorem execLiveWriteApply_inv {offset lo : Nat} (h : Inv s) : KeepsInv (execLiveWriteApply offset lo s) :=
  .next (applyWaiting_inv h)

theorem execEdgeWriteApply_inv {offset lo : Nat} (h : Inv s) : KeepsInv (execEdgeWriteApply offset lo s) :=
  .next (applyWaiting_inv h)

theorem execHeldWriteApply_inv {offset lo : Nat} (h : Inv s) : KeepsInv (execHeldWriteApply offset lo s) :=
  .next (applyWaiting_inv h)

/-! ### Security -/

theorem takeRung_inv {rung scope target : Nat} (h : Inv s) : Inv (takeRung rung scope target s) := by
  unfold takeRung
  split
  · exact rung3_inv h
  · exact rung4_inv h
  · exact h

theorem buildReport_inv {nonce scope select : Nat} (h : Inv s) : Inv (buildReport nonce scope select s).2 :=
  .ite2 h (draw_inv h)

theorem frozenReport_inv {session nonce scope select : Nat} (h : Inv s) :
    Inv (frozenReport session nonce scope select s).2 := by
  unfold frozenReport
  split
  · exact .ite2 h (modSession_inv (buildReport_inv h))
  · exact modSession_inv (buildReport_inv h)

theorem execGetAttestation_inv {c : Cmd} (h : Inv s) : KeepsInv (execGetAttestation c s) :=
  .next (kcpTake_inv (fun _ h => .ite2 h (.ite2 h (frozenReport_inv h))) h)

theorem recallOwned_inv {e : Extent} (h : Inv s) : Inv (recallOwned e s) := .foldl (fun _ _ h => recallLine_inv h) h

theorem execSealExtent_inv {c : Cmd} (h : Inv s) : KeepsInv (execSealExtent c s) := by
  unfold execSealExtent
  refine .next ?_
  refine kcpNow_inv (fun _ h => ?_) h
  split
  · exact h
  · exact .ite3 h (.ite3 h (recallOwned_inv (modExtent_inv h)))

theorem hashLines_inv {tenant : Nat} : ∀ {n line : Nat} {acc : List Line} {s : State}, Inv s →
    Inv (hashLines tenant n line acc s).2
  | 0, _, _, _, h => h
  | n + 1, line, acc, s, h => by
    unfold hashLines
    exact .ite2 (bump_inv (homeRead_inv (drawFetches_inv h))) (hashLines_inv (homeRead_inv (drawFetches_inv h)))

theorem execSealHashComplete_inv {base : Nat} (h : Inv s) : KeepsInv (execSealHashComplete base s) := by
  unfold execSealHashComplete
  split
  · exact .next h
  · split
    · exact .next h
    · refine .ite (.next h) ?_
      refine .ite (.next (recallOwned_inv h)) ?_
      split
      · next e2 =>
          exact .next (commandDone_inv (modExtent_inv (.ofPair e2 (hashLines_inv (recallOwned_inv h)))))
      · next e2 =>
          exact .next (commandDone_inv (modExtent_inv (.ofPair e2 (hashLines_inv (recallOwned_inv h)))))

theorem loadTxKey_inv {p key : Nat} (h : Inv s) : Inv (loadTxKey p key s) := modPort_inv h

theorem loadRxKey_inv {p key : Nat} (h : Inv s) : Inv (loadRxKey p key s) := modPort_inv h

theorem execSetPortKey_inv {c : Cmd} (h : Inv s) : KeepsInv (execSetPortKey c s) :=
  .next (kcpNow_inv (fun _ h => .ite (.ite h (loadTxKey_inv h)) (loadRxKey_inv (.ite h (loadTxKey_inv h)))) h)

theorem stopModule_inv {core : Nat} (h : Inv s) : Inv (stopModule core s) := .foldl (fun _ _ h => closeSession_inv h) (.upd h)

theorem startModule_inv {core digest version : Nat} (h : Inv s) : Inv (startModule core digest version s) :=
  .upd (draw_inv (draw_inv (draw_inv h)))

theorem loadModule_inv {core len : Nat} {bs : List Byte} (h : Inv s) : Inv (loadModule core len bs s).2.2 :=
  .ite3 h (.ite3 h (startModule_inv (stopModule_inv h)))

theorem execLoadExtension_inv {c : Cmd} (h : Inv s) : KeepsInv (execLoadExtension c s) := by
  unfold execLoadExtension
  refine .ite (.next (kcpNow_inv (fun _ h => draw_inv (draw_inv (stopModule_inv h))) h)) ?_
  refine .next ?_
  refine whenReadable_inv (fun _ h => ?_) h
  refine kcpNow_inv (fun _ h => ?_) h
  split
  · next e0 =>
      exact .ofPair e0 (readByTva_inv h)
  · next e0 =>
      exact .ofPair e0 (readByTva_inv h)
  · next e0 =>
      exact .ofPair e0 (readByTva_inv h)
  · next e0 =>
      exact loadModule_inv (.ofPair e0 (readByTva_inv h))

theorem execRngHealthFail_inv (h : Inv s) : KeepsInv (execRngHealthFail s) :=
  .ite (.next (.upd h)) (.next (takeRung_inv (detect_inv (.upd h))))

theorem execRngHealthPass_inv (h : Inv s) : KeepsInv (execRngHealthPass s) := .next (endHandling_inv (.upd h))

theorem execMeasurementStoreFault_inv (h : Inv s) : KeepsInv (execMeasurementStoreFault s) :=
  .ite (.next h) (.next (takeRung_inv (detect_inv h)))

/-! ### Errors -/

theorem execReadErrors_inv {c : Cmd} (h : Inv s) : KeepsInv (execReadErrors c s) :=
  .next (kcpNow_inv (fun _ h => .ite h (.upd h)) h)

theorem execClearFirstError_inv {c : Cmd} (h : Inv s) : KeepsInv (execClearFirstError c s) :=
  .next (kcpNow_inv (fun _ h => .upd h) h)

theorem execReadAudit_inv {c : Cmd} (h : Inv s) : KeepsInv (execReadAudit c s) := .next (kcpNow_inv (fun _ h => h) h)

theorem quadrantFault_inv {domain source q detail : Nat} (h : Inv s) : Inv (quadrantFault domain source q detail s) :=
  .ite (rung3_inv (detect_inv h)) (rung3_inv (detect_inv h))

theorem discrepancy_inv {kind unit : Nat} (h : Inv s) : Inv (discrepancy kind unit s) :=
  .ite (.ite h (quadrantFault_inv h)) (.ite h (.ite (settleHome_inv (rung3_inv (detect_inv h))) (.ite (endHandling_inv
    (detect_inv h)) (settleHome_inv (.ite (modPort_inv (linkLost_inv (detect_inv h))) (.ite (linkLost_inv (detect_inv h))
    (startTraining_inv (linkLost_inv (detect_inv h)))))))))

theorem execAuditDiscrepancy_inv {kind unit _vc : Nat} (h : Inv s) : KeepsInv (execAuditDiscrepancy kind unit _vc s) :=
  .next (discrepancy_inv h)

theorem auditMark_inv (h : Inv s) : Inv (auditMark s) := .foldl (fun _ _ h => discrepancy_inv h) (.upd h)

theorem execStrandSliceFault_inv {strand : Nat} (h : Inv s) : KeepsInv (execStrandSliceFault strand s) :=
  .ite (.next h) (.next (.ite (rung3_inv (detect_inv h)) (.ite (modStrand_inv (detect_inv h)) (endHandling_inv (detect_inv
    h)))))

theorem execEngineLogicFault_inv {core : Nat} (h : Inv s) : KeepsInv (execEngineLogicFault core s) :=
  .ite (.next h) (.next (.ite (rung3_inv (detect_inv h)) (rung3_inv (detect_inv h))))

theorem execSwitchLogicFault_inv {quadrant : Nat} (h : Inv s) : KeepsInv (execSwitchLogicFault quadrant s) :=
  .next (.ite h (quadrantFault_inv h))

theorem controlLost_inv (h : Inv s) : Inv (controlLost s) := rung4_inv (detect_inv h)

theorem execControlMeshFault_inv (h : Inv s) : KeepsInv (execControlMeshFault s) := .next (controlLost_inv h)

theorem execControlStall_inv (h : Inv s) : KeepsInv (execControlStall s) := .next (.ite (controlLost_inv h) h)

/-! ### Counters and interrupts -/

theorem clearBank_inv {t : Nat} (h : Inv s) : Inv (clearBank t s) := .upd h

theorem execReadCounters_inv {c : Cmd} (h : Inv s) : KeepsInv (execReadCounters c s) := by
  unfold execReadCounters
  refine .next ?_
  refine kcpNow_inv (fun _ h => ?_) h
  split
  · exact .ite (clearBank_inv h) h
  · exact .ite3 h h
  · exact h
  · exact .ite3 h h

theorem execReadTrace_inv {c : Cmd} (h : Inv s) : KeepsInv (execReadTrace c s) := by
  unfold execReadTrace
  dsimp only
  refine .next ?_
  refine kcpNow_inv (fun _ h => ?_) h
  split
  · exact h
  · exact draw_inv h

theorem intTarget_inv {source : Nat} (h : Inv s) : Inv (intTarget source s).2 := by
  unfold intTarget
  dsimp only
  split
  · exact h
  · exact h
  · exact draw_inv h

theorem execInterruptDelivery_inv {source : Nat} (h : Inv s) : KeepsInv (execInterruptDelivery source s) := by
  unfold execInterruptDelivery
  dsimp only
  refine .ite (.next h) ?_
  split
  · exact .next (intTarget_inv h)
  · exact .next (bumpDev_inv (sat_inv (.upd (intTarget_inv h))))

theorem execEndOfInterrupt_inv {core source : Nat} (h : Inv s) : KeepsInv (execEndOfInterrupt core source s) := by
  unfold execEndOfInterrupt
  refine .next ?_
  refine .ite (bumpDev_inv h) ?_
  split
  · exact .upd h
  · exact .upd h
  · exact bumpDev_inv h

theorem interruptsBack_inv {core : Nat} {test : Nat → Bool} (h : Inv s) : Inv (interruptsBack core test s) := .upd h

theorem leaveService_inv {core : Nat} (h : Inv s) : Inv (leaveService core s) := interruptsBack_inv (.upd h)

theorem enterService_inv {core : Nat} (h : Inv s) : Inv (enterService core s) := .upd h

/-! ### The pair of command processors -/

theorem beat_inv {core : Nat} (h : Inv s) : Inv (beat core s) :=
  .ite (.upd (emit_inv (emit_inv h))) (.upd (emit_inv (emit_inv h)))

theorem execHeartbeatSend_inv (h : Inv s) : KeepsInv (execHeartbeatSend s) :=
  .next (.ite h (.foldl (fun _ _ h => .ite (beat_inv h) h) h))

theorem execHeartbeatReceived_inv {core path : Nat} (h : Inv s) : KeepsInv (execHeartbeatReceived core path s) :=
  .next (.ite h (.upd h))

theorem execHeartbeatPathSilent_inv {core path : Nat} (h : Inv s) : KeepsInv (execHeartbeatPathSilent core path s) :=
  .next (.ite h (recordError_inv (.upd h)))

theorem moveOwner_inv {kind : Nat} (h : Inv s) : Inv (moveOwner kind s) := by
  obtain ⟨form, -, stage, creds⟩ : Inv (interruptsBack s.pair.active (fun i => bit (intCoreMask s i) 8) s) :=
    interruptsBack_inv h
  exact ⟨form, Nat.lt_succ_of_le (Nat.sub_le 1 s.pair.active), stage, creds⟩

theorem execFailoverTakeover_inv (h : Inv s) : KeepsInv (execFailoverTakeover s) :=
  .ite (.next h) (.next (event_inv (detect_inv (.upd (leaveService_inv (moveOwner_inv h))))))

theorem execFenceClose_inv (h : Inv s) : KeepsInv (execFenceClose s) := by
  unfold execFenceClose
  split
  · exact .next (.ite h (endHandling_inv (enterService_inv (interruptsBack_inv (.upd h)))))
  · exact .next h

theorem execForceFailover_inv {c : Cmd} (h : Inv s) : KeepsInv (execForceFailover c s) :=
  .next (kcpNow_inv (fun _ h => .ite3 h (.upd (moveOwner_inv h))) h)

theorem listControlCore_inv {core : Nat} (h : Inv s) : Inv (listControlCore core s) :=
  leaveService_inv (recordFailure_inv (.upd h))

theorem testPasses_inv (h : Inv s) : Inv (testPasses s) := endHandling_inv (.upd h)

theorem testFails_inv (h : Inv s) : Inv (testFails s) :=
  .ite (detect_inv (.upd h)) (endHandling_inv (listControlCore_inv (detect_inv (.upd h))))

theorem execStandbySelftest_inv {passed : Bool} (h : Inv s) : KeepsInv (execStandbySelftest passed s) :=
  .next (.ite h (.ite (testPasses_inv h) (testFails_inv h)))

theorem execReadHealth_inv {c : Cmd} (h : Inv s) : KeepsInv (execReadHealth c s) := .next (kcpNow_inv (fun _ h => h) h)

/-! ### Bring-up -/

theorem stageFrom_inv {n : Nat} (h : Inv s) (last : n < 6 := by decide) : Inv (stageFrom n s) := by
  unfold stageFrom
  refine .ite ?_ h
  obtain ⟨form, active, -, creds⟩ := h
  exact ⟨form, active, last, creds⟩

theorem checkPower_inv {temps : List Nat} (h : Inv s) : Inv (checkPower temps s).2.2 :=
  .ite3 (.upd (.foldl (fun _ _ h => stackTemp_inv h) h)) (.ite3 (stageFrom_inv (.upd (.foldl (fun _ _ h => stackTemp_inv h) h)))
    (.ite3 (stageFrom_inv (.upd (.foldl (fun _ _ h => stackTemp_inv h) h))) (stageFrom_inv (draw_inv (.upd (.foldl (fun _ _ h =>
    stackTemp_inv h) h))))))

theorem execCheckPower_inv {c : Cmd} {temps : List Nat} (h : Inv s) : KeepsInv (execCheckPower c temps s) :=
  .next (kcpNow_inv (fun _ h => checkPower_inv h) h)

theorem execLockClocks_inv {c : Cmd} (h : Inv s) : KeepsInv (execLockClocks c s) := .next (kcpTake_inv (fun _ h => .ite2 h h) h)

theorem execClocksLocked_inv {locked : Nat} (h : Inv s) : KeepsInv (execClocksLocked locked s) := by
  unfold execClocksLocked
  split
  · exact .next h
  · split
    · exact .ite (.next (finish_inv h)) (.next (finish_inv (.ite h (stageFrom_inv (.upd h)))))
    · exact .next h

theorem wakeStrand_inv {st : Nat} (h : Inv s) : Inv (wakeStrand st s) := modStrand_inv (sliceRestarts_inv h)

theorem dropRaw_inv {st : Nat} (h : Inv s) : Inv (dropRaw st s) := (dropRaw_quiet (.refl s)).inv h

theorem writePattern_inv {r : PatternRun} (h : Inv s) : Inv (writePattern r s) := (writePattern_quiet (.refl s)).inv h

theorem execTrainStrands_inv {c : Cmd} (h : Inv s) : KeepsInv (execTrainStrands c s) :=
  .next (kcpTake_inv (fun _ h => .ite2 h (.ite2 h (.foldl (fun _ _ h => wakeStrand_inv h) h))) h)

theorem trained_inv {st : Nat} {ok : Bool} (h : Inv s) : Inv (trained st ok s) := modStrand_inv (dropRaw_inv h)

theorem quickTrained_inv {st : Nat} {ok : Bool} (h : Inv s) : Inv (quickTrained st ok s) :=
  .ite (endHandling_inv (modStrand_inv h)) (rung3_inv (detect_inv (modStrand_inv h)))

theorem trainEnds_inv {r : Running} {first count : Nat} {failed : List Nat} (h : Inv s) :
    Inv (trainEnds r first count failed s) := stageFrom_inv (finish_inv (.foldl (fun _ _ h => trained_inv h) h))

theorem execStrandsTrained_inv {failed : List Nat} (h : Inv s) : KeepsInv (execStrandsTrained failed s) := by
  unfold execStrandsTrained
  dsimp only
  split
  · exact .next (.foldl (fun _ _ h => quickTrained_inv h) h)
  · split
    · exact .next (trainEnds_inv (.foldl (fun _ _ h => quickTrained_inv h) h))
    · exact .next (.foldl (fun _ _ h => quickTrained_inv h) h)

theorem execStrandPattern_inv {c : Cmd} (h : Inv s) : KeepsInv (execStrandPattern c s) :=
  .next (kcpTake_inv (fun _ h => .ite2 h (.ite2 h (.ite2 h (wakeStrand_inv (.ite h (writePattern_inv h)))))) h)

theorem execStrandPatternComplete_inv {damage other : List (Nat × Line)} {spareDamage spareOther : List (Nat × Nat)}
    (h : Inv s) :
    KeepsInv (execStrandPatternComplete damage other spareDamage spareOther s) := by
  unfold execStrandPatternComplete
  split
  · exact .next h
  · split
    · exact .next (finish_inv (modStrand_inv h))
    · exact .next h

theorem execRunStartupTest_inv {c : Cmd} (h : Inv s) : KeepsInv (execRunStartupTest c s) :=
  .next (kcpTake_inv (fun _ h => .ite2 h (.ite2 h h)) h)

theorem numberCores_inv (h : Inv s) : Inv (numberCores s) := .upd h

theorem numberStrands_inv (h : Inv s) : Inv (numberStrands s) := .upd h

theorem holdQuadrants_inv (h : Inv s) : Inv (holdQuadrants s) :=
  .foldl (fun _ _ h => resetRegisters_inv (.foldl (fun _ _ h => portWithPartition_inv h) h)) h

theorem judgePair_inv (h : Inv s) : Inv (judgePair s) :=
  .ite (controlLost_inv (.upd (.foldl (fun _ _ h => leaveService_inv h) h))) (.ite (.upd (moveOwner_inv (.foldl (fun _ _ h =>
    leaveService_inv h) h))) (.ite (.upd (.foldl (fun _ _ h => leaveService_inv h) h)) (.ite (testPasses_inv (.foldl (fun _ _ h
    => leaveService_inv h) h)) (.foldl (fun _ _ h => leaveService_inv h) h))))

theorem writeDefects_inv {added full : List Defect} (h : Inv s) : Inv (writeDefects added full s) := .upd h

theorem afterMarch_inv (h : Inv s) : Inv (afterMarch s) := by
  obtain ⟨-, rest⟩ := h
  exact ⟨rfl, rest⟩

theorem execStartupTestComplete_inv {found : List (Nat × Nat)} (h : Inv s) : KeepsInv (execStartupTestComplete found s) := by
  unfold execStartupTestComplete
  split
  · exact .next h
  · exact .next (stageFrom_inv (finish_inv (judgePair_inv (numberStrands_inv (numberCores_inv (holdQuadrants_inv (afterMarch_inv
      (writeDefects_inv h))))))))

theorem commitCore_inv {core : Nat} {a : (Nat × Nat) × State} (h : Inv a.2) : Inv (commitCore core a).2 := by
  unfold commitCore
  dsimp only
  split
  · exact h
  · exact modCore_inv h
  · exact .ite2 h (modCore_inv h)

theorem commitExcluded_inv {core : Nat} (h : Inv s) : Inv (commitExcluded core s) := .ite h (coreFails_inv (settleCores_inv h))

theorem commitImage_inv (h : Inv s) : Inv (commitImage s).2.2 := by
  unfold commitImage
  split
  · exact h
  · exact .ite3 h (stageFrom_inv (settleHome_inv (.foldl (fun _ _ h => commitExcluded_inv h) (.foldl2 (fun _ _ h =>
      commitCore_inv h) (.upd h)))))

theorem execCommitImage_inv {c : Cmd} (h : Inv s) : KeepsInv (execCommitImage c s) :=
  .next (kcpNow_inv (fun _ h => commitImage_inv h) h)

theorem resetScope_inv {scope target : Nat} (h : Inv s) : Inv (resetScope scope target s).2 := by
  unfold resetScope
  refine .ite2 (.ite (draw_inv h) (deviceResetDue_inv (draw_inv h))) ?_
  refine .ite2 h ?_
  refine .ite2 h ?_
  split
  · exact h
  · exact startReset_inv h

theorem execResetScope_inv {c : Cmd} (h : Inv s) : KeepsInv (execResetScope c s) :=
  .next (kcpTake_inv (fun _ h => resetScope_inv h) h)

/-! ### The board -/

theorem deviceReset_inv {s : State} : Inv (deviceReset s) := ⟨rfl, Nat.zero_lt_two, Nat.zero_le 6, rfl⟩

theorem powerRemoved_inv (h : Inv s) : Inv (powerRemoved s) := by
  obtain ⟨form, active, stage, -⟩ := h
  exact ⟨form, active, stage, rfl⟩

theorem execDeviceResetInput_inv {pwrGood resetN : Bool} (h : Inv s) : KeepsInv (execDeviceResetInput pwrGood resetN s) :=
  .next (.ite (powerRemoved_inv deviceReset_inv) (.ite deviceReset_inv (.ite h (.upd h))))

theorem execSysrefStop_inv (_h : Inv s) : KeepsInv (execSysrefStop s) := .next deviceReset_inv

theorem execDeviceScopeReset_inv (h : Inv s) : KeepsInv (execDeviceScopeReset s) := by
  unfold execDeviceScopeReset
  split
  · exact .next (.ite h deviceReset_inv)
  · exact .next h

theorem measureStages_inv {a : FlashCopy} (h : Inv s) : Inv (measureStages a s) := .ite h (.ite (.upd (.upd h)) (.upd h))

theorem startControl_inv {slot : Nat} (h : Inv s) : Inv (startControl slot s) := by
  obtain ⟨form, -, -, creds⟩ := h
  refine ⟨form, ?_, (by decide : 1 ≤ 6), creds⟩
  show (if defective s 4 0 then 1 else 0) < 2
  split <;> decide

theorem execPowerOnBoot_inv {a b : FlashCopy} (h : Inv s) : KeepsInv (execPowerOnBoot a b s) := by
  have k : Inv (measureStages b { measureStages a s with boot.aFailed := true }) := measureStages_inv (.upd (measureStages_inv h))
  unfold execPowerOnBoot
  exact .ite (.next h) (.ite (.next (startControl_inv (measureStages_inv h))) (.next (.ite (startControl_inv k) (.upd k))))

theorem ethStops_inv {n : Nat} (h : Inv s) : Inv (ethStops n s) := .upd h

theorem execRailFault_inv {rail : Nat} (h : Inv s) : KeepsInv (execRailFault rail s) :=
  .ite (.next h) (.next (.ite deviceReset_inv (.ite (.upd h) (.ite (ethStops_inv (detect_inv (.upd h))) (quadrantFault_inv (.upd
    h))))))

theorem execLinkrefStop_inv {q : Nat} (h : Inv s) : KeepsInv (execLinkrefStop q s) :=
  .ite (.next h) (.next (settleHome_inv (.foldl (fun _ _ h => linkLost_inv h) (.foldl (fun _ _ h => lockLost_inv h) h))))

theorem execEthrefStop_inv {n : Nat} (h : Inv s) : KeepsInv (execEthrefStop n s) := .next (.ite (ethStops_inv h) h)

theorem execThermalTrip_inv {isStack : Bool} {_unit temp : Nat} (h : Inv s) : KeepsInv (execThermalTrip isStack _unit temp s) :=
  .ite (.next h) (.next (rung4_inv (.upd (detect_inv h))))

theorem setLevel_inv {q level : Nat} (h : Inv s) : Inv (setLevel q level s) := .upd h

theorem levelRises_inv {q : Nat} (h : Inv s) : Inv (levelRises q s) := .ite h (setLevel_inv h)

theorem keepReadings_inv {q : Nat} {t : Thermal} (h : Inv s) : Inv (keepReadings q t s) := .upd h

theorem execThrottleLevelRise_inv {q : Option Nat} {t : Thermal} (h : Inv s) : KeepsInv (execThrottleLevelRise q t s) := by
  unfold execThrottleLevelRise
  refine .ite (.next h) ?_
  split
  · exact .next (.ite h (.foldl (fun _ _ h => levelRises_inv h) h))
  · exact .ite (.next h) (.next (.ite (levelRises_inv (keepReadings_inv h)) (keepReadings_inv h)))

theorem execThrottleLevelFall_inv {q : Nat} {t : Thermal} (h : Inv s) : KeepsInv (execThrottleLevelFall q t s) :=
  .ite (.next h) (.next (.ite (setLevel_inv (keepReadings_inv h)) (keepReadings_inv h)))

theorem execSmbusBlockRead_inv {code : Nat} {write : Bool} (h : Inv s) : KeepsInv (execSmbusBlockRead code write s) := by
  unfold execSmbusBlockRead
  refine .ite (.next h) ?_
  split
  · exact .next (emit_inv h)
  · refine .ite (.next (emit_inv h)) ?_
    split <;> exact .next (emit_inv h)

/-! ### The global stop -/

theorem haltState_inv {hdr : HaltState} (h : Inv s) : Inv (haltState hdr s) := .ite h (fire_inv (.upd h))

theorem execHaltAtMark_inv {c : Cmd} (h : Inv s) : KeepsInv (execHaltAtMark c s) :=
  .next (kcpNow_inv (fun _ h => haltState_inv (.upd h)) h)

theorem haltAtMark_inv (h : Inv s) : Inv (haltAtMark s) := boundary_inv (commandDone_inv (event_inv (haltState_inv (.upd h))))

theorem execHaltMarkReached_inv (h : Inv s) : KeepsInv (execHaltMarkReached s) := .next (.ite h (haltAtMark_inv h))

theorem landingCloses_inv (h : Inv s) : Inv (landingCloses s) := boundary_inv (haltState_inv h)

theorem execLandingClose_inv (h : Inv s) : KeepsInv (execLandingClose s) := .next (.ite h (landingCloses_inv h))

theorem execResume_inv {c : Cmd} (h : Inv s) : KeepsInv (execResume c s) := by
  unfold execResume
  refine .next ?_
  refine kcpTake_inv (fun _ h => ?_) h
  split
  · exact h
  · exact h
  · exact haltState_inv h
  · exact h
  · exact haltState_inv (.upd h)

theorem haltPromised_inv (h : Inv s) : Inv (haltPromised s) := overrideQueued_inv (.foldl (fun _ _ h => abortTracker_inv h) h)

theorem unpark_inv {rx : RxPkt} (h : Inv s) : Inv (unpark rx s) := .ite (complete_inv (countP1_inv (takeArrived_inv h))) h

theorem issueHeld_inv (h : Inv s) : Inv (issueHeld s) := .foldl (fun _ _ h => enqueue_inv h) (.upd h)

theorem passHeldGates_inv (h : Inv s) : Inv (passHeldGates s) := mapCtxs_inv (.upd h)

theorem issueAgain_inv (h : Inv s) : Inv (issueAgain s) := settleHome_inv (settleStops_inv (issueWaiting_inv h))

theorem retrainWaiting_inv (h : Inv s) : Inv (retrainWaiting s) :=
  .foldl (fun _ _ h => .ite (startTraining_inv (modPort_inv h)) (modPort_inv h)) h

theorem resumeStop_inv (h : Inv s) : Inv (resumeStop s) :=
  boundary_inv (.foldl (fun _ _ h => finish_inv h) (retrainWaiting_inv (issueAgain_inv (passHeldGates_inv (.foldl (fun _ _ h =>
    unpark_inv h) (.upd (issueHeld_inv (haltState_inv (haltPromised_inv h)))))))))

theorem execResumeAtMark_inv (h : Inv s) : KeepsInv (execResumeAtMark s) := .next (.ite h (resumeStop_inv h))

/-! ### Fabric time -/

theorem clockMark_inv (h : Inv s) : Inv (clockMark s) := .upd h

theorem marked_inv (h : Inv s) : Inv (marked s) :=
  slicesMark_inv (clockMark_inv (endLoads_inv (.foldl (fun _ _ h => congestionMark_inv h) h)))

theorem tick_inv (h : Inv s) : Inv (tick s) :=
  .ite h (boundary_inv (auditMark_inv (.foldl (fun _ _ h => rung3_inv h) (.upd (marked_inv h)))))

theorem endWindow_inv (h : Inv s) : Inv (endWindow s) := .upd (.foldl (fun _ _ h => setField_inv (setField_inv h)) h)

theorem windowFires_inv (h : Inv s) : Inv (windowFires s) := .ite (.upd (endWindow_inv h)) (endWindow_inv h)

theorem execAdmissionWindowBoundary_inv (h : Inv s) : KeepsInv (execAdmissionWindowBoundary s) :=
  .next (.ite h (boundary_inv (windowFires_inv h)))

theorem fires_inv {e : FmtEvent} (h : Inv s) : Inv (e.fires s) := by
  cases e
  · exact windowFires_inv h
  · exact haltAtMark_inv h
  · exact landingCloses_inv h
  · exact resumeStop_inv h

theorem fireSkipped_inv (h : Inv s) : Inv (fireSkipped s) := .foldl (fun _ _ h => fires_inv h) h

theorem setFmt_inv {v : Nat} (h : Inv s) : Inv (setFmt v s) := fireSkipped_inv (.upd h)

theorem lockFmt_inv {v : Nat} (h : Inv s) : Inv (lockFmt v s) :=
  .ite (endWindow_inv (.upd h)) (fireSkipped_inv (endWindow_inv (.upd h)))

theorem decideTime_inv {n : TState} (h : Inv s) : Inv (decideTime n s) := .upd h

theorem timeoutDecides_inv {n : TState} (h : Inv s) : Inv (timeoutDecides n s) := .upd h

theorem acceptUpdate_inv {holdover : Bool} (h : Inv s) : Inv (acceptUpdate holdover s) := .upd (draw_inv h)

theorem rejectUpdate_inv {like : Bool} (h : Inv s) : Inv (rejectUpdate like s) := .ite (decideTime_inv (.upd (.upd h))) (.upd h)

theorem timeUpdate_inv {v : Nat} {holdover : Bool} (h : Inv s) : Inv (timeUpdate v holdover s) := by
  unfold timeUpdate
  dsimp only
  split
  · exact .ite (.upd h) (acceptUpdate_inv (decideTime_inv (lockFmt_inv (.upd h))))
  · exact .ite (acceptUpdate_inv (.upd h)) (rejectUpdate_inv (.upd h))
  · exact .ite (acceptUpdate_inv (decideTime_inv (.upd h))) (rejectUpdate_inv (.upd h))
  · exact .ite (.upd h) (.ite (.upd (.upd h)) (acceptUpdate_inv (decideTime_inv (.ite (setFmt_inv (.upd h)) (.upd h)))))

theorem buildHigh_inv {b : TimingBlk} (h : Inv s) : Inv (buildHigh b s) := by
  unfold buildHigh
  dsimp only
  split <;> exact .upd h

theorem execTimingBlockReceived_inv {port : Nat} {w : Blk} {inBadCodeword : Bool} (h : Inv s) :
    KeepsInv (execTimingBlockReceived port w inBadCodeword s) := by
  unfold execTimingBlockReceived
  refine .ite (.next h) ?_
  split
  · exact .next (buildHigh_inv h)
  · exact .ite (.next (buildHigh_inv (.upd (.upd h)))) (.ite (.next (.upd h)) (.next (timeUpdate_inv (.upd h))))

theorem execTimingBlockTransmit_inv {port : Nat} (h : Inv s) : KeepsInv (execTimingBlockTransmit port s) :=
  .ite (.next h) (.next (sendControl_inv (.upd h)))

theorem ptpUpdate_inv {y : PtpSync} {seconds nanoseconds : Nat} (h : Inv s) : Inv (ptpUpdate y seconds nanoseconds s) := by
  unfold ptpUpdate
  split
  · exact .upd h
  · exact timeUpdate_inv (.upd h)

theorem ptpDelay_inv {seconds nanoseconds : Nat} (h : Inv s) : Inv (ptpDelay seconds nanoseconds s) := by
  unfold ptpDelay
  split
  · exact .upd h
  · split
    · exact .upd h
    · exact h
  · exact h

theorem execPtpMessage_inv {port : Nat} {m : PtpMsg} (h : Inv s) : KeepsInv (execPtpMessage port m s) := by
  unfold execPtpMessage
  refine .ite (.next h) ?_
  split
  · exact .ite (.next h) (.next (.upd h))
  · exact .ite (.next (fire_inv h)) (.next (.ite (emit_inv (.upd (fire_inv h))) (ptpUpdate_inv (emit_inv (.upd (fire_inv h))))))
  · refine .ite (.next h) ?_
    split
    · exact .next (.ite (ptpUpdate_inv h) h)
    · exact .next h
  · exact .next (.ite (ptpDelay_inv h) h)
  · exact .next h

theorem execHoldoverEntry_inv (h : Inv s) : KeepsInv (execHoldoverEntry s) := .next (.ite (timeoutDecides_inv h) h)

theorem execHoldoverExpiry_inv (h : Inv s) : KeepsInv (execHoldoverExpiry s) := .next (.ite (timeoutDecides_inv (.upd h)) h)

theorem enterTime_inv {n : TState} (h : Inv s) : Inv (enterTime n s) := by
  unfold enterTime
  refine .ite ?_ ?_
  · refine recordError_inv ?_
    refine eventAt_inv ?_
    refine fire_inv ?_
    split
    · exact .ite (.upd (.upd h)) (.upd h)
    · exact .upd (.upd h)
    · exact .upd (.upd h)
    · exact .upd h
  · refine eventAt_inv ?_
    refine fire_inv ?_
    split
    · exact .ite (.upd (.upd h)) (.upd h)
    · exact .upd (.upd h)
    · exact .upd (.upd h)
    · exact .upd h

theorem execTimeStateChange_inv (h : Inv s) : KeepsInv (execTimeStateChange s) := by
  unfold execTimeStateChange
  split
  · exact .next h
  · exact .ite (.next h) (.next (boundary_inv (.ite (.upd h) (enterTime_inv (.upd h)))))

theorem execMarkLeaderChange_inv (h : Inv s) : KeepsInv (execMarkLeaderChange s) := .next (boundary_inv (.upd h))

/-! ### Every command, and the block's own step -/

theorem exec_inv (i : Instr) (h : Inv s) : KeepsInv (exec i s) := by
  cases i
  case powerOnBoot => exact execPowerOnBoot_inv h
  case deviceResetInput => exact execDeviceResetInput_inv h
  case sysrefStop => exact execSysrefStop_inv h
  case linkrefStop => exact execLinkrefStop_inv h
  case ethrefStop => exact execEthrefStop_inv h
  case railFault => exact execRailFault_inv h
  case thermalTrip _ unit _ => exact execThermalTrip_inv (_unit := unit) h
  case throttleLevelRise => exact execThrottleLevelRise_inv h
  case throttleLevelFall => exact execThrottleLevelFall_inv h
  case refreshRateChange => exact execRefreshRateChange_inv h
  case smbusBlockRead => exact execSmbusBlockRead_inv h
  case kcpPacketReceived => exact execKcpPacketReceived_inv h
  case unknownOpcode => exact execUnknownOpcode_inv h
  case eventAcknowledgement => exact execEventAcknowledgement_inv h
  case eventResend => exact execEventResend_inv h
  case sessionIdleTimeout => exact execSessionIdleTimeout_inv h
  case sessionOpenTimeout => exact execSessionOpenTimeout_inv h
  case arpRequest => exact execArpRequest_inv h
  case neighbourSolicitation => exact execNeighbourSolicitation_inv h
  case ethFrameDiscard => exact execEthFrameDiscard_inv h
  case ptpMessage => exact execPtpMessage_inv h
  case swapFrame => exact execSwapFrame_inv h
  case nop => exact execNop_inv h
  case openSession => exact execOpenSession_inv h
  case closeSession => exact execCloseSession_inv h
  case readRegs => exact execReadRegs_inv h
  case writeRegs => exact execWriteRegs_inv h
  case registerWrite => exact execRegisterWrite_inv h
  case liveWriteApply => exact execLiveWriteApply_inv h
  case edgeWriteApply => exact execEdgeWriteApply_inv h
  case heldWriteApply => exact execHeldWriteApply_inv h
  case knotArm => exact execKnotArm_inv h
  case knotDisarm => exact execKnotDisarm_inv h
  case knotClear => exact execKnotClear_inv h
  case flipArmNextWrite => exact execFlipArmNextWrite_inv h
  case flipArmNextRead => exact execFlipArmNextRead_inv h
  case flipDisarm => exact execFlipDisarm_inv h
  case fbarDisable => exact execFbarDisable_inv h
  case endOfInterrupt => exact execEndOfInterrupt_inv h
  case discover => exact execDiscover_inv h
  case subscribeEvents => exact execSubscribeEvents_inv h
  case checkPower => exact execCheckPower_inv h
  case lockClocks => exact execLockClocks_inv h
  case trainStrands => exact execTrainStrands_inv h
  case strandPattern => exact execStrandPattern_inv h
  case runStartupTest => exact execRunStartupTest_inv h
  case loadImage => exact execLoadImage_inv h
  case commitImage => exact execCommitImage_inv h
  case resetScope => exact execResetScope_inv h
  case bindStrand => exact execBindStrand_inv h
  case bindEngine => exact execBindEngine_inv h
  case bindCoilWay => exact execBindCoilWay_inv h
  case bindPort => exact execBindPort_inv h
  case bindEid => exact execBindEid_inv h
  case bindKnots => exact execBindKnots_inv h
  case bindFaultQueue => exact execBindFaultQueue_inv h
  case bindStepComplete => exact execBindStepComplete_inv h
  case grantExtent => exact execGrantExtent_inv h
  case revokeExtent => exact execRevokeExtent_inv h
  case revokeDrainDeadline => exact execRevokeDrainDeadline_inv h
  case revokeFinalDeadline => exact execRevokeFinalDeadline_inv h
  case setSealed => exact execSetSealed_inv h
  case sealingEffective => exact execSealingEffective_inv h
  case unsealingEffective => exact execUnsealingEffective_inv h
  case enrollTenant => exact execEnrollTenant_inv h
  case readExtents => exact execReadExtents_inv h
  case setTableRoot => exact execSetTableRoot_inv h
  case invalidate => exact execInvalidate_inv h
  case pinTranslation => exact execPinTranslation_inv h
  case unpinTranslation => exact execUnpinTranslation_inv h
  case tableWalkComplete => exact execTableWalkComplete_inv h
  case faultPostedEvent => exact execFaultPostedEvent_inv h
  case faultRecordDrain => exact execFaultRecordDrain_inv h
  case faultRecordAllocate => exact execFaultRecordAllocate_inv h
  case resumeFault => exact execResumeFault_inv h
  case pageOut => exact execPageOut_inv h
  case pageIn => exact execPageIn_inv h
  case swapResendTimer => exact execSwapResendTimer_inv h
  case swapTransferTimeout => exact execSwapTransferTimeout_inv h
  case loadProgram => exact execLoadProgram_inv h
  case loadChain => exact execLoadChain_inv h
  case submit => exact execSubmit_inv h
  case cancel => exact execCancel_inv h
  case restart => exact execRestart_inv h
  case shareTakesContext => exact execShareTakesContext_inv h
  case tileTranslate => exact execTileTranslate_inv h
  case engineReadResponse => exact execEngineReadResponse_inv h
  case engineWriteAck => exact execEngineWriteAck_inv h
  case arithSliceEnd => exact execArithSliceEnd_inv h
  case scratchRecomputeComplete => exact execScratchRecomputeComplete_inv h
  case mergeListsReceived => exact execMergeListsReceived_inv h
  case engineBankSwitch => exact execEngineBankSwitch_inv h
  case knotRead => exact execKnotRead_inv h
  case knotSet => exact execKnotSet_inv h
  case configureBarrier => exact execConfigureBarrier_inv h
  case knotIncrement => exact execKnotIncrement_inv h
  case bightLineRise => exact execBightLineRise_inv h
  case gateTimeout => exact execGateTimeout_inv h
  case fbarArrival => exact execFbarArrival_inv h
  case fbarRelease => exact execFbarRelease_inv h
  case bringUpLink => exact execBringUpLink_inv h
  case retrainPort => exact execRetrainPort_inv h
  case setPortWidth => exact execSetPortWidth_inv h
  case runLoopback => exact execRunLoopback_inv h
  case runPrbs => exact execRunPrbs_inv h
  case prbsTestEnd => exact execPrbsTestEnd_inv h
  case loopbackTestEnd => exact execLoopbackTestEnd_inv h
  case codewordLockAcquired => exact execCodewordLockAcquired_inv h
  case codewordLockLost => exact execCodewordLockLost_inv h
  case blockLockAcquired => exact execBlockLockAcquired_inv h
  case blockLockLost => exact execBlockLockLost_inv h
  case markerBlock => exact execMarkerBlock_inv h
  case trainBlockReceived => exact execTrainBlockReceived_inv h
  case verifyEnd => exact execVerifyEnd_inv h
  case trainPhaseTimeout => exact execTrainPhaseTimeout_inv h
  case rateStep => exact execRateStep_inv h
  case autoRetrain => exact execAutoRetrain_inv h
  case changeBlock => exact execChangeBlock_inv h
  case changeAnswerTimeout => exact execChangeAnswerTimeout_inv h
  case changeBackoff => exact execChangeBackoff_inv h
  case newLanesTimeout => exact execNewLanesTimeout_inv h
  case widthSwitch => exact execWidthSwitch_inv h
  case loopBlock => exact execLoopBlock_inv h
  case badFlit => exact execBadFlit_inv h
  case sequencedFlit => exact execSequencedFlit_inv h
  case linkCtlFlit => exact execLinkCtlFlit_inv h
  case abortFlit => exact execAbortFlit_inv h
  case nakWaitExpiry => exact execNakWaitExpiry_inv h
  case ackInterval => exact execAckInterval_inv h
  case ackKeepalive => exact execAckKeepalive_inv h
  case ackTimeout => exact execAckTimeout_inv h
  case linkSilence => exact execLinkSilence_inv h
  case transmitFlit => exact execTransmitFlit_inv h
  case creditNullPacket => exact execCreditNullPacket_inv h
  case timingBlockReceived => exact execTimingBlockReceived_inv h
  case timingBlockTransmit => exact execTimingBlockTransmit_inv h
  case holdoverEntry => exact execHoldoverEntry_inv h
  case holdoverExpiry => exact execHoldoverExpiry_inv h
  case timeStateChange => exact execTimeStateChange_inv h
  case admissionWindowBoundary => exact execAdmissionWindowBoundary_inv h
  case markLeaderChange => exact execMarkLeaderChange_inv h
  case load => exact execLoad_inv h
  case readShared => exact execReadShared_inv h
  case readOwn => exact execReadOwn_inv h
  case store => exact execStore_inv h
  case storeMasked => exact execStoreMasked_inv h
  case writeback => exact execWriteback_inv h
  case evictClean => exact execEvictClean_inv h
  case atomic => exact execAtomic_inv h
  case bulkCopy => exact execBulkCopy_inv h
  case signal => exact execSignal_inv h
  case grantAck => exact execGrantAck_inv h
  case snpAck => exact execSnpAck_inv h
  case snpData => exact execSnpData_inv h
  case data => exact execData_inv h
  case completion => exact execCompletion_inv h
  case homeRequestResume => exact execHomeRequestResume_inv h
  case snoopTimeout => exact execSnoopTimeout_inv h
  case grantAckTimeout => exact execGrantAckTimeout_inv h
  case idemRecordExpiry => exact execIdemRecordExpiry_inv h
  case lineFetchComplete => exact execLineFetchComplete_inv h
  case packetSwitched => exact execPacketSwitched_inv h
  case mcastReplicate => exact execMcastReplicate_inv h
  case fwdRecordTimeout => exact execFwdRecordTimeout_inv h
  case mcastAckTimeout => exact execMcastAckTimeout_inv h
  case loadRoutes => exact execLoadRoutes_inv h
  case flipRouteEpoch => exact execFlipRouteEpoch_inv h
  case routeEpochFlipApply => exact execRouteEpochFlipApply_inv h
  case routeDrained => exact execRouteDrained_inv h
  case setMcastGroup => exact execSetMcastGroup_inv h
  case readCongestionMap => exact execReadCongestionMap_inv h
  case congestionMapLatch => exact execCongestionMapLatch_inv h
  case refreshCommand => exact execRefreshCommand_inv h
  case refreshWindowStart => exact execRefreshWindowStart_inv h
  case neighbourRefresh => exact execNeighbourRefresh_inv h
  case scrubRead => exact execScrubRead_inv h
  case getAttestation => exact execGetAttestation_inv h
  case sealExtent => exact execSealExtent_inv h
  case sealHashComplete => exact execSealHashComplete_inv h
  case loadExtension => exact execLoadExtension_inv h
  case setPortKey => exact execSetPortKey_inv h
  case rngHealthFail => exact execRngHealthFail_inv h
  case measurementStoreFault => exact execMeasurementStoreFault_inv h
  case readErrors => exact execReadErrors_inv h
  case clearFirstError => exact execClearFirstError_inv h
  case interruptDelivery => exact execInterruptDelivery_inv h
  case readCounters => exact execReadCounters_inv h
  case readTrace => exact execReadTrace_inv h
  case readAudit => exact execReadAudit_inv h
  case auditDiscrepancy _ _ vc => exact execAuditDiscrepancy_inv (_vc := vc) h
  case haltAtMark => exact execHaltAtMark_inv h
  case haltMarkReached => exact execHaltMarkReached_inv h
  case landingClose => exact execLandingClose_inv h
  case resume => exact execResume_inv h
  case resumeAtMark => exact execResumeAtMark_inv h
  case forceFailover => exact execForceFailover_inv h
  case readHealth => exact execReadHealth_inv h
  case heartbeatSend => exact execHeartbeatSend_inv h
  case heartbeatReceived => exact execHeartbeatReceived_inv h
  case heartbeatPathSilent => exact execHeartbeatPathSilent_inv h
  case failoverTakeover => exact execFailoverTakeover_inv h
  case fenceClose => exact execFenceClose_inv h
  case standbySelftest => exact execStandbySelftest_inv h
  case controlStall => exact execControlStall_inv h
  case imageStartFrame => exact execImageStartFrame_inv h
  case imageChunkFrame => exact execImageChunkFrame_inv h
  case imageEndFrame => exact execImageEndFrame_inv h
  case imageBitmapReceived => exact execImageBitmapReceived_inv h
  case imageConfirm => exact execImageConfirm_inv h
  case imageBitmapTimeout => exact execImageBitmapTimeout_inv h
  case imageLoadDeadline => exact execImageLoadDeadline_inv h
  case rehomeComplete => exact execRehomeComplete_inv h
  case resetSettled => exact execResetSettled_inv h
  case resetRestored => exact execResetRestored_inv h
  case deviceScopeReset => exact execDeviceScopeReset_inv h
  case clocksLocked => exact execClocksLocked_inv h
  case strandsTrained failed =>
    show KeepsInv (execStrandsTrained failed s)
    exact execStrandsTrained_inv h
  case strandPatternComplete => exact execStrandPatternComplete_inv h
  case startupTestComplete => exact execStartupTestComplete_inv h
  case rngHealthPass => exact execRngHealthPass_inv h
  case strandSliceFault => exact execStrandSliceFault_inv h
  case engineLogicFault => exact execEngineLogicFault_inv h
  case switchLogicFault => exact execSwitchLogicFault_inv h
  case controlMeshFault => exact execControlMeshFault_inv h

/-- A step of the block: the command at the front of the queue, or one mark. -/
theorem step_inv (h : Inv s) : KeepsInv (step s) := by
  unfold step
  split
  · exact .next (tick_inv h)
  · exact exec_inv _ (.upd h)

end

/-- Settles O1: the front of the queue is what a step takes. -/
theorem stepRunsFrontCommand : Obligations.StepRunsFrontCommand := fun _ _ => rfl

/-- Settles O4: nothing is stored after reset, core 0 of the pair is active, the stage is 0 and no credential is loaded. -/
theorem resetIsSafe : Obligations.ResetIsSafe := ⟨rfl, Nat.zero_lt_two, Nat.zero_le 6, rfl⟩

/-- Settles O5: every function of the model keeps the invariant, and a step is made of them. -/
theorem stepKeepsTheInvariant : Obligations.StepKeepsTheInvariant := fun _ t h e => step_inv h t e

end Sys2Proof.Machine

/-! PROOFS. Stacked memory (section 13): what a write at the home leaves of the other lines, and what a strand's slice does by
itself. -/
namespace Sys2Proof.Machine

section
variable {s t u : State} {l : Nat}

/-! ### What a read of a line depends on (R417, R423) -/

/-- From `s` to `t` nothing changed of what a line reads as at its strand. -/
structure ReadsSame (l : Nat) (s t : State) : Prop where
  stored : tget none t.mem.lines l = tget none s.mem.lines l
  patterns : t.mem.patterns = s.mem.patterns
  gen : (strandOf t (lineStrand l)).gen = (strandOf s (lineStrand l)).gen
  dataKey : (strandOf t (lineStrand l)).dataKey = (strandOf s (lineStrand l)).dataKey
  tweakKey : (strandOf t (lineStrand l)).tweakKey = (strandOf s (lineStrand l)).tweakKey
  bind : t.bind = s.bind
  flip : ∀ mode, flipReady t (lineStrand l) mode = flipReady s (lineStrand l) mode

theorem ReadsSame.refl (l : Nat) (s : State) : ReadsSame l s s := ⟨rfl, rfl, rfl, rfl, rfl, rfl, fun _ => rfl⟩

theorem ReadsSame.trans (h : ReadsSame l s t) (k : ReadsSame l t u) : ReadsSame l s u :=
  ⟨k.stored.trans h.stored, k.patterns.trans h.patterns, k.gen.trans h.gen, k.dataKey.trans h.dataKey,
    k.tweakKey.trans h.tweakKey, k.bind.trans h.bind, fun mode => (k.flip mode).trans (h.flip mode)⟩

theorem ReadsSame.rawAt (h : ReadsSame l s t) : rawAt t l = rawAt s l := by
  simp only [Machine.rawAt, h.stored, h.patterns]

theorem ReadsSame.decrypt (h : ReadsSame l s t) (d : Line) :
    decryptLine (strandOf t (lineStrand l)) l d = decryptLine (strandOf s (lineStrand l)) l d := by
  simp only [decryptLine, h.dataKey, h.tweakKey]

theorem ReadsSame.fetched (h : ReadsSame l s t) : fetched t l = fetched s l := by
  unfold Machine.fetched
  dsimp only
  rw [h.stored, h.rawAt]
  cases tget none s.mem.lines l with
  | none => simp only [h.decrypt]
  | some x => simp only [h.gen, h.decrypt]

theorem ReadsSame.matching (h : ReadsSame l s t) : matching t l = matching s l := by
  have epoch : epochOf t (lineStrand l) = epochOf s (lineStrand l) := by rw [epochOf, h.bind, epochOf]
  unfold Machine.matching
  dsimp only
  rw [h.fetched]
  simp only [h.gen, epoch]

theorem readsSame_bump {tenant i n : Nat} : ReadsSame l s (bump tenant i n s) := ⟨rfl, rfl, rfl, rfl, rfl, rfl, fun _ => rfl⟩

theorem readsSame_draw : ReadsSame l s (draw s).2 := ⟨rfl, rfl, rfl, rfl, rfl, rfl, fun _ => rfl⟩

theorem readsSame_coilSet {line : Nat} {c : Option CoilLine} : ReadsSame l s (coilSet line c s) :=
  ⟨rfl, rfl, rfl, rfl, rfl, rfl, fun _ => rfl⟩

/-- A column access moves the banks of a strand and nothing else. -/
theorem readsSame_touchTimes {n line : Nat} : ReadsSame l s (touchTimes n line s) := by
  by_cases own : lineStrand l = lineStrand line
  · have self := strandOf_modStrand_self (lineStrand line) (fun x => { x with banks := tmod {} x.banks (lineBank line) (fun b =>
      (List.replicate n ()).foldl (fun b _ => touchBank (closeMode s (lineStrand line)) (rowThreshold s (lineStrand line))
        (lineRow line) (lmc s) b) b) }) s
    rw [← own] at self
    refine ⟨rfl, rfl, ?_, ?_, ?_, rfl, fun _ => rfl⟩ <;> simp only [touchTimes, ← own, self]
  · have other := fun f => strandOf_modStrand_ne (lineStrand line) (lineStrand l) f s own
    refine ⟨rfl, rfl, ?_, ?_, ?_, rfl, fun _ => rfl⟩ <;> simp only [touchTimes, other]

/-- The use of a strand's flip mask leaves the mask of another. -/
theorem flipReady_flipUsed_other {st k mode : Nat} (other : k ≠ st) : flipReady (flipUsed st s) k mode = flipReady s k mode := by
  have kept : ∀ lo, lo < 32 → getField (0x00060008 + 0x20 * k) lo 0 (flipUsed st s) = getField (0x00060008 + 0x20 * k) lo 0 s :=
    fun lo small => (getField_setField_other (by simp only [fkey, strandReg]; omega)).trans
      (getField_setField_other (by simp only [fkey, strandReg]; omega))
  simp only [flipReady, flipArmed, flipMode, kept 29 (by decide), kept 30 (by decide)]

theorem readsSame_flipUsed {st : Nat} (other : lineStrand l ≠ st) : ReadsSame l s (flipUsed st s) :=
  ⟨rfl, rfl, rfl, rfl, rfl, rfl, fun _ => flipReady_flipUsed_other other⟩

/-- A write leaves the lines of the strand that it does not name, as long as it does not use the mask of theirs. -/
theorem readsSame_writeStrand {line : Nat} {d : Line} {p : Bool} (other : l ≠ line)
    (unarmed : flipReady s (lineStrand l) 1 = false) : ReadsSame l s (writeStrand line d p s) := by
  have flips : ReadsSame l s (if flipReady s (lineStrand line) 1 then flipUsed (lineStrand line) s else s) := by
    split
    · next armed => exact readsSame_flipUsed (fun same => by rw [same, armed] at unarmed; contradiction)
    · exact .refl l s
  have touched := flips.trans (readsSame_touchTimes (n := 1) (line := line))
  exact touched.trans ⟨tget_tset_ne none _ line l (some _) other, rfl, rfl, rfl, rfl, rfl, fun _ => rfl⟩

/-! ### The coil -/

theorem coilOf_coilSet_self {line : Nat} {c : Option CoilLine} : coilOf (coilSet line c s) line = c := tget_tset_self ..

theorem coilOf_coilSet_ne {line : Nat} {c : Option CoilLine} (other : l ≠ line) : coilOf (coilSet line c s) l = coilOf s l :=
  tget_tset_ne _ _ _ _ _ other

theorem coilOf_writeStrand {line : Nat} {d : Line} {p : Bool} : coilOf (writeStrand line d p s) l = coilOf s l := by
  have kept : (writeStrand line d p s).mem.coil = s.mem.coil := by
    simp only [writeStrand, touch, touchTimes, modStrand, flipUsed]
    split <;> rfl
  rw [coilOf, kept, coilOf]

/-- A line that leaves the coil is in it no more, and no other moves. -/
theorem coilOf_coilEvict {v : Nat} : coilOf (coilEvict v s) l = if l = v then none else coilOf s l := by
  have out : ∀ t, coilOf (coilSet v none t) l = if l = v then none else coilOf t l := fun t => tget_tset none t.mem.coil v l none
  unfold coilEvict
  split
  · next absent => split
                   · next same => rw [same, absent]
                   · rfl
  · dsimp only
    split
    · rw [coilOf_writeStrand, out]
    · exact out s

/-- From `s` to `t` a line outside the coil stays outside and reads as before, as long as its strand's mask is not armed for a
write, and a line that is still in the coil is there as it was. -/
structure LeavesLine (l : Nat) (s t : State) : Prop where
  outside : coilOf s l = none → flipReady s (lineStrand l) 1 = false → ReadsSame l s t ∧ coilOf t l = none
  inside : coilOf t l ≠ none → coilOf t l = coilOf s l

theorem LeavesLine.refl (l : Nat) (s : State) : LeavesLine l s s := ⟨fun out _ => ⟨.refl l s, out⟩, fun _ => rfl⟩

theorem LeavesLine.trans (h : LeavesLine l s t) (k : LeavesLine l t u) : LeavesLine l s u where
  outside out unarmed := by
    obtain ⟨same, stillOut⟩ := h.outside out unarmed
    obtain ⟨same', stillOut'⟩ := k.outside stillOut ((same.flip 1).trans unarmed)
    exact ⟨same.trans same', stillOut'⟩
  inside inn := (k.inside inn).trans (h.inside (k.inside inn ▸ inn))

theorem leavesLine_bump {tenant i n : Nat} : LeavesLine l s (bump tenant i n s) :=
  ⟨fun out _ => ⟨readsSame_bump, out⟩, fun _ => rfl⟩

theorem leavesLine_draw : LeavesLine l s (draw s).2 := ⟨fun out _ => ⟨readsSame_draw, out⟩, fun _ => rfl⟩

theorem leavesLine_coilSet {line : Nat} {c : Option CoilLine} (other : l ≠ line) : LeavesLine l s (coilSet line c s) :=
  ⟨fun out _ => ⟨readsSame_coilSet, (coilOf_coilSet_ne other).trans out⟩, fun _ => coilOf_coilSet_ne other⟩

theorem leavesLine_writeStrand {line : Nat} {d : Line} {p : Bool} (other : l ≠ line) : LeavesLine l s (writeStrand line d p s) :=
  ⟨fun out unarmed => ⟨readsSame_writeStrand other unarmed, coilOf_writeStrand.trans out⟩, fun _ => coilOf_writeStrand⟩

/-- A line that leaves the coil is no line outside it. -/
theorem leavesLine_coilEvict {v : Nat} : LeavesLine l s (coilEvict v s) := by
  refine ⟨fun out unarmed => ⟨?_, ?_⟩, fun inn => ?_⟩
  · unfold coilEvict
    split
    · exact .refl l s
    · next c held =>
      have other : l ≠ v := by rintro rfl; rw [out] at held; contradiction
      dsimp only
      split
      · exact readsSame_coilSet.trans (readsSame_writeStrand other unarmed)
      · exact readsSame_coilSet
  · rw [coilOf_coilEvict, out, ite_self]
  · rw [coilOf_coilEvict] at inn ⊢
    split at inn
    · contradiction
    · next other => exact if_neg other

theorem leavesLine_coilAllocate {tenant line : Nat} {d : Line} {dirty p : Bool} (other : l ≠ line) :
    LeavesLine l s (coilAllocate tenant line d dirty p s) := by
  unfold coilAllocate
  dsimp only
  split
  · exact leavesLine_coilSet other
  · refine leavesLine_draw.trans ?_
    split
    · split
      · exact leavesLine_writeStrand other
      · exact .refl l _
    · exact leavesLine_coilEvict.trans (leavesLine_coilSet other)

theorem leavesLine_homeWrite {tenant line : Nat} {d : Line} {p link : Bool} (other : l ≠ line) :
    LeavesLine l s (homeWrite tenant line d p link s) := by
  unfold homeWrite
  dsimp only
  refine (leavesLine_bump (tenant := tenant) (i := 2) (n := 1)).trans ?_
  split
  · exact leavesLine_coilSet other
  · split
    · exact leavesLine_coilAllocate other
    · exact leavesLine_writeStrand other

/-! ### What the home reads -/

theorem homeRead_of_coil {c : CoilLine} {tenant source : Nat} {link : Bool} {f : Fetches} (held : coilOf s l = some c) :
    (homeRead tenant l link source f s).1 = (c.data, c.poison) := by
  have held' : coilOf (bump tenant 1 1 s) l = some c := held
  simp only [homeRead, held']

/-- An undamaged read at the strand gives what matches there, and what matches nothing reads poisoned. -/
theorem readStrand_undamaged {source : Nat} (unarmed : flipReady s (lineStrand l) 2 = false) :
    ((readStrand l source false [] s).1.1, (readStrand l source false [] s).1.2.1) =
      ((matching s l).map (fun x => (x.1, x.2 == markPoison))).getD (0, true) := by
  simp only [readStrand, unarmed]
  cases matching s l with
  | none => rfl
  | some x =>
    obtain ⟨d, mark⟩ := x
    by_cases poisoned : mark = markPoison <;> simp [List.find?, poisoned]

theorem homeRead_of_strand {tenant source : Nat} {link : Bool} (absent : coilOf s l = none)
    (unarmed : flipReady s (lineStrand l) 2 = false) :
    (homeRead tenant l link source [] s).1 = ((matching s l).map (fun x => (x.1, x.2 == markPoison))).getD (0, true) := by
  have absent' : coilOf (bump tenant 1 1 s) l = none := absent
  have same : matching (bump tenant 1 1 s) l = matching s l := readsSame_bump.matching
  have reads := readStrand_undamaged (s := bump tenant 1 1 s) (source := source) unarmed
  rw [same] at reads
  simp only [homeRead, absent']
  rw [← reads]
  split <;> rfl

/-- A line just written at its strand matches as it was written, unless the mask was armed for the write. -/
theorem matching_writeStrand {d : Line} {p : Bool} (unarmed : flipReady s (lineStrand l) 1 = false) :
    matching (writeStrand l d p s) l = some (d, if p then markPoison else 0) := by
  let mark := if p then markPoison else 0
  let k := strandOf (touch l s) (lineStrand l)
  let x : StoredLine := { data := d, mark := mark, check := checkOf l d (epochOf s (lineStrand l)) mark, gen := k.gen,
                          raw := encryptLine k l d }
  have stored : tget none (writeStrand l d p s).mem.lines l = some x := by
    simp only [writeStrand, unarmed]
    exact tget_tset_self ..
  have strand : strandOf (writeStrand l d p s) (lineStrand l) = k := by
    simp only [writeStrand, unarmed]
    rfl
  have epoch : epochOf (writeStrand l d p s) (lineStrand l) = epochOf s (lineStrand l) := by
    rw [epochOf, writeStrand_bind, epochOf]
  have known : mark = 0 ∨ mark = markPoison := by cases p <;> simp [mark]
  have fetch : fetched (writeStrand l d p s) l = some (d, checkOf l d (epochOf s (lineStrand l)) mark, mark) := by
    unfold fetched
    rw [stored, strand]
    exact congrArg (fun e => some (e, x.check, x.mark)) (if_pos rfl)
  unfold matching
  dsimp only
  rw [fetch]
  dsimp only
  rw [epoch]
  simp only [decide_true, Bool.true_and, Bool.or_eq_true, decide_eq_true_eq, known, if_true, mark]

/-- Where a write at the home goes: into the coil, or to the strand with the coil as it was. -/
theorem homeWrite_places {tenant : Nat} {d : Line} {p link : Bool} :
    (∃ way, coilOf (homeWrite tenant l d p link s) l = some { data := d, dirty := true, poison := p, way := way }) ∨
    (∃ t, homeWrite tenant l d p link s = writeStrand l d p t ∧ coilOf t l = none ∧ ReadsSame l s t) := by
  have counted : ReadsSame l s (bump tenant 2 1 s) := readsSame_bump
  unfold homeWrite coilAllocate
  dsimp only
  split
  · exact .inl ⟨_, coilOf_coilSet_self⟩
  · next absent =>
    split
    · split
      · exact .inl ⟨_, coilOf_coilSet_self⟩
      · split
        · exact .inr ⟨_, if_pos rfl, absent, counted.trans readsSame_draw⟩
        · exact .inl ⟨_, coilOf_coilSet_self⟩
    · exact .inr ⟨_, rfl, absent, counted⟩

theorem homeRead_homeWrite {tenant reader source : Nat} {d : Line} {p link link' : Bool}
    (writes : flipReady s (lineStrand l) 1 = false) (reads : flipReady s (lineStrand l) 2 = false) :
    (homeRead reader l link' source [] (homeWrite tenant l d p link s)).1 = (d, p) := by
  obtain ⟨way, held⟩ | ⟨t, wrote, absent, same⟩ := homeWrite_places (s := s) (l := l) (tenant := tenant) (d := d) (p := p)
    (link := link)
  · exact homeRead_of_coil held
  · have unarmed : flipReady t (lineStrand l) 1 = false := (same.flip 1).trans writes
    have unarmed' : flipReady (writeStrand l d p t) (lineStrand l) 2 = false := by
      have fields : (writeStrand l d p t).fields = t.fields := by
        simp only [writeStrand, unarmed]
        rfl
      simp only [flipReady, flipArmed, flipMode, getField, fields]
      exact (same.flip 2).trans reads
    rw [wrote, homeRead_of_strand (coilOf_writeStrand.trans absent) unarmed', matching_writeStrand unarmed]
    cases p <;> rfl

end

/-- Settles O29: what was written is in the coil, or matches at the strand. -/
theorem poolReadsWhatWasWritten : Obligations.PoolReadsWhatWasWritten :=
  fun _ _ _ _ _ _ _ _ writes reads => homeRead_homeWrite writes reads

/-- Settles O30: what a read of another line depends on is left as it was. -/
theorem poolWritesOneLine : Obligations.PoolWritesOneLine := by
  intro t u line l d p k m s other
  have leaves : LeavesLine l s (homeWrite t line d p k s) := leavesLine_homeWrite other
  refine ⟨fun absent writes reads => ?_, leaves.inside⟩
  obtain ⟨same, absent'⟩ := leaves.outside absent writes
  rw [homeRead_of_strand absent' ((same.flip 2).trans reads), homeRead_of_strand absent reads, same.matching]

section
variable {s : State} {st b : Nat}

/-! ### Banks -/

theorem bank_modBank_self {f : Bank → Bank} :
    tget {} (strandOf (modBank st b f s) st).banks b = f (tget {} (strandOf s st).banks b) := by
  rw [modBank, strandOf_modStrand_self]
  exact tget_tmod_self ..

theorem bank_modBank_ne {c : Nat} {f : Bank → Bank} (other : c ≠ b) :
    tget {} (strandOf (modBank st b f s) st).banks c = tget {} (strandOf s st).banks c := by
  rw [modBank, strandOf_modStrand_self]
  exact tget_tmod_ne _ _ _ _ _ other

/-- A change of a bank leaves the strand's own fields. -/
theorem strandOf_modBank {f : Bank → Bank} :
    strandOf (modBank st b f s) st = { strandOf s st with banks := tmod {} (strandOf s st).banks b f } := strandOf_modStrand_self ..

theorem strandOf_modBank_ne {k : Nat} {f : Bank → Bank} (other : k ≠ st) : strandOf (modBank st b f s) k = strandOf s k :=
  strandOf_modStrand_ne _ _ _ _ other

/-! ### Refresh (R406, R407) -/

/-- Two marks are claimed for a bank that has no claim. -/
theorem claimMarks_claims : (claimMarks st b s).coh.claims = s.coh.claims ++
    (if s.coh.claims.any (fun c => c.1 == st && c.2.1 == b) then [] else [(st, b, lastBooked s st + 1), (st, b, lastBooked s st + 2)]) := by
  unfold claimMarks
  split
  · exact (List.append_nil _).symm
  · rfl

theorem claimMarks_mem : (claimMarks st b s).mem = s.mem := by
  unfold claimMarks
  split <;> rfl

theorem strandOf_claimMarks {k : Nat} : strandOf (claimMarks st b s) k = strandOf s k := by rw [strandOf, claimMarks_mem, strandOf]

theorem claimMarks_only_claims : { claimMarks st b s with coh := s.coh } = s := by
  unfold claimMarks
  split <;> rfl

/-- Refresh commands that a strand's slice has issued in this mark. -/
def refreshesIssued (st : Nat) (s : State) : Nat := if (strandOf s st).refreshMark = lmc s then (strandOf s st).refreshes else 0

/-- One more command is counted. -/
def refreshCounted (st : Nat) (s : State) : State :=
  modStrand st (fun x => { x with refreshMark := lmc s, refreshes := refreshesIssued st s + 1 }) s

theorem refreshCommand_skipped (skips : (strandOf s st).power = .selfRefresh ∨ commandsPerMark s st ≤ refreshesIssued st s) :
    refreshCommand st b s = s := by
  unfold refreshCommand
  exact if_pos (by simpa [refreshesIssued] using skips)

theorem refreshCommand_goes (awake : (strandOf s st).power ≠ .selfRefresh) (left : refreshesIssued st s < commandsPerMark s st) :
    refreshCommand st b s =
      if bankFree s st b then refreshNow st b (refreshCounted st s)
      else if 256 ≤ (tget {} (strandOf s st).banks b).lag + 1 then
        claimMarks st b (modBank st b (fun b => { b with lag := b.lag + 1 }) (refreshCounted st s))
      else modBank st b (fun b => { b with lag := b.lag + 1 }) (refreshCounted st s) := by
  have lag : (tget {} (strandOf (modBank st b (fun b => { b with lag := b.lag + 1 }) (refreshCounted st s)) st).banks b).lag =
      (tget {} (strandOf s st).banks b).lag + 1 := by
    rw [bank_modBank_self, refreshCounted, strandOf_modStrand_self]
  unfold refreshCommand
  rw [← lag]
  exact if_neg (by simpa [refreshesIssued] using ⟨awake, left⟩)

/-- A command that reaches a free bank. -/
theorem refreshNow_counted : tget {} (strandOf (refreshNow st b (refreshCounted st s)) st).banks b =
    { tget {} (strandOf s st).banks b with
      openRow := none, nextRow := ((tget {} (strandOf s st).banks b).nextRow + 8) % 49152, freeAt := lmc s + 2 } := by
  rw [refreshNow, bank_modBank_self, refreshCounted, strandOf_modStrand_self]
  rfl

/-- Whatever a command does to its bank, the strand has counted it, and nothing else of the strands has changed. -/
theorem refresh_of_bank {f : Bank → Bank} :
    let t := modBank st b f (refreshCounted st s)
    (strandOf t st).refreshMark = lmc s ∧ (strandOf t st).refreshes = refreshesIssued st s + 1 ∧
    (∀ c, c ≠ b → tget {} (strandOf t st).banks c = tget {} (strandOf s st).banks c) ∧ (∀ k, k ≠ st → strandOf t k = strandOf s k) := by
  have counted : strandOf (refreshCounted st s) st = { strandOf s st with refreshMark := lmc s, refreshes := refreshesIssued st s + 1 } :=
    strandOf_modStrand_self ..
  refine ⟨?_, ?_, fun c other => ?_, fun k other => ?_⟩
  · rw [strandOf_modBank, counted]
  · rw [strandOf_modBank, counted]
  · rw [bank_modBank_ne other, counted]
  · exact (strandOf_modBank_ne other).trans (strandOf_modStrand_ne _ _ _ _ other)

theorem refreshCommands : ClaimRefreshCommands := by
  intro st b s
  refine ⟨fun skips => congrArg _ (refreshCommand_skipped skips), fun awake left => ⟨_, rfl, ?_⟩⟩
  rw [refreshCommand_goes awake left]
  by_cases free : bankFree s st b = true
  · rw [if_pos free]
    obtain ⟨mark, issued, banks, strands⟩ := refresh_of_bank (s := s) (st := st) (b := b)
      (f := fun b => { refreshBank 1 b with freeAt := lmc s + 2 })
    exact ⟨mark, issued, fun _ => ⟨refreshNow_counted, rfl⟩, fun busy => absurd free (by simp [busy]), banks, strands, rfl, rfl, rfl⟩
  · rw [if_neg free]
    obtain ⟨mark, issued, banks, strands⟩ := refresh_of_bank (s := s) (st := st) (b := b) (f := fun b => { b with lag := b.lag + 1 })
    have owed : tget {} (strandOf (modBank st b (fun b => { b with lag := b.lag + 1 }) (refreshCounted st s)) st).banks b =
        { tget {} (strandOf s st).banks b with lag := (tget {} (strandOf s st).banks b).lag + 1 } := by
      rw [bank_modBank_self, refreshCounted, strandOf_modStrand_self]
    split
    · next late =>
      refine ⟨?_, ?_, fun isFree => absurd isFree free, fun _ => ⟨?_, ?_⟩, fun c other => ?_, fun k other => ?_, ?_, ?_, ?_⟩
      · rw [strandOf_claimMarks, mark]
      · rw [strandOf_claimMarks, issued]; rfl
      · rw [strandOf_claimMarks, owed]
      · rw [claimMarks_claims]
        show s.coh.claims ++ (if s.coh.claims.any (fun c => c.1 == st && c.2.1 == b) then []
          else [(st, b, lastBooked s st + 1), (st, b, lastBooked s st + 2)]) = _
        cases s.coh.claims.any (fun c => c.1 == st && c.2.1 == b) with
        | true => rw [if_pos rfl, if_neg (fun h => nomatch h.2)]
        | false => rw [if_neg Bool.false_ne_true, if_pos ⟨late, rfl⟩]
      · rw [strandOf_claimMarks, banks c other]
      · rw [strandOf_claimMarks, strands k other]
      · rw [claimMarks_mem]; rfl
      · rw [claimMarks_mem]; rfl
      · exact congrArg (fun u : State => { u with mem := s.mem }) claimMarks_only_claims
    · next early =>
      refine ⟨mark, issued, fun isFree => absurd isFree free, fun _ => ⟨owed, ?_⟩, banks, strands, rfl, rfl, rfl⟩
      rw [if_neg (fun h => early h.1)]
      exact (List.append_nil _).symm

/-! ### Row guard (R410, R411) -/

/-- REFRESH_WINDOW_START has emptied a bank's table. -/
def windowStarted (st b : Nat) (s : State) : State :=
  modStrand st (fun x => { x with
    banks := tmod {} x.banks b (fun b => { b with table := [], minPeak := 0 })
    windowPeak := if b = 63 then 0 else max (strandOf s st).windowPeak (tget {} (strandOf s st).banks b).minPeak }) s

theorem exec_refreshWindowStart : exec (.refreshWindowStart st b) s =
    .next (if b = 63 then setField (strandReg st 0x18) 0 0
      (min 0xFFFF (max (strandOf s st).windowPeak (tget {} (strandOf s st).banks b).minPeak)) (windowStarted st b s)
      else windowStarted st b s) := rfl

theorem bank_windowStarted {c : Nat} : tget {} (strandOf (windowStarted st b s) st).banks c =
    if c = b then { tget {} (strandOf s st).banks b with table := [], minPeak := 0 } else tget {} (strandOf s st).banks c := by
  rw [windowStarted, strandOf_modStrand_self]
  exact tget_tset ..

theorem windowPeak_windowStarted : (strandOf (windowStarted st b s) st).windowPeak =
    if b = 63 then 0 else max (strandOf s st).windowPeak (tget {} (strandOf s st).banks b).minPeak := by
  rw [windowStarted, strandOf_modStrand_self]

/-- The neighbours of a row have been refreshed. -/
def neighboursRefreshed (st b row : Nat) (s : State) : State :=
  modStrand st (fun x => { x with
    neighbourAt := lmc s + 2
    banks := tmod {} x.banks b (fun b => { b with
      openRow := none, waiting := b.waiting.filter (fun e => e.1 != row), freeAt := lmc s + 1
      table := b.table.map (fun e => if e.1 = row then (row, 0) else e) }) }) s

theorem exec_neighbourRefresh {row : Nat} : exec (.neighbourRefresh st b row) s =
    if !(tget {} (strandOf s st).banks b).waiting.any (fun e => e.1 == row) || !bankFree s st b ||
      lmc s < (strandOf s st).neighbourAt then .next s
    else .next (sat (strandReg st 0x18) 16 16 1 (neighboursRefreshed st b row s)) := rfl

theorem neighbourRefresh_goes {row : Nat} (waits : (tget {} (strandOf s st).banks b).waiting.any (fun e => e.1 == row) = true)
    (free : bankFree s st b = true) (allowed : (strandOf s st).neighbourAt ≤ lmc s) :
    exec (.neighbourRefresh st b row) s = .next (sat (strandReg st 0x18) 16 16 1 (neighboursRefreshed st b row s)) := by
  rw [exec_neighbourRefresh]
  exact if_neg (by simp [waits, free, allowed])

theorem neighbourAt_neighboursRefreshed {row : Nat} :
    (strandOf (neighboursRefreshed st b row s) st).neighbourAt = lmc s + 2 := by
  rw [neighboursRefreshed, strandOf_modStrand_self]

theorem bank_neighboursRefreshed {row c : Nat} : tget {} (strandOf (neighboursRefreshed st b row s) st).banks c =
    if c = b then { tget {} (strandOf s st).banks b with
      openRow := none, waiting := (tget {} (strandOf s st).banks b).waiting.filter (fun e => e.1 != row), freeAt := lmc s + 1
      table := (tget {} (strandOf s st).banks b).table.map (fun e => if e.1 = row then (row, 0) else e) }
    else tget {} (strandOf s st).banks c := by
  rw [neighboursRefreshed, strandOf_modStrand_self]
  exact tget_tset ..

theorem rowGuard : ClaimRowGuard := by
  intro st b s
  refine ⟨⟨_, exec_refreshWindowStart, ?_⟩, fun row => ⟨fun stays => ?_, fun waits free allowed =>
    ⟨_, neighbourRefresh_goes waits free allowed, getField_sat_self .., ?_, ?_, fun c other => ?_, rfl, rfl, rfl⟩⟩⟩
  · by_cases last : b = 63
    · rw [if_pos last, if_pos last]
      exact ⟨bank_windowStarted.trans (if_pos rfl), windowPeak_windowStarted.trans (if_pos last),
        fun _ => getField_setField_self .., fun notLast => absurd last notLast,
        fun c other => bank_windowStarted.trans (if_neg other), rfl, rfl, rfl⟩
    · rw [if_neg last, if_neg last]
      exact ⟨bank_windowStarted.trans (if_pos rfl), windowPeak_windowStarted.trans (if_neg last),
        fun isLast => absurd isLast last, fun _ => rfl, fun c other => bank_windowStarted.trans (if_neg other), rfl, rfl, rfl⟩
  · rw [exec_neighbourRefresh]
    refine if_pos ?_
    rcases stays with h | h | h <;> simp [h]
  · exact bank_neighboursRefreshed.trans (if_pos rfl)
  · exact neighbourAt_neighboursRefreshed
  · exact bank_neighboursRefreshed.trans (if_neg other)

/-! ### The flip mask (R423) -/

theorem flipReady_flipArm {mode m : Nat} :
    flipReady (flipArm st mode s) st m = (decide ((if mode = 0 then 0 else 1) = 1) && mode == m) := by
  have armed : getField (strandReg st 8) 29 0 (flipArm st mode s) = if mode = 0 then 0 else 1 :=
    (getField_setField_other (by simp only [fkey]; omega)).trans (getField_setField_self ..)
  have at30 : getField (strandReg st 8) 30 0 (flipArm st mode s) = mode := getField_setField_self ..
  have armedAt : 0x00060008 + 0x20 * st = strandReg st 8 := by simp only [strandReg]; omega
  simp only [flipReady, flipArmed, flipMode, armedAt, armed, at30]

theorem onlyTheMask_flipArm {mode : Nat} : OnlyTheMask st s (flipArm st mode s) := by
  refine ⟨rfl, fun off lo r small other => ?_⟩
  exact (getField_setField_other (by simp only [fkey]; omega)).trans (getField_setField_other (by simp only [fkey]; omega))

theorem flipMaskCommands : ClaimFlipMask := fun st s =>
  ⟨⟨flipArm st 1 s, rfl, flipReady_flipArm, flipReady_flipArm, onlyTheMask_flipArm⟩,
    ⟨flipArm st 2 s, rfl, flipReady_flipArm, flipReady_flipArm, onlyTheMask_flipArm⟩,
    ⟨flipArm st 0 s, rfl, flipReady_flipArm, flipReady_flipArm, onlyTheMask_flipArm⟩⟩

/-! ### Scrubbing (R408, R412, R421) -/

theorem exec_scrubRead {f : Fetches} : exec (.scrubRead st f) s =
    if !scrubEnable s st || (tget {} s.bind.strand st).st != .bound || (strandOf s st).power != .active || frozen s ||
      lmc s < (strandOf s st).scrubAt || linesPerMark ≤ linesTaken s st ||
      !bankFree s st (lineBank (st * 33554432 + (strandOf s st).scrubNext)) then .next s
    else
      let t := (readStrand (st * 33554432 + (strandOf s st).scrubNext) 2 true f s).2
      .next (modStrand st (fun x => { x with
        scrubNext := ((strandOf s st).scrubNext + 1) % strandLines, scrubAt := lmc t + scrubInterval t st }) t) := rfl

theorem scrubGoes_iff : ScrubGoes st s ↔ ¬((!scrubEnable s st || (tget {} s.bind.strand st).st != .bound ||
    (strandOf s st).power != .active || frozen s || lmc s < (strandOf s st).scrubAt || linesPerMark ≤ linesTaken s st ||
    !bankFree s st (lineBank (st * 33554432 + (strandOf s st).scrubNext))) = true) := by
  simp [ScrubGoes, and_assoc]

/-- A read that writes nothing: the stored lines, the coil and what has no part in a read are as they were; of the fields, counts at
bit 0 or 16 of their registers alone have changed. -/
structure WritesNoLine (s t : State) : Prop where
  lines : t.mem.lines = s.mem.lines
  coil : t.mem.coil = s.mem.coil
  bind : t.bind = s.bind
  kcp : t.kcp = s.kcp
  eng : t.eng = s.eng
  time : t.time = s.time
  fields : ∀ off lo r, lo < 32 → lo ≠ 0 → lo ≠ 16 → getField off lo r t = getField off lo r s

theorem WritesNoLine.trans {t u : State} (h : WritesNoLine s t) (k : WritesNoLine t u) : WritesNoLine s u :=
  ⟨k.lines.trans h.lines, k.coil.trans h.coil, k.bind.trans h.bind, k.kcp.trans h.kcp, k.eng.trans h.eng, k.time.trans h.time,
    fun off lo r small no0 no16 => (k.fields off lo r small no0 no16).trans (h.fields off lo r small no0 no16)⟩

theorem writesNoLine_touchTimes {n line : Nat} : WritesNoLine s (touchTimes n line s) :=
  ⟨rfl, rfl, rfl, rfl, rfl, rfl, fun _ _ _ _ _ _ => rfl⟩

theorem writesNoLine_sat {off lo w n : Nat} (low : lo = 0 ∨ lo = 16) : WritesNoLine s (sat off lo w n s) :=
  ⟨rfl, rfl, rfl, rfl, rfl, rfl, fun _ _ _ _ _ _ => getField_sat_other (by simp only [fkey]; omega)⟩

theorem writesNoLine_logCured {line source n : Nat} : WritesNoLine s (logCured line source n s) := by
  unfold logCured
  dsimp only
  split
  · exact (writesNoLine_sat (.inr rfl)).trans ⟨rfl, rfl, rfl, rfl, rfl, rfl, fun _ _ _ _ _ _ => rfl⟩
  · exact ⟨rfl, rfl, rfl, rfl, rfl, rfl, fun _ _ _ _ _ _ => rfl⟩

/-- The log of cured lines has its own registers. -/
theorem scrubUncured_logCured {line source n : Nat} (own : lineStrand line = st) :
    getField (strandReg st 0x14) 16 0 (logCured line source n s) = getField (strandReg st 0x14) 16 0 s := by
  unfold logCured
  dsimp only
  split
  · exact getField_sat_other (by simp only [own, fkey, strandReg, strandStack]; omega)
  · rfl

/-- The fetch that cures a line, where one does. -/
def cure (f : Fetches) : Option Nat := [0, 1, 2].find? (fun k => f.getD k true)

theorem cure_eq_none_iff {f : Fetches} : cure f = none ↔ ∀ k < 3, f.getD k true = false := by
  rw [cure, List.find?_eq_none]
  refine ⟨fun h k small => Bool.eq_false_iff.mpr (h k (by simp; omega)), fun h k place => Bool.eq_false_iff.mp (h k ?_)⟩
  simp at place
  omega

/-- A scrub read cured by its fetch `k`. -/
def scrubCured (line source k mark n : Nat) (s : State) : State :=
  let t := touchTimes n line s
  let t := if k = 0 then t else logCured line source k (sat (strandReg (lineStrand line) 0x10) 16 16 1 t)
  if mark = markPoison then sat (strandReg (lineStrand line) 0x14) 0 16 1 t else t

theorem scrubUncured_scrubCured {line source k mark n : Nat} (own : lineStrand line = st) :
    getField (strandReg st 0x14) 16 0 (scrubCured line source k mark n s) = getField (strandReg st 0x14) 16 0 s := by
  have logged : getField (strandReg st 0x14) 16 0 (if k = 0 then touchTimes n line s else logCured line source k
      (sat (strandReg (lineStrand line) 0x10) 16 16 1 (touchTimes n line s))) = getField (strandReg st 0x14) 16 0 s := by
    split
    · rfl
    · exact (scrubUncured_logCured own).trans (getField_sat_other (by simp only [own, fkey, strandReg]; omega))
  unfold scrubCured
  dsimp only
  split
  · exact (getField_sat_other (by simp only [own, fkey, strandReg]; omega)).trans logged
  · exact logged

/-- What a scrub read leaves: a line that no fetch cures is counted, another is logged where the first fetch did not cure it and
counted where it is poisoned. -/
theorem readStrand_scrub {line source : Nat} {f : Fetches} : ∃ n, (readStrand line source true f s).2 =
    match matching s line, cure f with
    | some (_, mark), some k => scrubCured line source k mark n s
    | _, _ => sat (strandReg (lineStrand line) 0x14) 16 16 1 (touchTimes n line s) := by
  have cures : [0, 1, 2].find? (fun k => f.getD k true && !(!true && flipReady s (lineStrand line) 2 && k == 0)) = cure f := by
    simp [cure]
  unfold readStrand
  dsimp only
  rw [cures]
  cases matching s line with
  | none => exact ⟨_, rfl⟩
  | some x =>
    cases cure f with
    | none => exact ⟨_, rfl⟩
    | some k => exact ⟨_, apply_ite Prod.snd ..⟩

theorem writesNoLine_scrub {line source : Nat} {f : Fetches} : WritesNoLine s (readStrand line source true f s).2 := by
  obtain ⟨n, read⟩ := readStrand_scrub (s := s) (line := line) (source := source) (f := f)
  rw [read]
  have touched : WritesNoLine s (touchTimes n line s) := writesNoLine_touchTimes
  split
  · next k _ _ =>
    unfold scrubCured
    dsimp only
    have logged : WritesNoLine s (if k = 0 then touchTimes n line s else logCured line source k
        (sat (strandReg (lineStrand line) 0x10) 16 16 1 (touchTimes n line s))) := by
      split
      · exact touched
      · exact (touched.trans (writesNoLine_sat (.inr rfl))).trans writesNoLine_logCured
    split
    · exact logged.trans (writesNoLine_sat (.inl rfl))
    · exact logged
  · exact touched.trans (writesNoLine_sat (.inr rfl))

/-- A scrub read counts a line that no fetch cures, and no other. -/
theorem scrubUncured_scrub {line source : Nat} {f : Fetches} (own : lineStrand line = st) :
    getField (strandReg st 0x14) 16 0 (readStrand line source true f s).2 =
      if matching s line = none ∨ (∀ k < 3, f.getD k true = false) then min 0xFFFF (getField (strandReg st 0x14) 16 0 s + 1)
      else getField (strandReg st 0x14) 16 0 s := by
  obtain ⟨n, read⟩ := readStrand_scrub (s := s) (line := line) (source := source) (f := f)
  have counted : getField (strandReg st 0x14) 16 0 (sat (strandReg st 0x14) 16 16 1 (touchTimes n line s)) =
      min 0xFFFF (getField (strandReg st 0x14) 16 0 s + 1) := getField_sat_self ..
  rw [read, own]
  cases matching s line with
  | none => exact counted.trans (if_pos (.inl rfl)).symm
  | some x =>
    cases cures : cure f with
    | none => exact counted.trans (if_pos (.inr (cure_eq_none_iff.mp cures))).symm
    | some k =>
      have good : ¬(some x = none ∨ ∀ k < 3, f.getD k true = false) := by
        rintro (h | h)
        · contradiction
        · rw [cure_eq_none_iff.mpr h] at cures
          contradiction
      rw [if_neg good]
      exact scrubUncured_scrubCured own

/-- SCRUB_READ of a line that its mark has room for. -/
theorem scrubRead_goes {f : Fetches} (goes : ScrubGoes st s) :
    let line := st * 33554432 + (strandOf s st).scrubNext
    ∃ t, exec (.scrubRead st f) s = .next t ∧ WritesNoLine s t ∧
      (strandOf t st).scrubNext = ((strandOf s st).scrubNext + 1) % 25165824 ∧
      (strandOf t st).scrubAt = lmc s + scrubInterval s st ∧ t.fields = (readStrand line 2 true f s).2.fields := by
  have same : WritesNoLine s (readStrand (st * 33554432 + (strandOf s st).scrubNext) 2 true f s).2 := writesNoLine_scrub
  have due : lmc (readStrand (st * 33554432 + (strandOf s st).scrubNext) 2 true f s).2 +
      scrubInterval (readStrand (st * 33554432 + (strandOf s st).scrubNext) 2 true f s).2 st = lmc s + scrubInterval s st := by
    simp only [lmc, same.time, scrubInterval, same.fields _ 24 1 (by decide) (by decide) (by decide)]
  refine ⟨_, exec_scrubRead.trans (if_neg (scrubGoes_iff.mp goes)), same.trans ⟨rfl, rfl, rfl, rfl, rfl, rfl, fun _ _ _ _ _ _ => rfl⟩,
    ?_, ?_, rfl⟩
  · rw [strandOf_modStrand_self]
  · rw [strandOf_modStrand_self]
    exact due

theorem scrubbing : ClaimScrubbing := by
  intro st f s
  refine ⟨fun stays => ?_, fun goes => ?_⟩
  · rw [exec_scrubRead]
    exact if_pos (of_not_not fun h => stays (scrubGoes_iff.mpr h))
  · obtain ⟨t, runs, same, next, due, fields⟩ := scrubRead_goes (f := f) goes
    refine ⟨t, runs, next, due, fun own => ?_, same.lines, same.coil, same.bind, same.kcp, same.eng⟩
    rw [← scrubUncured_scrub (source := 2) own]
    simp only [getField, fields]

end

/-- Settles O57: each of the slice's commands changes its strand's bank or its mask, and a scrub read its counts. -/
theorem strandsAreKept : Obligations.StrandsAreKept := ⟨refreshCommands, rowGuard, scrubbing, flipMaskCommands⟩

end Sys2Proof.Machine

/-! PROOFS. Credentials (section 14): a slot is replaced, and the sessions of its credential close. -/
namespace Sys2Proof.Machine

section
variable {s : State}

/-! ### Whose session it is (R98, R444) -/

/-- A session's ID, tenant, credential and module, which never change. -/
def sessionWho (x : Session) : Nat × Nat × Nat × Option Nat := (x.id, x.tenant, x.cred, x.module)

theorem modSession_who {f : Session → Session} (keeps : ∀ x, sessionWho (f x) = sessionWho x) {id : Nat} :
    (modSession id f s).kcp.sessions.map sessionWho = s.kcp.sessions.map sessionWho := by
  simp only [modSession, List.map_map]
  refine List.map_congr_left fun x _ => ?_
  simp only [Function.comp_apply]
  split
  · exact keeps x
  · rfl

theorem eventTo_who (ss : Session) (code subject fmt' frac : Nat) (detail : List Byte) :
    (eventTo ss code subject fmt' frac detail s).kcp.sessions.map sessionWho = s.kcp.sessions.map sessionWho := by
  unfold eventTo
  dsimp only
  split
  · exact modSession_who fun _ => by rfl
  · simp only [sendKcp_frame]
    exact modSession_who fun _ => by rfl

theorem event_who (code subject : Nat) (to? : Nat → Bool) (detail : List Byte) :
    (event code subject to? detail s).kcp.sessions.map sessionWho = s.kcp.sessions.map sessionWho :=
  foldl_keeps (·.kcp.sessions.map sessionWho) _ (fun _ _ => eventTo_who ..) _ _

/-- A closed session is gone, and every other is whose it was. -/
theorem closeSession_who (id cause : Nat) :
    (closeSession id cause s).kcp.sessions.map sessionWho = (s.kcp.sessions.map sessionWho).filter (fun w => w.1 != id) := by
  have fold (l : List Transfer) (u : State) :=
    foldl_keeps (·.kcp) (fun u (x : Transfer) => fire (256 * ppaQuadrant (x.ppas.headD 0) + 40) u) (fun _ _ => by simp) l u
  cases known : sessionOf s id with
  | none =>
    have absent : ∀ x ∈ s.kcp.sessions, x.id ≠ id := fun x held same =>
      sessionOf_eq_none_iff.mp known (List.mem_map.mpr ⟨x, held, same⟩)
    simp only [closeSession, known]
    refine (List.filter_eq_self.mpr fun w held => ?_).symm
    obtain ⟨x, there, rfl⟩ := List.mem_map.mp held
    exact bne_iff_ne.mpr (absent x there)
  | some ss => simp only [closeSession, known, event_who, fold, List.filter_map, Function.comp_def, sessionWho]

/-- Closing a session leaves the memory, the bindings and the credentials. -/
theorem closeSession_keeps (id cause : Nat) : (closeSession id cause s).mem = s.mem ∧ (closeSession id cause s).bind = s.bind ∧
    (closeSession id cause s).sec = s.sec := by
  have fold {γ : Type} (f : State → γ) (fireKeeps : ∀ i u, f (fire i u) = f u) (l : List Transfer) (u : State) :=
    foldl_keeps f (fun u (x : Transfer) => fire (256 * ppaQuadrant (x.ppas.headD 0) + 40) u) (fun u _ => fireKeeps _ u) l u
  cases known : sessionOf s id <;>
    simp only [closeSession, known, event_frame, fold (·.mem) (by simp), fold (·.bind) (by simp), fold (·.sec) (by simp), and_self]

/-- Sessions close one after the other. -/
def closeSessions (ss : List Session) (cause : Nat) (s : State) : State := ss.foldl (fun s x => closeSession x.id cause s) s

theorem closeSessions_keeps (ss : List Session) (cause : Nat) : (closeSessions ss cause s).mem = s.mem ∧
    (closeSessions ss cause s).bind = s.bind ∧ (closeSessions ss cause s).sec = s.sec :=
  ⟨foldl_keeps (·.mem) _ (fun _ _ => (closeSession_keeps ..).1) _ _, foldl_keeps (·.bind) _ (fun _ _ => (closeSession_keeps ..).2.1) _ _,
    foldl_keeps (·.sec) _ (fun _ _ => (closeSession_keeps ..).2.2) _ _⟩

/-- A session that is left was there before, and is none of those that close. -/
theorem closeSessions_who {cause : Nat} {w : Nat × Nat × Nat × Option Nat} : ∀ {ss : List Session} {s : State},
    w ∈ (closeSessions ss cause s).kcp.sessions.map sessionWho → w ∈ s.kcp.sessions.map sessionWho ∧ ∀ x ∈ ss, w.1 ≠ x.id
  | [], _, held => ⟨held, fun _ h => nomatch h⟩
  | y :: ss, s, held => by
    obtain ⟨held, others⟩ := closeSessions_who (ss := ss) (s := closeSession y.id cause s) held
    rw [closeSession_who] at held
    obtain ⟨held, other⟩ := List.mem_filter.mp held
    refine ⟨held, fun x place => ?_⟩
    obtain rfl | place := List.mem_cons.mp place
    · exact bne_iff_ne.mp other
    · exact others x place

/-! ### ENROLL_TENANT (R444, R445) -/

/-- The slot that ENROLL_TENANT names, of which the operator's fused one is none. -/
def enrolledIndex (c : Cmd) : Nat := clampTo (if pbits c.params 0 0 5 = 0 then 1 else 0) 3 (pnum c.params 1 1)

/-- The state with a slot's credential replaced. -/
def slotReplaced (c : Cmd) (s : State) : State :=
  { s with sec.creds := tset none s.sec.creds (4 * pbits c.params 0 0 5 + enrolledIndex c)
                          (if pbit c.params 2 0 then none else some (pnum c.params 4 64)) }

/-- The sessions of a tenant that a credential opened. -/
def sessionsOfCred (t i : Nat) (s : State) : List Session := s.kcp.sessions.filter (fun x => x.tenant = t && x.cred = i)

/-- What ENROLL_TENANT does once it is taken. -/
def enroll (c : Cmd) (s : State) : Nat × List Byte × State :=
  if !pbit c.params 2 0 && !onCurve (pnum c.params 4 64) then (stDENIED, [], s)
  else (stOK, [], closeSessions (sessionsOfCred (pbits c.params 0 0 5) (enrolledIndex c) s) 3 (slotReplaced c s))

theorem exec_enrollTenant (c : Cmd) : ∃ echo, exec (.enrollTenant c) s = .next (kcpNow 0x20B c echo (enroll c) s) := ⟨_, rfl⟩

/-- No session of a credential is left once its sessions have closed. -/
theorem closed_cred {t i : Nat} {u : State} (same : u.kcp.sessions = s.kcp.sessions) :
    ∀ y ∈ (closeSessions (sessionsOfCred t i s) 3 u).kcp.sessions, y.tenant = t → y.cred ≠ i := by
  intro y held tenant cred
  obtain ⟨there, others⟩ := closeSessions_who (List.mem_map.mpr ⟨y, held, rfl⟩)
  rw [same] at there
  obtain ⟨x, there, who⟩ := List.mem_map.mp there
  simp only [sessionWho, Prod.mk.injEq] at who
  obtain ⟨sameId, sameTenant, sameCred, -⟩ := who
  exact others x (List.mem_filter.mpr ⟨there, by simp [sameTenant, sameCred, tenant, cred]⟩) sameId.symm

theorem credentialsAreReplaced : ClaimCredentialsAreReplaced := by
  intro c s runs good
  obtain ⟨echo, takes⟩ := exec_enrollTenant (s := s) c
  have does : enroll c (takeNumber c s) = (stOK, [], closeSessions (sessionsOfCred (pbits c.params 0 0 5) (enrolledIndex c)
      (takeNumber c s)) 3 (slotReplaced c (takeNumber c s))) := if_neg (by rcases good with h | h <;> simp [h])
  refine ⟨_, ⟨echo, by rw [takes, kcpNow_of_body runs does]⟩, ?_⟩
  obtain ⟨mem, bind, sec⟩ := closeSessions_keeps (s := slotReplaced c (takeNumber c s))
    (sessionsOfCred (pbits c.params 0 0 5) (enrolledIndex c) (takeNumber c s)) 3
  rw [mem, bind, sec]
  exact ⟨tget_tset_self .., fun j other => tget_tset_ne _ _ _ _ _ other, enrolledSlot_ne_zero _ _, closed_cred rfl, rfl, rfl⟩

theorem badKeysAreDenied : ClaimBadKeysAreDenied := by
  intro c s runs stores bad
  obtain ⟨echo, takes⟩ := exec_enrollTenant (s := s) c
  have does : enroll c (takeNumber c s) = (stDENIED, [], takeNumber c s) := if_pos (by simp [stores, bad])
  exact ⟨echo, by rw [takes, kcpNow_of_body runs does]⟩

end

/-- Settles O28: one slot changes, and the sessions of its credential close one after the other. -/
theorem enrollTenantReplacesACredential : Obligations.EnrollTenantReplacesACredential := ⟨credentialsAreReplaced, badKeysAreDenied⟩

end Sys2Proof.Machine

/-! PROOFS. The board's side (section 18): rails and reference clocks that fail, temperatures and throttling, and the SMBus
target. -/
namespace Sys2Proof.Machine

section
variable {s : State}

/-! ### Rails and reference clocks (R541, R548) -/

/-- A rail is out of its range. -/
def railLost (r : Nat) (s : State) : State := { s with pwr.railsOk := s.pwr.railsOk - 2 ^ r }

theorem exec_railFault {r : Nat} (rail : r < 28) (good : bit s.pwr.railsOk r = true) : exec (.railFault r) s =
    .next (if r = 4 || r = 27 then deviceReset (railLost r s)
      else if !serving s then railLost r s
      else if r = 25 || r = 26 then
        ethStops (r - 25) (detect { seq := 0, domain := 8, source := 5, rung := 0, detail0 := r } 0 0 0 (railLost r s)).2
      else quadrantFault 8 5 (railQuadrant r) r (railLost r s)) :=
  if_neg (by simp [rail, good])

theorem exec_railFault_ethernet {r : Nat} (good : bit s.pwr.railsOk r = true) (serves : serving s = true)
    (ethernet : r = 25 ∨ r = 26) : exec (.railFault r) s = .next (ethStops (r - 25)
      (detect { seq := 0, domain := 8, source := 5, rung := 0, detail0 := r } 0 0 0 (railLost r s)).2) := by
  rw [exec_railFault (by omega) good, if_neg (by simp; omega), if_neg (by simpa [railLost, serving] using serves),
    if_pos (by simpa using ethernet)]

theorem ethStops_down (n : Nat) : (ethStops n s).kcp.ethDown.contains n = true := by
  simp only [ethStops]
  split
  · assumption
  · simp

theorem exec_linkrefStop {q : Nat} (quadrant : q < 4) (lanes : lanesRun s = true) : exec (.linkrefStop q) s =
    .next (settleHome (((List.range 24).map (24 * q + ·)).foldl (fun s p => linkLost p true s)
      ((((List.range 48).map (48 * q + ·)).filter (fun l => (laneState s l).cwLock || (laneState s l).blockLock)).foldl
        (fun s l => lockLost l (fun x => { x with cwLock := false, blockLock := false }) s) s))) :=
  if_neg (by simp [quadrant, lanes])

end

/-- Settles O7: one clause for each kind of rail, and one for each reference clock. -/
theorem railsAndClocksThatFail : Obligations.RailsAndClocksThatFail := by
  refine ⟨fun r s good control => ?_, fun r s good serves ethernet => ?_, fun r s rail good serves no4 no25 no26 no27 => ?_,
    fun n s port => ?_, fun q s quadrant lanes => exec_linkrefStop quadrant lanes⟩
  · have rail : r < 28 := by omega
    have resets : (r = 4 || r = 27) = true := by simpa using control
    refine ⟨deviceReset (railLost r s), ?_, (deviceReset_resetLeaves _).of_kept rfl rfl rfl rfl, rfl⟩
    rw [exec_railFault rail good, if_pos resets]
  · refine ⟨_, exec_railFault_ethernet good serves ethernet, ethStops_down (r - 25), ?_⟩
    simp [ethStops, railLost]
  · rw [exec_railFault rail good, if_neg (by simp [no4, no27]), if_neg (by simpa [railLost, serving] using serves),
      if_neg (by simp [no25, no26])]
    rfl
  · exact ⟨ethStops n s, congrArg _ (if_pos port), ethStops_down n, rfl⟩

section
variable {s : State} {q : Nat}

/-! ### Throttle levels (R543, R544) -/

theorem throttleLevel_setLevel {k level : Nat} :
    throttleLevel (setLevel q level s) k = if k = q then level else throttleLevel s k := tget_tset ..

theorem levelAt_setLevel {k level : Nat} :
    tget 0 (setLevel q level s).pwr.levelAt k = if k = q then lmc s else tget 0 s.pwr.levelAt k := tget_tset ..

/-- A quadrant whose level may rise at this mark. -/
def MayRise (q : Nat) (s : State) : Prop := throttleLevel s q < 3 ∧ tget 0 s.pwr.levelAt q + 16 ≤ lmc s

theorem levelRises_of_mayRise (may : MayRise q s) : levelRises q s = setLevel q (throttleLevel s q + 1) s := by
  obtain ⟨low, stood⟩ := may
  exact if_neg (by simp [low, stood])

theorem mayRise_setLevel_ne {k level : Nat} (other : k ≠ q) (may : MayRise k s) : MayRise k (setLevel q level s) := by
  obtain ⟨low, stood⟩ := may
  refine ⟨?_, ?_⟩
  · rwa [throttleLevel_setLevel, if_neg other]
  · rwa [levelAt_setLevel, if_neg other]

/-- Quadrants that all may rise do, and no other does. -/
theorem levelsRise : ∀ {qs : List Nat} {s : State}, qs.Nodup → (∀ q ∈ qs, MayRise q s) →
    (∀ k, throttleLevel (qs.foldl (fun s q => levelRises q s) s) k = if k ∈ qs then throttleLevel s k + 1 else throttleLevel s k) ∧
    { qs.foldl (fun s q => levelRises q s) s with pwr := s.pwr } = s
  | [], _, _, _ => ⟨fun _ => rfl, rfl⟩
  | q :: qs, s, distinct, may => by
    obtain ⟨fresh, distinct⟩ := List.nodup_cons.mp distinct
    have rises := levelRises_of_mayRise (may q (List.mem_cons_self ..))
    have others : ∀ k ∈ qs, MayRise k (levelRises q s) := fun k place => by
      rw [rises]
      exact mayRise_setLevel_ne (fun same => fresh (same ▸ place)) (may k (List.mem_cons_of_mem _ place))
    obtain ⟨levels, only⟩ := levelsRise distinct others
    refine ⟨fun k => ?_, ?_⟩
    · rw [List.foldl_cons, levels k, rises, throttleLevel_setLevel]
      by_cases same : k = q
      · subst same
        simp [fresh]
      · simp [same]
    · rw [List.foldl_cons]
      refine (congrArg (fun u : State => { u with pwr := s.pwr }) only).trans ?_
      rw [rises]
      rfl

theorem exec_throttleLevelRise {x : Thermal} (quadrant : q < 4) (up : heldInReset s = false) (may : MayRise q s)
    (hot : throttleC s ≤ x.die ∨ stackThrottleC s ≤ x.stack ∨ currentLimit s ≤ x.amps) :
    exec (.throttleLevelRise (some q) x) s = .next (setLevel q (throttleLevel s q + 1) (keepReadings q x s)) := by
  have rises : levelRises q (keepReadings q x s) = setLevel q (throttleLevel s q + 1) (keepReadings q x s) :=
    levelRises_of_mayRise (s := keepReadings q x s) may
  have reached : (throttleC (keepReadings q x s) ≤ x.die || stackThrottleC (keepReadings q x s) ≤ x.stack ||
      currentLimit (keepReadings q x s) ≤ x.amps) = true := by
    simp only [Bool.or_eq_true, decide_eq_true_eq, or_assoc]
    exact hot
  simp only [exec, execThrottleLevelRise, up, Nat.not_le.mpr quadrant, reached, rises, if_true, if_false, Bool.false_eq_true]

theorem exec_throttleLevelFall {x : Thermal} (quadrant : q < 4) (up : heldInReset s = false) (some' : throttleLevel s q ≠ 0)
    (stood : tget 0 s.pwr.levelAt q + 1024 ≤ lmc s) (die : x.die + 5 ≤ throttleC s) (stack : x.stack + 5 ≤ stackThrottleC s)
    (amps : x.amps + 20 ≤ currentLimit s) :
    exec (.throttleLevelFall q x) s = .next (setLevel q (throttleLevel s q - 1) (keepReadings q x s)) := by
  have low : (x.die + 5 ≤ throttleC (keepReadings q x s) && x.stack + 5 ≤ stackThrottleC (keepReadings q x s) &&
      x.amps + 20 ≤ currentLimit (keepReadings q x s) && throttleLevel (keepReadings q x s) q != 0 &&
      tget 0 (keepReadings q x s).pwr.levelAt q + 1024 ≤ lmc (keepReadings q x s)) = true := by
    simp only [Bool.and_eq_true, decide_eq_true_eq, bne_iff_ne]
    exact ⟨⟨⟨⟨die, stack⟩, amps⟩, some'⟩, stood⟩
  have awake : ¬((4 ≤ q || heldInReset s) = true) := by simp [quadrant, up]
  simp only [exec, execThrottleLevelFall, awake, low, if_true]
  rfl

/-! ### Temperatures (R406, R545) -/

theorem exec_thermalTrip {isStack : Bool} {unit temp : Nat} (powered : s.boot.pwrGood = true) (first : s.pwr.thermTrip = false)
    (hot : (if isStack then 105 else 115) ≤ temp) : exec (.thermalTrip isStack unit temp) s =
    .next (rung4 (let t := (detect { seq := 0, domain := 8, source := 6, rung := 4 } 4 0 0 s).2; { t with pwr.thermTrip := true })) :=
  if_neg (by simp [powered, first, hot])

/-- Operations over strands that differ leave each what its own makes of it. -/
theorem strandOf_foldl_modStrand {f : Strand → Strand} {first : Nat} : ∀ {ks : List Nat} {s : State}, ks.Nodup → ∀ i,
    strandOf (ks.foldl (fun s k => modStrand (first + k) f s) s) (first + i) =
      if i ∈ ks then f (strandOf s (first + i)) else strandOf s (first + i)
  | [], _, _, _ => rfl
  | k :: ks, s, distinct, i => by
    obtain ⟨fresh, distinct⟩ := List.nodup_cons.mp distinct
    rw [List.foldl_cons, strandOf_foldl_modStrand distinct]
    by_cases same : i = k
    · subst same
      simp [fresh, strandOf_modStrand_self]
    · simp [same, strandOf_modStrand_ne _ (first + i) _ _ (by omega : first + i ≠ first + k)]

theorem foldl_modStrand_keeps {f : Strand → Strand} {first : Nat} {ks : List Nat} :
    (ks.foldl (fun s k => modStrand (first + k) f s) s).mem.lines = s.mem.lines ∧
    (ks.foldl (fun s k => modStrand (first + k) f s) s).mem.temp = s.mem.temp :=
  ⟨foldl_keeps (·.mem.lines) (fun s k => modStrand (first + k) f s) (fun _ _ => rfl) _ _,
    foldl_keeps (·.mem.temp) (fun s k => modStrand (first + k) f s) (fun _ _ => rfl) _ _⟩

/-- Whatever an R528 source and a record say of a temperature, the memory has it. -/
theorem stackTemp_mem {stack temp : Nat} : (stackTemp stack temp s).mem = ((List.range 32).foldl (fun s k => modStrand (32 * stack + k)
    (fun x => { x with hot := if 85 < temp then true else if temp < 80 then false else x.hot }) s)
    { s with mem.temp := tset 0 s.mem.temp stack (min 255 temp) }).mem := by
  unfold stackTemp
  dsimp only
  split_ifs <;> simp [recordError_frame]

end

/-- Settles O8: the trip, the levels in a quadrant and in all of them, and the refresh of a stack. -/
theorem temperaturesAndThrottling : Obligations.TemperaturesAndThrottling := by
  refine ⟨fun k u temp s powered first hot => ⟨_, exec_thermalTrip powered first hot, rfl, rfl, rfl, by simp⟩,
    fun q x s quadrant up low stood hot => ⟨_, exec_throttleLevelRise quadrant up ⟨low, stood⟩ hot, ?_, ?_, fun k other => ?_, rfl⟩,
    fun x s up amps may => ?_,
    fun q x s quadrant up some' stood die stack amps =>
      ⟨_, exec_throttleLevelFall quadrant up some' stood die stack amps, ?_, fun k other => ?_, rfl⟩,
    fun k temp s stack hot up => ?_⟩
  · exact throttleLevel_setLevel.trans (if_pos rfl)
  · exact levelAt_setLevel.trans (if_pos rfl)
  · exact throttleLevel_setLevel.trans (if_neg other)
  · obtain ⟨levels, only⟩ := levelsRise (s := s) (List.nodup_range (n := 4)) fun q place => may q (List.mem_range.mp place)
    refine ⟨_, ?_, fun q quadrant => (levels q).trans (if_pos (List.mem_range.mpr quadrant)), only⟩
    simp only [exec, execThrottleLevelRise, up, Bool.false_eq_true, if_false, Nat.not_lt.mpr amps]
  · exact throttleLevel_setLevel.trans (if_pos rfl)
  · exact throttleLevel_setLevel.trans (if_neg other)
  · refine ⟨stackTemp k temp s, congrArg _ (if_neg (by simp [stack, up])), ?_, fun i place => ?_, ?_⟩
    · rw [stackTemp_mem, foldl_modStrand_keeps.2]
      exact tget_tset_self ..
    · rw [strandOf, stackTemp_mem, ← strandOf, strandOf_foldl_modStrand List.nodup_range, if_pos (List.mem_range.mpr place),
        if_pos hot]
    · rw [stackTemp_mem, foldl_modStrand_keeps.1]

/-! ### The SMBus target (R551) -/

theorem smbusRegister_isSome_iff (code : Nat) (s : State) :
    (smbusRegister s code).isSome = true ↔ (code ≤ 8 ∨ (0x10 ≤ code ∧ code ≤ 0x2F)) := by
  unfold smbusRegister
  split_ifs <;> simp_all <;> omega

/-- Settles O9: what is no register's, what the ROM keeps to itself, and what reads as its register. -/
theorem smbusAnswers : Obligations.SmbusAnswers := by
  refine ⟨fun code w s powered none' => ?_, fun code off s powered register rom no0 no1 no4 => ?_,
    fun code off i f s powered register isOpen place => ?_, smbusRegister_isSome_iff⟩
  · have absent : (if w then none else smbusRegister s code) = none := by
      rcases none' with rfl | h
      · rfl
      · rw [h, ite_self]
    simp only [exec, execSmbusBlockRead, powered, absent, Bool.not_true, Bool.false_eq_true, if_false]
  · have hidden : (s.boot.inRom && !([0, 1, 4].contains code)) = true := by simp [rom, no0, no1, no4]
    simp only [exec, execSmbusBlockRead, powered, register, hidden, Bool.not_true, Bool.false_eq_true, if_false, if_true]
  · have shown : ¬((s.boot.inRom && !([0, 1, 4].contains code)) = true) := by
      rcases isOpen with h | h | h | h <;> simp [h]
    simp only [exec, execSmbusBlockRead, powered, register, shown, place, Bool.not_true, Bool.false_eq_true, if_false]

end Sys2Proof.Machine

/-! PROOFS. Errors, counters, traces, audits and interrupts (sections 16 and 17). -/
namespace Sys2Proof.Machine

section
variable {s : State} {op : Nat} {c : Cmd} {echo : List Byte}

/-! ### Replies of commands that run -/

/-- A command that runs and replies at once. -/
theorem repliesNow {st : Nat} {res : List Byte} {t : State} {body : State → Nat × List Byte × State} (runs : Runs op c s)
    (does : body (takeNumber c s) = (st, res, t)) : RepliesWith op c st res t (.next (kcpNow op c echo body s)) :=
  ⟨echo, congrArg _ (kcpNow_of_body runs does)⟩

/-- A command that runs and whose body ends it. -/
theorem repliesDone {st : Nat} {res : List Byte} {t : State} {body : State → Answer × State} (runs : Runs op c s)
    (does : body (takeNumber c s) = (.done st res, t)) : RepliesWith op c st res t (.next (kcpTake op c echo body s)) :=
  ⟨echo, congrArg _ (kcpTake_of_body runs does)⟩

/-- A command that runs and whose reply is owed. -/
theorem waitsLater {w : Wait} {t : State} {body : State → Answer × State} (runs : Runs op c s)
    (does : body (takeNumber c s) = (.later w, t)) : Waits op c w t (.next (kcpTake op c echo body s)) :=
  ⟨echo, congrArg _ (kcpTake_of_body runs does)⟩

/-! ### READ_ERRORS and CLEAR_FIRST_ERROR (R485, R487, R488) -/

/-- Records of a domain up to a number are retired. -/
def retired (d ack : Nat) (s : State) : State :=
  if ack = 0 then s else { s with err.queues := tmod [] s.err.queues d (fun l => l.filter (fun r => ack < r.seq)) }

/-- The records that READ_ERRORS returns. -/
def recordsRead (t d count first : Nat) (s : State) : List ErrRec :=
  ((tget [] s.err.queues d).filter (fun r => mayReceive t r && first ≤ r.seq)).take count

/-- What READ_ERRORS does once it is taken. -/
def readErrors (c : Cmd) (s : State) : Nat × List Byte × State :=
  let d := min 9 (pbits c.params 0 0 4)
  let t := retired d (if c.tenant = 0 then pnum c.params 8 4 else 0) s
  let rs := recordsRead c.tenant d (clampTo 1 14 (pnum c.params 1 1)) (pnum c.params 4 4) t
  (stOK, le 1 rs.length ++ zeros 3 ++ le 4 (tget 1 t.err.nextSeq d) ++ rs.flatMap recBytes, t)

theorem exec_readErrors : ∃ echo, exec (.readErrors c) s = .next (kcpNow 0x801 c echo (readErrors c) s) := ⟨_, rfl⟩

theorem queue_retired {d ack : Nat} : tget [] (retired d ack s).err.queues d =
    if ack = 0 then tget [] s.err.queues d else (tget [] s.err.queues d).filter (fun r => ack < r.seq) := by
  unfold retired
  split
  · rfl
  · exact tget_tmod_self ..

theorem retired_first_mem {d ack : Nat} : (retired d ack s).err.first = s.err.first ∧ (retired d ack s).mem = s.mem := by
  unfold retired
  split <;> exact ⟨rfl, rfl⟩

/-- A tenant retires nothing. -/
theorem readErrors_of_tenant (tenant : c.tenant ≠ 0) : readErrors c s =
    let rs := recordsRead c.tenant (min 9 (pbits c.params 0 0 4)) (clampTo 1 14 (pnum c.params 1 1)) (pnum c.params 4 4) s
    (stOK, le 1 rs.length ++ zeros 3 ++ le 4 (tget 1 s.err.nextSeq (min 9 (pbits c.params 0 0 4))) ++ rs.flatMap recBytes, s) := by
  simp only [readErrors, if_neg tenant, retired, if_true]

/-- A tenant's records name it. -/
theorem tenant_of_recordsRead {t d count first : Nat} (notOperator : t ≠ 0) :
    ∀ r ∈ recordsRead t d count first s, r.tenant = some t := by
  intro r read
  have received := (List.mem_filter.mp (List.mem_of_mem_take read)).2
  simpa [mayReceive, notOperator] using (Bool.and_eq_true_iff.mp received).1

/-- What is left of a table at the keys that a test keeps. -/
theorem tget_filter_key {α : Type} {d : α} {p : Nat → Bool} {k : Nat} (kept : p k = true) : ∀ t : Tbl α,
    tget d (t.filter (fun e => p e.1)) k = tget d t k
  | [] => rfl
  | (i, v) :: t => by
    by_cases here : i = k
    · subst here
      simp [kept, tget]
    · by_cases keeps : p i = true <;> simp [keeps, tget, here, tget_filter_key kept t]

end

/-- Settles O46: the operator's ACK filters a queue, a tenant reads what it may receive, and the masks filter the registers. -/
theorem errorRecordsAreReadAndCleared : Obligations.ErrorRecordsAreReadAndCleared := by
  refine ⟨fun c s runs operator => ?_, fun c s runs tenant => ?_, fun c s runs => ?_⟩
  · obtain ⟨echo, takes⟩ := exec_readErrors (c := c) (s := s)
    refine ⟨_, _, takes ▸ repliesNow runs rfl, ?_, ?_, ?_⟩
    · simp only [queue_retired, if_pos operator, takeNumber_frame]
    · rw [retired_first_mem.1]; simp
    · rw [retired_first_mem.2]; simp
  · obtain ⟨echo, takes⟩ := exec_readErrors (c := c) (s := s)
    refine ⟨recordsRead c.tenant (min 9 (pbits c.params 0 0 4)) (clampTo 1 14 (pnum c.params 1 1)) (pnum c.params 4 4) (takeNumber c s),
      tenant_of_recordsRead tenant, ?_⟩
    rw [takes]
    refine repliesNow runs ((readErrors_of_tenant tenant).trans ?_)
    simp only [takeNumber_frame]
  · refine ⟨_, repliesNow runs rfl, fun e left => ?_, fun d left => ?_, fun d kept => ?_, ?_, ?_⟩
    · simpa using (List.mem_filter.mp left).2
    · simpa using (List.mem_filter.mp left).2
    · exact tget_filter_key (p := fun d => !bit _ d) (by simpa using kept) _
    · simp
    · simp

section
variable {s : State} {c : Cmd}

/-! ### READ_COUNTERS, READ_TRACE and READ_AUDIT (R496, R521, R526) -/

/-- The tenant whose counts or trace a command names: the operator any, a tenant its own. -/
def namedTenant (c : Cmd) : Nat := if c.tenant = 0 then pbits c.params 1 0 5 else c.tenant

/-- The counters are the only parts that CLEAR changes. -/
def clears (c : Cmd) : Bool := c.tenant = 0 && pbit c.params 0 2

theorem exec_readCounters_bank (runs : Runs 0x803 c s) (bank : pbits c.params 0 0 2 = 0) :
    RepliesWith 0x803 c stOK (le 8 (sampledAt s) ++ bankBytes s.shown.ctr (namedTenant c))
      (if clears c then clearBank (namedTenant c) (takeNumber c s) else takeNumber c s) (exec (.readCounters c) s) := by
  refine repliesNow runs ?_
  simp only [bank, sampledAt, atBoundary, fmt, takeNumber_frame, decide_true, Bool.true_and, namedTenant, clears]
  rfl

/-- What CLEAR leaves of the banks. -/
theorem clearBank_leaves {t : Nat} : (∀ e ∈ (clearBank t s).shown.ctr.bank, e.1 / 16 ≠ t) ∧
    (∀ e ∈ s.ctr.bank, e.1 / 16 ≠ t → e ∈ (clearBank t s).ctr.bank) ∧
    (∀ e ∈ (clearBank t s).ctr.bank, e.1 / 16 = t → ∃ v, (e.1, v) ∈ s.ctr.bank ∧
      e.2 = (v + 2 ^ 64 - tget 0 s.shown.ctr.bank e.1 % 2 ^ 64) % 2 ^ 64 ∧ e.2 ≠ 0) := by
  refine ⟨fun e left => by simpa using (List.mem_filter.mp left).2, fun e there other => ?_, fun e left own => ?_⟩
  · exact List.mem_filterMap.mpr ⟨e, there, if_pos (by simpa using other)⟩
  · obtain ⟨old, there, makes⟩ := List.mem_filterMap.mp left
    split at makes
    · next other =>
      cases makes
      exact absurd own (by simpa using other)
    · split at makes
      · contradiction
      · next counted =>
        cases makes
        exact ⟨old.2, there, rfl, counted⟩

/-- What READ_TRACE does once it is taken. -/
def readTrace (c : Cmd) (s : State) : Nat × List Byte × State :=
  let sl := tget {} s.ctr.trace (32 * pbits c.params 0 0 2 + namedTenant c)
  let (oldest, s) := match sl.entries with
    | e :: _ => (e.1, s)
    | [] => draw s
  let es := (entriesFrom sl.entries (pnum c.params 4 4)).take (clampTo 1 29 (pnum c.params 2 1))
  (stOK, le 4 oldest ++ le 4 sl.next ++ le 1 es.length ++ zeros 7 ++ es.flatMap (·.2), s)

theorem exec_readTrace : ∃ echo, exec (.readTrace c) s = .next (kcpNow 0x804 c echo (readTrace c) s) := ⟨_, rfl⟩

theorem readTrace_kept {e : Nat × List Byte} {l : List (Nat × List Byte)}
    (kept : (tget {} s.ctr.trace (32 * pbits c.params 0 0 2 + namedTenant c)).entries = e :: l) :
    ∃ res, readTrace c s = (stOK, le 4 e.1 ++ res, s) := by
  simp only [readTrace, kept, List.append_assoc]
  exact ⟨_, rfl⟩

theorem exec_readTrace_kept {e : Nat × List Byte} {l : List (Nat × List Byte)} (runs : Runs 0x804 c s)
    (kept : (tget {} s.ctr.trace (32 * pbits c.params 0 0 2 + namedTenant c)).entries = e :: l) :
    ∃ res, RepliesWith 0x804 c stOK (le 4 e.1 ++ res) (takeNumber c s) (exec (.readTrace c) s) := by
  obtain ⟨res, does⟩ := readTrace_kept (c := c) (s := takeNumber c s) (by simpa only [takeNumber_frame] using kept)
  obtain ⟨echo, takes⟩ := exec_readTrace (c := c) (s := s)
  exact ⟨res, takes ▸ repliesNow runs does⟩

/-- What READ_AUDIT shows after the time of its sample. -/
def auditShown (c : Cmd) (s : State) : List Byte :=
  let kind := min 4 (pnum c.params 0 1)
  let first := min (auditUnits kind - 1) (pnum c.params 2 2)
  (List.range (min (clampTo 1 29 (pnum c.params 4 1)) (auditUnits kind - first))).flatMap
    (fun i => auditRecord (atBoundary s) kind (first + i))

theorem exec_readAudit (runs : Runs 0x805 c s) : RepliesWith 0x805 c stOK
    (le 8 (sampledAt s) ++ auditShown c (takeNumber c s)) (takeNumber c s) (exec (.readAudit c) s) := by
  have sampled : sampledAt (takeNumber c s) = sampledAt s := by simp only [sampledAt, atBoundary, fmt, takeNumber_frame]
  refine repliesNow runs ?_
  simp only [sampled, auditShown]

/-! ### A discrepancy of a port (R492, R493) -/

/-- What is detected leaves every port in its phase. -/
theorem phase_modPort {p q : Nat} {f : Port → Port} (keeps : ∀ x, (f x).phase = x.phase) :
    (portOf (modPort p f s) q).phase = (portOf s q).phase := by
  by_cases same : q = p
  · rw [same, portOf_modPort_self, keeps]
  · rw [portOf_modPort_ne _ _ _ _ same]

theorem phase_enqueue {p queue q : Nat} {k : TxPkt} : (portOf (enqueue p queue k s) q).phase = (portOf s q).phase := by
  unfold enqueue
  split
  · rfl
  · exact phase_modPort fun _ => rfl

theorem phase_sendKcp {path : Path} {p : KcpPkt} {q : Nat} : (portOf (sendKcp path p s) q).phase = (portOf s q).phase := by
  unfold sendKcp
  split
  · split <;> rfl
  · split
    · split
      · exact phase_enqueue
      · rfl
    · rfl

theorem phase_eventTo {ss : Session} {code subject fmt' frac q : Nat} {detail : List Byte} :
    (portOf (eventTo ss code subject fmt' frac detail s) q).phase = (portOf s q).phase := by
  unfold eventTo
  dsimp only
  split
  · rfl
  · exact phase_sendKcp

theorem phase_eventAt {code subject fmt' frac q : Nat} {to? : Nat → Bool} {detail : List Byte} :
    (portOf (eventAt code subject fmt' frac to? detail s) q).phase = (portOf s q).phase :=
  foldl_keeps (fun s => (portOf s q).phase) (fun s x => eventTo x code subject fmt' frac detail s) (fun _ _ => phase_eventTo) _ _

theorem phase_errWrite {r : ErrRec} {quadrant sub q : Nat} :
    (portOf (errWrite r quadrant sub s) q).phase = (portOf s q).phase := by
  simp only [errWrite]
  split_ifs
  · rfl
  · rw [phase_eventAt]
    split <;> rfl
  · rfl
  · rw [phase_eventAt]
    split <;> rfl

theorem phase_detect {r : ErrRec} {nested quadrant sub q : Nat} :
    (portOf (detect r nested quadrant sub s).2 q).phase = (portOf s q).phase := by
  unfold detect
  dsimp only
  generalize written : errWrite _ quadrant sub s = t
  have kept : (portOf t q).phase = (portOf s q).phase := written ▸ phase_errWrite
  split_ifs <;> exact kept

/-- A port's discrepancy is written down. -/
def discrepancyFound (p : Nat) (s : State) : State :=
  (detect { seq := 0, domain := 9, source := 1, rung := 2, shared := portShared s p, unitKind := 3, unit := p } 3 (portQuadrant p) 0 s).2

/-- What is detected at a rung and not nested is handled. -/
theorem beingHandled_detect {r : ErrRec} {nested quadrant sub : Nat} (fresh : beingHandled s r.unitKind (handledUnit r) = false)
    (handled : r.rung ≠ 0) : beingHandled (detect r nested quadrant sub s).2 r.unitKind (handledUnit r) = true := by
  simp only [detect, fresh, Bool.false_eq_true, if_false, if_neg handled]
  simp [beingHandled, unitWithin]

theorem exec_auditDiscrepancy_port {k p v : Nat} (kind : k < 2) (port : p < 96) (up : portUp s p = true)
    (fresh : beingHandled s 3 p = false) : exec (.auditDiscrepancy k p v) s =
    .next (settleHome (if stopped (linkLost p false (discrepancyFound p s)) then
        modPort p (fun x => { x with retrainDue := true }) (linkLost p false (discrepancyFound p s))
      else if (linkLost p false (discrepancyFound p s)).err.fatal then linkLost p false (discrepancyFound p s)
      else startTraining p false (linkLost p false (discrepancyFound p s)))) := by
  have stillUp : portUp (discrepancyFound p s) p = true := by
    rw [portUp, ← portOf, discrepancyFound, phase_detect]
    exact up
  simp only [discrepancyFound] at stillUp
  simp only [exec, execAuditDiscrepancy, discrepancy, Nat.not_le.mpr kind, Nat.not_le.mpr port, fresh, stillUp, discrepancyFound,
    Bool.false_eq_true, Bool.not_true, if_false]
  rfl

end

/-- Settles O47: the replies hold what is kept, and a discrepancy takes its port down after its record. -/
theorem countersTracesAndAudits : Obligations.CountersTracesAndAudits := by
  refine ⟨fun c s runs bank => ?_, fun c s e l runs => exec_readTrace_kept runs, fun c s runs => ⟨_, exec_readAudit runs⟩,
    fun k q v s kind quadrant => ?_, fun k p v s kind port up fresh => ?_⟩
  · refine ⟨_, exec_readCounters_bank runs bank, fun tenant => if_neg (by simp [clears, tenant]), fun operator clear => ?_⟩
    rw [if_pos (by simp [clears, operator, clear])]
    obtain ⟨shown, others, since⟩ := clearBank_leaves (t := namedTenant c) (s := takeNumber c s)
    simp only [takeNumber_frame] at others since
    exact ⟨shown, others, since⟩
  · simp only [exec, execAuditDiscrepancy, discrepancy, kind, Nat.not_le.mpr quadrant, if_true, if_false]
  · exact ⟨_, exec_auditDiscrepancy_port kind port up fresh, by simp [discrepancyFound], fun q => phase_detect,
      beingHandled_detect fresh two_ne_zero⟩

section
variable {s : State} {i core : Nat}

/-! ### Interrupts (R529 to R533) -/

/-- The source is active on the core that took it last. -/
def delivered (i core : Nat) (s : State) : State :=
  bumpDev 7 1 (sat (0x000F8000 + 4 * core) 0 16 1
    { s with intc.sources := tset {} s.intc.sources i { st := .active, core := core },
             intc.recent := core :: s.intc.recent.filter (· != core) })

theorem exec_interruptDelivery {t : State} (ready : intReady s i = true)
    (first : s.intc.sources.any (fun e => intReady s e.1 && intBefore s e.1 i) = false) (target : intTarget i s = (some core, t)) :
    exec (.interruptDelivery i) s = .next (delivered i core t) := by
  simp only [exec, execInterruptDelivery, ready, first, target, Bool.not_true, Bool.or_self, Bool.false_eq_true, if_false]
  rfl

theorem delivered_source {j : Nat} : tget {} (delivered i core s).intc.sources j =
    if j = i then { st := .active, core := core } else tget {} s.intc.sources j := by
  have fields : (delivered i core s).intc.sources = tset {} s.intc.sources i { st := .active, core := core } := rfl
  rw [fields]
  exact tget_tset ..

/-- A source has ended as it now stands. -/
def ended (i : Nat) (st : IntState) (s : State) : State := { s with intc.sources := tset {} s.intc.sources i { st := st } }

theorem ended_state {st : IntState} : (tget {} (ended i st s).intc.sources i).st = st := by
  simp only [ended, tget_tset_self]

theorem exec_endOfInterrupt : exec (.endOfInterrupt core i) s =
    .next (if (tget {} s.intc.sources i).core != core then bumpDev 8 1 s
      else match (tget {} s.intc.sources i).st with
        | .active => ended i .inactive s
        | .activePending => ended i .pending s
        | _ => bumpDev 8 1 s) := rfl

end

/-- Settles O48: a delivery, and the three ends of an interrupt. -/
theorem interruptsAreDeliveredAndEnded : Obligations.InterruptsAreDeliveredAndEnded := by
  refine ⟨fun i core s t ready first target => ⟨_, exec_interruptDelivery ready first target, delivered_source.trans (if_pos rfl),
    rfl, fun j other => delivered_source.trans (if_neg other), rfl⟩, fun core i s own => ⟨fun active => ?_, fun active => ?_⟩,
    fun core i s stray => ?_⟩
  · refine ⟨ended i .inactive s, ?_, ended_state, rfl⟩
    rw [exec_endOfInterrupt, if_neg (by simp [own]), active]
  · refine ⟨ended i .pending s, ?_, ended_state, rfl⟩
    rw [exec_endOfInterrupt, if_neg (by simp [own]), active]
  · rw [exec_endOfInterrupt]
    rcases stray with other | idle | waits
    · rw [if_pos (by simpa using other)]
    · rw [idle, ite_self]
    · rw [waits, ite_self]

end Sys2Proof.Machine

/-! PROOFS. Attestation, sealed extents, extension modules and port keys (section 14), and the faults of the generator and of the
measurement store (section 16). -/
namespace Sys2Proof.Machine

section
variable {s : State} {c : Cmd} {ss : Session}

/-! ### The session of a command that is taken -/

/-- Taking a number leaves a session's report and its wrap key. -/
theorem advanceBase_report_wrapKey (n : Nat) (x : Session) :
    (advanceBase n x).report = x.report ∧ (advanceBase n x).wrapKey = x.wrapKey := by
  induction n generalizing x with
  | zero => exact ⟨rfl, rfl⟩
  | succ n ih =>
    rw [advanceBase]
    split
    · exact ih _
    · exact ⟨rfl, rfl⟩

theorem sessionOf_takeNumber_report (known : sessionOf s c.session = some ss) :
    ∃ x, sessionOf (takeNumber c s) c.session = some x ∧ x.report = ss.report ∧ x.wrapKey = ss.wrapKey := by
  refine ⟨_, sessionOf_modSession_self (fun _ => by apply advanceBase_id) known, ?_⟩
  exact advanceBase_report_wrapKey ..

/-! ### GET_ATTESTATION (R430, R438 to R441) -/

/-- What names a report: nonce, scope, and which part of it. -/
structure ReportName where
  nonce : Nat
  scope : Nat
  select : Nat

/-- The report that a command names. -/
def namedReport (c : Cmd) : ReportName := ⟨pnum c.params 0 32, pbits c.params 36 0 5, min 1 (pbits c.params 36 5 2)⟩

/-- A report bears a name. -/
def Named (r : Report) (n : ReportName) : Prop := r.nonce = n.nonce ∧ r.scope = n.scope ∧ r.select = n.select

/-- The parameters as they count. -/
def attestationEcho (n : ReportName) (off : Nat) : List Byte := le 32 n.nonce ++ le 4 off ++ le 1 (n.scope + 32 * n.select) ++ zeros 3

/-- What GET_ATTESTATION does once it is taken. -/
def attest (c : Cmd) (s : State) : Answer × State :=
  let n := namedReport c
  if c.tenant != 0 && n.scope != c.tenant then (.done stDENIED [], s)
  else if !s.sec.rngOk then (.done stBUSY [], s)
  else
    let (r, s) := frozenReport c.session n.nonce n.scope n.select s
    let off := min (pnum c.params 32 4 / 128 * 128) ((r.bytes.length - 1) / 128 * 128)
    let piece := (r.bytes.drop off).take 896
    (.whole stOK (attestationEcho n off ++ le 4 r.bytes.length ++ le 2 piece.length ++ zeros 2 ++ piece), s)

theorem exec_getAttestation : exec (.getAttestation c) s =
    .next (kcpTake 0x701 c (attestationEcho (namedReport c) (pnum c.params 32 4 / 128 * 128)) (attest c) s) := rfl

/-- A report that a session holds is served again. -/
theorem frozenReport_held {n : ReportName} {r : Report} {id : Nat} (known : sessionOf s id = some ss) (held : ss.report = some r)
    (named : Named r n) : frozenReport id n.nonce n.scope n.select s = (r, s) := by
  obtain ⟨nonce, scope, select⟩ := named
  simp only [frozenReport, known, Option.bind_some, held, nonce, scope, select, decide_true, Bool.and_self, if_true]

/-- Any other is built and held. -/
theorem frozenReport_built {n : ReportName} {id : Nat} (known : sessionOf s id = some ss)
    (fresh : ∀ r, ss.report = some r → ¬Named r n) : frozenReport id n.nonce n.scope n.select s =
      let b := buildReport n.nonce n.scope n.select s
      (b.1, modSession id (fun x => { x with report := some b.1 }) b.2) := by
  cases held : ss.report with
  | none => simp only [frozenReport, known, Option.bind_some, held]
  | some r =>
    have other : ¬((r.nonce = n.nonce && r.scope = n.scope && r.select = n.select) = true) := by
      simpa [Named, and_assoc] using fresh r held
    simp only [frozenReport, known, Option.bind_some, held, other]
    rfl

/-- The certificate chain, or the body signed over its digest with one draw. -/
theorem buildReport_eq {n : ReportName} (part : n.select ≤ 1) : buildReport n.nonce n.scope n.select s =
    ({ nonce := n.nonce, scope := n.scope, select := n.select,
       bytes := if n.select = 1 then certChain else reportBody s n.nonce n.scope ++
         identitySign (sm3 (reportBody s n.nonce n.scope)) (Config.free s.draws) },
      if n.select = 1 then s else (draw s).2) := by
  unfold buildReport
  by_cases chain : n.select = 1
  · simp only [chain, if_true]
  · have body : n.select = 0 := by omega
    simp only [body, draw]
    rfl

/-- Neither serving nor building a report touches the memory, the bindings, the security unit or the fields. -/
theorem frozenReport_keeps {n : ReportName} {id : Nat} (part : n.select ≤ 1) (known : sessionOf s id = some ss) :
    let t := (frozenReport id n.nonce n.scope n.select s).2
    t.mem = s.mem ∧ t.bind = s.bind ∧ t.sec = s.sec ∧ t.fields = s.fields := by
  by_cases held : ∃ r, ss.report = some r ∧ Named r n
  · obtain ⟨r, held, named⟩ := held
    rw [frozenReport_held known held named]
    exact ⟨rfl, rfl, rfl, rfl⟩
  · rw [frozenReport_built known fun r held' named => held ⟨r, held', named⟩, buildReport_eq part]
    by_cases chain : n.select = 1 <;> simp [chain]

theorem namedReport_select : (namedReport c).select ≤ 1 := Nat.min_le_left ..

theorem attestation : ClaimAttestation := by
  intro c s ss runs known
  obtain ⟨x, known', report, -⟩ := sessionOf_takeNumber_report (c := c) known
  have own_iff : ¬((c.tenant != 0 && (namedReport c).scope != c.tenant) = true) ↔ c.tenant = 0 ∨ (namedReport c).scope = c.tenant := by
    simp [Classical.or_iff_not_imp_left]
  refine ⟨fun tenant other => ?_, fun own fails => ?_, fun own serves => ?_⟩
  · rw [exec_getAttestation, kcpTake_of_body (a := .done stDENIED []) (t := takeNumber c s) runs]
    · rfl
    · exact if_pos (by simpa [namedReport] using ⟨tenant, other⟩)
  · rw [exec_getAttestation, kcpTake_of_body (a := .done stBUSY []) (t := takeNumber c s) runs]
    · rfl
    · exact (if_neg (own_iff.mpr own)).trans (if_pos (by simp [fails]))
  · let n := namedReport c
    let r := frozenReport c.session n.nonce n.scope n.select (takeNumber c s)
    obtain ⟨mem, bind, sec, fields⟩ := frozenReport_keeps namedReport_select known'
    refine ⟨r.1.bytes, r.2, ?_, mem.trans (by simp), bind.trans (by simp), sec.trans (by simp), fields.trans (by simp),
      fun old held nonce scope select => ?_, fun fresh => ?_⟩
    · rw [exec_getAttestation, kcpTake_of_runs runs]
      have does : attest c (takeNumber c s) = _ := (if_neg (own_iff.mpr own)).trans (if_neg (by simp [serves]))
      rw [does]
      rfl
    · have again : r = (old, takeNumber c s) := frozenReport_held known' (report.trans held) ⟨nonce, scope, select⟩
      rw [again]
      exact ⟨rfl, rfl⟩
    · have built : r = _ := frozenReport_built known' fun old held => fresh old (report.symm.trans held)
      rw [buildReport_eq namedReport_select] at built
      have there : sessionOf (if n.select = 1 then takeNumber c s else (draw (takeNumber c s)).2) c.session = some x := by
        split <;> exact known'
      rw [built]
      refine ⟨⟨_, sessionOf_modSession_self (fun _ => by rfl) there, rfl⟩, fun chain => ⟨if_pos chain, ?_⟩, fun body => ?_⟩
      · have chain : n.select = 1 := chain
        simp [chain, n]
      · have body : ¬n.select = 1 := fun chain => by
          rw [show n.select = 0 from body] at chain
          contradiction
        exact ⟨(if_neg body).trans (by simp [namedReport]), by simp [n, body, draw]⟩

/-! ### Sealed extents (R434 to R436) -/

/-- What SEAL_EXTENT does once it is taken; `len` is its LENGTH as it counts. -/
def sealing (c : Cmd) (len : Nat) (s : State) : Nat × List Byte × State :=
  match extentAt s (pnum c.params 0 8) with
  | none => (stDENIED, [], s)
  | some e =>
    if e.tenant != c.tenant || e.sealing.isSome || e.st != .granted || 1024 ≤ sealsOf s c.tenant then (stDENIED, [], s)
    else if (strandOf s (ppaStrand e.base)).lostUnit then (stDEGRADED, [], s)
    else
      let x : Seal := { session := c.session, seq := c.seq, length := len }
      (stOK, [], recallOwned e (modExtent e.base (fun e => { e with sealing := some x }) s))

/-- The LENGTH of a seal as it counts: at least a byte, and no more than an extent of the tenant's own holds. -/
def sealLength (c : Cmd) (s : State) : Nat :=
  match extentAt s (pnum c.params 0 8) with
  | some e => if e.tenant = c.tenant then min (max 1 (pnum c.params 8 8)) (0x200000 * e.granules) else max 1 (pnum c.params 8 8)
  | none => max 1 (pnum c.params 8 8)

theorem sealLength_own {e : Extent} (there : extentAt s (pnum c.params 0 8) = some e) (own : e.tenant = c.tenant) :
    sealLength c s = min (max 1 (pnum c.params 8 8)) (0x200000 * e.granules) := by
  simp only [sealLength, there, own, if_true]

theorem exec_sealExtent : ∃ echo, exec (.sealExtent c) s = .next (kcpNow 0x702 c echo (sealing c (sealLength c s)) s) := ⟨_, rfl⟩

theorem extentAt_takeNumber_eq {a : Nat} : extentAt (takeNumber c s) a = extentAt s a := by
  simp only [extentAt, takeNumber_frame]

theorem sealsOf_takeNumber {t : Nat} : sealsOf (takeNumber c s) t = sealsOf s t := by simp only [sealsOf, takeNumber_frame]

theorem lostUnit_takeNumber {st : Nat} : (strandOf (takeNumber c s) st).lostUnit = (strandOf s st).lostUnit := by
  simp only [strandOf, takeNumber_frame]

theorem sealsBegin : ClaimSealsBegin := by
  intro c s runs
  obtain ⟨echo, takes⟩ := exec_sealExtent (c := c) (s := s)
  rw [takes]
  refine ⟨fun absent => repliesNow runs ?_, fun e there => ⟨fun bars => repliesNow runs ?_, fun own unsealed granted place =>
    ⟨fun lost => repliesNow runs ?_, fun present => repliesNow runs ?_⟩⟩⟩
  · simp only [sealing, extentAt_takeNumber_eq, absent]
  · have barred : (e.tenant != c.tenant || e.sealing.isSome || e.st != .granted || 1024 ≤ sealsOf s c.tenant) = true := by
      simpa [or_assoc] using bars
    simp only [sealing, extentAt_takeNumber_eq, there, sealsOf_takeNumber, barred, if_true]
  all_goals
    have free : (e.tenant != c.tenant || e.sealing.isSome || e.st != .granted || 1024 ≤ sealsOf s c.tenant) = false := by
      simp [own, unsealed, granted, place]
  · simp only [sealing, extentAt_takeNumber_eq, there, sealsOf_takeNumber, lostUnit_takeNumber, lost, free, Bool.false_eq_true, if_false,
      if_true]
  · simp only [sealing, sealLength_own there own, extentAt_takeNumber_eq, there, sealsOf_takeNumber, lostUnit_takeNumber, present,
      free, Bool.false_eq_true, if_false]

theorem sealsEnd : ClaimSealsEnd := by
  intro base s e x found bears running thawed
  have idle : ¬((x.sealedAt.isSome || frozen s) = true) := by simp [running, thawed]
  refine ⟨fun waits => ?_, fun ready t => ⟨fun ls hashed => ?_, fun hashed => ?_⟩⟩
  · simp only [exec, execSealHashComplete, found, bears]
    rw [if_neg idle, if_pos waits]
  · simp only [exec, execSealHashComplete, found, bears]
    rw [if_neg idle, if_neg (by simp [ready]), hashed]
  · simp only [exec, execSealHashComplete, found, bears]
    rw [if_neg idle, if_neg (by simp [ready]), hashed]

/-! ### Keys of sealed ports (R449) -/

theorem portKeys : ClaimPortKeys := by
  intro c s ss runs known
  obtain ⟨x, known', -, wrapKey⟩ := sessionOf_takeNumber_report (c := c) known
  refine repliesNow runs ?_
  simp only [known', Option.map_some, Option.getD_some, wrapKey]
  have dirs : min 2 (pbits c.params 1 0 2) = 0 ∨ min 2 (pbits c.params 1 0 2) = 1 ∨ min 2 (pbits c.params 1 0 2) = 2 := by omega
  rcases dirs with dir | dir | dir <;> simp [dir]

/-! ### Extension modules (R451 to R453) -/

/-- The module of a core is forgotten. -/
def moduleForgotten (core : Nat) (s : State) : State := { s with sec.ext := tset none s.sec.ext core none }

theorem stopModule_eq {core : Nat} : stopModule core s =
    closeSessions (s.kcp.sessions.filter (fun x => x.module == some core)) 4 (moduleForgotten core s) := rfl

/-- A stopped module is gone with its session. -/
theorem stopModule_stops {core : Nat} : tget none (stopModule core s).sec.ext core = none ∧
    (∀ x ∈ (stopModule core s).kcp.sessions, x.module ≠ some core) ∧ (stopModule core s).mem = s.mem ∧
    (stopModule core s).bind = s.bind := by
  rw [stopModule_eq]
  obtain ⟨mem, bind, sec⟩ := closeSessions_keeps (s := moduleForgotten core s)
    (s.kcp.sessions.filter (fun x => x.module == some core)) 4
  refine ⟨?_, fun y held own => ?_, mem, bind⟩
  · rw [sec]
    exact tget_tset_self none s.sec.ext core none
  · obtain ⟨there, others⟩ := closeSessions_who (List.mem_map.mpr ⟨y, held, rfl⟩)
    obtain ⟨x, there, who⟩ := List.mem_map.mp there
    simp only [sessionWho, Prod.mk.injEq] at who
    obtain ⟨sameId, -, -, sameModule⟩ := who
    exact others x (List.mem_filter.mpr ⟨there, by simp [sameModule, own]⟩) sameId.symm

/-- The core and the address that LOAD_EXTENSION names. -/
def namedCore (c : Cmd) : Nat := clampTo 6 7 (pnum c.params 8 1)
def namedImage (c : Cmd) : Nat := pnum c.params 0 8 % 2 ^ 57 / 128 * 128

/-- A module starts as the one of its core, and nothing moves in the memory or the bindings. -/
theorem startModule_starts {core digest version : Nat} :
    tget none (startModule core digest version s).sec.ext core = some (digest, version) ∧
    (startModule core digest version s).mem = s.mem ∧ (startModule core digest version s).bind = s.bind :=
  ⟨tget_tset_self none s.sec.ext core (some (digest, version)), rfl, rfl⟩

/-- An image that may be loaded: of a legal length and signed by the operator over its digest (R451). -/
def GoodImage (len : Nat) (bs : List Byte) : Prop :=
  256 ≤ len ∧ len ≤ 0x200000 ∧ verifies Config.operatorKey (sm3 (bs.take (len - 64))) (pnum bs (len - 64) 64) = true

theorem goodImage_iff {len : Nat} {bs : List Byte} : GoodImage len bs ↔ ¬((len < 256 || 0x200000 < len ||
    !verifies Config.operatorKey (sm3 (bs.take (len - 64))) (pnum bs (len - 64) 64)) = true) := by
  simp [GoodImage, and_assoc]

/-- A load whose image has been read. -/
theorem exec_loadExtension_read {bs : List Byte} {t : State} (runs : Runs 0x703 c s) (load : pbit c.params 9 0 = false)
    (thawed : frozen s = false) (ready : (readByTva 0 (imageLength (namedImage c) s).2 (namedImage c) [] s).1 ≠ .wait)
    (read : readByTva 0 (imageLength (namedImage c) s).2 (namedImage c) [] (takeNumber c s) = (.bytes bs, t)) :
    let r := loadModule (namedCore c) (imageLength (namedImage c) s).1 bs t
    ∃ echo, exec (.loadExtension c) s = .next (clearGathered 0 (answer 0x703 c echo (.done r.1 r.2.1) r.2.2)) := by
  simp only [namedImage] at ready read
  simp only [exec, execLoadExtension, load, Bool.false_eq_true, if_false, namedImage, namedCore]
  refine ⟨_, congrArg Host.Outcome.next ((whenReadable_of_ready runs.serves thawed ready _).trans
    (congrArg _ (kcpNow_of_body runs ?_)))⟩
  simp only [read]

theorem modules : ClaimModules := by
  intro c s runs
  refine ⟨fun unload => ⟨?_, ?_⟩, fun t bs load thawed ready read => ?_⟩
  · simp only [exec, execLoadExtension, unload, if_true]
    exact repliesNow runs rfl
  · obtain ⟨forgotten, closed, mem, -⟩ := stopModule_stops (core := namedCore c) (s := takeNumber c s)
    exact ⟨forgotten, closed, mem.trans (by simp)⟩
  · have loads := exec_loadExtension_read runs load thawed ready read
    refine ⟨fun bad => ?_, fun good full => ?_, fun good room => ?_⟩
    · have does : loadModule (namedCore c) (imageLength (namedImage c) s).1 bs t = (stDENIED, [], t) :=
        if_pos (of_not_not fun h => bad (goodImage_iff.mpr h))
      rwa [does] at loads
    · have does : loadModule (namedCore c) (imageLength (namedImage c) s).1 bs t = (stBUSY, [], t) :=
        (if_neg (goodImage_iff.mp good)).trans (if_pos full)
      rwa [does] at loads
    · have does : loadModule (namedCore c) (imageLength (namedImage c) s).1 bs t = (stOK, _, startModule (namedCore c) _ _ _) :=
        (if_neg (goodImage_iff.mp good)).trans (if_neg room)
      rw [does] at loads
      obtain ⟨echo, loads⟩ := loads
      obtain ⟨-, -, stoppedMem, stoppedBind⟩ := stopModule_stops (core := namedCore c) (s := t)
      obtain ⟨started, mem, bind⟩ := startModule_starts (s := stopModule (namedCore c) t) (core := namedCore c)
        (digest := sm3 (bs.take ((imageLength (namedImage c) s).1 - 64))) (version := pnum bs 4 4)
      exact ⟨echo, _, loads, started, mem.trans stoppedMem, bind.trans stoppedBind⟩

/-! ### The generator and the measurement store (R430, R491, R492) -/

/-- What is detected at a fault that is not nested takes the rung of its record, and at one that is nested the other. -/
theorem detect_rung {r : ErrRec} {nested q sub : Nat} :
    (detect r nested q sub s).1 = if beingHandled s r.unitKind (handledUnit r) then nested else r.rung := rfl

theorem deviceRung_due (idle : s.boot.deviceLadder = false) : (rung3 3 0 s).boot.deviceLadder = true ∧
    (s.boot.deviceResetAt = none → (rung3 3 0 s).boot.deviceResetAt = some (lmc s)) ∧ (rung3 3 0 s).mem = s.mem := by
  cases due : s.boot.deviceResetAt <;> simp [rung3, idle, due, deviceResetDue]

/-- Nothing is handled of a unit while the device climbs no ladder of its own. -/
theorem deviceLadder_of_fresh {kind unit : Nat} (fresh : beingHandled s kind unit = false) : s.boot.deviceLadder = false :=
  (Bool.or_eq_false_iff.mp fresh).1

/-- The record of a generator that fails, and of the measurement store. -/
def rngRecord : ErrRec := { seq := 0, domain := 6, source := 1, rung := 2 }
def storeRecord : ErrRec := { seq := 0, domain := 6, source := 2, rung := 3 }

/-- The generator serves no more. -/
def rngStopped (s : State) : State := { s with sec.rngOk := false }

theorem exec_rngHealthFail (serves : serving s = true) : exec .rngHealthFail s =
    .next (takeRung (detect rngRecord 3 0 0 (rngStopped s)).1 3 0 (detect rngRecord 3 0 0 (rngStopped s)).2) :=
  if_neg (by simpa [serving] using serves)

theorem exec_measurementStoreFault (serves : serving s = true) : exec .measurementStoreFault s =
    .next (takeRung (detect storeRecord 4 0 0 s).1 3 0 (detect storeRecord 4 0 0 s).2) :=
  if_neg (by simp [serves])

theorem generatorAndStore : ClaimGeneratorAndStore := by
  refine ⟨fun s => ⟨_, rfl, rfl, fun h left => ?_, rfl⟩, fun s rom => ⟨if_pos (by simpa [serving] using rom), if_pos (by simp [rom])⟩,
    fun s serves fresh => ?_, fun s serves nested => ?_, fun s serves fresh => ?_, fun s serves nested => ?_⟩
  · rintro ⟨kind, unit⟩
    have stays := (List.mem_filter.mp left).2
    simp [kind, unit] at stays
  · have rung : (detect rngRecord 3 0 0 (rngStopped s)).1 = 2 := detect_rung.trans (if_neg (Bool.eq_false_iff.mp fresh))
    refine ⟨_, exec_rngHealthFail serves, ?_⟩
    rw [rung]
    refine ⟨?_, beingHandled_detect fresh two_ne_zero, ?_, ?_⟩ <;> simp [takeRung, rngStopped]
  · have rung : (detect rngRecord 3 0 0 (rngStopped s)).1 = 3 := detect_rung.trans (if_pos nested)
    refine ⟨(detect rngRecord 3 0 0 (rngStopped s)).2, ?_, ?_, ?_, ?_⟩
    · rw [exec_rngHealthFail serves, rung]
      rfl
    all_goals simp [rngStopped]
  · have rung : (detect storeRecord 4 0 0 s).1 = 3 := detect_rung.trans (if_neg (Bool.eq_false_iff.mp fresh))
    have idle : (detect storeRecord 4 0 0 s).2.boot.deviceLadder = false := by simpa using deviceLadder_of_fresh fresh
    obtain ⟨ladder, due, mem⟩ := deviceRung_due idle
    refine ⟨_, exec_measurementStoreFault serves, ?_⟩
    rw [rung]
    refine ⟨ladder, fun none' => (due (by simpa using none')).trans (by simp [lmc]), mem.trans (by simp)⟩
  · have rung : (detect storeRecord 4 0 0 s).1 = 4 := detect_rung.trans (if_pos nested)
    refine ⟨_, exec_measurementStoreFault serves, ?_⟩
    rw [rung]
    refine ⟨rfl, rfl, ?_, ?_⟩ <;> simp [takeRung]

end

/-- Settles O49: reports, seals, modules, keys, and the faults of the units behind them. -/
theorem securityCommands : Obligations.SecurityCommands :=
  ⟨attestation, sealsBegin, sealsEnd, modules, portKeys, generatorAndStore⟩

end Sys2Proof.Machine

/-! PROOFS. The global stop and the pair of command processors (section 16). -/
namespace Sys2Proof.Machine

section
variable {s : State} {c : Cmd}

/-! ### What is sent to a session leaves the stop as it is (R507) -/

/-- A KCP packet is no packet that a stop holds. -/
theorem sendKcp_halt (path : Path) (p : KcpPkt) : (sendKcp path p s).halt = s.halt := by
  unfold sendKcp
  split
  · split <;> rfl
  · split
    · split
      · simp [enqueue, emit]
      · rfl
    · rfl

theorem eventTo_halt (ss : Session) (code subject fmt' frac : Nat) (detail : List Byte) :
    (eventTo ss code subject fmt' frac detail s).halt = s.halt := by
  unfold eventTo
  dsimp only
  split
  · rfl
  · rw [sendKcp_halt]
    rfl

theorem event_halt (code subject : Nat) (to? : Nat → Bool) (detail : List Byte) :
    (event code subject to? detail s).halt = s.halt := foldl_keeps (·.halt) _ (fun _ _ => eventTo_halt ..) _ _

theorem commandDone_halt (session seq opcode status : Nat) (rest : List Byte) :
    (commandDone session seq opcode status rest s).halt = s.halt := by
  unfold commandDone
  split
  · split
    · exact eventTo_halt ..
    · rfl
  · rfl

/-! ### A stop is armed and taken (R505 to R508) -/

/-- Only STATE changes of the stop. -/
theorem haltState_halt (h : HaltState) : (haltState h s).halt = { s.halt with st := h } := by
  unfold haltState
  split
  · next same => rw [← same]
  · rfl

/-- The stop that HALT_AT_MARK arms. -/
def armedStop (c : Cmd) (s : State) : HaltSt :=
  let m := clampTo (fmt s + 8) (fmt s + 2 ^ 20) (pnum c.params 0 8)
  { st := s.halt.st, mark := m, flight := pnum c.params 8 1, landing := m + pnum c.params 8 1 + 8, gates := s.halt.gates,
    held := s.halt.held, parked := s.halt.parked, session := c.session, seq := c.seq }

theorem exec_haltAtMark (runs : Runs 0x806 c s) : RepliesWith 0x806 c stOK
    (le 8 (clampTo (fmt s + 8) (fmt s + 2 ^ 20) (pnum c.params 0 8) + pnum c.params 8 1 + 8))
    (haltState .armed { takeNumber c s with halt := armedStop c (takeNumber c s) }) (exec (.haltAtMark c) s) :=
  repliesNow runs (by simp only [armedStop, fmt, takeNumber_frame])

/-- At its mark a stop begins to land, and nothing of the memory, the engine or the homes has moved. -/
theorem haltAtMark_lands : (Machine.haltAtMark s).halt.st = .landing ∧ (Machine.haltAtMark s).halt.landing = s.halt.landing ∧
    (Machine.haltAtMark s).mem = s.mem ∧ (Machine.haltAtMark s).eng = s.eng ∧ (Machine.haltAtMark s).coh = s.coh := by
  simp [Machine.haltAtMark, boundary, commandDone_halt, event_halt, haltState_halt]

theorem exec_landingClose (landing : s.halt.st = .landing) (due : s.halt.landing ≤ fmt s) :
    exec .landingClose s = .next (landingCloses s) := congrArg _ (if_neg (by simp [landing, due]))

theorem landingCloses_halted : (landingCloses s).halt.st = .halted ∧ (landingCloses s).mem = s.mem ∧
    (landingCloses s).eng = s.eng ∧ (landingCloses s).link = s.link ∧ (landingCloses s).kcp = s.kcp := by
  simp [landingCloses, boundary, haltState_halt]

theorem stopsAreArmedAndTaken : ClaimStopsAreArmedAndTaken := by
  refine ⟨fun c s runs => ⟨_, exec_haltAtMark runs, ?_, ?_, ?_, ?_, ?_⟩, fun s armed => ⟨fun early => ?_, fun due => ⟨Machine.haltAtMark s, ?_, ?_⟩⟩,
    fun s landing due => ⟨_, exec_landingClose landing due, landingCloses_halted⟩⟩
  · rw [haltState_halt]
  · rw [haltState_halt]
    simp [armedStop, fmt]
  · rw [haltState_halt]
    simp [armedStop, fmt]
  · simp
  · simp
  · exact congrArg _ (if_pos (by simp [early]))
  · exact congrArg _ (if_neg (by simp [armed, due]))
  · obtain ⟨lands, landing, mem, eng, coh⟩ := haltAtMark_lands (s := s)
    exact ⟨lands, by rw [stopped, lands], landing, mem, eng, coh⟩

/-! ### A stop ends (R512) -/

/-- What RESUME does once it is taken; `at'` is the moment that its echo names. -/
def resuming (c : Cmd) (at' : Nat) (s : State) : Answer × State :=
  match s.halt.st with
  | .landing | .resuming => (.done stBUSY [], s)
  | .armed => (.done stOK [], haltState .running s)
  | .running => (.done stOK [], s)
  | .halted => (.later .resume, haltState .resuming { s with halt.resumeAt := if pnum c.params 0 8 = 0 then fmt s + 1 else at' })

theorem exec_resume : ∃ echo, exec (.resume c) s = .next (kcpTake 0x807 c echo (resuming c
    (if pnum c.params 0 8 = 0 then 0 else clampTo (fmt s + 1) (fmt s + 1000) (pnum c.params 0 8))) s) := ⟨_, rfl⟩

/-- Held packets go to their ports' queues in the order in which they were held. -/
theorem tx_queue_foldl_enqueue : ∀ (l : List (Nat × Nat × TxPkt)) {s : State} (p : Nat), frozen s = false →
    (l.foldl (fun s q => enqueue q.1 q.2.1 q.2.2 s) s).halt = s.halt ∧
    (portOf (l.foldl (fun s q => enqueue q.1 q.2.1 q.2.2 s) s) p).tx.queue =
      (portOf s p).tx.queue ++ (l.filter (fun q => q.1 == p)).map (fun q => (q.2.1, laneOf q.2.2.hdr.code, q.2.2))
  | [], _, _, _ => ⟨rfl, (List.append_nil _).symm⟩
  | q :: l, s, p, thawed => by
    let t := modPort q.1 (fun x => { x with tx.queue := x.tx.queue ++ [(q.2.1, laneOf q.2.2.hdr.code, q.2.2)] }) s
    have goes : enqueue q.1 q.2.1 q.2.2 s = t := if_neg (by simp [thawed])
    obtain ⟨halt, queue⟩ := tx_queue_foldl_enqueue l (s := t) p thawed
    rw [List.foldl_cons, goes]
    refine ⟨halt, queue.trans ?_⟩
    by_cases own : q.1 = p
    · subst own
      simp [t, portOf_modPort_self]
    · rw [portOf_modPort_ne _ _ _ _ (Ne.symm own)]
      simp [own]

/-- The stop has ended and its held packets stand in their queues. -/
def heldIssued (s : State) : State := issueHeld (haltState .running (haltPromised s))

/-- What was parked has been processed, and the units issue again. -/
def againIssued (s : State) : State :=
  let u := heldIssued s
  retrainWaiting (issueAgain (passHeldGates (u.halt.parked.foldl (fun s r => unpark r s) { u with halt.parked := [] })))

theorem exec_resumeAtMark (resumes : s.halt.st = .resuming) (due : s.halt.resumeAt ≤ fmt s) : exec .resumeAtMark s =
    .next (boundary (((againIssued s).kcp.running.filter (fun r => r.wait == .resume)).foldl (fun s r => finish r stOK [] s)
      (againIssued s))) := by
  have ends : exec .resumeAtMark s = .next (resumeStop s) := congrArg Host.Outcome.next (if_neg (by simp [resumes, due]))
  rw [ends]
  simp only [resumeStop, againIssued, heldIssued]

theorem stopsEnd : ClaimStopsEnd := by
  refine ⟨fun c s runs halted => ?_, fun c s runs busy => ?_, fun c s runs => ⟨fun armed => ?_, fun running => ?_⟩,
    fun s resumes due => ⟨heldIssued s, againIssued s, rfl, rfl, exec_resumeAtMark resumes due⟩, fun s p thawed => ?_⟩
  · obtain ⟨echo, takes⟩ := exec_resume (c := c) (s := s)
    have st : (takeNumber c s).halt.st = .halted := by simpa using halted
    refine ⟨_, takes ▸ waitsLater runs (by simp only [resuming, st]; rfl), ?_, ?_⟩
    · rw [haltState_halt]
    · rw [haltState_halt]
      by_cases now : pnum c.params 0 8 = 0 <;> simp [now, fmt]
  · obtain ⟨echo, takes⟩ := exec_resume (c := c) (s := s)
    rw [takes]
    refine repliesDone runs ?_
    rcases busy with landing | resumes
    · simp [resuming, landing]
    · simp [resuming, resumes]
  · obtain ⟨echo, takes⟩ := exec_resume (c := c) (s := s)
    refine ⟨haltState .running (takeNumber c s), takes ▸ repliesDone runs (by simp [resuming, armed]), ?_, by simp⟩
    rw [haltState_halt]
  · obtain ⟨echo, takes⟩ := exec_resume (c := c) (s := s)
    rw [takes]
    exact repliesDone runs (by simp [resuming, running])
  · obtain ⟨halt, queue⟩ := tx_queue_foldl_enqueue s.halt.held (s := { s with halt.held := [] }) p thawed
    exact ⟨congrArg HaltSt.held halt, queue⟩

end

/-- Settles O50: a stop goes through its states, and what it held goes on. -/
theorem stopsRunTheirCourse : Obligations.StopsRunTheirCourse := ⟨stopsAreArmedAndTaken, stopsEnd⟩

section
variable {s : State} {c : Cmd}

/-! ### Heartbeats (R498, R500) -/

theorem exec_heartbeatSend (serves : serving s = true) (ready : s.pair.standby = .ready) :
    exec .heartbeatSend s = .next (beat 1 (beat 0 s)) := by
  have beats0 : beats s 0 = true := by simp [beats, ready]
  have beats1 : beats (beat 0 s) 1 = true := by simp [beats, beat, emit, ready]
  simp only [exec, execHeartbeatSend, serves, List.foldl_cons, List.foldl_nil, beats0, beats1, Bool.not_true, Bool.false_eq_true,
    if_false, if_true]

/-- A core of the pair hears on a path at this mark. -/
def pathHeard (k : Nat) (s : State) : State :=
  { s with pair.heard := tset 0 s.pair.heard k (lmc s), pair.reported := s.pair.reported.filter (· != k) }

theorem exec_heartbeatReceived {core path : Nat} (serves : serving s = true) (small : core < 2) (small' : path < 2) :
    exec (.heartbeatReceived core path) s = .next (pathHeard (2 * core + path) s) := by
  simp only [exec, execHeartbeatReceived, serves, Nat.mod_eq_of_lt small, Nat.mod_eq_of_lt small', Bool.not_true, Bool.false_eq_true,
    if_false]
  rfl

theorem exec_heartbeatPathSilent {core path : Nat} (serves : serving s = true) (ready : s.pair.standby = .ready) (small : core < 2)
    (small' : path < 2) (silent : pathSilent s core path = true) (fresh : s.pair.reported.contains (2 * core + path) = false)
    (noTakeover : (core == otherCore s && pathSilent s core 0 && pathSilent s core 1) = false) :
    exec (.heartbeatPathSilent core path) s = .next (recordError { seq := 0, domain := 8, source := 1, rung := 0 } 0 0
      { s with pair.reported := s.pair.reported ++ [2 * core + path] }) := by
  simp only [exec, execHeartbeatPathSilent, serves, ready, Nat.mod_eq_of_lt small, Nat.mod_eq_of_lt small', silent, fresh, noTakeover,
    bne_self_eq_false, Bool.not_true, Bool.or_self, Bool.false_eq_true, if_false]

/-- No takeover is due where the core is the active one, or still hears the other on a path. -/
theorem takeover_eq_false {core : Nat} (active : s.pair.active < 2)
    (heard : core = s.pair.active ∨ ∃ q < 2, lmc s < tget 0 s.pair.heard (2 * core + q) + 8) :
    (core == otherCore s && pathSilent s core 0 && pathSilent s core 1) = false := by
  rcases heard with rfl | ⟨q, small, hears⟩
  · have other : ¬(s.pair.active = otherCore s) := by unfold otherCore; omega
    simp [other]
  · have loud : pathSilent s core q = false := decide_eq_false (by simp only [silentMarks]; omega)
    have paths : q = 0 ∨ q = 1 := by omega
    rcases paths with rfl | rfl <;> simp [loud]

/-! ### What an event or a record leaves of the ring -/

theorem eventAt_ring {code subject fmt' frac : Nat} {to? : Nat → Bool} {detail : List Byte} :
    (eventAt code subject fmt' frac to? detail s).kcp.ring = s.kcp.ring :=
  foldl_keeps (·.kcp.ring) _ (fun _ _ => (eventTo_keeps_ring_and_ids ..).1) _ _

theorem errWrite_ring {r : ErrRec} {quadrant sub : Nat} : (errWrite r quadrant sub s).kcp.ring = s.kcp.ring := by
  simp only [errWrite]
  split_ifs
  · rfl
  · rw [eventAt_ring]
    split <;> rfl
  · rfl
  · rw [eventAt_ring]
    split <;> rfl

theorem detect_ring {r : ErrRec} {nested quadrant sub : Nat} : (detect r nested quadrant sub s).2.kcp.ring = s.kcp.ring := by
  unfold detect
  dsimp only
  generalize written : errWrite _ quadrant sub s = t
  have kept : t.kcp.ring = s.kcp.ring := written ▸ errWrite_ring
  split_ifs <;> exact kept

/-! ### Takeover, fence, hand-over (R500, R501, R503) -/

/-- The standby has claimed OWNER, and the former active core is fenced. -/
def tookOver (s : State) : State :=
  { leaveService s.pair.active (moveOwner 1 s) with
    pair := { (moveOwner 1 s).pair with standby := .fenced (lmc s + 12), journalAt := lmc s }
    intc := { (leaveService s.pair.active (moveOwner 1 s)).intc with fenced := [s.pair.active] } }

/-- The record of a takeover. -/
def takeoverRecord (core : Nat) : ErrRec := { seq := 0, domain := 8, source := 2, rung := 3, unitKind := 8, unit := core }

theorem exec_failoverTakeover (serves : serving s = true) (alive : s.err.fatal = false) (ready : s.pair.standby = .ready)
    (silent : ∀ p < 2, pathSilent s (otherCore s) p = true) : exec .failoverTakeover s =
    .next (event 9 (otherCore s) (fun _ => true) [] (detect (takeoverRecord s.pair.active) 3 0 0 (tookOver s)).2) :=
  if_neg (by simp [serves, alive, ready, silent])

theorem exec_fenceClose {m : Nat} (fenced : s.pair.standby = .fenced m) : exec .fenceClose s =
    .next (if lmc s < m then s else endHandling 8 (otherCore s) (enterService (otherCore s) (interruptsBack (otherCore s) (fun _ => true)
      { s with pair.standby := .testing, pair.testAt := lmc s, intc.fenced := [] }))) := by
  simp only [exec, execFenceClose, fenced, otherCore]

/-- What FORCE_FAILOVER does once it is taken. -/
def handOver (s : State) : Nat × List Byte × State :=
  if s.pair.standby != .ready then (stDENIED, [], s)
  else (stOK, [], { moveOwner 2 s with pair.standby := .testing, pair.testAt := lmc s })

theorem exec_forceFailover : exec (.forceFailover c) s = .next (kcpNow 0x808 c (zeros 4) handOver s) := rfl

theorem takeNumber_standby : (takeNumber c s).pair.standby = s.pair.standby ∧ (takeNumber c s).pair.active = s.pair.active := ⟨rfl, rfl⟩

/-! ### Self-test (R500, R502) -/

/-- The core that is not active tests itself, or its next cycle is due. -/
def TestDue (s : State) : Prop := s.pair.standby = .testing ∨ s.pair.standby = .ready ∧ s.pair.testAt + 4096 ≤ lmc s

theorem exec_standbySelftest {passed : Bool} (serves : serving s = true) (due : TestDue s) :
    exec (.standbySelftest passed) s = .next (if passed then testPasses s else testFails s) := by
  rcases due with testing | ⟨ready, due⟩
  · simp [exec, execStandbySelftest, serves, testing]
  · simp [exec, execStandbySelftest, serves, ready, due]

/-- A cycle that fails is counted, and the third in a row lists the core. -/
theorem testFails_leaves : (testFails s).pair.fails = (s.pair.fails + 1) % 2 ^ 32 ∧
    (testFails s).pair.standby = (if 3 ≤ s.pair.failRun + 1 then .none else .testing) ∧
    (testFails s).pair.active = s.pair.active ∧ (testFails s).mem = s.mem := by
  unfold testFails
  dsimp only
  simp only [detect_frame]
  split
  · next few => simp [Nat.not_le.mpr few]
  · next many => simp [Nat.not_lt.mp many, endHandling, listControlCore, leaveService, interruptsBack, recordFailure]

/-! ### READ_HEALTH (R504) -/

/-- What READ_HEALTH returns after the active core. -/
def healthRest (s : State) : List Byte :=
  le 1 (if s.pair.standby = .none then 0xFF else otherCore s) ++ le 1 (standbyCode s.pair.standby) ++ le 1 (pathBits s) ++
    le 4 s.pair.passes ++ le 4 s.pair.fails ++ zeros 4 ++ le 8 s.pair.lastPass ++ le 4 s.pair.failovers ++ zeros 4 ++
    le 8 s.pair.lastFailover ++ le 1 s.pair.lastKind ++ zeros 23

theorem healthRest_length : (healthRest s).length = 63 := by simp [healthRest, zeros]

theorem exec_readHealth (runs : Runs 0x809 c s) : RepliesWith 0x809 c stOK (le 1 s.pair.active ++ healthRest (takeNumber c s))
    (takeNumber c s) (exec (.readHealth c) s) :=
  repliesNow runs (by simp only [healthRest, takeNumber_standby, List.append_assoc])

/-- A fault that no command processor survives takes rung 4 (8.4). -/
theorem controlLost_leaves : (controlLost s).err.fatal = true ∧ (controlLost s).pwr.alert = true ∧ (controlLost s).mem = s.mem := by
  simp [controlLost, rung4]

end

/-- Settles O51: the pair's rows one by one. -/
theorem thePairHandsOver : Obligations.ThePairHandsOver := by
  refine ⟨fun s serves ready active => ⟨_, exec_heartbeatSend serves ready, fun core small => ?_, rfl, rfl, rfl, rfl⟩,
    fun core path s serves small small' => ⟨_, exec_heartbeatReceived serves small small', ?_, fun k other => ?_, rfl⟩,
    fun core path s serves ready small small' silent fresh heard active =>
      exec_heartbeatPathSilent serves ready small small' (decide_eq_true silent) fresh (takeover_eq_false active heard),
    fun s serves alive ready active silent => ⟨_, exec_failoverTakeover serves alive ready fun p small =>
      decide_eq_true (silent p small), ?_⟩,
    fun m s fenced => ⟨fun early => ?_, fun due => ⟨_, (exec_fenceClose fenced).trans (congrArg _ (if_neg (Nat.not_lt.mpr due))),
      rfl, rfl, rfl, rfl⟩⟩,
    fun c s runs => ⟨fun ready => ⟨_, repliesNow runs (if_neg ?_), rfl, rfl, rfl, rfl⟩, fun notReady => repliesNow runs (if_pos ?_)⟩,
    fun s serves due => ⟨⟨_, exec_standbySelftest serves due, rfl, rfl, rfl, rfl, rfl⟩,
      ⟨_, exec_standbySelftest serves due, testFails_leaves⟩⟩,
    fun c s runs => ?_, fun s alone waits stalled => ⟨controlLost s, ?_, controlLost_leaves⟩⟩
  · have cores : core = 0 ∨ core = 1 := by omega
    rcases cores with rfl | rfl <;> simp [beat, emit]
  · exact tget_tset_self 0 s.pair.heard _ (lmc s)
  · exact tget_tset_ne 0 s.pair.heard _ _ (lmc s) other
  · have ring := (event_keeps_ring_and_ids 9 (otherCore s) (fun _ => true) [] _).1.trans
      (detect_ring (r := takeoverRecord s.pair.active) (nested := 3) (quadrant := 0) (sub := 0) (s := tookOver s))
    simp only [event_frame, detect_frame]
    exact ⟨rfl, rfl, rfl, rfl, rfl, ring, rfl⟩
  · exact (exec_fenceClose fenced).trans (congrArg _ (if_pos early))
  · simp [takeNumber_standby, ready]
  · simp [takeNumber_standby, notReady]
  · refine ⟨le 1 s.pair.active ++ healthRest (takeNumber c s), ?_, ?_⟩
    · rw [List.length_append, le_length, healthRest_length]
    · exact exec_readHealth runs
  · exact congrArg _ (if_pos (by simp [alone, waits, stalled]))

end Sys2Proof.Machine

/-! PROOFS. Bring-up (sections 13 and 15): power and clocks, training of strands, the start-up test. -/
namespace Sys2Proof.Machine

section
variable {s : State} {c : Cmd}

/-! ### Waiting commands and the stage (R458) -/

/-- The first running command that waits for something of a kind is the one that a row finds by its test. -/
theorem runningFor_of_first {kind : Wait → Prop} {r : Running} (first : FirstWaiting kind r s) {test : Wait → Bool}
    (tests : ∀ w, test w = true ↔ kind w) : runningFor s test = some r := by
  obtain ⟨is, l, m, running, before⟩ := first
  have skipped : l.find? (fun r => test r.wait) = none :=
    List.find?_eq_none.mpr fun x there found => before x there ((tests x.wait).mp found)
  rw [runningFor, running, List.find?_append, skipped, Option.none_or]
  exact List.find?_cons_of_pos (p := fun r : Running => test r.wait) ((tests _).mpr is)

/-- No running command waits for something of a kind. -/
theorem runningFor_of_none {kind : Wait → Prop} (none' : ∀ r ∈ s.kcp.running, ¬kind r.wait) {test : Wait → Bool}
    (tests : ∀ w, test w = true ↔ kind w) : runningFor s test = none :=
  List.find?_eq_none.mpr fun r there found => none' r there ((tests r.wait).mp found)

theorem stageFrom_stage (n : Nat) : (stageFrom n s).boot.stage = if s.boot.stage = n then n + 1 else s.boot.stage := by
  unfold stageFrom
  split
  · rfl
  · rfl

/-- The stage alone changes. -/
theorem stageFrom_keeps (n : Nat) : { stageFrom n s with boot := s.boot } = s ∧
    (stageFrom n s).boot = { s.boot with stage := (stageFrom n s).boot.stage } := by
  unfold stageFrom
  split <;> exact ⟨rfl, rfl⟩

/-- What no operation of a list undoes stays true. -/
theorem foldl_keeps_prop {α : Type} {g : State → α → State} {P : State → Prop} : ∀ {l : List α} {s : State},
    (∀ s, ∀ k ∈ l, P s → P (g s k)) → P s → P (l.foldl g s)
  | [], _, _, h => h
  | k :: l, s, keeps, h => foldl_keeps_prop (l := l) (fun s x there => keeps s x (List.mem_cons_of_mem _ there))
      (keeps s k (List.mem_cons_self ..) h)

/-- An operation that brings something about at one of a list's units, which none of the others undoes. -/
theorem foldl_reaches {α : Type} {g : State → α → State} {P : State → Prop} {u : α} : ∀ {l : List α} {s : State},
    (∀ s, P (g s u)) → (∀ s, ∀ k ∈ l, P s → P (g s k)) → u ∈ l → P (l.foldl g s)
  | [], _, _, _, place => nomatch place
  | k :: l, s, sets, keeps, place => by
    have later : ∀ s, ∀ x ∈ l, P s → P (g s x) := fun s x there => keeps s x (List.mem_cons_of_mem _ there)
    obtain rfl | there := List.mem_cons.mp place
    · exact foldl_keeps_prop (l := l) later (sets s)
    · exact foldl_reaches (l := l) sets later there

/-! ### Power and clocks (R460, R461) -/

/-- Reading a temperature leaves the rails and the bring-up, and every stored line. -/
theorem stackTemp_keeps {stack temp : Nat} : (stackTemp stack temp s).pwr = s.pwr ∧ (stackTemp stack temp s).boot = s.boot ∧
    (stackTemp stack temp s).mem.lines = s.mem.lines := by
  have hot (f : Strand → Strand) (u : State) :
      ((List.range 32).foldl (fun s k => modStrand (32 * stack + k) f s) u).pwr = u.pwr ∧
      ((List.range 32).foldl (fun s k => modStrand (32 * stack + k) f s) u).boot = u.boot :=
    ⟨foldl_keeps (·.pwr) (fun s k => modStrand (32 * stack + k) f s) (fun _ _ => rfl) _ _,
      foldl_keeps (·.boot) (fun s k => modStrand (32 * stack + k) f s) (fun _ _ => rfl) _ _⟩
  refine ⟨?_, ?_, ?_⟩
  · unfold stackTemp
    dsimp only
    split_ifs <;> simp [recordError, hot]
  · unfold stackTemp
    dsimp only
    split_ifs <;> simp [recordError, hot]
  · rw [stackTemp_mem, foldl_modStrand_keeps.1]

/-- The temperatures that CHECK_POWER reads. -/
def temperaturesRead (temps : List Nat) (s : State) : State := (temps.take 16).zipIdx.foldl (fun s e => stackTemp e.2 e.1 s) s

theorem temperaturesRead_keeps {temps : List Nat} : (temperaturesRead temps s).pwr = s.pwr ∧
    (temperaturesRead temps s).boot = s.boot ∧ (temperaturesRead temps s).mem.lines = s.mem.lines :=
  ⟨foldl_keeps (·.pwr) _ (fun _ _ => stackTemp_keeps.1) _ _, foldl_keeps (·.boot) _ (fun _ _ => stackTemp_keeps.2.1) _ _,
    foldl_keeps (·.mem.lines) _ (fun _ _ => stackTemp_keeps.2.2) _ _⟩

/-- Quadrants found good are kept: all that are, until the clocks run; then those that still are. -/
def powerFound (temps : List Nat) (s : State) : State :=
  let t := temperaturesRead temps s
  { t with boot.powerOk := if t.boot.stage ≤ 1 then unitBits 4 (quadrantPower t) else t.boot.powerOk &&& unitBits 4 (quadrantPower t) }

theorem powerFound_keeps {temps : List Nat} : (powerFound temps s).pwr = s.pwr ∧ (powerFound temps s).mem.lines = s.mem.lines ∧
    (powerFound temps s).boot.stage = s.boot.stage ∧ (powerFound temps s).boot.powerOk =
      if s.boot.stage ≤ 1 then unitBits 4 (quadrantPower s) else s.boot.powerOk &&& unitBits 4 (quadrantPower s) := by
  obtain ⟨pwr, boot, lines⟩ := temperaturesRead_keeps (s := s) (temps := temps)
  have power : quadrantPower (temperaturesRead temps s) = quadrantPower s := by
    funext q
    simp only [quadrantPower, pwr]
  refine ⟨pwr, lines, ?_, ?_⟩
  · show (temperaturesRead temps s).boot.stage = _
    rw [boot]
  · simp only [powerFound, power, boot]

/-- With every rail in range every quadrant is good. -/
theorem quadrantPower_of_allRails (all : s.pwr.railsOk % 2 ^ 28 = onesMask 28) : unitBits 4 (quadrantPower s) = 0xF := by
  have good : ∀ i < 28, bit s.pwr.railsOk i = true := fun i small => by
    have bits : (s.pwr.railsOk % 2 ^ 28).testBit i = (2 ^ 28 - 1).testBit i := by rw [all, onesMask]
    rw [Nat.testBit_mod_two_pow, Nat.testBit_two_pow_sub_one, decide_eq_true small, Bool.true_and] at bits
    exact bits
  have power : ∀ q < 4, quadrantPower s q = true := fun q small => by
    simp only [quadrantPower, List.all_cons, List.all_nil, Bool.and_true, Bool.and_eq_true]
    exact ⟨good _ (by omega), good _ (by omega), good _ (by omega), good _ (by omega), good _ (by omega), good _ (by omega)⟩
  simp [unitBits, List.range_succ, power]

/-- What CHECK_POWER does with the good quadrants it has found. -/
def powerJudged (m : Nat) (s : State) : Nat × List Byte × State :=
  let body := le 4 (s.pwr.railsOk % 2 ^ 28) ++ le 1 m ++ zeros 3 ++ (List.range 16).flatMap (fun k => le 1 (tget 0 s.mem.temp k))
  if m = 0 then (stDENIED, body, s)
  else if s.pwr.railsOk % 2 ^ 28 = onesMask 28 then (stOK, body, stageFrom 1 s)
  else if m != 0xF then (stDEGRADED, body, stageFrom 1 s)
  else (if (draw s).1 % 2 = 0 then stOK else stDEGRADED, body, stageFrom 1 (draw s).2)

theorem checkPower_judged {temps : List Nat} :
    checkPower temps s = powerJudged (unitBits 4 (quadrantPower (temperaturesRead temps s))) (powerFound temps s) := rfl

/-- What CHECK_POWER replies: DENIED with no good quadrant, OK with every rail in range, DEGRADED with a bad quadrant, and
else a free choice of the two. -/
theorem checkPower_eq {temps : List Nat} : ∃ d rest,
    checkPower temps s = (if unitBits 4 (quadrantPower s) = 0 then stDENIED
        else if s.pwr.railsOk % 2 ^ 28 = onesMask 28 then stOK
        else if unitBits 4 (quadrantPower s) != 0xF then stDEGRADED else if d % 2 = 0 then stOK else stDEGRADED,
      le 4 (s.pwr.railsOk % 2 ^ 28) ++ le 1 (unitBits 4 (quadrantPower s)) ++ zeros 3 ++ rest,
      if unitBits 4 (quadrantPower s) = 0 then powerFound temps s
        else if s.pwr.railsOk % 2 ^ 28 = onesMask 28 ∨ unitBits 4 (quadrantPower s) ≠ 0xF then stageFrom 1 (powerFound temps s)
        else stageFrom 1 (draw (powerFound temps s)).2) := by
  obtain ⟨pwr, -, -⟩ := temperaturesRead_keeps (s := s) (temps := temps)
  have power : quadrantPower (temperaturesRead temps s) = quadrantPower s := by
    funext q
    simp only [quadrantPower, pwr]
  have rails : (powerFound temps s).pwr = s.pwr := pwr
  refine ⟨(draw (powerFound temps s)).1, (List.range 16).flatMap (fun k => le 1 (tget 0 (powerFound temps s).mem.temp k)), ?_⟩
  rw [checkPower_judged, power, powerJudged, rails]
  generalize s.pwr.railsOk % 2 ^ 28 = good
  by_cases none' : unitBits 4 (quadrantPower s) = 0
  · simp [none']
  · by_cases all : good = onesMask 28
    · simp only [if_neg none', if_pos all, if_pos (Or.inl all)]
    · by_cases bad : unitBits 4 (quadrantPower s) = 0xF
      · simp [all, bad]
      · simp [none', all, bad]

/-- What CHECK_POWER leaves where some quadrant is good. -/
theorem powerFound_stageFrom {temps : List Nat} {t : State} (left : t = stageFrom 1 (powerFound temps s) ∨
      t = stageFrom 1 (draw (powerFound temps s)).2) :
    t.boot.powerOk = (if s.boot.stage ≤ 1 then unitBits 4 (quadrantPower s) else s.boot.powerOk &&& unitBits 4 (quadrantPower s)) ∧
    t.boot.stage = (if s.boot.stage = 1 then 2 else s.boot.stage) ∧ t.mem.lines = s.mem.lines := by
  obtain ⟨-, lines, stage, power⟩ := powerFound_keeps (s := s) (temps := temps)
  have stageKeeps (u : State) : (stageFrom 1 u).boot.powerOk = u.boot.powerOk ∧ (stageFrom 1 u).mem = u.mem := by
    unfold stageFrom
    split <;> exact ⟨rfl, rfl⟩
  obtain rfl | rfl := left
  · rw [stageFrom_stage, (stageKeeps _).1, (stageKeeps _).2, lines, stage, power]
    exact ⟨rfl, rfl, rfl⟩
  · rw [stageFrom_stage, (stageKeeps _).1, (stageKeeps _).2]
    exact ⟨power, by rw [← stage]; rfl, lines⟩

/-- CHECK_POWER, of a taken command. -/
theorem checksPower {c : Cmd} {temps : List Nat} (runs : Runs 0x101 c s) : ∃ d rest,
    RepliesWith 0x101 c (if unitBits 4 (quadrantPower s) = 0 then stDENIED
        else if s.pwr.railsOk % 2 ^ 28 = onesMask 28 then stOK
        else if unitBits 4 (quadrantPower s) != 0xF then stDEGRADED else if d % 2 = 0 then stOK else stDEGRADED)
      (le 4 (s.pwr.railsOk % 2 ^ 28) ++ le 1 (unitBits 4 (quadrantPower s)) ++ zeros 3 ++ rest)
      (checkPower temps (takeNumber c s)).2.2 (exec (.checkPower c temps) s) := by
  obtain ⟨d, rest, does⟩ := checkPower_eq (s := takeNumber c s) (temps := temps)
  have power : quadrantPower (takeNumber c s) = quadrantPower s := rfl
  have rails : (takeNumber c s).pwr = s.pwr := rfl
  refine ⟨d, rest, repliesNow runs ?_⟩
  rw [does, power, rails]

/-! ### The obligation's clauses -/

theorem powerAndClocks : ClaimPowerAndClocks := by
  refine ⟨fun c temps s runs => ⟨fun none' => ?_, fun some' => ?_⟩, fun c s runs => ⟨fun early => ?_, fun late => ?_⟩,
    fun locked q r s first waits stage => ?_⟩
  · obtain ⟨d, rest, replies⟩ := checksPower (temps := temps) runs
    obtain ⟨_, _, does⟩ := checkPower_eq (s := takeNumber c s) (temps := temps)
    rw [if_pos none'] at replies
    refine ⟨_, _, replies, ?_⟩
    rw [does]
    show (if unitBits 4 (quadrantPower s) = 0 then powerFound temps (takeNumber c s) else _).boot.stage = _
    rw [if_pos none', powerFound_keeps.2.2.1]
    rfl
  · obtain ⟨d, rest, replies⟩ := checksPower (temps := temps) runs
    obtain ⟨_, _, does⟩ := checkPower_eq (s := takeNumber c s) (temps := temps)
    rw [if_neg some'] at replies
    refine ⟨_, _, _, replies, ?_, fun all => if_pos all, fun bad => ?_, ?_⟩
    · split_ifs <;> simp
    · rw [if_neg fun all => bad (quadrantPower_of_allRails all)]
      exact if_pos (by simp [bad])
    · refine powerFound_stageFrom (s := takeNumber c s) (temps := temps) ?_
      rw [does]
      show (if unitBits 4 (quadrantPower s) = 0 then powerFound temps (takeNumber c s) else _) = _ ∨
        (if unitBits 4 (quadrantPower s) = 0 then powerFound temps (takeNumber c s) else _) = _
      rw [if_neg some']
      split
      · exact .inl rfl
      · exact .inr rfl
  · exact waitsLater runs (by simp [Nat.not_le.mpr early])
  · exact repliesDone runs (by simp [late])
  · have ends : exec (.clocksLocked locked) s = .next (finish r (if locked &&& q = 0 then stDENIED
        else if locked &&& q = s.boot.powerOk then stOK else stDEGRADED) (le 1 (locked &&& q) ++ zeros 3)
        (if locked &&& q = 0 then s else stageFrom 2 { s with boot.clocksOn := locked &&& q })) := by
      show execClocksLocked locked s = _
      unfold execClocksLocked
      rw [runningFor_of_first first fun w => by cases w <;> simp]
      simp [waits, stage]
    rw [ends]
    refine ⟨fun none' => by simp [none'], fun some' => ⟨stageFrom 2 { s with boot.clocksOn := locked &&& q }, ?_, ?_⟩⟩
    · rw [if_neg some', if_neg some']
    · simp [stageFrom, stage]

/-! ### Training and patterns (R424, R425) -/

theorem strandOf_wakeStrand_ne {st u : Nat} (other : u ≠ st) : strandOf (wakeStrand st s) u = strandOf s u :=
  (strandOf_modStrand_ne _ _ _ _ other).trans (strandOf_modStrand_ne _ _ _ _ other)

theorem power_wakeStrand {st : Nat} : (strandOf (wakeStrand st s) st).power = .training := by
  rw [wakeStrand, strandOf_modStrand_self]

theorem wakeStrand_keeps {st : Nat} : (wakeStrand st s).mem.lines = s.mem.lines ∧
    (wakeStrand st s).mem.patterns = s.mem.patterns := ⟨rfl, rfl⟩

/-- What a strand shows whose training has ended. -/
def TrainingEnded (u : Nat) (ok : Bool) (s : State) : Prop :=
  (strandOf s u).power = (if ok then .selfRefresh else .failed) ∧ (strandOf s u).trained = ok ∧ ∀ e ∈ s.mem.lines, lineStrand e.1 ≠ u

theorem trained_ends {st : Nat} {ok : Bool} : TrainingEnded st ok (trained st ok s) := by
  have lines : (trained st ok s).mem.lines = s.mem.lines.filter (fun e => lineStrand e.1 != st) := rfl
  refine ⟨?_, ?_, fun e there => ?_⟩
  · rw [trained, strandOf_modStrand_self]
  · rw [trained, strandOf_modStrand_self]
  · rw [lines] at there
    simpa using (List.mem_filter.mp there).2

theorem trained_keeps_ended {st u : Nat} {ok ok' : Bool} (other : u ≠ st) (ended : TrainingEnded u ok s) :
    TrainingEnded u ok (trained st ok' s) := by
  obtain ⟨power, trained', lines⟩ := ended
  have same : strandOf (trained st ok' s) u = strandOf s u := strandOf_modStrand_ne _ _ _ _ other
  exact ⟨by rw [same, power], by rw [same, trained'], fun e there => lines e (List.mem_filter.mp there).1⟩

/-- TRAIN_STRANDS leaves each of its strands trained or failed. -/
theorem trainEnds_ends {r : Running} {first count : Nat} {failed : List Nat} :
    (∀ u, first ≤ u → u < first + count → trainable s u = true →
      TrainingEnded u (!failed.contains u) (trainEnds r first count failed s)) ∧
    (trainEnds r first count failed s).boot.stage = (if s.boot.stage = 3 then 4 else s.boot.stage) ∧
    (trainEnds r first count failed s).bind = s.bind := by
  let train := fun (s : State) u => trained u (!failed.contains u) s
  let left := (((List.range count).map (first + ·)).filter (trainable s)).foldl train s
  have ends : ∃ st res, trainEnds r first count failed s = stageFrom 3 (finish r st res left) := ⟨_, _, rfl⟩
  obtain ⟨st, res, ends⟩ := ends
  have keeps : (stageFrom 3 (finish r st res left)).mem = left.mem ∧ (stageFrom 3 (finish r st res left)).bind = left.bind := by
    unfold stageFrom
    split <;> simp
  refine ⟨fun u low high reach => ?_, ?_, ?_⟩
  · have ended : TrainingEnded u (!failed.contains u) left := by
      refine foldl_reaches (fun s => trained_ends) (fun s k _ ended => ?_)
        (List.mem_filter.mpr ⟨List.mem_map.mpr ⟨u - first, List.mem_range.mpr (by omega), by omega⟩, reach⟩)
      by_cases same : u = k
      · exact same ▸ trained_ends
      · exact trained_keeps_ended same ended
    simpa only [TrainingEnded, strandOf, ends, keeps.1] using ended
  · have boot : left.boot = s.boot := foldl_keeps (·.boot) train (fun _ _ => rfl) _ _
    rw [ends, stageFrom_stage, (finish_frame ..).2.2.2.2.2.2.2.2.2.2.2.2.2.1, boot]
  · rw [ends, keeps.2]
    exact foldl_keeps (·.bind) train (fun _ _ => rfl) _ _

/-- With no strand in quick training, STRANDS_TRAINED ends a TRAIN_STRANDS. -/
theorem exec_strandsTrained_waiting {failed : List Nat} {first count steps : Nat} {quick : Bool} {r : Running}
    (waiting : FirstWaiting (fun w => ∃ a b c d, w = .train a b c d) r s) (waits : r.wait = .train first count steps quick)
    (none' : ∀ u < 512, quickTraining s u = false) :
    exec (.strandsTrained failed) s = .next (trainEnds r first count failed s) := by
  have empty : (List.range 512).filter (quickTraining s) = [] :=
    List.filter_eq_nil_iff.mpr fun u there => by simp [none' u (List.mem_range.mp there)]
  show execStrandsTrained failed s = _
  unfold execStrandsTrained
  rw [empty, List.foldl_nil]
  dsimp only
  rw [runningFor_of_first waiting fun w => by cases w <;> simp]
  simp [waits]

/-- With no TRAIN_STRANDS in progress, STRANDS_TRAINED ends the quick training of the strands of rung 2. -/
theorem exec_strandsTrained_quick {failed : List Nat} {t : State}
    (ends : ((List.range 512).filter (quickTraining s)).foldl (fun s u => quickTrained u (!failed.contains u) s) s = t)
    (none' : ∀ r ∈ t.kcp.running, ∀ a b c d, r.wait ≠ .train a b c d) : exec (.strandsTrained failed) s = .next t := by
  show execStrandsTrained failed s = _
  unfold execStrandsTrained
  rw [ends]
  dsimp only
  rw [runningFor_of_none (kind := fun w => ∃ a b c d, w = .train a b c d)
    (fun r there ⟨a, b, c, d, waits⟩ => none' r there a b c d waits) fun w => by cases w <;> simp]

/-- A run reads back what it has written where nothing damages it. -/
theorem rawAt_writePattern {run : PatternRun} {line : Nat} (covered : run.covers line = true) :
    rawAt (writePattern run s) line = some (run.lineAt (run.index line)) := by
  have gone : tget none (writePattern run s).mem.lines line = none := by
    obtain there | none' := tget_mem_or_default none line (writePattern run s).mem.lines
    · have kept := (List.mem_filter.mp there).2
      simp [covered] at kept
    · exact none'
  have found : (writePattern run s).mem.patterns.find? (fun r => r.covers line) = some run :=
    List.find?_cons_of_pos (p := fun r : PatternRun => r.covers line) covered
  rw [rawAt, gone, found]
  rfl

theorem strandsAreTrained : ClaimStrandsAreTrained := by
  refine ⟨fun c s runs => ?_, fun failed first count steps quick r s waiting waits none' => ?_,
    fun failed s good none' => ?_, fun c s runs => ?_,
    fun run action damage other spareDamage spareOther r s waiting waits => ?_, fun run s line covered => ?_⟩
  · intro first count free
    let units := (List.range count).map (first + ·)
    have inRange : ∀ u ∈ units, first ≤ u ∧ u < first + count := fun u there => by
      obtain ⟨i, small, rfl⟩ := List.mem_map.mp there
      have := List.mem_range.mp small
      omega
    have unbound : units.any (strandBound (takeNumber c s)) = false := List.any_eq_false.mpr fun u there =>
      Bool.not_eq_true _ ▸ (free u (inRange u there).1 (inRange u there).2).1
    have unheld : units.any (strandHeld (takeNumber c s)) = false := List.any_eq_false.mpr fun u there =>
      Bool.not_eq_true _ ▸ (free u (inRange u there).1 (inRange u there).2).2
    let wake := fun (s : State) u => wakeStrand u s
    refine ⟨(units.filter (trainable (takeNumber c s))).foldl wake (takeNumber c s), _,
      waitsLater runs ((if_neg (Bool.eq_false_iff.mp unbound)).trans (if_neg (Bool.eq_false_iff.mp unheld))), fun u low high reach => ?_,
      fun u out => ?_, ?_⟩
    · refine foldl_reaches (P := fun t => (strandOf t u).power = .training) (fun s => power_wakeStrand) (fun s k _ set' => ?_)
        (List.mem_filter.mpr ⟨List.mem_map.mpr ⟨u - first, List.mem_range.mpr (by omega), by omega⟩, reach⟩)
      by_cases same : u = k
      · exact same ▸ power_wakeStrand
      · exact (congrArg (·.power) (strandOf_wakeStrand_ne same)).trans set'
    · refine foldl_keeps_prop (P := fun t => strandOf t u = strandOf s u) (fun t k there kept => ?_) rfl
      have place := inRange k (List.mem_filter.mp there).1
      exact (strandOf_wakeStrand_ne (by omega)).trans kept
    · exact foldl_keeps (·.mem.lines) wake (fun _ _ => rfl) _ _
  · obtain ⟨ended, stage, bind⟩ := trainEnds_ends (s := s) (r := r) (first := first) (count := count) (failed := failed)
    refine ⟨_, exec_strandsTrained_waiting waiting waits none', fun u low high reach => ?_, stage, bind⟩
    obtain ⟨power, trained', lines⟩ := ended u low high reach
    refine ⟨?_, trained', lines⟩
    rw [power]
    cases failed.contains u <;> rfl
  · let endQuick := fun (s : State) u => quickTrained u (!failed.contains u) s
    let quick := (List.range 512).filter (quickTraining s)
    have inQuick : ∀ u ∈ quick, (!failed.contains u) = true := fun u there => by
      obtain ⟨small, trains⟩ := List.mem_filter.mp there
      rw [good u (List.mem_range.mp small) trains]
      rfl
    have keeps : (quick.foldl endQuick s).kcp = s.kcp ∧ (quick.foldl endQuick s).mem.lines = s.mem.lines ∧
        (quick.foldl endQuick s).bind = s.bind := by
      refine foldl_keeps_prop (P := fun t => t.kcp = s.kcp ∧ t.mem.lines = s.mem.lines ∧ t.bind = s.bind)
        (fun t k there kept => ?_) ⟨rfl, rfl, rfl⟩
      simp only [endQuick, inQuick k there]
      exact kept
    refine ⟨quick.foldl endQuick s, exec_strandsTrained_quick (t := quick.foldl endQuick s) rfl ?_, fun u small trains => ?_, keeps.2.1, keeps.2.2⟩
    · rw [keeps.1]
      exact none'
    · have there : u ∈ quick := List.mem_filter.mpr ⟨List.mem_range.mpr small, trains⟩
      have active (t : State) : (strandOf (endQuick t u) u).power = .active := by
        simp only [endQuick, inQuick u there]
        exact congrArg (·.power) (strandOf_modStrand_self u _ t)
      refine foldl_reaches (g := endQuick) (l := quick) (P := fun t => (strandOf t u).power = .active) active
        (fun t k place set' => ?_) there
      by_cases same : u = k
      · subst same
        exact active t
      · simp only [endQuick, inQuick k place]
        exact (congrArg (·.power) (strandOf_modStrand_ne k u _ t same)).trans set'
  · intro run action unbound trained serves free
    have bars : (strandBound s run.strand || !(strandOf s run.strand).trained) = false := by rw [unbound, trained]; rfl
    refine ⟨_, waitsLater runs ((if_neg (Bool.eq_false_iff.mp bars)).trans ((if_neg (Bool.eq_false_iff.mp serves)).trans
      (if_neg (Bool.eq_false_iff.mp free)))), power_wakeStrand, fun read => ?_, fun write => ?_⟩
    · rw [wakeStrand_keeps.1, wakeStrand_keeps.2, if_pos read]
      exact ⟨rfl, rfl⟩
    · rw [wakeStrand_keeps.1, wakeStrand_keeps.2, if_neg write]
      exact ⟨rfl, rfl⟩
  · refine ⟨modStrand run.strand (fun x => { x with power := .selfRefresh }) s, ?_, ?_, rfl, rfl, rfl⟩
    · show execStrandPatternComplete damage other spareDamage spareOther s = _
      unfold execStrandPatternComplete
      rw [runningFor_of_first waiting fun w => by cases w <;> simp]
      simp only [waits]
    · rw [strandOf_modStrand_self]
  · simp [patternErrors, rawAt_writePattern covered]

/-! ### The start-up test (R463 to R466) -/

/-- What holding a quadrant whose ports carry nothing leaves: the bring-up, the stored lines, the knots, and the ports' phases. -/
def holdKept (s : State) : BootSt × Tbl (Option StoredLine) × Tbl (Option CoilLine) × Tbl Knot × (Nat → Phase) :=
  (s.boot, s.mem.lines, s.mem.coil, s.belay.knots, fun p => (portOf s p).phase)

theorem holdKept_eq {t : State} (boot : t.boot = s.boot) (mem : t.mem.lines = s.mem.lines ∧ t.mem.coil = s.mem.coil)
    (belay : t.belay = s.belay) (phase : ∀ p, (portOf t p).phase = (portOf s p).phase) : holdKept t = holdKept s := by
  rw [holdKept, holdKept, boot, mem.1, mem.2, belay, funext phase]

theorem modPort_holdKept {p : Nat} {f : Port → Port} (keeps : ∀ x, (f x).phase = x.phase) : holdKept (modPort p f s) = holdKept s :=
  holdKept_eq rfl ⟨rfl, rfl⟩ rfl fun _ => phase_modPort keeps

theorem complete_holdKept (rq : PktHdr) (tenant : Nat) (pair : Option Nat) (status : Nat) :
    holdKept (complete rq tenant pair status s) = holdKept s := by
  unfold complete respond
  cases routeOf s rq.src with
  | none => cases pair <;> rfl
  | some p =>
    by_cases up : portUp s p = true
    · simp only [up]
      exact holdKept_eq (by simp) (by simp) (by simp) fun _ => phase_enqueue
    · simp only [up]
      cases pair <;> rfl

theorem discardPackets_holdKept (l : List Arrived) : holdKept (discardPackets l s).2 = holdKept s :=
  foldl_keeps holdKept _ (fun _ _ => complete_holdKept ..) _ _

/-- A port that is down loses no link and is in no training. -/
def PortDown (x : Phase) : Prop := x = .off ∨ x = .lost

theorem portWithPartition_holdKept {p : Nat} (down : PortDown (portOf s p).phase) :
    holdKept (portWithPartition p s).2 = holdKept s := by
  have notUp : portUp s p = false := by
    have phase : (tget {} s.link.ports p).phase = .off ∨ (tget {} s.link.ports p).phase = .lost := down
    unfold portUp
    obtain h | h := phase <;> rw [h]
  have idle : loseLink p false s = ((0, 0), s) := if_pos (by simp [notUp])
  have rest : portState (portOf s p) ≠ 1 := by
    unfold portState
    obtain h | h := down <;> simp [h]
  unfold portWithPartition
  simp only [idle, if_neg rest]
  exact (discardPackets_holdKept (s := modPort p (fun x => { x with rx := {} }) s) _).trans (modPort_holdKept fun _ => rfl)

/-- The fields of a scope and what waits for them are gone. -/
def fieldsCleared (scope target : Nat) (s : State) : State :=
  { s with fields := s.fields.filter (fun e => !ownsOffset scope target (e.1 / 32)),
           waiting := s.waiting.filter (fun w => !ownsOffset scope target w.offset) }

/-- The keys of a port are gone. -/
def keyless (target : Nat) (s : State) (i : Nat) : State :=
  modPort (24 * target + i) (fun x => { x with keyTx := 0, keyRx := 0, partnerClass := 0 }) s

def keysCleared (target : Nat) (s : State) : State := (List.range 24).foldl (keyless target) s

theorem keysCleared_holdKept {target : Nat} : holdKept (keysCleared target s) = holdKept s :=
  foldl_keeps holdKept (keyless target) (fun _ _ => modPort_holdKept fun _ => rfl) (List.range 24) s

/-- A scope's registers at their reset values: beside them, a partition's lanes, temperatures, error logs and idempotency
records change, and nothing else. -/
theorem resetRegisters_eq {scope target : Nat} {u : State} (is : u = keysCleared target (fieldsCleared scope target s)) :
    ∃ lanes temp ceLog ceNext idem, resetRegisters scope target s = if scope != 2 then fieldsCleared scope target s else
      { u with link.lanes := lanes, mem.temp := temp, mem.ceLog := ceLog, mem.ceNext := ceNext, coh.idem := idem } := by
  rw [is]
  exact ⟨_, _, _, _, _, rfl⟩

theorem resetRegisters_holdKept {scope target : Nat} : holdKept (resetRegisters scope target s) = holdKept s := by
  have fields : holdKept (fieldsCleared scope target s) = holdKept s := rfl
  obtain ⟨u, is⟩ : ∃ u, u = keysCleared target (fieldsCleared scope target s) := ⟨_, rfl⟩
  have kept : holdKept u = holdKept s := is ▸ keysCleared_holdKept.trans fields
  obtain ⟨lanes, temp, ceLog, ceNext, idem, resets⟩ := resetRegisters_eq is
  rw [resets]
  split
  · exact fields
  · exact (holdKept_eq rfl ⟨rfl, rfl⟩ rfl fun _ => rfl).trans kept

/-- Listed quadrants are held, with every port down. -/
theorem holdQuadrants_holdKept (down : ∀ p < 96, PortDown (portOf s p).phase) : holdKept (holdQuadrants s) = holdKept s := by
  have downIn {t : State} (same : holdKept t = holdKept s) {p : Nat} (small : p < 96) : PortDown (portOf t p).phase := by
    have phase : (portOf t p).phase = (portOf s p).phase := congrArg (fun k => k.2.2.2.2 p) same
    exact phase ▸ down p small
  refine foldl_keeps_prop (P := fun t => holdKept t = holdKept s) (fun t q listed same => ?_) rfl
  have small : q < 4 := List.mem_range.mp (List.mem_filter.mp listed).1
  refine resetRegisters_holdKept.trans (foldl_keeps_prop (P := fun t => holdKept t = holdKept s) (fun t i place same => ?_) same)
  have := List.mem_range.mp place
  exact (portWithPartition_holdKept (downIn same (by omega))).trans same

theorem judgePair_keeps : (judgePair s).boot = s.boot ∧ (judgePair s).mem = s.mem ∧ (judgePair s).belay = s.belay := by
  let leave := fun (s : State) c => leaveService c s
  have left : ∀ l : List Nat, (l.foldl leave s).boot = s.boot ∧ (l.foldl leave s).mem = s.mem ∧ (l.foldl leave s).belay = s.belay := fun l =>
    ⟨foldl_keeps (·.boot) leave (fun _ _ => rfl) _ _, foldl_keeps (·.mem) leave (fun _ _ => rfl) _ _,
      foldl_keeps (·.belay) leave (fun _ _ => rfl) _ _⟩
  have lost (t : State) : (controlLost t).boot = t.boot ∧ (controlLost t).mem = t.mem ∧ (controlLost t).belay = t.belay := by
    simp [controlLost]
  unfold judgePair
  dsimp only
  split_ifs
  · obtain ⟨boot, mem, belay⟩ := lost { ((List.range 8).filter (defective s 4)).foldl leave s with pair.standby := .none }
    exact ⟨boot.trans (left _).1, mem.trans (left _).2.1, belay.trans (left _).2.2⟩
  all_goals exact left _

theorem numbered_keeps : (numberStrands (numberCores s)).boot.startCount = s.boot.startCount ∧
    (numberStrands (numberCores s)).boot.stage = s.boot.stage ∧ (numberStrands (numberCores s)).boot.defects = s.boot.defects ∧
    (numberStrands (numberCores s)).mem.lines = s.mem.lines ∧ (numberStrands (numberCores s)).mem.coil = s.mem.coil ∧
    (numberStrands (numberCores s)).belay = s.belay := by
  simp only [numberStrands, numberCores, and_self]

/-- What the start-up test keeps and leaves behind. -/
theorem startupTest_leaves {added full : List Defect} {t : State} (down : ∀ p < 96, PortDown (portOf s p).phase)
    (is : t = judgePair (numberStrands (numberCores (holdQuadrants (afterMarch (writeDefects added full s)))))) :
    t.boot.startCount = s.boot.startCount + 1 ∧ t.boot.stage = s.boot.stage ∧ t.boot.defects = s.boot.defects ++ added ∧
      t.mem.lines = [] ∧ t.mem.coil = [] ∧ t.belay.knots = [] := by
  have held := holdQuadrants_holdKept (s := afterMarch (writeDefects added full s)) down
  simp only [holdKept, Prod.mk.injEq] at held
  obtain ⟨boot, lines, coil, knots, -⟩ := held
  obtain ⟨boot', mem, belay⟩ := judgePair_keeps (s := numberStrands (numberCores (holdQuadrants (afterMarch (writeDefects added full s)))))
  obtain ⟨count, stage, defects, lines', coil', belay'⟩ := numbered_keeps (s := holdQuadrants (afterMarch (writeDefects added full s)))
  rw [is, boot', mem, belay, count, stage, defects, lines', coil', belay', boot, lines, coil, knots]
  exact ⟨rfl, rfl, rfl, rfl, rfl, rfl⟩

/-- Two defects of one unit. -/
def SameUnit (d e : Defect) : Prop := d.kind = e.kind ∧ d.physical = e.physical

theorem freshDefects_cons_known {known l : List Defect} {d : Defect} (there : ∃ k ∈ known, SameUnit k d) :
    freshDefects known (d :: l) = freshDefects known l := by
  obtain ⟨k, place, kind, physical⟩ := there
  rw [freshDefects, if_pos (List.any_eq_true.mpr ⟨k, place, by simp [kind, physical]⟩)]

theorem freshDefects_cons_new {known l : List Defect} {d : Defect} (new : ¬∃ k ∈ known, SameUnit k d) :
    freshDefects known (d :: l) = d :: freshDefects (d :: known) l := by
  rw [freshDefects, if_neg fun found => new ?_]
  obtain ⟨k, place, same⟩ := List.any_eq_true.mp found
  exact ⟨k, place, by simpa [SameUnit] using same⟩

theorem freshDefects_new : ∀ {l known : List Defect}, ∀ d ∈ freshDefects known l, d ∈ l ∧ ∀ k ∈ known, ¬SameUnit k d
  | [], _, _, there => nomatch there
  | e :: l, known, d, there => by
    by_cases listed : ∃ k ∈ known, SameUnit k e
    · rw [freshDefects_cons_known listed] at there
      obtain ⟨place, new⟩ := freshDefects_new d there
      exact ⟨List.mem_cons_of_mem _ place, new⟩
    · rw [freshDefects_cons_new listed] at there
      obtain rfl | there := List.mem_cons.mp there
      · exact ⟨List.mem_cons_self .., fun k place same => listed ⟨k, place, same⟩⟩
      · obtain ⟨place, new⟩ := freshDefects_new d there
        exact ⟨List.mem_cons_of_mem _ place, fun k place => new k (List.mem_cons_of_mem _ place)⟩

theorem freshDefects_nodup : ∀ {l known : List Defect}, ((freshDefects known l).map (fun d => (d.kind, d.physical))).Nodup
  | [], _ => List.nodup_nil
  | e :: l, known => by
    by_cases listed : ∃ k ∈ known, SameUnit k e
    · rw [freshDefects_cons_known listed]
      exact freshDefects_nodup
    · rw [freshDefects_cons_new listed, List.map_cons, List.nodup_cons]
      refine ⟨fun twice => ?_, freshDefects_nodup⟩
      obtain ⟨d, there, same⟩ := List.mem_map.mp twice
      have new := (freshDefects_new d there).2 e (List.mem_cons_self ..)
      exact new ⟨(congrArg Prod.fst same).symm, (congrArg Prod.snd same).symm⟩

theorem freshDefects_covers : ∀ {l known : List Defect}, ∀ d ∈ l, ∃ k ∈ known ++ freshDefects known l, SameUnit k d
  | [], _, _, there => nomatch there
  | e :: l, known, d, there => by
    by_cases listed : ∃ k ∈ known, SameUnit k e
    · rw [freshDefects_cons_known listed]
      obtain rfl | there := List.mem_cons.mp there
      · obtain ⟨k, place, same⟩ := listed
        exact ⟨k, List.mem_append_left _ place, same⟩
      · exact freshDefects_covers d there
    · rw [freshDefects_cons_new listed]
      obtain rfl | there := List.mem_cons.mp there
      · exact ⟨d, by simp, rfl, rfl⟩
      · obtain ⟨k, place, same⟩ := freshDefects_covers (known := e :: known) d there
        exact ⟨k, by simpa [or_left_comm] using place, same⟩

theorem startupTestRuns : ClaimStartupTestRuns := by
  refine ⟨fun c s runs => ⟨fun bound => ?_, fun unbound free => ?_⟩, fun found r s waiting down => ?_,
    fun known l => ⟨freshDefects_new, freshDefects_nodup, freshDefects_covers⟩⟩
  · exact repliesDone runs (if_pos bound)
  · have idle : s.kcp.running.any (fun r => r.wait == .startup) = false :=
      List.any_eq_false.mpr fun r there waits => free r there (beq_iff_eq.mp waits)
    exact waitsLater runs ((if_neg (Bool.eq_false_iff.mp unbound)).trans (if_neg (Bool.eq_false_iff.mp idle)))
  · let fresh := freshDefects s.boot.defects (candidates found s)
    let room := 1024 - s.boot.defects.length
    obtain ⟨t, is⟩ : ∃ t, t = judgePair (numberStrands (numberCores (holdQuadrants (afterMarch
      (writeDefects (fresh.take room) (fresh.drop room) s))))) := ⟨_, rfl⟩
    obtain ⟨count, stage, defects, lines, coil, knots⟩ := startupTest_leaves down is
    obtain ⟨st, res, ends⟩ : ∃ st res, exec (.startupTestComplete found) s = .next (stageFrom 4 (finish r st res t)) := by
      show ∃ st res, execStartupTestComplete found s = _
      unfold execStartupTestComplete
      rw [runningFor_of_first waiting fun w => beq_iff_eq]
      dsimp only
      rw [← is]
      exact ⟨_, _, rfl⟩
    obtain ⟨same, boot⟩ := stageFrom_keeps (s := finish r st res t) 4
    have stage' : (stageFrom 4 (finish r st res t)).boot.stage = if s.boot.stage = 4 then 5 else s.boot.stage := by
      rw [stageFrom_stage]
      simp [stage]
    have mem : (stageFrom 4 (finish r st res t)).mem = t.mem := (congrArg (·.mem) same).trans (by simp)
    have belay : (stageFrom 4 (finish r st res t)).belay = t.belay := (congrArg (·.belay) same).trans (by simp)
    refine ⟨_, ends, ?_, mem ▸ lines, mem ▸ coil, belay ▸ knots, stage', ?_⟩
    · rw [boot]
      simpa using count
    · rw [boot]
      simpa using defects

end

/-- Settles O58: power and clocks by what CHECK_POWER finds, training by what each strand's end leaves, and the start-up test by
what the held quadrants leave. -/
theorem bringUpGoesThroughItsStages : Obligations.BringUpGoesThroughItsStages :=
  ⟨powerAndClocks, strandsAreTrained, startupTestRuns⟩

end Sys2Proof.Machine

/-! PROOFS. Resets of a scope and faults of a unit's logic (sections 15 and 16). -/
namespace Sys2Proof.Machine

section
variable {s : State} {c : Cmd} {scope target : Nat}

/-! ### What a reset of a scope leaves (R477 to R480) -/

/-- The status register follows the most recent reset alone (R480). -/
theorem resetPhase_boot (phase : Nat) : (resetPhase scope target phase s).boot = { s.boot with
    lastPhase := if s.boot.lastScope = scope ∧ s.boot.lastTarget = target then phase else s.boot.lastPhase } := by
  by_cases last : s.boot.lastScope = scope ∧ s.boot.lastTarget = target
  · simp [resetPhase, last]
  · rw [resetPhase, if_neg (by simpa using last), if_neg last]

theorem keysCleared_time : (keysCleared target s).time = s.time :=
  foldl_keeps (·.time) (keyless target) (fun _ _ => rfl) (List.range 24) s

theorem resetRegisters_keeps : (resetRegisters scope target s).boot = s.boot ∧ (resetRegisters scope target s).time = s.time := by
  refine ⟨congrArg Prod.fst resetRegisters_holdKept, ?_⟩
  obtain ⟨u, is⟩ : ∃ u, u = keysCleared target (fieldsCleared scope target s) := ⟨_, rfl⟩
  have time : u.time = s.time := is ▸ keysCleared_time (s := fieldsCleared scope target s)
  obtain ⟨lanes, temp, ceLog, ceNext, idem, resets⟩ := resetRegisters_eq is
  rw [resets]
  split
  · rfl
  · exact time

theorem coilEvict_keeps {line : Nat} : (coilEvict line s).boot = s.boot ∧ (coilEvict line s).time = s.time := by
  unfold coilEvict
  cases coilOf s line with
  | none => exact ⟨rfl, rfl⟩
  | some x =>
    dsimp only
    split
    · unfold writeStrand
      dsimp only
      split <;> exact ⟨rfl, rfl⟩
    · exact ⟨rfl, rfl⟩

/-- A strand slice is put in self-refresh. -/
def sliceHeld (s : State) (st : Nat) : State :=
  if (strandOf s st).power = .active then modStrand st (fun x => { x with power := .selfRefresh }) s else s

theorem sliceHeld_keeps {st : Nat} : (sliceHeld s st).boot = s.boot ∧ (sliceHeld s st).time = s.time := by
  unfold sliceHeld
  split <;> exact ⟨rfl, rfl⟩

/-- Holding a scope's blocks leaves the bring-up and the time. -/
theorem holdScope_keeps : (holdScope scope target s).boot = s.boot ∧ (holdScope scope target s).time = s.time := by
  let evict := fun (s : State) (e : Nat × Option CoilLine) => coilEvict e.1 s
  let r := resetRegisters scope target s
  let evicted := if scope = 2 then (r.mem.coil.filter (fun e => lineQuadrant e.1 = target)).foldl evict r else r
  let held := ((stacksOf scope target).flatMap (fun k => (List.range 32).map (32 * k + ·))).foldl sliceHeld evicted
  have evicts : evicted.boot = s.boot ∧ evicted.time = s.time := by
    obtain ⟨boot, time⟩ := resetRegisters_keeps (s := s) (scope := scope) (target := target)
    dsimp only [evicted]
    split
    · exact ⟨(foldl_keeps (·.boot) evict (fun _ _ => coilEvict_keeps.1) _ _).trans boot,
        (foldl_keeps (·.time) evict (fun _ _ => coilEvict_keeps.2) _ _).trans time⟩
    · exact ⟨boot, time⟩
  have holds : held.boot = s.boot ∧ held.time = s.time :=
    ⟨(foldl_keeps (·.boot) sliceHeld (fun _ _ => sliceHeld_keeps.1) _ _).trans evicts.1,
      (foldl_keeps (·.time) sliceHeld (fun _ _ => sliceHeld_keeps.2) _ _).trans evicts.2⟩
  obtain ⟨u, is⟩ : ∃ u, u = held := ⟨_, rfl⟩
  have ends : holdScope scope target s =
      if scope = 2 then { u with xlat.cache := u.xlat.cache.filter (fun x => x.quadrant != target || x.pinned) } else u := by
    rw [is]
    rfl
  rw [ends]
  rw [← is] at holds
  split
  · exact holds
  · exact holds

/-! ### RESET_SCOPE and RESET_SETTLED (R477 to R480) -/

/-- The target of a RESET_SCOPE, clamped by its scope. -/
def resetTarget (scope t : Nat) : Nat :=
  match scope with
  | 0 => min 2047 t
  | 1 => min 15 t
  | 2 => min 3 t
  | _ => t

theorem resetTarget_of_lt {t : Nat} (small : scope < 3) :
    resetTarget scope t = min (if scope = 0 then 2047 else if scope = 1 then 15 else 3) t := by
  match scope, small with
  | 0, _ => rfl
  | 1, _ => rfl
  | 2, _ => rfl

theorem exec_resetScope : ∃ echo, exec (.resetScope c) s = .next (kcpTake 0x108 c echo
    (resetScope (pbits c.params 0 0 2) (resetTarget (pbits c.params 0 0 2) (pnum c.params 2 2))) s) := ⟨_, rfl⟩

theorem resetScope_starts (small : scope < 3) (serves : ¬(scope = 0 ∧ (tget {} s.eng.cores target).map = .lost))
    (bars : resetBars s scope target = false) (held : ∀ r ∈ s.boot.resets, r.scope = scope → r.target = target → r.phase = 1) :
    resetScope scope target s = (.later (.reset scope target 0), startReset scope target false s) := by
  have none' : s.boot.resets.find? (fun r => r.scope == scope && r.target == target && r.phase != 1) = none :=
    List.find?_eq_none.mpr fun r there => by
      have phase := held r there
      simpa using phase
  rw [resetScope, if_neg (by omega), if_neg (by simpa using serves), if_neg (Bool.eq_false_iff.mp bars), none']

/-- The commands that wait for a reset of a scope, or for one inside it. -/
def waitsForReset (scope target : Nat) (x : Running) : Bool :=
  match x.wait with
  | .reset sc tg _ => scopeContains scope target sc tg
  | _ => false

theorem scopeContains_self : scopeContains scope target scope target = true := by
  match scope with
  | 0 => simp [scopeContains]
  | 1 => simp [scopeContains]
  | n + 2 => simp [scopeContains, scopeQuadrant]

/-- A settled scope is held: RESET_SCOPE is answered and the restoration begins (R478 to R480). -/
def scopeHeld (scope target absorbed : Nat) (s : State) : State :=
  let v := resetPhase scope target 2 (holdScope scope target s)
  let x := (v.kcp.running.filter (waitsForReset scope target)).foldl
    (fun s x => finish x stOK (le 4 absorbed ++ le 8 (fmt v)) s) v
  resetPhase scope target 3 { x with boot.resets := x.boot.resets.map (fun r =>
    if r.scope = scope && r.target = target then { r with phase := 3, settledAt := fmt v } else r) }

theorem exec_resetSettled {r : Reset} {u : State} (other : scope ≠ 2 → u = s)
    (partition' : scope = 2 → u = settleHome (recallQuadrant target s))
    (found : s.boot.resets.find? (fun r => r.scope == scope && r.target == target && r.phase == 1) = some r)
    (runs : stopped s = false) (runs' : stopped u = false) (early : lmc s < r.started + 2048) :
    exec (.resetSettled scope target) s =
      .next (if scopeQuiet u scope target = false then u else scopeHeld scope target r.absorbed u) := by
  have recalled : (if scope = 2 && !stopped s then settleHome (recallQuadrant target s) else s) = u := by
    by_cases two : scope = 2
    · rw [if_pos (by simp [two, runs]), partition' two]
    · rw [if_neg (by simp [two]), other two]
  show execResetSettled scope target s = _
  unfold execResetSettled
  rw [found]
  dsimp only
  rw [if_neg (c := (stopped s || decide (r.started + 2048 ≤ lmc s)) = true) (by simp [runs, early]), recalled]
  cases quiet : scopeQuiet u scope target with
  | false => exact if_pos (by simp [runs'])
  | true => exact if_neg (by simp [runs'])

theorem scopeHeld_leaves {absorbed : Nat} :
    (scopeHeld scope target absorbed s).boot.lastPhase =
        (if s.boot.lastScope = scope ∧ s.boot.lastTarget = target then 3 else s.boot.lastPhase) ∧
      (scopeHeld scope target absorbed s).boot.lastScope = s.boot.lastScope ∧
      (scopeHeld scope target absorbed s).boot.lastTarget = s.boot.lastTarget ∧
      (scopeHeld scope target absorbed s).boot.resets = s.boot.resets.map (fun r =>
        if r.scope = scope && r.target = target then { r with phase := 3, settledAt := fmt s } else r) ∧
      ∀ x ∈ (scopeHeld scope target absorbed s).kcp.running, ∀ n, x.wait ≠ .reset scope target n := by
  let v := resetPhase scope target 2 (holdScope scope target s)
  let answered := (v.kcp.running.filter (waitsForReset scope target)).foldl
    (fun s x => finish x stOK (le 4 absorbed ++ le 8 (fmt v)) s) v
  obtain ⟨boot, time⟩ := holdScope_keeps (s := s) (scope := scope) (target := target)
  have bootV : v.boot = { s.boot with
      lastPhase := if s.boot.lastScope = scope ∧ s.boot.lastTarget = target then 2 else s.boot.lastPhase } := by
    rw [← boot]
    exact resetPhase_boot 2
  have fmtV : fmt v = fmt s := by simp only [fmt, v, resetPhase_frame, time]
  have bootA : answered.boot = v.boot := foldl_keeps (·.boot) _ (fun _ _ => by simp) _ _
  have held : scopeHeld scope target absorbed s = resetPhase scope target 3 { answered with
    boot.resets := answered.boot.resets.map (fun r =>
      if r.scope = scope && r.target = target then { r with phase := 3, settledAt := fmt v } else r) } := rfl
  refine ⟨?_, ?_, ?_, ?_, fun x there n waits => ?_⟩
  · rw [held, resetPhase_boot]
    simp only [bootA, bootV]
    split_ifs <;> rfl
  · rw [held, resetPhase_boot]
    simp only [bootA, bootV]
  · rw [held, resetPhase_boot]
    simp only [bootA, bootV]
  · rw [held, resetPhase_boot]
    simp only [bootA, bootV, fmtV]
  · have running : x ∈ answered.kcp.running := by
      rw [held] at there
      simpa only [resetPhase_frame] using there
    obtain ⟨before, notAnswered⟩ := of_mem_running_foldl_finish running
    exact notAnswered (List.mem_filter.mpr ⟨before, by simp only [waitsForReset, waits, scopeContains_self]⟩)

/-- A device-scope reset is due 16 marks after its reply; what SETTLED_AT then holds is free. -/
theorem resetScope_device (idle : s.boot.deviceResetAt = none) : resetScope 3 target s =
    (.done stOK (le 4 0 ++ le 8 (draw s).1), deviceResetDue (lmc s + 16) (draw s).2) := by
  have notDue : (draw s).2.boot.deviceResetAt.isSome = false := by rw [show (draw s).2.boot = s.boot from rfl, idle]; rfl
  refine (if_pos rfl).trans (congrArg (Prod.mk _) ?_)
  exact if_neg (Bool.eq_false_iff.mp notDue)

/-! ### RESET_RESTORED (R473, R478, R480) -/

/-- A core that passed its test returns. -/
def coreBack (s : State) (core : Nat) : State :=
  modCore core (fun y => { y with flags := 0, inReset := false, switchWait := false, turn := 0 }) s

theorem restoreCore_passed {core : Nat} : restoreCore core false s = coreBack s core := rfl

theorem coreBack_self {core : Nat} : (tget {} (coreBack s core).eng.cores core).flags = 0 ∧
    (tget {} (coreBack s core).eng.cores core).inReset = false := by
  rw [coreBack, modCore, tget_tmod_self]
  exact ⟨rfl, rfl⟩

theorem coreBack_ne {core k : Nat} (other : k ≠ core) : tget {} (coreBack s core).eng.cores k = tget {} s.eng.cores k := by
  rw [coreBack, modCore, tget_tmod_ne _ _ _ _ _ other]

/-- A strand slice that passed its test leaves self-refresh where it serves. -/
def sliceBack (s : State) (st : Nat) : State := restoreStrand st false s

/-- Units that have left service. -/
def lostUnits (s : State) : Nat := s.boot.coresLost + s.mem.strands.countP (fun e => e.2.lostUnit)

/-- Putting a value at a key changes how many entries pass a test only by what the key's entry and the value say. -/
theorem countP_tput {α : Type} {d v : α} {p : α → Bool} {i : Nat} (new : p v = false) : ∀ {t : Tbl α}, p (tget d t i) = false →
    (tput i v t).countP (fun e => p e.2) = t.countP (fun e => p e.2)
  | [], _ => by simp [tput, new]
  | (k, w) :: t, old => by
    unfold tput
    split
    · simp [new]
    · split
      · next same =>
        rw [tget, if_pos same] at old
        simp [new, old]
      · next other =>
        rw [tget, if_neg other] at old
        simp only [List.countP_cons, countP_tput new old]

theorem lostUnits_sliceBack {st : Nat} : lostUnits (sliceBack s st) = lostUnits s := by
  unfold sliceBack restoreStrand
  dsimp only
  by_cases lost : (strandOf s st).lostUnit = true
  · rw [if_pos lost]
  · rw [if_neg lost, if_neg Bool.false_ne_true]
    split
    · have put : (modStrand st (fun x => { x with power := .active }) s).mem.strands =
          tput st { strandOf s st with power := .active } s.mem.strands :=
        if_neg fun same => by simpa using congrArg Strand.power same
      rw [lostUnits, put, countP_tput (p := Strand.lostUnit) (d := {}) (by simpa using lost) (by simpa [strandOf] using lost)]
      rfl
    · rfl

theorem sliceBack_keeps {st : Nat} : (sliceBack s st).eng = s.eng ∧ (sliceBack s st).boot = s.boot ∧
    (sliceBack s st).mem.lines = s.mem.lines ∧ (sliceBack s st).err = s.err := by
  unfold sliceBack restoreStrand
  dsimp only
  rw [if_neg Bool.false_ne_true]
  split_ifs <;> exact ⟨rfl, rfl, rfl, rfl⟩

/-- A scope below a partition whose units pass their tests is restored. -/
def scopeRestored (scope target : Nat) (s : State) : State :=
  fieldsCleared scope target (((stacksOf scope target).flatMap (fun k => (List.range 32).map (32 * k + ·))).foldl sliceBack
    ((coresOf scope target).foldl coreBack
      { s with boot.resets := s.boot.resets.filter (fun r => !(r.scope == scope && r.target == target)) }))

theorem scopeRestored_keeps : lostUnits (scopeRestored scope target s) = lostUnits s ∧
    (scopeRestored scope target s).boot =
      { s.boot with resets := s.boot.resets.filter (fun r => !(r.scope == scope && r.target == target)) } ∧
    (scopeRestored scope target s).mem.lines = s.mem.lines ∧
    (∀ k ∈ coresOf scope target, (tget {} (scopeRestored scope target s).eng.cores k).flags = 0 ∧
      (tget {} (scopeRestored scope target s).eng.cores k).inReset = false) ∧
    ∀ k, k ∉ coresOf scope target → tget {} (scopeRestored scope target s).eng.cores k = tget {} s.eng.cores k := by
  obtain ⟨begun, is⟩ : ∃ b : State, b =
    { s with boot.resets := s.boot.resets.filter (fun r => !(r.scope == scope && r.target == target)) } := ⟨_, rfl⟩
  obtain ⟨cores, isC⟩ : ∃ t, t = (coresOf scope target).foldl coreBack begun := ⟨_, rfl⟩
  obtain ⟨l, isL⟩ : ∃ l, l = (stacksOf scope target).flatMap (fun k => (List.range 32).map (32 * k + ·)) := ⟨_, rfl⟩
  have restored : scopeRestored scope target s = fieldsCleared scope target (l.foldl sliceBack cores) := by
    rw [isC, is, isL, scopeRestored]
  have boot : cores.boot = begun.boot := isC ▸ foldl_keeps (·.boot) coreBack (fun _ _ => rfl) _ _
  have mem : cores.mem = begun.mem := isC ▸ foldl_keeps (·.mem) coreBack (fun _ _ => rfl) _ _
  have eng : (l.foldl sliceBack cores).eng = cores.eng := foldl_keeps (·.eng) sliceBack (fun _ _ => sliceBack_keeps.1) _ _
  have begunEng : begun.eng = s.eng := by rw [is]
  have lost : lostUnits (l.foldl sliceBack cores) = lostUnits cores := foldl_keeps lostUnits sliceBack (fun _ _ => lostUnits_sliceBack) _ _
  have bootL : (l.foldl sliceBack cores).boot = cores.boot := foldl_keeps (·.boot) sliceBack (fun _ _ => sliceBack_keeps.2.1) _ _
  have lines : (l.foldl sliceBack cores).mem.lines = cores.mem.lines :=
    foldl_keeps (·.mem.lines) sliceBack (fun _ _ => sliceBack_keeps.2.2.1) _ _
  have engR : (fieldsCleared scope target (l.foldl sliceBack cores)).eng = cores.eng := eng
  rw [restored]
  refine ⟨?_, ?_, ?_, fun k there => ?_, fun k out => ?_⟩
  · refine (lost : lostUnits (fieldsCleared scope target _) = _).trans ?_
    rw [lostUnits, boot, mem, is]
    rfl
  · exact bootL.trans (boot.trans (by rw [is]))
  · exact lines.trans ((congrArg (·.lines) mem).trans (by rw [is]))
  · rw [engR, isC]
    refine foldl_reaches (P := fun t => (tget {} t.eng.cores k).flags = 0 ∧ (tget {} t.eng.cores k).inReset = false)
      (fun t => coreBack_self) (fun t j _ back => ?_) there
    by_cases same : k = j
    · subst same
      exact coreBack_self
    · rw [coreBack_ne same]
      exact back
  · rw [engR, isC, ← begunEng]
    refine foldl_keeps_prop (P := fun t => tget {} t.eng.cores k = tget {} begun.eng.cores k) (fun t j there kept => ?_) rfl
    rw [coreBack_ne (by rintro rfl; exact out there)]
    exact kept

theorem exec_resetRestored {r : Reset} (small : scope < 2)
    (found : s.boot.resets.find? (fun r => r.scope == scope && r.target == target && r.phase == 3) = some r) :
    ∃ h, exec (.resetRestored scope target []) s = .next (resetPhase scope target
      (if lostUnits (scopeRestored scope target s) = lostUnits s then 4 else 5)
      { scopeRestored scope target s with err.handled := h }) := by
  have below : scope ≠ 2 := by omega
  have noLanes : lanesOf scope target = [] := if_neg below
  have registers (u : State) : resetRegisters scope target u = fieldsCleared scope target u := if_pos (by simp [below])
  show ∃ h, execResetRestored scope target [] s = _
  unfold execResetRestored
  rw [found]
  dsimp only
  rw [if_neg (by simp [below]), noLanes, List.filter_nil, List.foldl_nil, if_neg below, registers]
  exact ⟨_, rfl⟩

theorem resetRestored_leaves {r : Reset} (small : scope < 2)
    (found : s.boot.resets.find? (fun r => r.scope == scope && r.target == target && r.phase == 3) = some r) :
    ∃ t, exec (.resetRestored scope target []) s = .next t ∧ t.boot.lastPhase =
        (if s.boot.lastScope = scope ∧ s.boot.lastTarget = target then 4 else s.boot.lastPhase) ∧
      t.boot.resets = s.boot.resets.filter (fun r => !(r.scope == scope && r.target == target)) ∧
      t.eng = (scopeRestored scope target s).eng ∧ t.mem.lines = s.mem.lines := by
  obtain ⟨h, ends⟩ := exec_resetRestored small found
  obtain ⟨lost, boot, lines, -, -⟩ := scopeRestored_keeps (s := s) (scope := scope) (target := target)
  refine ⟨_, ends, ?_, ?_, ?_, ?_⟩
  · rw [resetPhase_boot, if_pos lost]
    simp only [boot]
  · rw [resetPhase_boot]
    simp only [boot]
  · simp only [resetPhase_frame]
  · simp only [resetPhase_frame, lines]

theorem exec_resetRestored_unpowered {failed : List Nat} {r : Reset}
    (found : s.boot.resets.find? (fun r => r.scope == 2 && r.target == target && r.phase == 3) = some r)
    (dark : quadrantPower s target = false) : exec (.resetRestored 2 target failed) s = .next (resetPhase 2 target 2
      { s with boot.resets := s.boot.resets.map (fun r => if r.scope = 2 && r.target = target then { r with phase := 2 } else r) }) := by
  show execResetRestored 2 target failed s = _
  unfold execResetRestored
  rw [found]
  exact if_pos (by simp [dark])

/-! ### REHOME_COMPLETE (R474) -/

variable {core e : Nat}

/-- A core that takes its spare. -/
def rehomedCore (e : Nat) (s : State) (y : Core) : Core :=
  { y with map := if s.boot.committed.isSome then .inService else .heldInBoot, rehomed := true, physical := e, spare := none, flags := 0 }

theorem exec_rehomeComplete (rehoming : (tget {} s.eng.cores core).map = .rehoming)
    (spare : (tget {} s.eng.cores core).spare = some e) (passed : Bool) : exec (.rehomeComplete core passed) s = .next (if passed then
      restartPart core (modCore core (rehomedCore e s) s) else trySpare core (recordFailure 0 4 (core / 128 * 136 + e) s)) := by
  show execRehomeComplete core passed s = _
  unfold execRehomeComplete
  dsimp only
  rw [rehoming, spare]
  cases passed <;> rfl

theorem restartPart_keeps : (restartPart core s).eng = s.eng ∧ (restartPart core s).mem = s.mem := by
  unfold restartPart
  split
  · split
    · exact ⟨rfl, rfl⟩
    · exact ⟨rfl, rfl⟩
  · exact ⟨rfl, rfl⟩

/-- A core that moves to a spare. -/
def movedCore (k : Nat) (y : Core) : Core := { y with map := .rehoming, spare := some k, switchWait := false, inReset := false }

theorem trySpare_of_free {k : Nat} (free : freeSpare s (core / 128) = some k) : trySpare core s =
    modCore core (movedCore k) { s with boot.spares := s.boot.spares ++ [(core / 128, k)] } := by
  unfold trySpare
  rw [free]
  rfl

theorem scopesAreReset : ClaimScopesAreReset := by
  refine ⟨fun c s runs => ⟨fun scope target is small isT serves bars held => ?_, fun device idle => ?_⟩,
    fun scope target r s u other partition' found runs runs' early => ⟨fun busy => ?_, fun quiet => ?_⟩,
    fun scope target r s small found => ?_, fun target failed r s found dark => ?_,
    fun core e s rehoming spare => ⟨?_, fun k free => ?_⟩⟩
  · obtain ⟨echo, does⟩ := exec_resetScope (c := c) (s := s)
    rw [does, ← is, resetTarget_of_lt small, ← isT]
    exact waitsLater runs (resetScope_starts (s := takeNumber c s) small serves bars held)
  · obtain ⟨echo, does⟩ := exec_resetScope (c := c) (s := s)
    rw [does, device]
    exact ⟨_, _, repliesDone runs (resetScope_device (s := takeNumber c s) idle), rfl, rfl, rfl⟩
  · rw [exec_resetSettled other partition' found runs runs' early, if_pos busy]
  · refine ⟨_, ?_, scopeHeld_leaves (s := u) (absorbed := r.absorbed)⟩
    rw [exec_resetSettled other partition' found runs runs' early, if_neg (by simp [quiet])]
  · obtain ⟨t, ends, phase, resets, eng, lines⟩ := resetRestored_leaves small found
    obtain ⟨-, -, -, back, others⟩ := scopeRestored_keeps (s := s) (scope := scope) (target := target)
    refine ⟨t, ends, fun last => phase.trans (if_pos last), fun notLast => phase.trans (if_neg notLast), fun x there => ?_,
      eng ▸ back, eng ▸ others, lines⟩
    rw [resets] at there
    rintro ⟨rfl, rfl⟩
    simp at there
  · refine ⟨_, exec_resetRestored_unpowered found dark, fun last => ?_, fun x there scope' target' => ?_, ?_, ?_⟩
    · rw [resetPhase_boot]
      exact if_pos last
    · rw [resetPhase_boot] at there
      obtain ⟨y, -, rfl⟩ := List.mem_map.mp there
      by_cases own : (y.scope = 2 && y.target = target) = true
      · rw [if_pos own]
      · rw [if_neg own] at scope' target'
        exact absurd (by simp [scope', target']) own
    · simp only [resetPhase_frame]
    · simp only [resetPhase_frame]
  · obtain ⟨eng, mem⟩ := restartPart_keeps (s := modCore core (rehomedCore e s) s) (core := core)
    have self : tget {} (restartPart core (modCore core (rehomedCore e s) s)).eng.cores core = rehomedCore e s (tget {} s.eng.cores core) := by
      rw [eng, modCore, tget_tmod_self]
    refine ⟨_, exec_rehomeComplete rehoming spare true, ?_, ?_, ?_, ?_, fun k other => ?_, mem⟩
    · exact congrArg (·.map) self
    · exact congrArg (·.physical) self
    · exact congrArg (·.flags) self
    · exact congrArg (·.rehomed) self
    · exact (congrArg (fun g => tget {} g.cores k) eng).trans (tget_tmod_ne _ _ _ _ _ other)
  · refine ⟨_, (exec_rehomeComplete rehoming spare false).trans (congrArg Host.Outcome.next (trySpare_of_free free)), rfl, ?_, ?_,
      fun j other => tget_tmod_ne _ _ _ _ _ other, rfl⟩
    · rw [modCore, tget_tmod_self]
      rfl
    · rw [modCore, tget_tmod_self]
      rfl

/-! ### Faults of a unit's logic (R489 to R493) -/

theorem detect_nextSeq {r : ErrRec} {nested q sub : Nat} : (detect r nested q sub s).2.err.nextSeq =
    tset 1 s.err.nextSeq r.domain ((tget 1 s.err.nextSeq r.domain + 1) % 2 ^ 32) := by
  have written (r' : ErrRec) (same : r'.domain = r.domain) : (errWrite r' q sub s).err.nextSeq =
      tset 1 s.err.nextSeq r.domain ((tget 1 s.err.nextSeq r.domain + 1) % 2 ^ 32) := same ▸ errWrite_nextSeq ..
  simp only [detect]
  have kept := written { r with rung := if beingHandled s r.unitKind (handledUnit r) then nested else r.rung,
                                escalated := beingHandled s r.unitKind (handledUnit r) } rfl
  generalize errWrite _ q sub s = u at kept ⊢
  split_ifs <;> exact kept

/-- The record of a strand slice's fault. -/
def sliceRecord (s : State) (st : Nat) : ErrRec :=
  { seq := 0, domain := 0, source := 2, rung := 2, tenant := strandTenant s st, unitKind := 1, unit := st }

/-- A slice's fault is detected. -/
def sliceFault (st : Nat) (s : State) : Nat × State := detect (sliceRecord s st) 3 (strandQuadrant st) (strandStack st) s

theorem exec_strandSliceFault {st : Nat} (small : st < 512) (serves : (strandOf s st).lostUnit = false) :
    exec (.strandSliceFault st) s = .next (if (sliceFault st s).1 = 3 then rung3 1 (strandStack st) (sliceFault st s).2
      else if (strandOf (sliceFault st s).2 st).power = .active then
        modStrand st (fun x => { x with power := .training }) (sliceFault st s).2
      else endHandling 1 st (sliceFault st s).2) :=
  if_neg (by simp [small, serves])

theorem logicFaultsAreHandled : ClaimLogicFaultsAreHandled := by
  refine ⟨fun st s small serves fresh active => ?_, fun k s small fresh => ?_, fun q s small fresh => ?_, fun s => ?_⟩
  · have mem : (sliceFault st s).2.mem = s.mem := by simp [sliceFault]
    have rung : (sliceFault st s).1 = 2 := detect_rung.trans (if_neg (Bool.eq_false_iff.mp fresh))
    have awake : (strandOf (sliceFault st s).2 st).power = .active := by rw [strandOf, mem]; exact active
    have handled : beingHandled (sliceFault st s).2 1 st = true :=
      beingHandled_detect (r := sliceRecord s st) fresh (Nat.succ_ne_zero _)
    have numbered : tget 1 (sliceFault st s).2.err.nextSeq 0 = (tget 1 s.err.nextSeq 0 + 1) % 2 ^ 32 := by
      rw [sliceFault, detect_nextSeq]
      exact tget_tset_self ..
    rw [exec_strandSliceFault small serves, rung, if_neg (by decide), if_pos awake]
    generalize (sliceFault st s).2 = u at mem handled numbered
    refine ⟨_, rfl, ?_, numbered, handled, congrArg (·.lines) mem⟩
    rw [strandOf_modStrand_self]
  · let r : ErrRec := { seq := 0, domain := 2, source := 2, rung := 3, tenant := engineTenant s k, unitKind := 2, unit := k }
    refine ⟨(detect r 3 (coreQuadrant k) (k / 128) s).2, ?_, by simp, by simp, beingHandled_detect (r := r) fresh (Nat.succ_ne_zero _)⟩
    show execEngineLogicFault k s = _
    unfold execEngineLogicFault
    rw [if_neg (Nat.not_le.mpr small), fresh]
    rfl
  · let r : ErrRec := { seq := 0, domain := 4, source := 1, rung := 3, shared := true, unitKind := 5, unit := q, detail0 := 0 }
    refine ⟨(detect r 3 q 0 s).2, ?_, by simp, by simp, by simp, beingHandled_detect (r := r) fresh (Nat.succ_ne_zero _)⟩
    show execSwitchLogicFault q s = _
    unfold execSwitchLogicFault quadrantFault
    rw [if_neg (Nat.not_le.mpr small), fresh]
    rfl
  · obtain ⟨fatal, alert, mem⟩ := controlLost_leaves (s := s)
    exact ⟨_, rfl, fatal, alert, mem, by simp [controlLost]⟩

end

/-- Settles O59: scopes by what holding and restoring leave, faults by the handling that `detect` begins. -/
theorem scopesAreResetAndRestored : Obligations.ScopesAreResetAndRestored := ⟨scopesAreReset, logicFaultsAreHandled⟩

end Sys2Proof.Machine

/-! PROOFS. Distribution of engine firmware (section 15): what LOAD_IMAGE of a signed image does, the frames of a load,
COMMIT_IMAGE, and what O60 comes to. -/
namespace Sys2Proof.Machine

section
variable {c : Cmd} {s s' : State} {bs : List Byte} {len lines : Nat}

/-- The operands of LOAD_IMAGE, clamped. -/
def firmwareTva (c : Cmd) : Nat := pnum c.params 0 8 % 2 ^ 57 / 128 * 128
def imageFirst (c : Cmd) : Nat := min 2047 (pnum c.params 8 2)
def imageCount (c : Cmd) : Nat := min (max 1 (pnum c.params 10 2)) (2048 - imageFirst c)

/-- The journal record that LOAD_IMAGE writes before it broadcasts (R499). -/
def broadcastRecord (c : Cmd) : JournalRec := { session := c.session, seq := c.seq, step := .broadcast, once := true }

/-- The load of a signed image whose targets take it. -/
def signedLoad (c : Cmd) (len : Nat) (bs : List Byte) (s : State) : FwLoad :=
  { length := len, digest := sm3 ((bs.take (128 + len)).drop 128), payload := linesOf ((bs.take (128 + len)).drop 128), taken := plmc s,
    cores := (loadTargets s (imageFirst c) (imageCount c)).map (fun k =>
      (k, some { missing := onesMask (len / 1024), since := plmc s })), running := true }

/-- A LOAD_IMAGE that is taken, whose lines can be read, and whose image bears the firmware key's signature. -/
structure SignedImage (c : Cmd) (s s' : State) (bs : List Byte) (len lines : Nat) : Prop where
  runs : Runs 0x106 c s
  thawed : frozen s = false
  header : firmwareLength (firmwareTva c) s = (len, lines)
  ready : (readByTva 0 lines (firmwareTva c) [] s).1 ≠ .wait
  idle : s.boot.fw.any (·.running) = false
  read : readByTva 0 lines (firmwareTva c) [] (takeNumber c s) = (.bytes bs, s')
  sound : lengthOk len = true
  signed : verifies Config.firmwareKey (sm3 (bs.take (128 + len))) (pnum bs (128 + len) 64) = true
  targets : loadTargets s' (imageFirst c) (imageCount c) ≠ []

/-- A signed image is broadcast, with its journal record written before (R469, R499). -/
theorem exec_loadImage_signed (image : SignedImage c s s' bs len lines) : ∃ echo, exec (.loadImage c) s =
      .next (clearGathered 0 (answer 0x106 c echo (.later .image) (broadcast (signedLoad c len bs s')
        { writeJournal (broadcastRecord c) s' with boot.fw := some (signedLoad c len bs s') }))) := by
  obtain ⟨runs, thawed, header, ready, idle, read, sound, signed, targets⟩ := image
  have idle' : (takeNumber c s).boot.fw.any (·.running) = false := idle
  have cores : (signedLoad c len bs s').cores ≠ [] := by simpa [signedLoad] using targets
  have starts : startLoad (imageFirst c) (imageCount c) len bs (writeJournal (broadcastRecord c) s') = (.later .image,
      broadcast (signedLoad c len bs s') { writeJournal (broadcastRecord c) s' with boot.fw := some (signedLoad c len bs s') }) :=
    (if_neg (by simp [sound, signed])).trans (if_neg cores)
  show ∃ echo, execLoadImage c s = _
  unfold execLoadImage
  dsimp only [firmwareTva] at header ready read
  dsimp only
  rw [header]
  refine ⟨_, congrArg Host.Outcome.next ((whenReadable_of_ready runs.1 thawed ready _).trans
    (congrArg (clearGathered 0) (kcpTake_of_body runs (Eq.trans ?_ starts))))⟩
  dsimp only
  rw [if_neg (Bool.eq_false_iff.mp idle'), read]
  rfl

/-- The broadcast leaves the journal. -/
theorem broadcast_journal {f : FwLoad} : (broadcast f s).kcp.journal = s.kcp.journal :=
  foldl_keeps (·.kcp.journal) (fun s i => emit (.mesh (.chunk none i)) s) (fun _ _ => rfl) _ _

/-- O60 leaves out the journal record of the broadcast step (R499): it fails where some LOAD_IMAGE finds an image that verifies
under the firmware key. -/
theorem not_firmwareIsDistributed_of_signedImage (image : SignedImage c s s' bs len lines) :
    ¬Obligations.FirmwareIsDistributed := by
  rintro ⟨⟨loads, -, -⟩, -⟩
  obtain ⟨echo, f, claimed, -⟩ := loads c s s' bs len lines image.runs image.thawed image.header image.ready image.idle image.read
    image.sound image.signed image.targets
  obtain ⟨echo', does⟩ := exec_loadImage_signed image
  rw [does] at claimed
  have journals := congrArg (fun t => t.kcp.journal) (Host.Outcome.next.inj claimed)
  simp only [clearGathered, answer, broadcast_journal, writeJournal] at journals
  simp at journals

end

/-! ### The frames of a load (R470, R471) -/

section
variable {s : State} {core : Nat} {f : FwLoad} {p : CoreLoad}

theorem partOf_eq_some_iff : partOf s core = some (f, p) ↔ s.boot.fw = some f ∧ f.running = true ∧ tget none f.cores core = some p := by
  unfold partOf
  cases s.boot.fw with
  | none => simp
  | some g =>
    cases runs : g.running <;> simp [runs]
    · rintro rfl
      simp [runs]
    · constructor
      · rintro ⟨part, rfl⟩
        exact ⟨rfl, runs, part⟩
      · rintro ⟨rfl, -, part⟩
        exact ⟨part, rfl⟩

/-- A part reads back as it was put. -/
theorem partOf_putPart {q : CoreLoad} (there : partOf s core = some (f, p)) : ∃ g, partOf (putPart core q s) core = some (g, q) := by
  obtain ⟨load, runs, -⟩ := partOf_eq_some_iff.mp there
  have put : tget none (tset none f.cores core (some q)) core = some q := tget_tset_self ..
  exact ⟨{ f with cores := tset none f.cores core (some q) },
    partOf_eq_some_iff.mpr ⟨congrArg (Option.map _) load, runs, put⟩⟩

/-- A frame for a core that still takes frames is handled. -/
theorem onPart_of_part {g : FwLoad → CoreLoad → State → State} (there : partOf s core = some (f, p)) (thawed : frozen s = false)
    (confirmed : p.confirmed = false) (excluded : p.excluded = false) : onPart core g s = g f p s := by
  simp [onPart, there, thawed, confirmed, excluded]

/-- The chunks that a round of repair sends. -/
def chunksSent (core missing n : Nat) (s : State) : State :=
  ((List.range n).filter (bit missing)).foldl (fun s i => emit (.mesh (.chunk (some core) i)) s) s

/-- The part of a core that is being repaired. -/
def repaired (p : CoreLoad) (s : State) : CoreLoad := { p with rounds := min 255 (p.rounds + 1), since := plmc s, asked := false }

theorem repairPart_eq {missing : Nat} : repairPart core missing f p s =
    putPart core (repaired p (chunksSent core missing (chunkCount f) s)) (chunksSent core missing (chunkCount f) s) := rfl

theorem chunksSent_boot {missing n : Nat} : (chunksSent core missing n s).boot = s.boot :=
  foldl_keeps (·.boot) (fun s i => emit (.mesh (.chunk (some core) i)) s) (fun _ _ => rfl) _ _

theorem mem_chunksSent {missing n i : Nat} (small : i < n) (missed : bit missing i = true) :
    Out.mesh (.chunk (some core) i) ∈ (chunksSent core missing n s).out :=
  foldl_reaches (P := fun t => Out.mesh (.chunk (some core) i) ∈ t.out) (fun _ => List.mem_cons_self ..)
    (fun _ _ _ there => List.mem_cons_of_mem _ there) (List.mem_filter.mpr ⟨List.mem_range.mpr small, missed⟩)

/-- A round of repair sends what is missing and keeps the core's bitmap. -/
theorem repairPart_repairs {missing : Nat} (there : partOf s core = some (f, p)) :
    (∀ i < chunkCount f, bit missing i = true → Out.mesh (.chunk (some core) i) ∈ (repairPart core missing f p s).out) ∧
    ∃ g q, partOf (repairPart core missing f p s) core = some (g, q) ∧ q.rounds = min 255 (p.rounds + 1) ∧ q.missing = p.missing ∧
      q.asked = false := by
  have sent : partOf (chunksSent core missing (chunkCount f) s) core = some (f, p) := by
    rw [partOf_eq_some_iff, chunksSent_boot, ← partOf_eq_some_iff]
    exact there
  obtain ⟨g, put⟩ := partOf_putPart (q := repaired p (chunksSent core missing (chunkCount f) s)) sent
  rw [repairPart_eq]
  exact ⟨fun i small missed => mem_chunksSent small missed, g, _, put, rfl, rfl, rfl⟩

/-- A core whose part still misses chunks keeps the one that comes. -/
theorem exec_imageChunkFrame_kept {c : ImgChunk} (there : partOf s c.core = some (f, p)) (thawed : frozen s = false)
    (confirmed : p.confirmed = false) (excluded : p.excluded = false) (unverified : p.verified = false)
    (sound : c.digest = sm3 c.data) (small : c.chunk < chunkCount f) (missed : p.missing.testBit c.chunk = true)
    (more : p.missing ≠ 2 ^ c.chunk) : exec (.imageChunkFrame c) s = .next (putPart c.core { p with
      staging := tset [] p.staging c.chunk c.data, missing := p.missing - 2 ^ c.chunk } s) := by
  have left : p.missing - 2 ^ c.chunk ≠ 0 := by
    have := Nat.ge_two_pow_of_testBit missed
    omega
  have missed' : bit p.missing c.chunk = true := missed
  refine congrArg Host.Outcome.next ((onPart_of_part there thawed confirmed excluded).trans
    ((if_neg (by simp [unverified, sound, small])).trans ?_))
  dsimp only
  rw [if_pos missed', if_neg left]

theorem bit_mod_two_pow {m n i : Nat} (small : i < n) (set' : m.testBit i = true) : bit (m % 2 ^ n) i = true := by
  rw [bit, Nat.testBit_mod_two_pow, set', decide_eq_true small]
  rfl

theorem bit_onesMask {n i : Nat} (small : i < n) : bit (onesMask n) i = true := by
  rw [bit, onesMask, Nat.testBit_two_pow_sub_one, decide_eq_true small]

/-- At the deadline what is not confirmed is excluded. -/
def lateExcluded (f : FwLoad) : FwLoad := { f with cores := f.cores.map (fun e =>
  (e.1, e.2.map (fun p => if p.confirmed then p else { p with excluded := true }))) }

theorem lateExcluded_ends : ∀ e ∈ partsOf (lateExcluded f), e.2.confirmed = true ∨ e.2.excluded = true := by
  intro e there
  obtain ⟨x, place, part⟩ := List.mem_filterMap.mp there
  obtain ⟨y, -, rfl⟩ := List.mem_map.mp place
  obtain ⟨q, late, rfl⟩ := Option.map_eq_some_iff.mp part
  obtain ⟨p, -, rfl⟩ := Option.map_eq_some_iff.mp late
  by_cases confirmed : p.confirmed = true
  · exact .inl (by simp [confirmed])
  · exact .inr (by simp [confirmed])

theorem exec_imageLoadDeadline (load : s.boot.fw = some f) (runs : f.running = true) (thawed : frozen s = false)
    (due : f.taken + watch ≤ plmc s) : exec .imageLoadDeadline s = .next (loadEnds (modLoad lateExcluded s)) := by
  show execImageLoadDeadline s = _
  unfold execImageLoadDeadline
  rw [load]
  exact if_neg (by simp [runs, thawed, due])

theorem loadFrames : ClaimLoadFrames := by
  refine ⟨fun core s f p there thawed confirmed excluded => ⟨?_, fun left => ?_, fun whole => ?_, fun m left => ?_, fun verified => ?_,
    fun silent due => ?_, fun asked due => ?_⟩, fun c s f p there thawed confirmed excluded unverified =>
      ⟨fun bad => ?_, fun sound small missed more => ?_⟩, fun s f load runs thawed due => ?_⟩
  · exact congrArg Host.Outcome.next (onPart_of_part there thawed confirmed excluded)
  · exact congrArg Host.Outcome.next ((onPart_of_part there thawed confirmed excluded).trans (if_neg left))
  · exact congrArg Host.Outcome.next ((onPart_of_part there thawed confirmed excluded).trans (if_pos whole))
  · obtain ⟨sent, g, q, put, rounds, missing, -⟩ := repairPart_repairs (missing := m % 2 ^ chunkCount f) there
    exact ⟨_, congrArg Host.Outcome.next ((onPart_of_part there thawed confirmed excluded).trans (if_neg left)),
      fun i small set' => sent i small (bit_mod_two_pow small set'), g, q, put, rounds, missing⟩
  · exact ⟨_, congrArg Host.Outcome.next ((onPart_of_part there thawed confirmed excluded).trans (if_pos verified)),
      partOf_putPart there⟩
  · obtain ⟨g, put⟩ := partOf_putPart (q := { p with asked := true, since := plmc s }) there
    exact ⟨_, congrArg Host.Outcome.next ((onPart_of_part there thawed confirmed excluded).trans (if_pos (by simp [silent, due]))),
      rfl, g, _, put, rfl, rfl⟩
  · obtain ⟨sent, g, q, put, -, -, quiet⟩ := repairPart_repairs (missing := onesMask (chunkCount f)) there
    exact ⟨_, congrArg Host.Outcome.next ((onPart_of_part there thawed confirmed excluded).trans
      ((if_neg (by simp [asked])).trans (if_pos (by simp [asked, due])))),
      fun i small => sent i small (bit_onesMask small), g, q, put, quiet⟩
  · exact congrArg Host.Outcome.next ((onPart_of_part there thawed confirmed excluded).trans (if_pos (by simp [bad])))
  · obtain ⟨g, put⟩ := partOf_putPart (q := { p with
      staging := tset [] p.staging c.chunk c.data, missing := p.missing - 2 ^ c.chunk }) there
    exact ⟨_, g, _, exec_imageChunkFrame_kept there thawed confirmed excluded unverified sound small missed more, put, rfl,
      tget_tset_self .., fun i other => tget_tset_ne _ _ _ _ _ other, rfl⟩
  · exact ⟨_, lateExcluded f, exec_imageLoadDeadline load runs thawed due, congrArg (Option.map lateExcluded) load,
      List.length_map .., lateExcluded_ends, rfl⟩

/-! ### COMMIT_IMAGE (R472) -/

/-- The image of a load is in service. -/
def imageCommitted (f : FwLoad) (s : State) : State :=
  { s with boot.fw := none, boot.committed := some f.payload, sec.engineDigest := f.digest }

/-- The cores that confirmed switch. -/
def coresSwitched (ks : List Nat) (a : (Nat × Nat) × State) : (Nat × Nat) × State := ks.foldl (fun a c => commitCore c a) a

theorem commitCore_keeps {a : (Nat × Nat) × State} : (commitCore core a).2.boot = a.2.boot ∧ (commitCore core a).2.sec = a.2.sec ∧
    (commitCore core a).2.mem = a.2.mem := by
  unfold commitCore
  dsimp only
  split
  · exact ⟨rfl, rfl, rfl⟩
  · exact ⟨rfl, rfl, rfl⟩
  · split <;> exact ⟨rfl, rfl, rfl⟩

/-- A core in service stays there, whichever core switches. -/
theorem commitCore_inService {a : (Nat × Nat) × State} {k : Nat} (serves : (tget {} a.2.eng.cores k).map = .inService) :
    (tget {} (commitCore core a).2.eng.cores k).map = .inService := by
  unfold commitCore
  dsimp only
  by_cases same : k = core
  · subst same
    rw [serves]
    dsimp only
    split
    · exact serves
    · simp only [modCore, tget_tmod_self]
      exact serves
  · have other (g : Core → Core) : (tget {} (modCore core g a.2).eng.cores k).map = .inService := by
      simp only [modCore]
      rw [tget_tmod_ne _ _ _ _ _ same]
      exact serves
    split
    · exact serves
    · exact other _
    · split
      · exact serves
      · exact other _

/-- A core held in boot enters service, and any other core is as it was. -/
theorem commitCore_held {a : (Nat × Nat) × State} {k : Nat} (held : (tget {} a.2.eng.cores k).map = .heldInBoot) :
    (tget {} (commitCore core a).2.eng.cores k).map = if k = core then .inService else .heldInBoot := by
  unfold commitCore
  dsimp only
  by_cases same : k = core
  · subst same
    rw [held, if_pos rfl]
    simp only [modCore, tget_tmod_self]
  · rw [if_neg same]
    have other (g : Core → Core) : (tget {} (modCore core g a.2).eng.cores k).map = .heldInBoot := by
      simp only [modCore]
      rw [tget_tmod_ne _ _ _ _ _ same]
      exact held
    split
    · exact held
    · exact other _
    · split
      · exact held
      · exact other _

theorem coresSwitched_inService {k : Nat} : ∀ {ks : List Nat} {a : (Nat × Nat) × State},
    (tget {} a.2.eng.cores k).map = .inService → (tget {} (coresSwitched ks a).2.eng.cores k).map = .inService
  | [], _, serves => serves
  | _ :: ks, _, serves => coresSwitched_inService (ks := ks) (commitCore_inService serves)

theorem coresSwitched_held {k : Nat} : ∀ {ks : List Nat} {a : (Nat × Nat) × State}, k ∈ ks →
    (tget {} a.2.eng.cores k).map = .heldInBoot → (tget {} (coresSwitched ks a).2.eng.cores k).map = .inService
  | [], _, there, _ => nomatch there
  | j :: ks, a, there, held => by
    have first := commitCore_held (core := j) held
    by_cases same : k = j
    · exact coresSwitched_inService (ks := ks) (first.trans (if_pos same))
    · exact coresSwitched_held (ks := ks) ((List.mem_cons.mp there).resolve_left same) (first.trans (if_neg same))

theorem coresSwitched_keeps : ∀ {ks : List Nat} {a : (Nat × Nat) × State}, (coresSwitched ks a).2.boot = a.2.boot ∧
    (coresSwitched ks a).2.sec = a.2.sec ∧ (coresSwitched ks a).2.mem = a.2.mem
  | [], _ => ⟨rfl, rfl, rfl⟩
  | k :: ks, a => by
    obtain ⟨boot, sec, mem⟩ := coresSwitched_keeps (ks := ks) (a := commitCore k a)
    obtain ⟨boot', sec', mem'⟩ := commitCore_keeps (core := k) (a := a)
    exact ⟨boot.trans boot', sec.trans sec', mem.trans mem'⟩

/-- The cores of a load that confirmed. -/
def confirmedCores (f : FwLoad) : List Nat := ((partsOf f).filter (fun e => e.2.confirmed)).map (·.1)

/-- COMMIT_IMAGE of a load that has ended with no core excluded. -/
theorem commitImage_of_ended (load : s.boot.fw = some f) (ended : f.running = false) (some' : ∃ e ∈ partsOf f, e.2.confirmed = true)
    (none' : ∀ e ∈ partsOf f, e.2.excluded = false) : ∃ res, commitImage s =
      (stOK, res, stageFrom 5 (settleHome (coresSwitched (confirmedCores f) ((0, 0), imageCommitted f s)).2)) := by
  have good : confirmedCores f ≠ [] := by
    obtain ⟨e, there, confirmed⟩ := some'
    exact List.ne_nil_of_mem (List.mem_map.mpr ⟨e, List.mem_filter.mpr ⟨there, confirmed⟩, rfl⟩)
  have bad : ((partsOf f).filter (fun e => e.2.excluded)).map (·.1) = [] := by
    rw [List.filter_eq_nil_iff.mpr fun e there => by simp [none' e there], List.map_nil]
  unfold commitImage
  rw [load]
  dsimp only
  have goes : (f.running || decide (confirmedCores f = [])) = false := by rw [ended, decide_eq_false good]; rfl
  rw [confirmedCores] at goes
  rw [if_neg (Bool.eq_false_iff.mp goes), bad]
  exact ⟨_, rfl⟩

theorem imagesAreCommitted (c : Cmd) (s : State) (f : FwLoad) (runs : Runs 0x107 c s) (load : s.boot.fw = some f)
    (ended : f.running = false) (some' : ∃ e ∈ partsOf f, e.2.confirmed = true) (none' : ∀ e ∈ partsOf f, e.2.excluded = false) :
    ∃ u res, RepliesWith 0x107 c stOK res (stageFrom 5 (settleHome u)) (exec (.commitImage c) s) ∧ u.boot.fw = none ∧
      u.boot.committed = some f.payload ∧ u.sec.engineDigest = f.digest ∧
      (∀ e ∈ partsOf f, e.2.confirmed = true → (tget {} s.eng.cores e.1).map = .heldInBoot →
        (tget {} u.eng.cores e.1).map = .inService) ∧ u.mem = s.mem := by
  obtain ⟨res, does⟩ := commitImage_of_ended (s := takeNumber c s) load ended some' none'
  obtain ⟨boot, sec, mem⟩ := coresSwitched_keeps (ks := confirmedCores f) (a := ((0, 0), imageCommitted f (takeNumber c s)))
  refine ⟨_, res, repliesNow runs does, ?_, ?_, ?_, fun e there confirmed held => ?_, mem⟩
  · rw [boot]
    rfl
  · rw [boot]
    rfl
  · rw [sec]
    rfl
  · exact coresSwitched_held (List.mem_map.mpr ⟨e, List.mem_filter.mpr ⟨there, confirmed⟩, rfl⟩) held

end

section
variable {c : Cmd} {s s' : State} {bs : List Byte} {len lines : Nat}

/-- What O60 comes to: every clause but that of LOAD_IMAGE holds, and that clause holds only where no LOAD_IMAGE finds an image
that verifies. Whether one does is a matter of `Config.sm2Verify`, of which no proof sees a value: were it false everywhere O60
would hold, were it true everywhere O60 would fail, so O60 has neither a proof nor a refutation. -/
theorem firmwareIsDistributed_iff : Obligations.FirmwareIsDistributed ↔
    ∀ (c : Cmd) (s s' : State) (bs : List Byte) (len lines : Nat), ¬SignedImage c s s' bs len lines := by
  refine ⟨fun holds c s s' bs len lines image => not_firmwareIsDistributed_of_signedImage image holds, fun unsigned => ⟨⟨?_, ?_, ?_⟩, ?_⟩⟩
  · exact fun c s s' bs len lines runs thawed header ready idle read sound signed targets =>
      absurd ⟨runs, thawed, header, ready, idle, read, sound, signed, targets⟩ (unsigned c s s' bs len lines)
  · exact imagesAreCommitted
  · exact fun c s runs none' => repliesNow runs (by
      unfold commitImage
      rw [show (takeNumber c s).boot.fw = none from none'])
  · exact loadFrames

end

end Sys2Proof.Machine
